-- ==== Sys2Proof/Word.lean ====
section
/-! DEFINITION. The words of the machine (R9–R11): 8, 16, 32, 64 and 256 bits, and lists of bytes. -/

namespace Sys2Proof

abbrev Byte := BitVec 8
abbrev Half := BitVec 16
abbrev Word := BitVec 32
abbrev DWord := BitVec 64
abbrev VWord := BitVec 256

/-- A sparse table: pairs of a key and a value, in the canonical form of `Sys2Proof.Machine.smWf`. -/
abbrev SMap (β : Type) := List (Nat × β)

/-- An APDU of an IEC 61850-90-5 packet as the parser reads it: APPID, the seconds and the 24-bit fraction of its
RefrTm, and the octets of its dataset (log entry 13). DESIGN CHOICE (log entry 32): an APDU is admitted as one frame with one
RefrTm and one dataset; the spec does not say how several ASDUs of one APDU are admitted. -/
structure SvApdu where
  appid : Nat
  refrTm : Option (Nat × Nat)
  data : List Byte
  deriving DecidableEq, Repr

/-- An IEC 61850-90-5 session packet: session version, signature algorithm (0 none, 1 AES-GMAC-64, 2 AES-GMAC-128,
3 HMAC), whether the payload is encrypted, and its APDUs (log entry 13). -/
structure SvPacket where
  version : Nat
  sig : Nat
  encrypted : Bool
  apdus : List SvApdu
  deriving DecidableEq, Repr

/-- The end of a block's check (R585, log entry 2): the block's page, and whether the check itself failed (Table 0.7,
cause 0xFF). -/
structure CheckEnd where
  base : Nat
  internal : Bool
  deriving DecidableEq, Repr

/-- The marks of an mPacket (R339): a continuation's fragment count, and the frame number of its SMD. -/
structure FragMarks where
  cnt : Nat
  smd : Nat
  deriving DecidableEq, Repr

/-- Where a running LOAD stands (R181, log entry 2): units of work done of a phase; phase 5 is the LOAD's end. -/
structure LoadReach where
  ph : Nat
  n : Nat
  deriving DecidableEq, Repr

/-- What a start-up ladder meets (R556, log entry 2): the supplies in mV, the REF_SEL strap, the PUF's outcome and the
bits it corrected, whether MRAM answers and a record failed its CRC, whether the core rail regulates, the PCIe link's
speed and width, the ring steps of the calibration points, whether the PLL locked, the steps' durations in 10 µs, and the last step this command completes. -/
structure StartInputs where
  vmain : Nat
  vback : Nat
  vsys : Nat
  refSel : Bool
  pufOk : Bool
  pufBits : Nat
  mramOk : Bool
  crcBad : Bool
  railOk : Bool
  speed : Nat
  width : Nat
  calPts : List (List Nat)
  refLock : Bool
  durs : List Nat
  last : Nat
  deriving DecidableEq, Repr

end Sys2Proof
end

