-- ==== Sys2Proof/Syntax.lean ====
section
/-! DEFINITION. The commands: one constructor for each row of the opcode table, with the operands the
environment supplies (log entry 2). -/

namespace Sys2Proof

/-- A command. -/
inductive Instr where
  /-- A host write to a register field that has no behaviour of its own is applied according to the field's access code (R12) -/
  | registerWrite (port a be : Nat) (v : Word)
  /-- A read of an RC field returns its value and then clears it; an event that arrives during the read counts toward the next read (R14) -/
  | rcFieldRead (port a : Nat)
  /-- A read of the low word of a multi-word value latches its high words for the reading host port (R587) -/
  | latchedLowWordRead (port a : Nat)
  /-- A high-word read returns the latched word when the port's latch holds that value; otherwise it returns the current word and counts a latch miss (R587) -/
  | highWordRead (port a : Nat)
  /-- A block's STAT_CLR command clears the block's statistics counters, their SAT flags, and its peak fields to their present values (R26) -/
  | statClr (port base : Nat)
  /-- A write of BLK_CTRL.ENABLE 1 while the block is disabled sets CHECK to RUNNING and starts the block's consistency check (R584) -/
  | blockEnable (port base : Nat)
  /-- The block's enable check ends: the block becomes enabled if the check passes, or is refused with the first failing cause, and a BLK_CTRL write held during the check is then applied (R585) -/
  | blockCheckEnd (check : CheckEnd)
  /-- A write of BLK_CTRL.ENABLE 0 disables the block at once and sets CHECK to NONE (R584) -/
  | blockDisable (port base : Nat)
  /-- At the end of each pace measurement window, PCE updates the ring paces and PCE_PACE_NOW and evaluates the VCORE controller and the pace conditions (R55) -/
  | paceWindowEnd (counts : List Nat) (tj : Nat)
  /-- A PCE_CFG write that changes WINDOW ends the window in progress without a measurement, and a change of HEADROOM takes effect at the end of the current window (R66) -/
  | pceCfgWrite (v : Word)
  /-- PCE_CAL_CTRL.START starts pace calibration, or is refused with cause 0x0304 while any exhibit is held (R75) -/
  | pceCalStart
  /-- PCE_CAL_CTRL.STOP stops a running calibration, which ends STOPPED (R24) -/
  | pceCalStop (pts : List (List Nat))
  /-- Pace calibration ends DONE, or FAILED with cause 0x02 or 0x03, and seeds the VCORE controller (R74) -/
  | pceCalEnd (pts : List (List Nat))
  /-- A port receives a frame, applies the receive tests of Table 10.2, and either drops and counts it or commits it to its ingress queue (R339) -/
  | frameReceive (p len flags kind : Nat) (marks : FragMarks) (arrival sub : Nat) (data : List Byte)
  /-- The parser takes a frame from an ingress queue, routes it, and tests a measurement frame against the admission tests of Table 3.5 in order (R111) -/
  | admission (p : Nat) (auth : Bool) (sv : Option SvPacket)
  /-- A write of ACC_CTL.ENABLE 1 stores TIME_BASE and starts the registration check (R88) -/
  | accessionEnable (n : Nat) (v : Word)
  /-- The registration check ends: the entry becomes REGISTERED, or returns to VACANT with a cause (R94) -/
  | registrationCheckEnd
  /-- A write of ACC_CTL.ENABLE 0 retires the accession (R101) -/
  | accessionRetire (n : Nat) (v : Word)
  /-- A read of ACC_ALLOC returns the lowest VACANT accession number, or VALID 0 with cause 0x1101 when none is VACANT (R103) -/
  | accAllocRead
  /-- At an exhibit time, the vault opens the exhibit if it is not yet open, or retries later for lack of resources (R131) -/
  | exhibitTimeReached (e : Nat)
  /-- At the closing time, the exhibit meets its deadline close condition, or lapses if it was never opened (R135) -/
  | closingTimeReached (e : Nat)
  /-- Once the close condition holds and the drain has ended, the vault makes the close update, hands the bank to the verdict unit and raises the held jobs (R137) -/
  | closeEvent (e : Nat)
  /-- At the seal time, the exhibit meets its seal condition (R146) -/
  | sealTimeReached (e : Nat)
  /-- Once every job raised for the exhibit has retired after its seal condition, the vault seals the exhibit and raises any exhibit-sealed job (R148) -/
  | sealEvent (e : Nat)
  /-- Once its outflow is complete, a SEALED exhibit is released and its record and pages are returned (R149) -/
  | exhibitRelease (e : Nat)
  /-- VLT_FORCE_CMD action 1 force-closes the exhibit at the index, or records 0x0B01 or 0x0B02 (R135) -/
  | forceClose
  /-- VLT_FORCE_CMD action 2 gives the exhibit a host seal condition, or records 0x0B01 or 0x0B03 (R147) -/
  | forceSeal
  /-- A write of VLT_VIEW_INDEX_HI binds the view to the index, or sets NOT_HELD with cause 0x0B06 (R151) -/
  | viewBind (v : Nat) (w : Word)
  /-- A read at view offset 0x0000 latches the whole exhibit header for the reading port (R153) -/
  | viewHeaderLatch (port v : Nat)
  /-- A write to the vault read window is dropped with cause 0x0B05 (R154) -/
  | vaultWindowWrite (off : Nat) (v : Word)
  /-- PLN_LOAD.START starts loading an image into a slot, or is refused at the start tests (R181) -/
  | plnLoad (v : Word)
  /-- PLN_LOAD.STOP stops the running plan operation, which ends STOPPED (R24) -/
  | plnStop (n : Nat)
  /-- A LOAD ends DONE with the slot LOADED, or FAILED with the slot EMPTY (R188) -/
  | plnLoadEnd (data : List Byte) (err : Bool) (reach : LoadReach)
  /-- A PLN_DATA write supplies the next image word of a SOURCE 3 load, or is dropped with cause 0x0A29 (R187) -/
  | plnDataWrite (v : Word)
  /-- A SWAP command is refused or accepted within 2 µs, and on acceptance the slot becomes LIVE (R189) -/
  | plnSwap (v : Word)
  /-- The SWAP ends DONE once the last template has been processed (R194) -/
  | plnSwapEnd
  /-- WITHDRAW makes the LIVE slot RETIRING with its end index (R195) -/
  | withdraw
  /-- DISCARD returns a LOADED slot to EMPTY (R195) -/
  | discard (slot : Nat)
  /-- COMMIT starts copying a slot's image into the MRAM area that is not selected (R196) -/
  | plnCommit (v : Word)
  /-- The commit takes effect when the CRC word of the new select record lands (R197) -/
  | plnCommitEnd (ok : Bool) (n : Nat)
  /-- Integer add (R208) -/
  | add (d fe : Nat)
  /-- Integer subtract (R208) -/
  | sub (d fe : Nat)
  /-- Bitwise AND (R208) -/
  | and (d fe : Nat)
  /-- Bitwise OR (R208) -/
  | or (d fe : Nat)
  /-- Bitwise XOR (R208) -/
  | xor (d fe : Nat)
  /-- RA AND NOT RB (R208) -/
  | andn (d fe : Nat)
  /-- Shift left (R208) -/
  | shl (d fe : Nat)
  /-- Logical shift right (R208) -/
  | shr (d fe : Nat)
  /-- Arithmetic shift right (R208) -/
  | sar (d fe : Nat)
  /-- Low 64 bits of the product (R208) -/
  | mul (d fe : Nat)
  /-- High 64 bits of the signed product (R208) -/
  | mulh (d fe : Nat)
  /-- High 64 bits of the unsigned product (R208) -/
  | mulhu (d fe : Nat)
  /-- Signed division, truncated (R208) -/
  | div (d fe : Nat)
  /-- Unsigned division (R208) -/
  | divu (d fe : Nat)
  /-- Signed remainder (R208) -/
  | rem (d fe : Nat)
  /-- Unsigned remainder (R208) -/
  | remu (d fe : Nat)
  /-- Signed minimum (R208) -/
  | min (d fe : Nat)
  /-- Signed maximum (R208) -/
  | max (d fe : Nat)
  /-- Unsigned minimum (R208) -/
  | minu (d fe : Nat)
  /-- Unsigned maximum (R208) -/
  | maxu (d fe : Nat)
  /-- Count leading zeros (R208) -/
  | clz (d fe : Nat)
  /-- Count trailing zeros (R208) -/
  | ctz (d fe : Nat)
  /-- Count set bits (R208) -/
  | popc (d fe : Nat)
  /-- Sign-extend the low 32 bits (R208) -/
  | sext32 (d fe : Nat)
  /-- Zero-extend the low 32 bits (R208) -/
  | zext32 (d fe : Nat)
  /-- Set a predicate on integer equality (R208) -/
  | eq (d fe : Nat)
  /-- Set a predicate on integer inequality (R208) -/
  | ne (d fe : Nat)
  /-- Set a predicate on signed less-than (R208) -/
  | lt (d fe : Nat)
  /-- Set a predicate on signed greater-or-equal (R208) -/
  | ge (d fe : Nat)
  /-- Set a predicate on unsigned less-than (R208) -/
  | ltu (d fe : Nat)
  /-- Set a predicate on unsigned greater-or-equal (R208) -/
  | geu (d fe : Nat)
  /-- Set a predicate on float equality, .S or .D (R211) -/
  | feq (d fe : Nat)
  /-- Set a predicate on float less-than, .S or .D (R211) -/
  | flt (d fe : Nat)
  /-- Set a predicate on float less-or-equal, .S or .D (R211) -/
  | fle (d fe : Nat)
  /-- Set a predicate when either float operand is NaN, .S or .D (R211) -/
  | fun (d fe : Nat)
  /-- Predicate AND (R202) -/
  | pand (d fe : Nat)
  /-- Predicate OR (R202) -/
  | por (d fe : Nat)
  /-- Predicate XOR (R202) -/
  | pxor (d fe : Nat)
  /-- Predicate AND NOT (R202) -/
  | pandn (d fe : Nat)
  /-- Predicate NOT (R202) -/
  | pnot (d fe : Nat)
  /-- Copy a predicate to a general register (R202) -/
  | pget (d fe : Nat)
  /-- Set a predicate from a general register being nonzero (R202) -/
  | pset (d fe : Nat)
  /-- Select RA or RB by a predicate (R202) -/
  | sel (d fe : Nat)
  /-- Float add (R211) -/
  | fadd (d fe : Nat)
  /-- Float subtract (R211) -/
  | fsub (d fe : Nat)
  /-- Float multiply (R211) -/
  | fmul (d fe : Nat)
  /-- Float divide (R211) -/
  | fdiv (d fe : Nat)
  /-- Float square root (R211) -/
  | fsqrt (d fe : Nat)
  /-- Float minimum (R212) -/
  | fmin (d fe : Nat)
  /-- Float maximum (R212) -/
  | fmax (d fe : Nat)
  /-- Fused float multiply-add, rounded once (R212) -/
  | fmac (d fe : Nat)
  /-- Clear the sign bit (R211) -/
  | fabs (d fe : Nat)
  /-- Invert the sign bit (R211) -/
  | fneg (d fe : Nat)
  /-- Convert float32 to float64 (R211) -/
  | fcvtDS (d fe : Nat)
  /-- Convert float64 to float32 (R211) -/
  | fcvtSD (d fe : Nat)
  /-- Convert int64 to float32 (R211) -/
  | fcvtSL (d fe : Nat)
  /-- Convert int64 to float64 (R211) -/
  | fcvtDL (d fe : Nat)
  /-- Convert float32 to int64 with saturation (R212) -/
  | fcvtLS (d fe : Nat)
  /-- Convert float64 to int64 with saturation (R212) -/
  | fcvtLD (d fe : Nat)
  /-- Add a sign-extended immediate (R207) -/
  | addi (d fe : Nat)
  /-- AND with a zero-extended immediate (R207) -/
  | andi (d fe : Nat)
  /-- OR with a zero-extended immediate (R207) -/
  | ori (d fe : Nat)
  /-- XOR with a zero-extended immediate (R207) -/
  | xori (d fe : Nat)
  /-- Shift left by an immediate (R207) -/
  | shli (d fe : Nat)
  /-- Logical shift right by an immediate (R207) -/
  | shri (d fe : Nat)
  /-- Arithmetic shift right by an immediate (R207) -/
  | sari (d fe : Nat)
  /-- Load a sign-extended immediate (R207) -/
  | movi (d fe : Nat)
  /-- Insert a 16-bit immediate into field k, keeping the other bits (R207) -/
  | movk (d fe : Nat)
  /-- Set a predicate on equality with an immediate, or on inequality with N (R207) -/
  | cmpiEq (d fe : Nat)
  /-- Set a predicate on signed less-than an immediate, or on greater-or-equal with N (R207) -/
  | cmpiLt (d fe : Nat)
  /-- Set a predicate on unsigned less-than an immediate, or on greater-or-equal with N (R207) -/
  | cmpiLtu (d fe : Nat)
  /-- Branch on a predicate (R209) -/
  | brp (d fe : Nat)
  /-- Jump and link (R209) -/
  | jal (d fe : Nat)
  /-- Jump to a register plus an offset (R209) -/
  | jr (d fe : Nat)
  /-- Load one byte, zero-extended (R210) -/
  | ldb (d fe me : Nat)
  /-- Load two bytes, zero-extended (R210) -/
  | ldh (d fe me : Nat)
  /-- Load four bytes, zero-extended (R210) -/
  | ldw (d fe me : Nat)
  /-- Load eight bytes (R210) -/
  | ldd (d fe me : Nat)
  /-- Load one byte, sign-extended (R210) -/
  | ldbs (d fe me : Nat)
  /-- Load two bytes, sign-extended (R210) -/
  | ldhs (d fe me : Nat)
  /-- Load four bytes, sign-extended (R210) -/
  | ldws (d fe me : Nat)
  /-- Store one byte (R210) -/
  | stb (d fe : Nat)
  /-- Store two bytes (R210) -/
  | sth (d fe : Nat)
  /-- Store four bytes (R210) -/
  | stw (d fe : Nat)
  /-- Store eight bytes (R210) -/
  | std (d fe : Nat)
  /-- Load 32 bytes of local memory into a vector register (R210) -/
  | vldl (d fe me : Nat)
  /-- Store a vector register to 32 bytes of local memory (R210) -/
  | vstl (d fe : Nat)
  /-- Vector float add, lane by lane (R213) -/
  | vadd (d fe : Nat)
  /-- Vector float subtract, lane by lane (R213) -/
  | vsub (d fe : Nat)
  /-- Vector float multiply, lane by lane (R213) -/
  | vmul (d fe : Nat)
  /-- Vector multiply-accumulate, rounded once per lane (R213) -/
  | vmac (d fe : Nat)
  /-- Vector float minimum, lane by lane (R213) -/
  | vmin (d fe : Nat)
  /-- Vector float maximum, lane by lane (R213) -/
  | vmax (d fe : Nat)
  /-- Sum the eight lanes into a general register (R213) -/
  | vsum (d fe : Nat)
  /-- Broadcast a float32 to every lane (R213) -/
  | vbcast (d fe : Nat)
  /-- Extract one lane into a general register (R213) -/
  | vext (d fe : Nat)
  /-- Insert a general register into one lane (R213) -/
  | vins (d fe : Nat)
  /-- Zero a vector register (R213) -/
  | vzero (d fe : Nat)
  /-- Copy a vector register (R213) -/
  | vmov (d fe : Nat)
  /-- Multiply every lane by a scalar (R213) -/
  | vscale (d fe : Nat)
  /-- Complex add, lane by lane (R214) -/
  | cadd (d fe : Nat)
  /-- Complex subtract, lane by lane (R214) -/
  | csub (d fe : Nat)
  /-- Complex multiply, lane by lane (R214) -/
  | cmul (d fe : Nat)
  /-- Multiply by the complex conjugate, lane by lane (R214) -/
  | cmulj (d fe : Nat)
  /-- Complex multiply-accumulate, lane by lane (R214) -/
  | cmac (d fe : Nat)
  /-- Complex conjugate, lane by lane (R211) -/
  | cconj (d fe : Nat)
  /-- Complex magnitude, correctly rounded (R215) -/
  | cabs (d fe : Nat)
  /-- Complex argument, correctly rounded (R215) -/
  | carg (d fe : Nat)
  /-- Rotate each complex lane by an angle (R214) -/
  | crot (d fe : Nat)
  /-- Sum the complex lanes into lane 0 (R213) -/
  | csum (d fe : Nat)
  /-- Gather 8 bytes of a vault slot into a general register, setting p7 (R216) -/
  | vldd (d fe : Nat)
  /-- Gather 32 bytes of a vault slot into a vector register, setting p7 (R216) -/
  | vldv (d fe : Nat)
  /-- Read 4 bytes of a plan table element (R220) -/
  | tblw (d fe : Nat)
  /-- Read 8 bytes of a plan table element (R220) -/
  | tbld (d fe : Nat)
  /-- Read 32 bytes of a plan table element into a vector register (R220) -/
  | tblv (d fe : Nat)
  /-- Post an integer ADD, MAX, MIN or OR contribution to a ledger cell (R221) -/
  | lga (d fe : Nat)
  /-- Post a scaled float64 contribution to a ledger cell (R221) -/
  | lgaf (d fe : Nat)
  /-- Post a scaled float32 contribution to a ledger cell (R221) -/
  | lgas (d fe : Nat)
  /-- Set the tour source of an alarm line, or count an ignored RAISE from a revision job (R224) -/
  | raise (d fe : Nat)
  /-- No operation (R206) -/
  | nop (d fe : Nat)
  /-- Fence, then switch to the job in the other local slot if it has equal or higher priority (R232) -/
  | yield (d fe : Nat)
  /-- Fence, then retire the job with status DONE (R228) -/
  | done (d fe : Nat)
  /-- Wait until every LGA and RAISE the job has issued is complete (R231) -/
  | fence (d fe : Nat)
  /-- Fence, then retire the job with FAULT 0x120A and a user code (R236) -/
  | abort (d fe : Nat)
  /-- Read a system value chosen by a selector into a general register (R203) -/
  | rdsys (d fe : Nat)
  /-- An instruction word with an undefined encoding faults with 0x1201 (R206) -/
  | illegalInstruction (d fe : Nat)
  /-- A host read of DOC_DRAM_DATA_LO reads a 64-bit DRAM word and advances ADDR (R239) -/
  | dramWindowRead (port d me : Nat)
  /-- A host write of DOC_DRAM_DATA_LO writes a 64-bit DRAM word, or is refused while the owning plan slot is not EMPTY (R239) -/
  | dramWindowWrite (d : Nat) (v : Word)
  /-- A read of DOC_IRAM_DATA returns an instruction word and advances the address by 4 (R239) -/
  | iramWindowRead (d me : Nat)
  /-- A free local slot takes the oldest eligible job of the highest level that its docent may run (R247) -/
  | jobPlace
  /-- A landing held for lack of room at its level commits once room is freed (R257) -/
  | heldLandingCommit (l : Nat)
  /-- A close or seal job waiting in the event FIFO enters its level once room is freed (R256) -/
  | eventFifoRaise (l : Nat)
  /-- A timer of the LIVE plan fires at its instant and raises a kind-3 job (R259) -/
  | timerFire (t : Nat)
  /-- A pending timer firing enters its level once room is freed (R260) -/
  | timerPendingRaise (l : Nat)
  /-- A held Hiash message job enters its level once room is freed (R257) -/
  | heldHiashJobRaise (l : Nat)
  /-- A DSP_DOORBELL write with RING 1 raises a kind-4 job, or is refused with a cause (R262) -/
  | doorbell (port tour : Nat)
  /-- The verdict unit finishes evaluating the verdict lines, composes the alarm lines and drives the pins (R279) -/
  | reductionEnd (ns steps : Nat)
  /-- The keep set is copied into the revision store, and the bank moves to CLEARING (R295) -/
  | keepSetCopied (b : Nat)
  /-- A bank holds its initial values again and returns to FREE (R268) -/
  | bankCleared (b : Nat)
  /-- The pulse of a PULSE-mode pin ends after PULSE_US (R283) -/
  | pinPulseEnd (p : Nat)
  /-- A VRD_PIN_CLEAR write clears pin latches (R284) -/
  | pinClear (v : Word)
  /-- A VRD_PIN_FORCE write forces pins and writes record 0x0842 for each FORCE_EN bit set (R286) -/
  | pinForce (v : Word)
  /-- A GOOSE or R-GOOSE template is resent on its retransmission or heartbeat schedule (R289) -/
  | gooseRetransmit (t : Nat)
  /-- A received URGENT ALARM message is tested, delivered to host and job, and relayed (R307) -/
  | urgentAlarmReceived (p : Nat) (auth : Bool)
  /-- A received URGENT TRIGGER message raises capture source 6 and goes to host and job (R478) -/
  | urgentTriggerReceived (p : Nat) (auth : Bool)
  /-- A received ABSENCE digest creates or updates an absence entry, or goes to the overflow entry (R325) -/
  | absenceDigestReceived (p : Nat) (auth : Bool)
  /-- A child's EXHIBIT CLOSE message is admitted as a frame of the child's accession (R317) -/
  | exhibitCloseReceived (p : Nat) (auth : Bool)
  /-- A received EXHIBIT SEALED message goes to host and job (R307) -/
  | exhibitSealedReceived (p : Nat) (auth : Bool)
  /-- A child's ADDENDUM lands if the child's slot is absent, and otherwise goes to host and job (R320) -/
  | addendumReceived (p : Nat) (auth : Bool)
  /-- A received ARCHIVE message is handled as the archive chapter states (R307) -/
  | archiveMessageReceived (p : Nat) (auth : Bool)
  /-- A received HELLO is recorded and checked for a duplicate ID (R332) -/
  | helloReceived (p : Nat) (auth : Bool)
  /-- A device named as the silenced UID in a DUP_NOTICE goes silent (R333) -/
  | dupNoticeReceived (p : Nat) (auth : Bool)
  /-- A CONTROL message of subtype 2–255 goes to host and job (R308) -/
  | controlMessageReceived (p : Nat) (auth : Bool)
  /-- A CONTROL HELLO is sent every HSH_HELLO ms (R330) -/
  | helloSend
  /-- An absence entry is freed after HSH_ABS_WINDOW with no report (R326) -/
  | absenceEntryFree (n : Nat)
  /-- At the end of each overflow window, a KIND 2 digest is forwarded or the episode ends (R327) -/
  | absenceOverflowWindow
  /-- An addendum relay table entry is freed after HSH_ABS_WINDOW since its last relay (R321) -/
  | relayEntryFree
  /-- HSH_ABS_CLEAR frees every absence entry and ends any overflow episode (R325) -/
  | absenceClear
  /-- A port's transmitter takes the next packet of a class and sends it, preempting or resuming fragments (R370) -/
  | frameTransmit (p cls : Nat) (start : Bool) (at8 : Nat)
  /-- HOLD ends at the first moment after C + 1.3 µs at which the express queue is empty (R346) -/
  | holdEnd (p : Nat)
  /-- A verify mPacket is sent every VERIFY_MS, and verification fails after three unanswered (R342) -/
  | verifyMpacketTimer (p : Nat)
  /-- A respond mPacket moves preemption to ACTIVE (R342) -/
  | respondMpacketReceived (p : Nat)
  /-- A received PAUSE frame holds both classes for its quanta (R347) -/
  | pauseReceived (p quanta : Nat)
  /-- A received PFC frame holds the class of the paused priority (R348) -/
  | pfcReceived (p mask : Nat) (quanta : List Nat)
  /-- A received pause ends when its quanta expire (R347) -/
  | pauseExpire (p : Nat)
  /-- A pause in force is renewed every PAUSE_QUANTA ÷ 2 quanta (R349) -/
  | pauseRenew (p : Nat)
  /-- A collision on a T1S port causes a backoff, or drops the frame (R355) -/
  | t1sCollision (p cls : Nat) (late : Bool)
  /-- A received or sent beacon makes PLCA active (R357) -/
  | plcaBeacon (p : Nat)
  /-- PLCA becomes inactive after no beacon for 4 × NODE_COUNT × TO_TIMER bit times (R357) -/
  | plcaInactive (p : Nat)
  /-- A link loss cuts off transmission, discards queued frames and is counted and logged (R626) -/
  | linkDown (p : Nat)
  /-- A link up sets LINK_UP and writes record 0x0F41 (R626) -/
  | linkUp (p : Nat)
  /-- A PUSH_START write reserves cells and opens a host push, or abandons a pending push with length 0 (R376) -/
  | pushStart (port q len : Nat)
  /-- A PENDING host push becomes OPEN once its cells are reserved (R376) -/
  | pushReserved (port q : Nat)
  /-- A DATA write fills the next 4 bytes of an open push (R376) -/
  | pushDataWrite (port q : Nat) (v : Word)
  /-- A PUSH_END write commits the push (R376) -/
  | pushEnd (port q : Nat)
  /-- A read of POP_LO releases the last popped packet and takes the head packet of the queue (R374) -/
  | pop (port q : Nat)
  /-- A waiting PCIe pop returns a newly committed packet, or not-valid at its timeout (R375) -/
  | popWaitEnd
  /-- A DATA read returns the next 4 bytes of the popped packet (R374) -/
  | popDataRead (port q : Nat)
  /-- A write to DONE releases the popped packet (R374) -/
  | queueDone (port q : Nat)
  /-- Setting QCFG.ENABLE of a host queue runs its check (R366) -/
  | queueEnable (v : Word)
  /-- Clearing QCFG.ENABLE ends open pushes and releases every packet of the queue (R367) -/
  | queueDisable (v : Word)
  /-- A device producer waiting at a full queue takes its cells and commits (R368) -/
  | producerWaitCommit
  /-- A RATE commit changes the domain's rate while keeping its time continuous (R388) -/
  | domainRate (port d : Nat) (v : Word)
  /-- A STEP commit sets a domain's offset at once, slews it, or is refused (R389) -/
  | domainStep (port d : Nat) (v : Word)
  /-- An ERR commit updates the error estimate as a lock update (R388) -/
  | domainErr (port d : Nat) (v : Word)
  /-- REACQUIRE clears SOURCE_JUMP and restarts acquisition (R392) -/
  | domainReacquire (port d : Nat) (v : Word)
  /-- A SOURCE 0 domain with no lock commit within UPDATE_TIMEOUT enters HOLDOVER (R387) -/
  | domainUpdateTimeout (d : Nat)
  /-- A domain whose error estimate exceeds HOLD_LIMIT becomes LOST (R387) -/
  | domainLost (d : Nat)
  /-- A PPS_IN edge is captured and drives the SOURCE 1 loop for a usable second (R404) -/
  | ppsInEdge (rising : Bool) (sub : Nat)
  /-- An IRIG-B frame is decoded and judged usable or not (R391) -/
  | irigFrame (marker sub time control binary : Nat)
  /-- A SOURCE 1 domain with no usable second for 3 s enters HOLDOVER (R387) -/
  | ppsSourceTimeout (d : Nat)
  /-- 1.5 s without a PPS_IN edge is counted and logged (R404) -/
  | ppsMissing
  /-- A SELECT command changes the selected domain at once or with a slew, or is refused (R396) -/
  | select (v : Word)
  /-- After one second of slew, the selected time equals the new domain and SLEW_DONE is set (R397) -/
  | slewEnd
  /-- Once a second, AUTO_SWITCH retries its SELECT (R399) -/
  | autoSwitchRetry
  /-- Once a second, the two domains are compared and TIME_SPLIT is updated (R398) -/
  | domainCompare
  /-- REFCLK absent for more than 10 µs clears REF_LOCK (R383) -/
  | refclkLost
  /-- The PLL locks to REFCLK and sets REF_LOCK (R383) -/
  | refclkLock
  /-- A write to a leap entry's OFF word appends, removes or refuses the entry (R401) -/
  | leapEntryWrite (k : Nat) (v : Word)
  /-- PPS_OUT asserts at each whole second of the selected time plus the offset (R403) -/
  | ppsOutEdge
  /-- PPS_OUT deasserts after OUT_WIDTH (R403) -/
  | ppsOutEnd
  /-- A read of TXTS_W0 takes the oldest transmit timestamp entry (R406) -/
  | txtsPop (port p : Nat)
  /-- A read of OFFSET_S_LO latches the domain's whole value set for the reading port (R385) -/
  | domainSetLatch (port d : Nat)
  /-- A channel emits a stamped output sample at its sample boundary, applying staged commits, swaps and fades (R409) -/
  | channelOutputSample (c : Nat) (x : Int) (ovr : Bool) (sub : Nat)
  /-- An AFE_COMMIT write schedules the staged values of the masked channels (R410) -/
  | afeCommit (v : Word)
  /-- A FLT_SWAP write starts, queues or refuses bank swaps for the masked channels (R415) -/
  | fltSwap (port : Nat) (v : Word)
  /-- A FLT_COEF write stores a coefficient, or is refused for a locked bank (R416) -/
  | coefficientWrite (c b t : Nat) (v : Word)
  /-- AFE_OW_CTRL.START starts the open-wire test (R419) -/
  | openWireStart (v : Word)
  /-- AFE_OW_CTRL.STOP stops the open-wire test (R24) -/
  | openWireStop
  /-- The test of one channel ends and its verdict is set; the operation ends after the last channel (R420) -/
  | openWireChannelEnd (fund : Bool)
  /-- AFE_CAL_CTRL.START starts a ZERO or FULL calibration (R422) -/
  | afeCalStart (v : Word)
  /-- AFE_CAL_CTRL.STOP stops the calibration (R24) -/
  | afeCalStop
  /-- Calibration ends DONE or FAILED, and applies its results if APPLY is 1 (R425) -/
  | afeCalEnd
  /-- AFE_CAL_SAVE writes the calibration record to MRAM (R427) -/
  | afeCalSave
  /-- An L_CFG write sets the ACC_FMT of the local accession, or is refused (R428) -/
  | lCfgWrite (m : Nat) (v : Word)
  /-- The local PMU completes an estimate for a reporting instant and lands it as a frame of L0–L3 (R431) -/
  | localEstimate (m e : Nat) (phasors : List (Nat × Nat)) (freq : Nat) (refLow : Bool)
  /-- Every 250 µs, the energy engine forms P, Q and S and feeds totals, accumulators and pulses (R437) -/
  | powerStep (endAt : Nat) (q : List Int)
  /-- A pulse ends after WIDTH (R458) -/
  | pulseEnd (n : Nat)
  /-- Setting PULSE_CFG.EN enables the pulse output, or is refused (R459) -/
  | pulseEnable (n : Nat) (v : Word)
  /-- Clearing PULSE_CFG.EN drops the backlog and keeps the fraction (R459) -/
  | pulseDisable (n : Nat) (v : Word)
  /-- Once a second, the energy record is snapshotted and written to MRAM (R444) -/
  | energyCommit
  /-- The energy commit completes, or its readback fails (R447) -/
  | energyCommitEnd (ok : Bool)
  /-- No zero crossing for ZC_TIMEOUT sets ZC_LOST (R456) -/
  | zcLost (c : Nat)
  /-- A read of INT_VAL latches INT_AUX and NRG_INT_SEQ (R454) -/
  | intValRead (port e k : Nat)
  /-- Every 250 µs, the ROC trigger and the masks are evaluated (R467) -/
  | rocEvaluation (t : Nat)
  /-- An asserting TRG edge is captured and raises source BUS (R477) -/
  | triggerBusEdge (n sub : Nat) (rising : Bool)
  /-- A trigger asserts TRG lines at its planned edge (R477) -/
  | busDrive
  /-- The TRG assertion ends after BUS_PULSE (R477) -/
  | busPulseEnd (n : Nat)
  /-- CAP_CTRL.FORCE raises a host trigger (R467) -/
  | capForce
  /-- CAP_CTRL.REARM returns the engine to ARMED (R466) -/
  | capRearm
  /-- CAP_CTRL.RELEASE releases a record held in the capture SRAM (R474) -/
  | capRelease
  /-- A capture record ends at its end instant (R469) -/
  | recordEnd
  /-- A record exists once its header CRC word lands, and the anchor is written (R475) -/
  | recordStored
  /-- A read of CAP_RD_DATA returns a word and advances the address (R474) -/
  | capRdDataRead
  /-- The archive stream serialises a sealed exhibit and starts compressing it (R481) -/
  | archiveBlockStart
  /-- An archive block is committed once its header CRC word lands (R485) -/
  | archiveBlockCommit (pay : List Byte)
  /-- A host job with OP COMPRESS starts (R488) -/
  | arcCompress (port : Nat)
  /-- A host job with OP DECOMPRESS starts (R496) -/
  | arcDecompress (port : Nat)
  /-- A host job with OP SAVE copies a state slot out (R489) -/
  | arcSave (port : Nat)
  /-- A host job with OP RESTORE copies an image into a state slot (R489) -/
  | arcRestore (port : Nat)
  /-- ARC_JOB_CTRL.STOP stops the host job (R24) -/
  | arcJobStop
  /-- A host job ends DONE with its outcome, or FAILED (R492) -/
  | arcJobEnd (src : List Byte) (emit : List Bool) (busErr : Bool)
  /-- A SUBMIT of a WORKING_KEY message is tested and its commit begins (R506) -/
  | keyWorkingKey (port : Nat)
  /-- A SUBMIT of an ERASE message is tested and committed (R506) -/
  | keyErase (port : Nat)
  /-- A SUBMIT of a TAKE message is tested and committed (R502) -/
  | keyTake (port : Nat)
  /-- A SUBMIT of a RETURN message is tested and committed (R502) -/
  | keyReturn (port : Nat)
  /-- A SUBMIT of a VOID message is tested and committed (R503) -/
  | keyVoid (port : Nat)
  /-- A SUBMIT of a LOG_CLEAR message is tested and committed with a pending floor (R569) -/
  | keyLogClear (port : Nat)
  /-- KEY_CMD.ENROLL enrolls a BLANK part from SPI (R504) -/
  | keyEnroll (port : Nat)
  /-- KEY_CMD.STOP stops an update in phase 1 or 2 (R510) -/
  | keyStop (phase : Nat)
  /-- The key update takes effect when its select word lands (R507) -/
  | keyCommitEnd (ok : Bool)
  /-- A standby accepts TWIN_TAKE held high for 10 µs and starts the takeover (R526) -/
  | twinTake (level : Bool)
  /-- Once the deferred buffer is empty, the device admits its own ingress and becomes ACTIVE (R528) -/
  | takeoverGapEnd
  /-- TWIN_HB toggles every HB_PERIOD while the device is fit (R518) -/
  | twinHbToggle
  /-- The standby applies a replayed landing (R521) -/
  | twinLand (p : Nat) (auth : Bool)
  /-- The standby applies a replayed open, close or seal condition (R521) -/
  | twinMark (p : Nat) (auth : Bool)
  /-- The standby applies a replayed job of kinds 3–5 (R521) -/
  | twinJob (p : Nat) (auth : Bool)
  /-- The standby applies a replayed accession, pin-clear or swap control (R521) -/
  | twinCtrl (p : Nat) (auth : Bool)
  /-- The partner's digest is stored and compared (R525) -/
  | twinDigest (p : Nat) (auth : Bool)
  /-- An ACTIVE device that receives TAKEN enters ISOLATED (R530) -/
  | twinTaken (p : Nat) (auth : Bool)
  /-- A TWIN HELLO exchange establishes the synchronisation of the pair (R522) -/
  | twinHello (p : Nat) (auth : Bool)
  /-- A deferred frame is discarded after REPLAY_WINDOW in STANDBY (R523) -/
  | deferredExpire
  /-- TWN_CTRL.DEMOTE makes an ACTIVE device ISOLATED (R530) -/
  | demote
  /-- VMAIN falling below V_WARN + 0.4 V switches VSYS to VBACK (R532) -/
  | vmainLoss (vmain vback vsys : Nat)
  /-- After RETURN_MS of good VMAIN, VSYS returns to VMAIN (R534) -/
  | vmainReturn (vmain vback vsys : Nat)
  /-- The power warning asserts and starts a brace (R537) -/
  | powerWarning (vmain vback vsys phase : Nat)
  /-- The brace completes and record 0x0243 is written (R537) -/
  | braceEnd (ok : Bool)
  /-- The power warning deasserts, ending a dip (R536) -/
  | warningEnd (vmain vback vsys low : Nat)
  /-- The dip record is written 100 ms after the last dip it covers (R538) -/
  | dipRecordWrite
  /-- VSYS falling below 8.4 V resets the device (R539) -/
  | brownOut (vmain vback vsys : Nat)
  /-- Tj reaching 125 °C resets the device (R539) -/
  | thermalReset (tj : Nat)
  /-- PWR_CTRL.SOFT_RESET resets the device (R539) -/
  | softReset
  /-- The keeper regulator exceeding 150 mA in KEEP resets the device (R549) -/
  | keepOvercurrent
  /-- RESET_N low resets the device at once (R616) -/
  | resetN
  /-- After a reset, once VSYS is good, the device runs the start-up ladder (R556) -/
  | startUpLadder (ins : StartInputs)
  /-- When the core becomes idle, the power controller applies the next-event rule (R541) -/
  | idleEvaluation
  /-- PWR_REQ 1 requests NAP (R553) -/
  | napRequest (port : Nat)
  /-- PWR_REQ 2 requests KEEP, or is refused (R553) -/
  | keepRequest (port : Nat)
  /-- PWR_REQ 3 wakes the device (R553) -/
  | wakeRequest (port : Nat)
  /-- A wake event in NAP or KEEP starts the wake (R552) -/
  | wakeEvent (kind p : Nat)
  /-- The controller starts a wake so that RUN is reached 2 µs before a registered deadline (R542) -/
  | deadlineWake
  /-- A power-state transition completes, and the pending request is evaluated (R552) -/
  | powerTransitionEnd (pufOk : Bool) (bits speed width : Nat)
  /-- A PWR_GATE write powers a disabled block down or up (R554) -/
  | blockGate (v : Word)
  /-- An access to a gated block returns 0xFFFF_FFFF or is dropped, and is recorded in HST_OFFLINE (R555) -/
  | offlineAccess (port a : Nat) (isWrite : Bool)
  /-- PWR_BOOTREC_CTRL.START writes a boot record (R557) -/
  | bootrecStart
  /-- PWR_BOOTREC_CTRL.ERASE invalidates both boot record slots (R557) -/
  | bootrecErase
  /-- The boot record write takes effect when its CRC lands, or fails (R557) -/
  | bootrecEnd (data : List Byte) (err ok : Bool)
  /-- LOG writes the record at the head of its FIFO to MRAM, or folds it into the newest record (R562) -/
  | logRecordWrite
  /-- A read of LOG_WINDOW word 0 latches the record at the cursor, with its status (R567) -/
  | logWindowLatch (port : Nat)
  /-- A read of word 15 after a VALID status increments the cursor (R567) -/
  | logAutoAdvance (port : Nat)
  /-- Once a second, the lifetime store is committed (R571) -/
  | lifetimeCommit (ok : Bool)
  /-- A background pass zeroes cleared positions, 64 records per ms (R569) -/
  | logClearPass
  /-- An access to an undecoded range returns 0 or is dropped, with cause 0x0101 (R578) -/
  | undecodedAccess (port a : Nat) (isWrite : Bool)
  /-- A write to HST_VEC_ACK resends a still-pending MSI-X vector (R590) -/
  | vectorAck (port v : Nat)
  /-- A PCIe reset resets the endpoint and the PCIe latches only (R581) -/
  | pcieReset (speed width : Nat)
  /-- Setting Bus Master Enable lets stalled bus-master operations resume (R582) -/
  | busMasterEnable (on : Bool)
  /-- An SPI read transaction returns words, each after the marker 0xA5 (R597) -/
  | spiRead (cmd addr n : Nat)
  /-- An SPI write transaction is applied at chip-select rise if its CRC and length are right (R598) -/
  | spiWrite (bytes : List Byte)
  /-- HST_DDR_CTRL.START starts LPDDR5X training (R594) -/
  | ddrTrainingStart (port : Nat)
  /-- HST_DDR_CTRL.STOP stops the training (R24) -/
  | ddrTrainingStop (port : Nat)
  /-- Training ends DONE or FAILED (R594) -/
  | ddrTrainingEnd (ok : Bool) (prog : Nat)
  /-- A write through the MRAM window is stored in the user area or dropped with a cause (R592) -/
  | mramWindowWrite (port w : Nat) (data : List Byte)
  /-- A read through the MRAM window returns contents, or 0 with a cause for protected areas (R592) -/
  | mramWindowRead (port w len : Nat)
  /-- An LPDDR5X window access reads or writes memory, or is refused before training (R595) -/
  | ddrWindowAccess (port w len : Nat) (isWrite : Bool) (data : List Byte)
  /-- VBACK falling below V_WARN + 0.4 V from above it clears VBACK_OK and counts VBACK_LOSSES in the lifetime store (R572) -/
  | vbackLoss (vback vsys : Nat)
  /-- Losing a bank's VIO releases that bank's outputs to high impedance and changes nothing inside the device (R613) -/
  | vioLoss (b : Nat)
  /-- When a bank's VIO returns, the bank senses its level and its outputs drive their current internal state within 10 µs (R613) -/
  | vioReturn (b : Nat)
  /-- While DOC_CFG.SCRUB is 1, a docent holding no job rereads and corrects its IRAM and DRAM, incrementing DOC_MEM_CORR and setting MEM_CORRECTED for each corrected word (R205) -/
  | backgroundScrub (d me : Nat)
  /-- Setting MSI-X Enable, clearing the function mask, or clearing a vector's mask bit sends the message of a vector that is still pending, as the PCIe specification defines (R590) -/
  | msixUnmask (en fm : Bool) (v : Option Nat)
  deriving DecidableEq, Repr

end Sys2Proof
end

