-- ==== Sys2Proof/Config.lean ====
section
/-! DEFINITION. What an implementation fixes and the spec leaves open: constants without a body (free values,
log entry 3). Nothing in Lean can evaluate them; a claim about them holds for every value. -/

namespace Sys2Proof.Config

/-- A value the spec does not state, as a number: applied to the model's counter `State.freeCount`, so
that every use is a fresh value. -/
opaque freeNat : Nat → Nat

/-- The part's unique identifier (HSH_UID, UID of Table 17.2): one value per part, not given by the spec. -/
opaque uid : BitVec 64

/-- The device secret the PUF reproduces (R499, R500): one value per part, not given by the spec. -/
opaque deviceSecret : BitVec 256

/-- The issuer secret fused at manufacture (R501). -/
opaque issuerSecret : BitVec 256

/-- The 96-bit nonce of a frame under GCM-AES-XPN-256 (R351), from the transmitting SCI, the association number and
the packet number: the suite's SSCI and salt are not stated. -/
opaque xpnNonce : Nat → Nat → Nat → BitVec 96

/-- The 96-bit initialisation vector of a Hiash link tag (R304), from originator, class and SEQ: the spec states none. -/
opaque hshIv : Nat → Nat → Nat → BitVec 96

end Sys2Proof.Config
end

