-- ==== Sys2Proof/Machine/Bits.lean ====
section
/-! DEFINITION. Bit fields, byte order and sign extension (sections 0.6 and 0.7, R9, R10). -/

namespace Sys2Proof.Machine

/-- Bits [hi:lo] of a word as a number. -/
def fld {n : Nat} (w : BitVec n) (hi lo : Nat) : Nat := (w.toNat >>> lo) % 2 ^ (hi + 1 - lo)

/-- Bit i of a word. -/
def bit {n : Nat} (w : BitVec n) (i : Nat) : Bool := w.toNat.testBit i

/-- A word with bits [hi:lo] replaced. -/
def setFld {n : Nat} (w : BitVec n) (hi lo v : Nat) : BitVec n :=
  (w &&& ~~~(BitVec.ofNat n ((2 ^ (hi + 1 - lo) - 1) <<< lo))) |||
    BitVec.ofNat n ((v % 2 ^ (hi + 1 - lo)) <<< lo)

/-- A word with bit i set or cleared. -/
def setBit {n : Nat} (w : BitVec n) (i : Nat) (b : Bool) : BitVec n :=
  if b then w ||| BitVec.ofNat n (1 <<< i) else w &&& ~~~(BitVec.ofNat n (1 <<< i))

/-- 1 or 0. -/
def b2n (b : Bool) : Nat := if b then 1 else 0

/-- A number read as two's complement over n bits. -/
def toSigned (n v : Nat) : Int :=
  if v % 2 ^ n < 2 ^ (n - 1) then ((v % 2 ^ n : Nat) : Int) else ((v % 2 ^ n : Nat) : Int) - (2 ^ n : Nat)

/-- An integer as an n-bit two's complement pattern. -/
def ofSigned (n : Nat) (v : Int) : Nat := (v % (2 ^ n : Nat)).toNat

/-- Saturates an integer to [lo, hi]. -/
def clampI (lo hi v : Int) : Int := if v < lo then lo else if hi < v then hi else v

/-- The n low bytes of a number, low byte first (R9). -/
def leBytes : Nat → Nat → List Byte
  | 0, _ => []
  | n + 1, v => BitVec.ofNat 8 v :: leBytes n (v / 256)

/-- A number from bytes, low byte first. -/
def leNat : List Byte → Nat
  | [] => 0
  | b :: r => b.toNat + 256 * leNat r

/-- A number from bytes in network order (the published protocols, R9). -/
def beNat (l : List Byte) : Nat := l.foldl (fun a b => a * 256 + b.toNat) 0

/-- The n low bytes of a number in network order. -/
def beBytes (n v : Nat) : List Byte := (leBytes n v).reverse

/-- n bytes from offset o; bytes past the end are left out. -/
def slice (l : List Byte) (o n : Nat) : List Byte := (l.drop o).take n

/-- The little-endian number in n bytes at offset o. -/
def le (l : List Byte) (o n : Nat) : Nat := leNat (slice l o n)

/-- The network-order number in n bytes at offset o. -/
def be (l : List Byte) (o n : Nat) : Nat := beNat (slice l o n)

/-- Offset of the EtherType behind up to two VLAN tags. -/
def etypeAt (img : List Byte) : Nat :=
  let tag (o : Nat) : Bool := be img o 2 = 0x8100 || be img o 2 = 0x88A8
  if tag 12 then (if tag 16 then 20 else 16) else 12

/-- A list padded with zero bytes to n, cut at n. -/
def padTo (n : Nat) (l : List Byte) : List Byte := (l ++ List.replicate (n - l.length) 0).take n

/-- Replaces the bytes from offset o. -/
def patch (l : List Byte) (o : Nat) (b : List Byte) : List Byte :=
  l.take o ++ b ++ l.drop (o + b.length)

/-- The n numbers of `List.range`, summed. -/
def sumNat (l : List Nat) : Nat := l.foldl (· + ·) 0

/-- The number of set bits below n. -/
def popCount (n v : Nat) : Nat := ((List.range n).filter (fun i => v.testBit i)).length

/-- The set bits below n, ascending. -/
def bitList (n v : Nat) : List Nat := (List.range n).filter (fun i => v.testBit i)

/-- Division rounding up. -/
def ceilDiv (a b : Nat) : Nat := (a + b - 1) / b

end Sys2Proof.Machine
end

