-- ==== Sys2Proof/Machine/Crc.lean ====
section
/-! DEFINITION. The check codes the spec names: CRC-32C, CRC-32 of Ethernet, CRC-16-CCITT, CRC-8, CRC-64 and Adler-32. -/

namespace Sys2Proof.Machine

/-- One reflected CRC step per bit. -/
def crcBitsRefl (poly : Nat) : Nat → Nat → Nat
  | 0, c => c
  | k + 1, c => crcBitsRefl poly k (if c.testBit 0 then (c >>> 1) ^^^ poly else c >>> 1)

/-- A reflected CRC over bytes: register c in, register out. -/
def crcRefl (poly c : Nat) (l : List Byte) : Nat :=
  l.foldl (fun c b => crcBitsRefl poly 8 (c ^^^ b.toNat)) c

/-- One most-significant-first CRC step per bit, over n bits. -/
def crcBitsMsb (n poly : Nat) : Nat → Nat → Nat
  | 0, c => c
  | k + 1, c => crcBitsMsb n poly k
      (if c.testBit (n - 1) then ((c <<< 1) ^^^ poly) % 2 ^ n else (c <<< 1) % 2 ^ n)

/-- A most-significant-first CRC over bytes. -/
def crcMsb (n poly c : Nat) (l : List Byte) : Nat :=
  l.foldl (fun c b => crcBitsMsb n poly 8 (c ^^^ (b.toNat <<< (n - 8)))) c

/-- CRC-32C (Castagnoli), as every image, record and message uses it. -/
def crc32c (l : List Byte) : Nat := crcRefl 0x82F63B78 0xFFFFFFFF l ^^^ 0xFFFFFFFF

/-- The Ethernet frame check sequence. -/
def crc32 (l : List Byte) : Nat := crcRefl 0xEDB88320 0xFFFFFFFF l ^^^ 0xFFFFFFFF

/-- CRC-16-CCITT with initial value 0xFFFF, the CHK word of C37.118.2. -/
def crcCcitt (l : List Byte) : Nat := crcMsb 16 0x1021 0xFFFF l

/-- CRC-8, polynomial 0x07, initial value 0 (R598). -/
def crc8 (l : List Byte) : Nat := crcMsb 8 0x07 0 l

/-- Adler-32 of RFC 1950 (R484). -/
def adler32 (l : List Byte) : Nat :=
  let p := l.foldl (fun (p : Nat × Nat) b => let a := (p.1 + b.toNat) % 65521; (a, (p.2 + a) % 65521)) (1, 0)
  p.2 * 65536 + p.1

end Sys2Proof.Machine
end

