-- ==== Sys2Proof/Machine/Crypto.lean ====
section
/-! DEFINITION. The cryptography the key block names (17_keys.md): AES-256 (FIPS 197), CMAC (SP 800-38B), the
counter-mode KDF of SP 800-108, GCM and GMAC (SP 800-38D), AES key wrap (RFC 3394); and the CRC-64 of R524. -/

namespace Sys2Proof.Machine

/-! ### AES-256 -/

/-- Product in GF(2^8) modulo x^8 + x^4 + x^3 + x + 1. -/
def gf8Mul (a b : Nat) : Nat :=
  (List.range 8).foldl (fun r i =>
    let r2 := if r < 128 then 2 * r else (2 * r) ^^^ 0x11B
    if b.testBit (7 - i) then r2 ^^^ a else r2) 0

/-- Multiplicative inverse x^254, 0 for 0. -/
def gf8Inv (a : Nat) : Nat :=
  let a2 := gf8Mul a a
  let a3 := gf8Mul a2 a
  let a6 := gf8Mul a3 a3
  let a12 := gf8Mul a6 a6
  let a15 := gf8Mul a12 a3
  let a30 := gf8Mul a15 a15
  let a60 := gf8Mul a30 a30
  let a120 := gf8Mul a60 a60
  let a126 := gf8Mul a120 a6
  let a127 := gf8Mul a126 a
  gf8Mul a127 a127

def rotl8 (x n : Nat) : Nat := ((x <<< n) ||| (x >>> (8 - n))) % 256

def sbox (a : Nat) : Nat :=
  let b := gf8Inv a
  b ^^^ rotl8 b 1 ^^^ rotl8 b 2 ^^^ rotl8 b 3 ^^^ rotl8 b 4 ^^^ 0x63

def invSbox (a : Nat) : Nat := gf8Inv (rotl8 a 1 ^^^ rotl8 a 3 ^^^ rotl8 a 6 ^^^ 0x05)

def xorList (a b : List Nat) : List Nat := List.zipWith (· ^^^ ·) a b

/-- The key schedule: 60 words of four bytes, newest first. -/
def keyWords (key : List Nat) : List (List Nat) :=
  let w0 := (List.range 8).map (fun i => (key.drop (4 * i)).take 4)
  ((List.range 52).foldl (fun (st : List (List Nat) × Nat) k =>
    let ws := st.1
    let i := k + 8
    let prev := ws.headD []
    let back := (ws.drop 7).headD []
    if i % 8 = 0 then
      let t := (prev.drop 1 ++ prev.take 1).map sbox
      (xorList back (xorList t [st.2, 0, 0, 0]) :: ws, gf8Mul st.2 2)
    else if i % 8 = 4 then (xorList back (prev.map sbox) :: ws, st.2)
    else (xorList back prev :: ws, st.2)) (w0.reverse, 1)).1

/-- The 15 round keys of 16 bytes, first round first. -/
def roundKeys (key : List Nat) : List (List Nat) :=
  let ws := (keyWords key).reverse
  (List.range 15).map (fun r => ((ws.drop (4 * r)).take 4).flatten)

def nth (l : List Nat) (i : Nat) : Nat := (l.drop i).headD 0

def shiftRows (l : List Nat) : List Nat :=
  (List.range 16).map (fun i => nth l ((i + 4 * (i % 4)) % 16))

def invShiftRows (l : List Nat) : List Nat :=
  (List.range 16).map (fun i => nth l ((i + 16 - 4 * (i % 4)) % 16))

/-- One column multiplied by the circulant matrix of a row. -/
def mixWith (m : List Nat) (l : List Nat) : List Nat :=
  (List.range 16).map (fun i =>
    let c := i / 4 * 4
    (List.range 4).foldl (fun x j => x ^^^ gf8Mul (nth m ((j + 4 - i % 4) % 4)) (nth l (c + j))) 0)

def aesRounds (ks : List (List Nat)) (st : List Nat) : List Nat :=
  match ks with
  | [] => st
  | [k] => xorList (shiftRows (st.map sbox)) k
  | k :: r => aesRounds r (xorList (mixWith [2, 3, 1, 1] (shiftRows (st.map sbox))) k)

/-- AES-256 of a block under expanded round keys. -/
def aesEncK (ks : List (List Nat)) (b : List Nat) : List Nat :=
  match ks with
  | [] => b
  | k :: r => aesRounds r (xorList b k)

def aesInvRounds (ks : List (List Nat)) (st : List Nat) : List Nat :=
  match ks with
  | [] => st
  | [k] => xorList ((invShiftRows st).map invSbox) k
  | k :: r => aesInvRounds r (mixWith [14, 11, 13, 9] (xorList ((invShiftRows st).map invSbox) k))

def aesDecK (ks : List (List Nat)) (b : List Nat) : List Nat :=
  match ks.reverse with
  | [] => b
  | k :: r => aesInvRounds r (xorList b k)

def toNats (l : List Byte) : List Nat := l.map (·.toNat)
def toBytes (l : List Nat) : List Byte := l.map (BitVec.ofNat 8 ·)

/-! ### CMAC and the KDF of R500 -/

def natOf (l : List Nat) : Nat := l.foldl (fun a b => a * 256 + b) 0
def bytesOf : Nat → Nat → List Nat
  | 0, _ => []
  | n + 1, v => bytesOf n (v / 256) ++ [v % 256]

def dbl128 (v : Nat) : Nat := if v < 2 ^ 127 then 2 * v else ((2 * v) % 2 ^ 128) ^^^ 0x87

/-- CBC chaining over whole blocks; the fuel is the number of blocks. -/
def cbcMac (ks : List (List Nat)) : Nat → List Nat → List Nat → List Nat
  | 0, _, c => c
  | n + 1, m, c => cbcMac ks n (m.drop 16) (aesEncK ks (xorList (m.take 16) c))

/-- AES-256-CMAC. -/
def cmac (key msg : List Nat) : List Nat :=
  let ks := roundKeys key
  let k1 := dbl128 (natOf (aesEncK ks (List.replicate 16 0)))
  let k2 := dbl128 k1
  let n := if msg.length = 0 then 1 else (msg.length + 15) / 16
  let last := msg.drop (16 * (n - 1))
  let lastB := if last.length = 16 then xorList last (bytesOf 16 k1)
    else xorList (last ++ [0x80] ++ List.replicate (15 - last.length) 0) (bytesOf 16 k2)
  let c := cbcMac ks (n - 1) (msg.take (16 * (n - 1))) (List.replicate 16 0)
  aesEncK ks (xorList lastB c)

/-- The 256-bit key derived with a label and context (R500). -/
def kdf (key : List Byte) (label : List Nat) (ctx : List Nat) : List Byte :=
  let m (i : Nat) := [i] ++ label ++ [0] ++ ctx ++ [1, 0]
  toBytes (cmac (toNats key) (m 1) ++ cmac (toNats key) (m 2))

/-! ### GCM -/

/-- Product in GF(2^128) in GCM's bit order: bit 127 of the number is the coefficient of x^0. -/
def ghMul (x y : Nat) : Nat :=
  ((List.range 128).foldl (fun (st : Nat × Nat) i =>
    let z := if x.testBit (127 - i) then st.1 ^^^ st.2 else st.1
    let v := if st.2 % 2 = 1 then (st.2 / 2) ^^^ (0xE1 <<< 120) else st.2 / 2
    (z, v)) (0, y)).1

def ghash (h : Nat) : Nat → List Nat → Nat → Nat
  | 0, _, y => y
  | n + 1, m, y => ghash h n (m.drop 16) (ghMul (y ^^^ natOf (m.take 16 ++ List.replicate (16 - (m.take 16).length) 0)) h)

def blocks16 (l : List Nat) : Nat := (l.length + 15) / 16

/-- CTR encryption from counter value c. -/
def gctr (ks : List (List Nat)) (iv : List Nat) : Nat → Nat → List Nat → List Nat
  | 0, _, _ => []
  | n + 1, c, m => xorList (m.take 16) (aesEncK ks (iv ++ bytesOf 4 c)) ++ gctr ks iv n (c + 1) (m.drop 16)

/-- The GCM tag over associated data and ciphertext, 12-byte IV. -/
def gcmTag (key iv aad ct : List Byte) : List Byte :=
  let ks := roundKeys (toNats key)
  let h := natOf (aesEncK ks (List.replicate 16 0))
  let a := toNats aad
  let c := toNats ct
  let y := ghash h (blocks16 a) a 0
  let y := ghash h (blocks16 c) c y
  let y := ghMul (y ^^^ (8 * a.length * 2 ^ 64 + 8 * c.length)) h
  toBytes (xorList (bytesOf 16 y) (aesEncK ks (toNats iv ++ [0, 0, 0, 1])))

/-- GCM encryption or decryption of the payload. -/
def gcmCrypt (key iv msg : List Byte) : List Byte :=
  let m := toNats msg
  toBytes (gctr (roundKeys (toNats key)) (toNats iv) (blocks16 m) 2 m)

/-- AES-GMAC: the GCM tag of associated data alone. -/
def gmac (key iv msg : List Byte) : List Byte := gcmTag key iv msg []

/-! ### Key wrap (RFC 3394) -/

/-- One pass j over the registers; t counts up. -/
def kwStep (ks : List (List Nat)) : List (List Nat) → List Nat → Nat → List Nat × List (List Nat)
  | [], a, _ => (a, [])
  | r :: rs, a, t =>
    let b := aesEncK ks (a ++ r)
    let x := kwStep ks rs (bytesOf 8 (natOf (b.take 8) ^^^ t)) (t + 1)
    (x.1, b.drop 8 :: x.2)

def kwWrap (key data : List Byte) : List Byte :=
  let ks := roundKeys (toNats key)
  let n := data.length / 8
  let rs := (List.range n).map (fun i => toNats (slice data (8 * i) 8))
  let x := (List.range 6).foldl (fun (st : List Nat × List (List Nat)) j => kwStep ks st.2 st.1 (n * j + 1))
    (List.replicate 8 0xA6, rs)
  toBytes (x.1 ++ x.2.flatten)

/-- One unwrap pass over the registers in reverse order; t counts down. -/
def kwBack (ks : List (List Nat)) : List (List Nat) → List Nat → Nat → List Nat × List (List Nat)
  | [], a, _ => (a, [])
  | r :: rs, a, t =>
    let b := aesDecK ks (bytesOf 8 (natOf a ^^^ t) ++ r)
    let x := kwBack ks rs (b.take 8) (t - 1)
    (x.1, b.drop 8 :: x.2)

/-- Unwraps; none when the integrity value differs. -/
def kwUnwrap (key data : List Byte) : Option (List Byte) :=
  let ks := roundKeys (toNats key)
  let n := data.length / 8 - 1
  let rs := ((List.range n).map (fun i => toNats (slice data (8 * (i + 1)) 8))).reverse
  let x := (List.range 6).foldl (fun (st : List Nat × List (List Nat)) j => kwBack ks st.2 st.1 (n * (6 - j)))
    (toNats (data.take 8), rs)
  if x.1 = List.replicate 8 0xA6 then some (toBytes x.2.reverse.flatten) else none

/-! ### CRC-64 (R524) -/

/-- Polynomial 0x42F0_E1EB_A9EA_3693, reflected input and output, initial value and final XOR all ones. -/
def crc64 (l : List Byte) : Nat :=
  (l.foldl (fun c b => (List.range 8).foldl (fun c _ =>
      if c % 2 = 1 then (c / 2) ^^^ 0xC96C5795D7870F42 else c / 2) (c ^^^ b.toNat)) (2 ^ 64 - 1)) ^^^ (2 ^ 64 - 1)

/-- A secret of Config as bytes, first byte high. -/
def secretBytes (v : BitVec 256) : List Byte := beBytes 32 v.toNat

end Sys2Proof.Machine
end

