-- ==== Sys2Proof/Machine/Float.lean ====
section
/-! DEFINITION. IEEE 754 binary32 and binary64 arithmetic on bit patterns, written with exact integers and one
rounding to nearest, ties to even (R11, R211–R214). -/

namespace Sys2Proof.Machine

/-- A binary format: p significand bits, eb exponent bits. -/
structure FFmt where
  p : Nat
  eb : Nat
  deriving DecidableEq, Repr

def f32 : FFmt := ⟨24, 8⟩
def f64 : FFmt := ⟨53, 11⟩

def FFmtBias (f : FFmt) : Int := (2 ^ (f.eb - 1) : Nat) - 1

/-- The bit pattern of +∞. -/
def fInfBits (f : FFmt) : Nat := (2 ^ f.eb - 1) <<< (f.p - 1)

/-- The weight of the sign bit. -/
def fSignW (f : FFmt) : Nat := 2 ^ (f.p - 1 + f.eb)

/-- The canonical quiet NaN: sign 0, top fraction bit 1 (R211). -/
def fNan (f : FFmt) : Nat := fInfBits f + 2 ^ (f.p - 2)

/-- An unpacked value: NaN, ±∞, or ±m × 2^e exactly. -/
inductive FVal where
  | nan
  | inf (neg : Bool)
  | fin (neg : Bool) (m : Nat) (e : Int)
  deriving DecidableEq, Repr

/-- The exact value of a bit pattern. -/
def fUnpack (f : FFmt) (x : Nat) : FVal :=
  let neg := (x / fSignW f) % 2 == 1
  let ex := (x >>> (f.p - 1)) % 2 ^ f.eb
  let fr := x % 2 ^ (f.p - 1)
  if ex = 2 ^ f.eb - 1 then (if fr = 0 then .inf neg else .nan)
  else if ex = 0 then .fin neg fr (2 - FFmtBias f - (f.p : Int))
  else .fin neg (fr + 2 ^ (f.p - 1)) ((ex : Int) - FFmtBias f - ((f.p : Int) - 1))

/-- Bit length of a number. -/
def bitLen (m : Nat) : Nat := if m = 0 then 0 else Nat.log2 m + 1

/-- Divides by 2^s, to nearest, ties to even. -/
def rneShift (m s : Nat) : Nat :=
  if s = 0 then m
  else
    let q := m >>> s
    let r := m % 2 ^ s
    let h := 2 ^ (s - 1)
    if h < r then q + 1 else if r = h then q + q % 2 else q

/-- Rounds ±(m × 2^e), with something nonzero below when sticky, to the format. -/
def fRound (f : FFmt) (neg : Bool) (m0 : Nat) (e0 : Int) (sticky : Bool) : Nat :=
  let s := if neg then fSignW f else 0
  if m0 = 0 && !sticky then s
  else
    let m := m0 * 4 + b2n sticky
    let e := e0 - 2
    let emin : Int := 1 - FFmtBias f
    let top : Int := e + (bitLen m : Int) - 1
    let q : Int := (if top < emin then emin else top) - ((f.p : Int) - 1)
    let sh : Int := q - e
    let mm := if 0 ≤ sh then rneShift m sh.toNat else m <<< (-sh).toNat
    let biased : Int := q + ((f.p : Int) - 1) + FFmtBias f
    let bits := (biased * ((2 ^ (f.p - 1) : Nat) : Int) + (mm : Int) - ((2 ^ (f.p - 1) : Nat) : Int)).toNat
    s + (if fInfBits f ≤ bits then fInfBits f else bits)

/-- Packs an unpacked value. -/
def fPack (f : FFmt) : FVal → Nat
  | .nan => fNan f
  | .inf n => (if n then fSignW f else 0) + fInfBits f
  | .fin n m e => fRound f n m e false

/-- The exact sum of two finite values; an exact zero from opposite signs is +0. -/
def vAdd : FVal → FVal → FVal
  | .nan, _ => .nan
  | _, .nan => .nan
  | .inf a, .inf b => if a = b then .inf a else .nan
  | .inf a, _ => .inf a
  | _, .inf b => .inf b
  | .fin a m e, .fin b n g =>
    let lo : Int := if e < g then e else g
    let x : Int := ((m <<< (e - lo).toNat : Nat) : Int)
    let y : Int := ((n <<< (g - lo).toNat : Nat) : Int)
    let z : Int := (if a then -x else x) + (if b then -y else y)
    if z = 0 then .fin (a && b) 0 lo else .fin (decide (z < 0)) z.natAbs lo

/-- The exact product. -/
def vMul : FVal → FVal → FVal
  | .nan, _ => .nan
  | _, .nan => .nan
  | .inf a, .inf b => .inf (a != b)
  | .inf a, .fin b n _ => if n = 0 then .nan else .inf (a != b)
  | .fin a m _, .inf b => if m = 0 then .nan else .inf (a != b)
  | .fin a m e, .fin b n g => .fin (a != b) (m * n) (e + g)

def vNeg : FVal → FVal
  | .nan => .nan
  | .inf a => .inf (!a)
  | .fin a m e => .fin (!a) m e

def vAbs : FVal → FVal
  | .nan => .nan
  | .inf _ => .inf false
  | .fin _ m e => .fin false m e

/-- Exact comparison of two values that are not NaN: below, equal. -/
def vLt : FVal → FVal → Bool
  | .nan, _ => false
  | _, .nan => false
  | .inf a, .inf b => a && !b
  | .inf a, .fin .. => a
  | .fin .., .inf b => !b
  | .fin a m e, .fin b n g =>
    let lo : Int := if e < g then e else g
    let x : Int := ((m <<< (e - lo).toNat : Nat) : Int)
    let y : Int := ((n <<< (g - lo).toNat : Nat) : Int)
    decide ((if a then -x else x) < (if b then -y else y))

def vEq (a b : FVal) : Bool :=
  match a, b with
  | .nan, _ => false
  | _, .nan => false
  | _, _ => !(vLt a b) && !(vLt b a)

def vIsNan : FVal → Bool
  | .nan => true
  | _ => false

/-- The value as an integer number of 2^−k, rounded to nearest, ties to even; none for NaN and ∞. -/
def vToFix (k : Nat) : FVal → Option Int
  | .nan => none
  | .inf _ => none
  | .fin a m e =>
    let s : Int := e + (k : Int)
    let v : Nat := if 0 ≤ s then m <<< s.toNat else rneShift m (-s).toNat
    some (if a then -(v : Int) else (v : Int))

/-- The value of an integer times 2^e. -/
def vOfInt (i : Int) (e : Int) : FVal := .fin (decide (i < 0)) i.natAbs e

/-- Integer square root by bits: the largest r with r² ≤ n, tried from bit k − 1 down. -/
def isqrtGo (n : Nat) : Nat → Nat → Nat
  | 0, r => r
  | k + 1, r => let t := r + 2 ^ k; isqrtGo n k (if t * t ≤ n then t else r)

def isqrt (n : Nat) : Nat := isqrtGo n (bitLen n / 2 + 1) 0

/-- A result is the canonical NaN when it is NaN (R211). -/
def fadd (f : FFmt) (a b : Nat) : Nat := fPack f (vAdd (fUnpack f a) (fUnpack f b))
def fneg (f : FFmt) (a : Nat) : Nat := if (a / fSignW f) % 2 = 1 then a - fSignW f else a + fSignW f
def fabs (f : FFmt) (a : Nat) : Nat := a % fSignW f
def fsub (f : FFmt) (a b : Nat) : Nat := fPack f (vAdd (fUnpack f a) (vNeg (fUnpack f b)))
def fmul (f : FFmt) (a b : Nat) : Nat := fPack f (vMul (fUnpack f a) (fUnpack f b))
/-- a × b + c, rounded once. -/
def ffma (f : FFmt) (a b c : Nat) : Nat :=
  fPack f (vAdd (vMul (fUnpack f a) (fUnpack f b)) (fUnpack f c))

/-- Quotient of unpacked values, rounded once. -/
def vDivRound (f : FFmt) (a b : FVal) : Nat :=
  match a, b with
  | .nan, _ => fNan f
  | _, .nan => fNan f
  | .inf _, .inf _ => fNan f
  | .inf x, .fin y _ _ => fPack f (.inf (x != y))
  | .fin x _ _, .inf y => fPack f (.fin (x != y) 0 0)
  | .fin x m e, .fin y n g =>
    if n = 0 then (if m = 0 then fNan f else fPack f (.inf (x != y)))
    else
      let k := f.p + 4 + bitLen n
      let q := (m <<< k) / n
      fRound f (x != y) q (e - g - (k : Int)) (decide ((m <<< k) % n ≠ 0))

def fdiv (f : FFmt) (a b : Nat) : Nat := vDivRound f (fUnpack f a) (fUnpack f b)

/-- Square root of an unpacked value, rounded once. -/
def vSqrtRound (f : FFmt) : FVal → Nat
  | .nan => fNan f
  | .inf n => if n then fNan f else fInfBits f
  | .fin n m e =>
    if m = 0 then fPack f (.fin n 0 0)
    else if n then fNan f
    else
      let k := 2 * (f.p + 4) + (if (e % 2 = 0) then 0 else 1)
      let mm := m <<< k
      let r := isqrt mm
      fRound f false r ((e - (k : Int)) / 2) (decide (r * r ≠ mm))

def fsqrt (f : FFmt) (a : Nat) : Nat := vSqrtRound f (fUnpack f a)

def fIsNan (f : FFmt) (a : Nat) : Bool := vIsNan (fUnpack f a)
def feq (f : FFmt) (a b : Nat) : Bool := vEq (fUnpack f a) (fUnpack f b)
def flt (f : FFmt) (a b : Nat) : Bool := vLt (fUnpack f a) (fUnpack f b)
def fle (f : FFmt) (a b : Nat) : Bool :=
  vLt (fUnpack f a) (fUnpack f b) || vEq (fUnpack f a) (fUnpack f b)

/-- Conversion between formats. -/
def fcvt (f g : FFmt) (a : Nat) : Nat := fPack g (fUnpack f a)

/-- A signed integer as a float. -/
def fofInt (f : FFmt) (i : Int) : Nat := fPack f (vOfInt i 0)

end Sys2Proof.Machine
end

