-- ==== Sys2Proof/Machine/RegMap.lean ====
section
/-! DEFINITION. The register map of BAR0: one row per register (or array of registers) of the register
sections of the chapters, with the bits host software can write and the encodings each field allows
(R12, R15, R16), and the value each register holds at reset. -/

namespace Sys2Proof.Machine

/-- One checked field: bits [hi:lo] take only lo ≤ value ≤ max; another value leaves the field unchanged
and records the cause (R16, and the range rules of the chapters). -/
structure FieldCheck where
  hi : Nat
  lo : Nat
  min : Nat
  max : Nat
  cause : Nat
  deriving DecidableEq, Repr

/-- One row of the register map: registers at base + stride × k, k < count, and the bit masks of the
access codes of Table 0.5. Bits in no mask read as the device keeps them and ignore writes. -/
structure RegSpec where
  base : Nat
  stride : Nat
  count : Nat
  rw : Nat
  rwl : Nat
  w1c : Nat
  rc : Nat
  checks : List FieldCheck
  deriving DecidableEq, Repr

namespace Reg

abbrev hstId : Nat := 0x10
abbrev hstRev : Nat := 0x14
abbrev hstPresent : Nat := 0x18
abbrev hstStatus : Nat := 0x1C
abbrev hstEvents : Nat := 0x20
abbrev hstIrqEn : Nat := 0x24
abbrev hstOffline0 : Nat := 0x28
abbrev hstOffline1 : Nat := 0x2C
abbrev hstPinEn (k : Nat) : Nat := 0x30 + 0x4 * k
abbrev hstPending (k : Nat) : Nat := 0x38 + 0x4 * k
abbrev hstVecAck : Nat := 0x40
abbrev hstPciId : Nat := 0x44
abbrev hstDdrCfg : Nat := 0x50
abbrev hstDdrCtrl : Nat := 0x54
abbrev hstDdrOpstat : Nat := 0x58
abbrev hstDdrWin : Nat := 0x5C
abbrev hstMramWin : Nat := 0x60
abbrev hstStatClr : Nat := 0x64
abbrev hstVecMap (k : Nat) : Nat := 0x100 + 0x4 * k
abbrev hstQnotify (k : Nat) : Nat := 0x200 + 0x4 * k
abbrev hstCnt (k : Nat) : Nat := 0x300 + 0x4 * k
abbrev hstMsixTable (k : Nat) : Nat := 0x8000 + 0x4 * k
abbrev hstMsixPba (k : Nat) : Nat := 0x9000 + 0x4 * k
abbrev pwrCfg : Nat := 0x10010
abbrev pwrWarn : Nat := 0x10014
abbrev pwrStatus : Nat := 0x10018
abbrev pwrEvents : Nat := 0x1001C
abbrev pwrIrqEn : Nat := 0x10020
abbrev pwrReq : Nat := 0x10024
abbrev pwrReqResult : Nat := 0x10028
abbrev pwrHostNext (k : Nat) : Nat := 0x1002C + 0x4 * k
abbrev pwrKeepWake (k : Nat) : Nat := 0x10034 + 0x4 * k
abbrev pwrRetain (k : Nat) : Nat := 0x1003C + 0x4 * k
abbrev pwrKeepBlock : Nat := 0x10044
abbrev pwrKeepEst : Nat := 0x10048
abbrev pwrGate : Nat := 0x1004C
abbrev pwrResetCause : Nat := 0x10050
abbrev pwrVmain : Nat := 0x10054
abbrev pwrVback : Nat := 0x10058
abbrev pwrVsys : Nat := 0x1005C
abbrev pwrNextUs : Nat := 0x10060
abbrev pwrTrim : Nat := 0x10064
abbrev pwrDip (k : Nat) : Nat := 0x10068 + 0x4 * k
abbrev pwrStartOpstat : Nat := 0x10078
abbrev pwrStartStep (k : Nat) : Nat := 0x1007C + 0x4 * k
abbrev pwrCtrl : Nat := 0x100A4
abbrev pwrBootrecSrc (k : Nat) : Nat := 0x100A8 + 0x4 * k
abbrev pwrBootrecLen : Nat := 0x100B0
abbrev pwrBootrecCtrl : Nat := 0x100B4
abbrev pwrBootrecOpstat : Nat := 0x100B8
abbrev pwrBootrecGen : Nat := 0x100BC
abbrev pwrStatClr : Nat := 0x100C0
abbrev pwrCnt (k : Nat) : Nat := 0x10100 + 0x4 * k
abbrev pcePaceNow : Nat := 0x20010
abbrev pcePaceMin : Nat := 0x20014
abbrev pcePaceReq : Nat := 0x20018
abbrev pcePaceTarget : Nat := 0x2001C
abbrev pceCfg : Nat := 0x20020
abbrev pceVcoreNow : Nat := 0x20024
abbrev pceVcoreCap : Nat := 0x20028
abbrev pceStatus : Nat := 0x2002C
abbrev pceEvents : Nat := 0x20030
abbrev pceIrqEn : Nat := 0x20034
abbrev pceShortCount : Nat := 0x20038
abbrev pceShortSeconds : Nat := 0x2003C
abbrev pceTj : Nat := 0x20040
abbrev pceCalOpstat : Nat := 0x20044
abbrev pceCalCtrl : Nat := 0x20048
abbrev pceStatClr : Nat := 0x2004C
abbrev pceRingPace (k : Nat) : Nat := 0x20100 + 0x4 * k
abbrev timCfg : Nat := 0x30010
abbrev timStatus : Nat := 0x30014
abbrev timEvents : Nat := 0x30018
abbrev timIrqEn : Nat := 0x3001C
abbrev timSelect : Nat := 0x30020
abbrev timSelectResult : Nat := 0x30024
abbrev timRaw (k : Nat) : Nat := 0x30028 + 0x4 * k
abbrev timNow (k : Nat) : Nat := 0x30030 + 0x4 * k
abbrev timQuality : Nat := 0x3003C
abbrev timErrNow : Nat := 0x30040
abbrev timDiff : Nat := 0x30044
abbrev timLeapBase : Nat := 0x30048
abbrev timStatClr : Nat := 0x3004C
abbrev timPpsCfg : Nat := 0x30050
abbrev timPpsOutOffset : Nat := 0x30054
abbrev timPpsCap (k : Nat) : Nat := 0x30058 + 0x4 * k
abbrev timPpsDelay : Nat := 0x30064
abbrev timPpsLoop : Nat := 0x30068
abbrev timPpsStep : Nat := 0x3006C
abbrev timPpsErr : Nat := 0x30070
abbrev timIrigTime (k : Nat) : Nat := 0x30074 + 0x4 * k
abbrev timIrigStatus : Nat := 0x3007C
abbrev timRefDrift : Nat := 0x30080
abbrev timDomCfg (k : Nat) : Nat := 0x30100 + 0x80 * k
abbrev timDomState (k : Nat) : Nat := 0x30104 + 0x80 * k
abbrev timOffsetSLo (k : Nat) : Nat := 0x30108 + 0x80 * k
abbrev timOffsetSHi (k : Nat) : Nat := 0x3010C + 0x80 * k
abbrev timOffsetNs (k : Nat) : Nat := 0x30110 + 0x80 * k
abbrev timOffsetSub (k : Nat) : Nat := 0x30114 + 0x80 * k
abbrev timRate (k : Nat) : Nat := 0x30118 + 0x80 * k
abbrev timAnchorLo (k : Nat) : Nat := 0x3011C + 0x80 * k
abbrev timAnchorHi (k : Nat) : Nat := 0x30120 + 0x80 * k
abbrev timGen (k : Nat) : Nat := 0x30124 + 0x80 * k
abbrev timStgOffsetSLo (k : Nat) : Nat := 0x30128 + 0x80 * k
abbrev timStgOffsetSHi (k : Nat) : Nat := 0x3012C + 0x80 * k
abbrev timStgOffsetNs (k : Nat) : Nat := 0x30130 + 0x80 * k
abbrev timStgRate (k : Nat) : Nat := 0x30134 + 0x80 * k
abbrev timStgErr (k : Nat) : Nat := 0x30138 + 0x80 * k
abbrev timDomCmd (k : Nat) : Nat := 0x3013C + 0x80 * k
abbrev timDomResult (k : Nat) : Nat := 0x30140 + 0x80 * k
abbrev timHoldDrift (k : Nat) : Nat := 0x30144 + 0x80 * k
abbrev timHoldLimit (k : Nat) : Nat := 0x30148 + 0x80 * k
abbrev timErrEst (k : Nat) : Nat := 0x3014C + 0x80 * k
abbrev timAgeMs (k : Nat) : Nat := 0x30150 + 0x80 * k
abbrev timDomNowLo (k : Nat) : Nat := 0x30154 + 0x80 * k
abbrev timDomNowHi (k : Nat) : Nat := 0x30158 + 0x80 * k
abbrev timCnt (k : Nat) : Nat := 0x30200 + 0x4 * k
abbrev timLeap (k : Nat) : Nat := 0x30400 + 0x4 * k
abbrev timTxts (k : Nat) : Nat := 0x30800 + 0x4 * k
abbrev keyState : Nat := 0x40010
abbrev keyCounter : Nat := 0x40014
abbrev keyLabel : Nat := 0x40018
abbrev keyPermit : Nat := 0x4001C
abbrev keyEpoch : Nat := 0x40020
abbrev keyGen : Nat := 0x40024
abbrev keyMsg (k : Nat) : Nat := 0x40040 + 0x4 * k
abbrev keyCmd : Nat := 0x400A0
abbrev keyOpstat : Nat := 0x400A4
abbrev keyEvents : Nat := 0x400A8
abbrev keyIrqEn : Nat := 0x400AC
abbrev keyPuf : Nat := 0x400B0
abbrev keyStatClr : Nat := 0x400B4
abbrev keyCnt (k : Nat) : Nat := 0x40100 + 0x4 * k
abbrev logCfg : Nat := 0x50010
abbrev logHead : Nat := 0x50014
abbrev logOldest : Nat := 0x50018
abbrev logFloor : Nat := 0x5001C
abbrev logCursor : Nat := 0x50020
abbrev logWinStatus : Nat := 0x50024
abbrev logFifo : Nat := 0x50028
abbrev logEvents : Nat := 0x5002C
abbrev logIrqEn : Nat := 0x50030
abbrev logStatClr : Nat := 0x50034
abbrev logWear : Nat := 0x50038
abbrev logTjMax : Nat := 0x5003C
abbrev logWindow (k : Nat) : Nat := 0x50040 + 0x4 * k
abbrev logCnt (k : Nat) : Nat := 0x50100 + 0x4 * k
abbrev logLife (k : Nat) : Nat := 0x50200 + 0x4 * k
abbrev logFirstTai (k : Nat) : Nat := 0x50240 + 0x4 * k
abbrev logLastTai (k : Nat) : Nat := 0x50248 + 0x4 * k
abbrev twnCfg : Nat := 0x60010
abbrev twnPartnerId : Nat := 0x60014
abbrev twnPartnerMacLo : Nat := 0x60018
abbrev twnPartnerMacHi : Nat := 0x6001C
abbrev twnTiming : Nat := 0x60020
abbrev twnState : Nat := 0x60024
abbrev twnCtrl : Nat := 0x60028
abbrev twnEvents : Nat := 0x6002C
abbrev twnIrqEn : Nat := 0x60030
abbrev twnSeq : Nat := 0x60034
abbrev twnStart (k : Nat) : Nat := 0x60038 + 0x4 * k
abbrev twnMismatch (k : Nat) : Nat := 0x60040 + 0x4 * k
abbrev twnGapUs : Nat := 0x60060
abbrev twnStatClr : Nat := 0x60064
abbrev twnCnt (k : Nat) : Nat := 0x60100 + 0x4 * k
abbrev vrdCfg : Nat := 0x70010
abbrev vrdPinDrive : Nat := 0x70014
abbrev vrdPinState : Nat := 0x70018
abbrev vrdPinClear : Nat := 0x7001C
abbrev vrdPinForce : Nat := 0x70020
abbrev vrdSources : Nat := 0x70024
abbrev vrdBanks : Nat := 0x70028
abbrev vrdLast (k : Nat) : Nat := 0x7002C + 0x4 * k
abbrev vrdReduce : Nat := 0x70034
abbrev vrdReduceMax : Nat := 0x70038
abbrev vrdEvents : Nat := 0x7003C
abbrev vrdIrqEn : Nat := 0x70040
abbrev vrdStatClr : Nat := 0x70044
abbrev vrdPlanInfo : Nat := 0x70048
abbrev vrdLineSel : Nat := 0x70050
abbrev vrdLineState : Nat := 0x70054
abbrev vrdLineValue (k : Nat) : Nat := 0x70058 + 0x4 * k
abbrev vrdLineChanges : Nat := 0x70060
abbrev vrdCellSel : Nat := 0x70070
abbrev vrdCell (k : Nat) : Nat := 0x70074 + 0x4 * k
abbrev vrdTplSel : Nat := 0x70080
abbrev vrdTplStnum : Nat := 0x70084
abbrev vrdTplSqnum : Nat := 0x70088
abbrev vrdCnt (k : Nat) : Nat := 0x70100 + 0x4 * k
abbrev dspQuota (k : Nat) : Nat := 0x80010 + 0x4 * k
abbrev dspLevel (k : Nat) : Nat := 0x80030 + 0x4 * k
abbrev dspInflight : Nat := 0x80050
abbrev dspEventFifo : Nat := 0x80054
abbrev dspEvents : Nat := 0x80058
abbrev dspIrqEn : Nat := 0x8005C
abbrev dspFullMask : Nat := 0x80060
abbrev dspDoorbellArg : Nat := 0x80070
abbrev dspDoorbell : Nat := 0x80074
abbrev dspDoorbellResult : Nat := 0x80078
abbrev dspStatClr : Nat := 0x8007C
abbrev dspCnt (k : Nat) : Nat := 0x80100 + 0x4 * k
abbrev dspWaitMax (k : Nat) : Nat := 0x80200 + 0x4 * k
abbrev dspTimerFired (k : Nat) : Nat := 0x80240 + 0x4 * k
abbrev docCfg : Nat := 0x88010
abbrev docBusy (k : Nat) : Nat := 0x88014 + 0x4 * k
abbrev docEvents : Nat := 0x8801C
abbrev docIrqEn : Nat := 0x88020
abbrev docLastFault (k : Nat) : Nat := 0x88040 + 0x4 * k
abbrev docStatClr : Nat := 0x88060
abbrev docCnt (k : Nat) : Nat := 0x88100 + 0x4 * k
abbrev docState (k : Nat) : Nat := 0x180000 + 0x1000 * k
abbrev docDramAddr (k : Nat) : Nat := 0x1800C0 + 0x1000 * k
abbrev docDramDataHi (k : Nat) : Nat := 0x1800C8 + 0x1000 * k
abbrev docIramAddr (k : Nat) : Nat := 0x1800D0 + 0x1000 * k
abbrev plnLoad : Nat := 0x90010
abbrev plnSrcLo : Nat := 0x90014
abbrev plnSrcHi : Nat := 0x90018
abbrev plnSrcLen : Nat := 0x9001C
abbrev plnData : Nat := 0x90020
abbrev plnOpstat : Nat := 0x90024
abbrev plnOp : Nat := 0x90028
abbrev plnSlotState : Nat := 0x9002C
abbrev plnSwapLo : Nat := 0x90030
abbrev plnSwapHi : Nat := 0x90034
abbrev plnSwap : Nat := 0x90038
abbrev plnShortCmd : Nat := 0x9003C
abbrev plnCommit : Nat := 0x90040
abbrev plnCmdResult : Nat := 0x90044
abbrev plnFailSection : Nat := 0x90048
abbrev plnFailEntry : Nat := 0x9004C
abbrev plnFailOffset : Nat := 0x90050
abbrev plnId (k : Nat) : Nat := 0x90054 + 0x4 * k
abbrev plnStart (k : Nat) : Nat := 0x90060 + 0x10 * k
abbrev plnStartHi (k : Nat) : Nat := 0x90064 + 0x10 * k
abbrev plnEnd (k : Nat) : Nat := 0x90068 + 0x10 * k
abbrev plnEndHi (k : Nat) : Nat := 0x9006C + 0x10 * k
abbrev plnBoot : Nat := 0x90080
abbrev plnBootId : Nat := 0x90084
abbrev plnBootGen : Nat := 0x90088
abbrev plnTplStatus : Nat := 0x9008C
abbrev plnTplFirst : Nat := 0x90090
abbrev plnEvents : Nat := 0x90094
abbrev plnIrqEn : Nat := 0x90098
abbrev vltCfg : Nat := 0xA0010
abbrev vltState : Nat := 0xA0014
abbrev vltPages : Nat := 0xA0018
abbrev vltPagesMin : Nat := 0xA001C
abbrev vltRecords : Nat := 0xA0020
abbrev vltNewest (k : Nat) : Nat := 0xA0024 + 0x4 * k
abbrev vltFloor (k : Nat) : Nat := 0xA002C + 0x4 * k
abbrev vltEvents : Nat := 0xA0034
abbrev vltIrqEn : Nat := 0xA0038
abbrev vltPlanInfo : Nat := 0xA003C
abbrev vltWorst : Nat := 0xA0040
abbrev vltForceLo : Nat := 0xA0044
abbrev vltForceHi : Nat := 0xA0048
abbrev vltForceCmd : Nat := 0xA004C
abbrev vltForceResult : Nat := 0xA0050
abbrev vltStatClr : Nat := 0xA0060
abbrev vltSlotQ : Nat := 0xA0070
abbrev vltSlotA : Nat := 0xA0074
abbrev vltLastRefuse (k : Nat) : Nat := 0xA0080 + 0x4 * k
abbrev vltViewIndexLo (k : Nat) : Nat := 0xA00C0 + 0x10 * k
abbrev vltViewIndexHi (k : Nat) : Nat := 0xA00C4 + 0x10 * k
abbrev vltViewStatus (k : Nat) : Nat := 0xA00C8 + 0x10 * k
abbrev vltCnt (k : Nat) : Nat := 0xA0100 + 0x4 * k
abbrev accCfg : Nat := 0xA8010
abbrev accHashSeed : Nat := 0xA8014
abbrev accAlloc : Nat := 0xA8018
abbrev accCount : Nat := 0xA801C
abbrev accPhasorSum : Nat := 0xA8020
abbrev accIngressSum : Nat := 0xA8024
abbrev accEvents : Nat := 0xA8028
abbrev accIrqEn : Nat := 0xA802C
abbrev accRefuseEntry : Nat := 0xA8030
abbrev accLastDiscard (k : Nat) : Nat := 0xA8040 + 0x4 * k
abbrev accStatClr : Nat := 0xA8060
abbrev accDisc (k : Nat) : Nat := 0xA8100 + 0x4 * k
abbrev accLateClass (k : Nat) : Nat := 0xA8140 + 0x4 * k
abbrev arcCfg : Nat := 0xB0010
abbrev arcGuard : Nat := 0xB0014
abbrev arcRingBase (k : Nat) : Nat := 0xB0018 + 0x4 * k
abbrev arcRingLen : Nat := 0xB0020
abbrev arcRingWp : Nat := 0xB0024
abbrev arcRingRp : Nat := 0xB0028
abbrev arcRingOldest : Nat := 0xB002C
abbrev arcStream : Nat := 0xB0030
abbrev arcBlockSeq : Nat := 0xB0034
abbrev arcJob (k : Nat) : Nat := 0xB0040 + 0x4 * k
abbrev arcJobCtrl : Nat := 0xB0060
abbrev arcJobOpstat : Nat := 0xB0064
abbrev arcJobRes : Nat := 0xB0068
abbrev arcInDone : Nat := 0xB006C
abbrev arcOutDone : Nat := 0xB0070
abbrev arcPend : Nat := 0xB0074
abbrev arcErrPos : Nat := 0xB0078
abbrev arcEvents : Nat := 0xB007C
abbrev arcIrqEn : Nat := 0xB0080
abbrev arcStatClr : Nat := 0xB0084
abbrev arcCnt (k : Nat) : Nat := 0xB0100 + 0x4 * k
abbrev arcInBytes (k : Nat) : Nat := 0xB0140 + 0x4 * k
abbrev arcOutBytes (k : Nat) : Nat := 0xB0148 + 0x4 * k
abbrev capCfg : Nat := 0xC0010
abbrev capRec : Nat := 0xC0014
abbrev capMax : Nat := 0xC0018
abbrev capSrcEn : Nat := 0xC001C
abbrev capVrdLines : Nat := 0xC0020
abbrev capBus : Nat := 0xC0024
abbrev capBusLat : Nat := 0xC0028
abbrev capBusDelay : Nat := 0xC002C
abbrev capRemote : Nat := 0xC0030
abbrev capTag : Nat := 0xC0034
abbrev capLpBase (k : Nat) : Nat := 0xC0038 + 0x4 * k
abbrev capLpLen : Nat := 0xC0040
abbrev capCtrl : Nat := 0xC0044
abbrev capState : Nat := 0xC0048
abbrev capStore : Nat := 0xC004C
abbrev capEvents : Nat := 0xC0050
abbrev capIrqEn : Nat := 0xC0054
abbrev capRdAddr : Nat := 0xC0058
abbrev capRdData : Nat := 0xC005C
abbrev capLast (k : Nat) : Nat := 0xC0060 + 0x4 * k
abbrev capStatClr : Nat := 0xC00A0
abbrev capCnt (k : Nat) : Nat := 0xC0100 + 0x4 * k
abbrev capChTrg (k : Nat) : Nat := 0xC0200 + 0x20 * k
abbrev capDeadband (k : Nat) : Nat := 0xC0204 + 0x20 * k
abbrev capHi (k : Nat) : Nat := 0xC0208 + 0x20 * k
abbrev capLo (k : Nat) : Nat := 0xC020C + 0x20 * k
abbrev capSlope (k : Nat) : Nat := 0xC0210 + 0x20 * k
abbrev capRoc (k : Nat) : Nat := 0xC0214 + 0x20 * k
abbrev capMaskCfg (k : Nat) : Nat := 0xC0400 + 0x100 * k
abbrev quePool : Nat := 0xD0010
abbrev quePoolMin : Nat := 0xD0014
abbrev queEvents : Nat := 0xD0018
abbrev queIrqEn : Nat := 0xD001C
abbrev queXoff : Nat := 0xD0020
abbrev queXoffCfg : Nat := 0xD0024
abbrev queMinSum : Nat := 0xD0028
abbrev queLastRefuse : Nat := 0xD002C
abbrev queStatClr : Nat := 0xD0030
abbrev queSel : Nat := 0xD0040
abbrev queQcfg : Nat := 0xD0044
abbrev queQlim : Nat := 0xD0048
abbrev queQwm : Nat := 0xD004C
abbrev queQpkts : Nat := 0xD0050
abbrev queQcells : Nat := 0xD0054
abbrev queQpeak : Nat := 0xD0058
abbrev queNonempty (k : Nat) : Nat := 0xD0100 + 0x4 * k
abbrev queAbove (k : Nat) : Nat := 0xD0200 + 0x4 * k
abbrev queCnt (k : Nat) : Nat := 0xD0300 + 0x4 * k
abbrev ethCfg (k : Nat) : Nat := 0xE0010 + 0x2000 * k
abbrev ethMacLo (k : Nat) : Nat := 0xE0014 + 0x2000 * k
abbrev ethMacHi (k : Nat) : Nat := 0xE0018 + 0x2000 * k
abbrev ethAddrCfg (k : Nat) : Nat := 0xE001C + 0x2000 * k
abbrev ethPeCfg (k : Nat) : Nat := 0xE0020 + 0x2000 * k
abbrev ethFlow (k : Nat) : Nat := 0xE0024 + 0x2000 * k
abbrev ethPfcTx (k : Nat) : Nat := 0xE0028 + 0x2000 * k
abbrev ethTxq (k : Nat) : Nat := 0xE002C + 0x2000 * k
abbrev ethMacsecCfg (k : Nat) : Nat := 0xE0030 + 0x2000 * k
abbrev ethMacsecWindow (k : Nat) : Nat := 0xE0034 + 0x2000 * k
abbrev ethMacsecPeerSciLo (k : Nat) : Nat := 0xE0038 + 0x2000 * k
abbrev ethMacsecPeerSciHi (k : Nat) : Nat := 0xE003C + 0x2000 * k
abbrev ethPlca (k : Nat) : Nat := 0xE0040 + 0x2000 * k
abbrev ethPlcaBurst (k : Nat) : Nat := 0xE0044 + 0x2000 * k
abbrev ethStatus (k : Nat) : Nat := 0xE0050 + 0x2000 * k
abbrev ethEvents (k : Nat) : Nat := 0xE0054 + 0x2000 * k
abbrev ethIrqEn (k : Nat) : Nat := 0xE0058 + 0x2000 * k
abbrev ethStatClr (k : Nat) : Nat := 0xE005C + 0x2000 * k
abbrev ethParseCfg : Nat := 0xEC010
abbrev ethParseClr : Nat := 0xEC020
abbrev ethParseCnt (k : Nat) : Nat := 0xEC100 + 0x4 * k
abbrev hshCfg : Nat := 0xF0010
abbrev hshId : Nat := 0xF0014
abbrev hshUid (k : Nat) : Nat := 0xF0018 + 0x4 * k
abbrev hshEtype : Nat := 0xF0020
abbrev hshUdpPort : Nat := 0xF0024
abbrev hshPorts : Nat := 0xF0028
abbrev hshUpId : Nat := 0xF002C
abbrev hshUpAddr (k : Nat) : Nat := 0xF0030 + 0x4 * k
abbrev hshGroupMacLo : Nat := 0xF0040
abbrev hshGroupMacHi : Nat := 0xF0044
abbrev hshVlan : Nat := 0xF0048
abbrev hshUpCfg : Nat := 0xF004C
abbrev hshUpFr : Nat := 0xF0050
abbrev hshAbsWindow : Nat := 0xF0054
abbrev hshHello : Nat := 0xF0058
abbrev hshRxQueue : Nat := 0xF005C
abbrev hshBind (k : Nat) : Nat := 0xF0064 + 0x4 * k
abbrev hshStatus : Nat := 0xF0080
abbrev hshEvents : Nat := 0xF0084
abbrev hshIrqEn : Nat := 0xF0088
abbrev hshDupInfo : Nat := 0xF008C
abbrev hshDupUid (k : Nat) : Nat := 0xF0090 + 0x4 * k
abbrev hshJoin (k : Nat) : Nat := 0xF0098 + 0x4 * k
abbrev hshAbsSel : Nat := 0xF00A0
abbrev hshAbsEntry (k : Nat) : Nat := 0xF00A4 + 0x4 * k
abbrev hshAbsClear : Nat := 0xF00C0
abbrev hshStatClr : Nat := 0xF00C4
abbrev hshCnt (k : Nat) : Nat := 0xF0100 + 0x4 * k
abbrev hshUpPh (k : Nat) : Nat := 0xF0200 + 0x4 * k
abbrev hshUpAn (k : Nat) : Nat := 0xF0300 + 0x4 * k
abbrev afeCfg : Nat := 0x1C0010
abbrev afeCommit : Nat := 0x1C0014
abbrev afeEvents : Nat := 0x1C0018
abbrev afeIrqEn : Nat := 0x1C001C
abbrev afeOwCtrl : Nat := 0x1C0020
abbrev afeOwCfg : Nat := 0x1C0024
abbrev afeOwOpstat : Nat := 0x1C0028
abbrev afeOwVerdict : Nat := 0x1C002C
abbrev afeCalCtrl : Nat := 0x1C0030
abbrev afeCalCfg : Nat := 0x1C0034
abbrev afeCalRef : Nat := 0x1C0038
abbrev afeCalOpstat : Nat := 0x1C003C
abbrev afeCalSave : Nat := 0x1C0040
abbrev afeStatClr : Nat := 0x1C0044
abbrev afeChCfg (k : Nat) : Nat := 0x1C0100 + 0x40 * k
abbrev afeOffset (k : Nat) : Nat := 0x1C0104 + 0x40 * k
abbrev afeGain (k : Nat) : Nat := 0x1C0108 + 0x40 * k
abbrev afeTrim (k : Nat) : Nat := 0x1C010C + 0x40 * k
abbrev afeDelay (k : Nat) : Nat := 0x1C0110 + 0x40 * k
abbrev afeScale (k : Nat) : Nat := 0x1C0114 + 0x40 * k
abbrev afeGdHalf (k : Nat) : Nat := 0x1C0118 + 0x40 * k
abbrev afeInUse (k : Nat) : Nat := 0x1C011C + 0x40 * k
abbrev afeCalOffset (k : Nat) : Nat := 0x1C0120 + 0x40 * k
abbrev afeCalGain (k : Nat) : Nat := 0x1C0124 + 0x40 * k
abbrev afeOwDv (k : Nat) : Nat := 0x1C0128 + 0x40 * k
abbrev afeClip (k : Nat) : Nat := 0x1C012C + 0x40 * k
abbrev afeLCfg (k : Nat) : Nat := 0x1C0600 + 0x20 * k
abbrev afeLStat (k : Nat) : Nat := 0x1C0604 + 0x20 * k
abbrev afeLLat (k : Nat) : Nat := 0x1C0608 + 0x20 * k
abbrev afeLEst (k : Nat) : Nat := 0x1C060C + 0x20 * k
abbrev fltSwap : Nat := 0x1D0010
abbrev fltSwapResult : Nat := 0x1D0014
abbrev fltStatus : Nat := 0x1D0018
abbrev fltActive : Nat := 0x1D001C
abbrev fltEvents : Nat := 0x1D0020
abbrev fltIrqEn : Nat := 0x1D0024
abbrev fltCoef (k : Nat) : Nat := 0x1D1000 + 0x4 * k
abbrev nrgCfg : Nat := 0x1E0010
abbrev nrgCreep (k : Nat) : Nat := 0x1E0014 + 0x4 * k
abbrev nrgHyst (k : Nat) : Nat := 0x1E001C + 0x4 * k
abbrev nrgZcCfg : Nat := 0x1E0024
abbrev nrgStatus : Nat := 0x1E0028
abbrev nrgDir : Nat := 0x1E002C
abbrev nrgEvents : Nat := 0x1E0030
abbrev nrgIrqEn : Nat := 0x1E0034
abbrev nrgIntSeq : Nat := 0x1E0038
abbrev nrgIntStart (k : Nat) : Nat := 0x1E003C + 0x4 * k
abbrev nrgCommit : Nat := 0x1E0044
abbrev nrgTotFull (k : Nat) : Nat := 0x1E0048 + 0x4 * k
abbrev nrgStatClr : Nat := 0x1E0050
abbrev nrgCnt (k : Nat) : Nat := 0x1E0100 + 0x4 * k
abbrev nrgPulseCfg (k : Nat) : Nat := 0x1E0200 + 0x10 * k
abbrev nrgPulseConst (k : Nat) : Nat := 0x1E0204 + 0x10 * k
abbrev nrgPulseWidth (k : Nat) : Nat := 0x1E0208 + 0x10 * k
abbrev nrgPulseStatus (k : Nat) : Nat := 0x1E020C + 0x10 * k
abbrev nrgPulseCount (k : Nat) : Nat := 0x1E0240 + 0x4 * k
abbrev nrgIntCfg (k : Nat) : Nat := 0x1E1000 + 0x4 * k
abbrev nrgIntCfgB (k : Nat) : Nat := 0x1E1800 + 0x4 * k
abbrev hstBase : Nat := 0x0
abbrev pwrBase : Nat := 0x10000
abbrev pceBase : Nat := 0x20000
abbrev timBase : Nat := 0x30000
abbrev keyBase : Nat := 0x40000
abbrev logBase : Nat := 0x50000
abbrev twnBase : Nat := 0x60000
abbrev vrdBase : Nat := 0x70000
abbrev dspBase : Nat := 0x80000
abbrev docBase : Nat := 0x88000
abbrev plnBase : Nat := 0x90000
abbrev vltBase : Nat := 0xA0000
abbrev accBase : Nat := 0xA8000
abbrev arcBase : Nat := 0xB0000
abbrev capBase : Nat := 0xC0000
abbrev queBase : Nat := 0xD0000
abbrev ethBase : Nat := 0xE0000
abbrev hshBase : Nat := 0xF0000
abbrev afeBase : Nat := 0x1C0000
abbrev fltBase : Nat := 0x1D0000
abbrev nrgBase : Nat := 0x1E0000

end Reg

/-- The rows of HST that host software can change. -/
def regSpecsHst : List RegSpec := [
  ⟨0x20, 0x0, 1, 0x0, 0x0, 0x3E, 0x0, []⟩,
  ⟨0x24, 0x0, 1, 0x3E, 0x0, 0x0, 0x0, []⟩,
  ⟨0x2C, 0x0, 1, 0x0, 0x0, 0x0, 0xFFFF0000, []⟩,
  ⟨0x30, 0x4, 2, 0xFFFFFFFF, 0x0, 0x0, 0x0, []⟩,
  ⟨0x50, 0x0, 1, 0x0, 0x77, 0x0, 0x0, [⟨6, 4, 0, 3, 0xF1⟩, ⟨2, 0, 0, 4, 0xF1⟩]⟩,
  ⟨0x5C, 0x0, 1, 0x3FF, 0x0, 0x0, 0x0, []⟩,
  ⟨0x60, 0x0, 1, 0x3, 0x0, 0x0, 0x0, [⟨1, 0, 0, 2, 0xF1⟩]⟩,
  ⟨0x100, 0x4, 64, 0x3F, 0x0, 0x0, 0x0, []⟩,
  ⟨0x200, 0x4, 32, 0xC00007FF, 0x0, 0x0, 0x0, []⟩,
  ⟨0x8000, 0x4, 256, 0xFFFFFFFF, 0x0, 0x0, 0x0, []⟩]

/-- The rows of PWR that host software can change. -/
def regSpecsPwr : List RegSpec := [
  ⟨0x10010, 0x0, 1, 0xF8003FFF, 0x0, 0x0, 0x0, [⟨13, 0, 1, 10000, 0x01⟩]⟩,
  ⟨0x10014, 0x0, 1, 0x3FFF, 0x0, 0x0, 0x0, [⟨13, 0, 9000, 12000, 0x01⟩]⟩,
  ⟨0x1001C, 0x0, 1, 0x0, 0x0, 0xFF, 0x0, []⟩,
  ⟨0x10020, 0x0, 1, 0xFF, 0x0, 0x0, 0x0, []⟩,
  ⟨0x1002C, 0x4, 2, 0xFFFFFFFF, 0x0, 0x0, 0x0, []⟩,
  ⟨0x10034, 0x4, 2, 0xFFFFFFFF, 0x0, 0x0, 0x0, []⟩,
  ⟨0x1003C, 0x4, 2, 0xFFFFFFFF, 0x0, 0x0, 0x0, []⟩,
  ⟨0x1004C, 0x0, 1, 0x3F1F, 0x0, 0x0, 0x0, []⟩,
  ⟨0x10064, 0x0, 1, 0x7FF, 0x0, 0x0, 0x0, [⟨10, 0, 900, 1300, 0xF1⟩]⟩,
  ⟨0x100A8, 0x4, 2, 0xFFFFFFFF, 0x0, 0x0, 0x0, []⟩,
  ⟨0x100B0, 0x0, 1, 0x7FFF, 0x0, 0x0, 0x0, []⟩]

/-- The rows of PCE that host software can change. -/
def regSpecsPce : List RegSpec := [
  ⟨0x20014, 0x0, 1, 0x0, 0x0, 0x0, 0xFFFFFFFF, []⟩,
  ⟨0x20020, 0x0, 1, 0x3F03, 0x0, 0x0, 0x0, [⟨13, 8, 0, 50, 0xF1⟩]⟩,
  ⟨0x20028, 0x0, 1, 0x3FF, 0x0, 0x0, 0x0, [⟨9, 0, 600, 850, 0x01⟩]⟩,
  ⟨0x20030, 0x0, 1, 0x0, 0x0, 0xF, 0x0, []⟩,
  ⟨0x20034, 0x0, 1, 0xF, 0x0, 0x0, 0x0, []⟩]

/-- The rows of TIM that host software can change. -/
def regSpecsTim : List RegSpec := [
  ⟨0x30010, 0x0, 1, 0x1FF, 0x0, 0x0, 0x0, [⟨7, 0, 1, 200, 0x08⟩]⟩,
  ⟨0x30018, 0x0, 1, 0x0, 0x0, 0x7F, 0x0, []⟩,
  ⟨0x3001C, 0x0, 1, 0x7F, 0x0, 0x0, 0x0, []⟩,
  ⟨0x30048, 0x0, 1, 0x0, 0xFFFF, 0x0, 0x0, []⟩,
  ⟨0x30050, 0x0, 1, 0xF007FFFF, 0x0, 0x0, 0x0, [⟨18, 0, 1, 500000, 0xF1⟩]⟩,
  ⟨0x30054, 0x0, 1, 0xFFFFFFFF, 0x0, 0x0, 0x0, []⟩,
  ⟨0x30064, 0x0, 1, 0xFFFFFFFF, 0x0, 0x0, 0x0, []⟩,
  ⟨0x30068, 0x0, 1, 0xF000FFFF, 0x0, 0x0, 0x0, [⟨31, 28, 0, 8, 0xF1⟩]⟩,
  ⟨0x3006C, 0x0, 1, 0xFFFFFFFF, 0x0, 0x0, 0x0, []⟩,
  ⟨0x30070, 0x0, 1, 0xFFFFFFFF, 0x0, 0x0, 0x0, []⟩,
  ⟨0x30080, 0x0, 1, 0xFFFFFFFF, 0x0, 0x0, 0x0, []⟩,
  ⟨0x30100, 0x80, 2, 0x701, 0x0, 0x0, 0x0, [⟨10, 8, 1, 7, 0xF1⟩]⟩,
  ⟨0x30128, 0x80, 2, 0xFFFFFFFF, 0x0, 0x0, 0x0, []⟩,
  ⟨0x3012C, 0x80, 2, 0xFFFFFFFF, 0x0, 0x0, 0x0, []⟩,
  ⟨0x30130, 0x80, 2, 0xFFFFFFFF, 0x0, 0x0, 0x0, []⟩,
  ⟨0x30134, 0x80, 2, 0xFFFFFFFF, 0x0, 0x0, 0x0, []⟩,
  ⟨0x30138, 0x80, 2, 0xFFFFFFFF, 0x0, 0x0, 0x0, []⟩,
  ⟨0x30144, 0x80, 2, 0xFFFFFFFF, 0x0, 0x0, 0x0, []⟩,
  ⟨0x30148, 0x80, 2, 0xFFFFFFFF, 0x0, 0x0, 0x0, []⟩,
  ⟨0x30400, 0x4, 128, 0xFFFFFFFF, 0x0, 0x0, 0x0, []⟩]

/-- The rows of KEY that host software can change. -/
def regSpecsKey : List RegSpec := [
  ⟨0x400A8, 0x0, 1, 0x0, 0x0, 0x1F, 0x0, []⟩,
  ⟨0x400AC, 0x0, 1, 0x1F, 0x0, 0x0, 0x0, []⟩]

/-- The rows of LOG that host software can change. -/
def regSpecsLog : List RegSpec := [
  ⟨0x50010, 0x0, 1, 0x1FFFF, 0x0, 0x0, 0x0, [⟨15, 0, 1, 60000, 0x02⟩]⟩,
  ⟨0x50020, 0x0, 1, 0xFFFFFFFF, 0x0, 0x0, 0x0, []⟩,
  ⟨0x5002C, 0x0, 1, 0x0, 0x0, 0xF, 0x0, []⟩,
  ⟨0x50030, 0x0, 1, 0xF, 0x0, 0x0, 0x0, []⟩]

/-- The rows of TWN that host software can change. -/
def regSpecsTwn : List RegSpec := [
  ⟨0x60010, 0x0, 1, 0x0, 0x30003, 0x0, 0x0, [⟨1, 0, 1, 2, 0xF1⟩]⟩,
  ⟨0x60014, 0x0, 1, 0x0, 0xFFFF, 0x0, 0x0, []⟩,
  ⟨0x60018, 0x0, 1, 0x0, 0xFFFFFFFF, 0x0, 0x0, []⟩,
  ⟨0x6001C, 0x0, 1, 0x0, 0xFFFF, 0x0, 0x0, []⟩,
  ⟨0x60020, 0x0, 1, 0x0, 0xFFFFFFFF, 0x0, 0x0, [⟨31, 16, 10, 10000, 0x01⟩, ⟨15, 0, 100, 10000, 0x01⟩]⟩,
  ⟨0x6002C, 0x0, 1, 0x0, 0x0, 0x3F, 0x0, []⟩,
  ⟨0x60030, 0x0, 1, 0x3F, 0x0, 0x0, 0x0, []⟩]

/-- The rows of VRD that host software can change. -/
def regSpecsVrd : List RegSpec := [
  ⟨0x70010, 0x0, 1, 0x0, 0x107FF, 0x0, 0x0, []⟩,
  ⟨0x70014, 0x0, 1, 0x0, 0xFFFF, 0x0, 0x0, []⟩,
  ⟨0x70020, 0x0, 1, 0xFFFFFFFF, 0x0, 0x0, 0x0, []⟩,
  ⟨0x70038, 0x0, 1, 0x0, 0x0, 0x0, 0xFFFF, []⟩,
  ⟨0x7003C, 0x0, 1, 0x0, 0x0, 0x7F, 0x0, []⟩,
  ⟨0x70040, 0x0, 1, 0x7F, 0x0, 0x0, 0x0, []⟩,
  ⟨0x70050, 0x0, 1, 0x10FFF, 0x0, 0x0, 0x0, []⟩,
  ⟨0x70070, 0x0, 1, 0xF0FFF, 0x0, 0x0, 0x0, []⟩,
  ⟨0x70080, 0x0, 1, 0xFF, 0x0, 0x0, 0x0, []⟩]

/-- The rows of DSP that host software can change. -/
def regSpecsDsp : List RegSpec := [
  ⟨0x80010, 0x4, 8, 0x0, 0x7FF, 0x0, 0x0, [⟨10, 0, 1, 1024, 0x01⟩]⟩,
  ⟨0x80058, 0x0, 1, 0x0, 0x0, 0x1F, 0x0, []⟩,
  ⟨0x8005C, 0x0, 1, 0x1F, 0x0, 0x0, 0x0, []⟩,
  ⟨0x80070, 0x0, 1, 0xFFFFFFFF, 0x0, 0x0, 0x0, []⟩,
  ⟨0x80200, 0x4, 8, 0x0, 0x0, 0x0, 0xFFFFFFFF, []⟩]

/-- The rows of DOC that host software can change. -/
def regSpecsDoc : List RegSpec := [
  ⟨0x88010, 0x0, 1, 0x0, 0x3, 0x0, 0x0, []⟩,
  ⟨0x8801C, 0x0, 1, 0x0, 0x0, 0x1F, 0x0, []⟩,
  ⟨0x88020, 0x0, 1, 0x1F, 0x0, 0x0, 0x0, []⟩,
  ⟨0x1800C0, 0x1000, 64, 0x1FFFF, 0x0, 0x0, 0x0, []⟩,
  ⟨0x1800C8, 0x1000, 64, 0xFFFFFFFF, 0x0, 0x0, 0x0, []⟩,
  ⟨0x1800D0, 0x1000, 64, 0x7FFF, 0x0, 0x0, 0x0, []⟩]

/-- The rows of PLN that host software can change. -/
def regSpecsPln : List RegSpec := [
  ⟨0x90014, 0x0, 1, 0xFFFFFFFF, 0x0, 0x0, 0x0, []⟩,
  ⟨0x90018, 0x0, 1, 0xFFFFFFFF, 0x0, 0x0, 0x0, []⟩,
  ⟨0x9001C, 0x0, 1, 0x7FFFFF, 0x0, 0x0, 0x0, []⟩,
  ⟨0x90030, 0x0, 1, 0xFFFFFFFF, 0x0, 0x0, 0x0, []⟩,
  ⟨0x90034, 0x0, 1, 0xFFFF, 0x0, 0x0, 0x0, []⟩,
  ⟨0x90094, 0x0, 1, 0x0, 0x0, 0x3F, 0x0, []⟩,
  ⟨0x90098, 0x0, 1, 0x3F, 0x0, 0x0, 0x0, []⟩]

/-- The rows of VLT that host software can change. -/
def regSpecsVlt : List RegSpec := [
  ⟨0xA0010, 0x0, 1, 0x0, 0x1FFFF, 0x0, 0x0, [⟨15, 0, 1, 9728, 0x04⟩]⟩,
  ⟨0xA001C, 0x0, 1, 0x0, 0x0, 0x0, 0x3FFF, []⟩,
  ⟨0xA0034, 0x0, 1, 0x0, 0x0, 0x7F, 0x0, []⟩,
  ⟨0xA0038, 0x0, 1, 0x7F, 0x0, 0x0, 0x0, []⟩,
  ⟨0xA0044, 0x0, 1, 0xFFFFFFFF, 0x0, 0x0, 0x0, []⟩,
  ⟨0xA0048, 0x0, 1, 0xFFFF, 0x0, 0x0, 0x0, []⟩,
  ⟨0xA0070, 0x0, 1, 0x17FFF, 0x0, 0x0, 0x0, []⟩,
  ⟨0xA00C0, 0x10, 2, 0xFFFFFFFF, 0x0, 0x0, 0x0, []⟩,
  ⟨0xA00C4, 0x10, 2, 0xFFFF, 0x0, 0x0, 0x0, []⟩]

/-- The rows of ACC that host software can change. -/
def regSpecsAcc : List RegSpec := [
  ⟨0xA8010, 0x0, 1, 0x0, 0xFFFFC3FF, 0x0, 0x0, [⟨31, 16, 1, 60000, 0xF1⟩, ⟨9, 0, 1, 1000, 0xF1⟩]⟩,
  ⟨0xA8014, 0x0, 1, 0x0, 0xFFFFFFFF, 0x0, 0x0, []⟩,
  ⟨0xA8028, 0x0, 1, 0x0, 0x0, 0xF, 0x0, []⟩,
  ⟨0xA802C, 0x0, 1, 0xF, 0x0, 0x0, 0x0, []⟩]

/-- The rows of ARC that host software can change. -/
def regSpecsArc : List RegSpec := [
  ⟨0xB0010, 0x0, 1, 0x0, 0xFE00FFFF, 0x0, 0x0, [⟨30, 29, 0, 2, 0xF1⟩]⟩,
  ⟨0xB0014, 0x0, 1, 0x7FF, 0x0, 0x0, 0x0, [⟨10, 0, 1, 1032, 0x09⟩]⟩,
  ⟨0xB0018, 0x4, 2, 0x0, 0xFFFFFFFF, 0x0, 0x0, []⟩,
  ⟨0xB0020, 0x0, 1, 0x0, 0xFFFFFFFF, 0x0, 0x0, []⟩,
  ⟨0xB0028, 0x0, 1, 0xFFFFFFFF, 0x0, 0x0, 0x0, []⟩,
  ⟨0xB0040, 0x4, 8, 0xFFFFFFFF, 0x0, 0x0, 0x0, []⟩,
  ⟨0xB007C, 0x0, 1, 0x0, 0x0, 0x1F, 0x0, []⟩,
  ⟨0xB0080, 0x0, 1, 0x1F, 0x0, 0x0, 0x0, []⟩]

/-- The rows of CAP that host software can change. -/
def regSpecsCap : List RegSpec := [
  ⟨0xC0010, 0x0, 1, 0x0, 0xFFFF0023, 0x0, 0x0, [⟨1, 0, 0, 2, 0xF1⟩]⟩,
  ⟨0xC0014, 0x0, 1, 0x0, 0xFFFFFFFF, 0x0, 0x0, [⟨31, 16, 1, 2000, 0x05⟩, ⟨15, 0, 1, 60000, 0x05⟩]⟩,
  ⟨0xC0018, 0x0, 1, 0x0, 0xFFFFFFFF, 0x0, 0x0, [⟨31, 0, 1, 600000, 0x05⟩]⟩,
  ⟨0xC001C, 0x0, 1, 0x0, 0xFF, 0x0, 0x0, []⟩,
  ⟨0xC0020, 0x0, 1, 0x0, 0xFFFF, 0x0, 0x0, []⟩,
  ⟨0xC0024, 0x0, 1, 0x0, 0xFFFFFFFF, 0x0, 0x0, [⟨15, 0, 1, 1000, 0xF1⟩]⟩,
  ⟨0xC0028, 0x0, 1, 0x0, 0xFFFFFFFF, 0x0, 0x0, [⟨31, 0, 10, 10000, 0xF1⟩]⟩,
  ⟨0xC002C, 0x0, 1, 0x0, 0xFFFFFFFF, 0x0, 0x0, []⟩,
  ⟨0xC0030, 0x0, 1, 0x0, 0xFF0FF00, 0x0, 0x0, []⟩,
  ⟨0xC0034, 0x0, 1, 0xFFFF, 0x0, 0x0, 0x0, []⟩,
  ⟨0xC0038, 0x4, 2, 0x0, 0xFFFFFFFF, 0x0, 0x0, []⟩,
  ⟨0xC0040, 0x0, 1, 0x0, 0xFFFFFFFF, 0x0, 0x0, []⟩,
  ⟨0xC0050, 0x0, 1, 0x0, 0x0, 0x1F, 0x0, []⟩,
  ⟨0xC0054, 0x0, 1, 0x1F, 0x0, 0x0, 0x0, []⟩,
  ⟨0xC0058, 0x0, 1, 0x3FFFFF, 0x0, 0x0, 0x0, []⟩,
  ⟨0xC0200, 0x20, 16, 0x0, 0xFF0007, 0x0, 0x0, [⟨23, 16, 1, 255, 0xF1⟩]⟩,
  ⟨0xC0204, 0x20, 16, 0x0, 0x7FFFFF, 0x0, 0x0, []⟩,
  ⟨0xC0208, 0x20, 16, 0x0, 0xFFFFFFFF, 0x0, 0x0, []⟩,
  ⟨0xC020C, 0x20, 16, 0x0, 0xFFFFFFFF, 0x0, 0x0, []⟩,
  ⟨0xC0210, 0x20, 16, 0x0, 0xFFFFFFFF, 0x0, 0x0, []⟩,
  ⟨0xC0214, 0x20, 16, 0x0, 0xFFFFFFFF, 0x0, 0x0, []⟩,
  ⟨0xC0400, 0x100, 8, 0x0, 0x82FF0000, 0x0, 0x0, []⟩]

/-- The rows of QUE that host software can change. -/
def regSpecsQue : List RegSpec := [
  ⟨0xD0014, 0x0, 1, 0x0, 0x0, 0x0, 0x1FFFF, []⟩,
  ⟨0xD0018, 0x0, 1, 0x0, 0x0, 0x7, 0x0, []⟩,
  ⟨0xD001C, 0x0, 1, 0x7, 0x0, 0x0, 0x0, []⟩,
  ⟨0xD0024, 0x0, 1, 0x0, 0xFFFF, 0x0, 0x0, []⟩,
  ⟨0xD0040, 0x0, 1, 0x7FF, 0x0, 0x0, 0x0, []⟩]

/-- The rows of ETH that host software can change. -/
def regSpecsEth : List RegSpec := [
  ⟨0xE0010, 0x2000, 6, 0x0, 0x3FFF0337, 0x0, 0x0, [⟨5, 4, 0, 2, 0xF1⟩, ⟨2, 0, 0, 4, 0xF1⟩]⟩,
  ⟨0xE0014, 0x2000, 6, 0x0, 0xFFFFFFFF, 0x0, 0x0, []⟩,
  ⟨0xE0018, 0x2000, 6, 0x0, 0xFFFF, 0x0, 0x0, []⟩,
  ⟨0xE001C, 0x2000, 6, 0x0, 0x3, 0x0, 0x0, []⟩,
  ⟨0xE0020, 0x2000, 6, 0x0, 0x7F0D, 0x0, 0x0, []⟩,
  ⟨0xE0024, 0x2000, 6, 0x0, 0xFFFF0F7C, 0x0, 0x0, []⟩,
  ⟨0xE0028, 0x2000, 6, 0x0, 0xFF, 0x0, 0x0, []⟩,
  ⟨0xE002C, 0x2000, 6, 0x0, 0x7FF07FF, 0x0, 0x0, []⟩,
  ⟨0xE0030, 0x2000, 6, 0x0, 0xF, 0x0, 0x0, []⟩,
  ⟨0xE0034, 0x2000, 6, 0x0, 0xFFFFFFFF, 0x0, 0x0, []⟩,
  ⟨0xE0038, 0x2000, 6, 0x0, 0xFFFFFFFF, 0x0, 0x0, []⟩,
  ⟨0xE003C, 0x2000, 6, 0x0, 0xFFFFFFFF, 0x0, 0x0, []⟩,
  ⟨0xE0040, 0x2000, 6, 0x0, 0x80FFFFFF, 0x0, 0x0, []⟩,
  ⟨0xE0044, 0x2000, 6, 0x0, 0xFFFF, 0x0, 0x0, []⟩,
  ⟨0xE0054, 0x2000, 6, 0x0, 0x0, 0x1F, 0x0, []⟩,
  ⟨0xE0058, 0x2000, 6, 0x1F, 0x0, 0x0, 0x0, []⟩,
  ⟨0xEC010, 0x0, 1, 0x0, 0x7FF07FF, 0x0, 0x0, []⟩]

/-- The rows of HSH that host software can change. -/
def regSpecsHsh : List RegSpec := [
  ⟨0xF0010, 0x0, 1, 0x0, 0xFF3F0F80, 0x0, 0x0, [⟨31, 24, 1, 255, 0xF1⟩, ⟨11, 10, 0, 2, 0xF1⟩, ⟨9, 8, 0, 2, 0xF1⟩]⟩,
  ⟨0xF0014, 0x0, 1, 0x0, 0xFFFF, 0x0, 0x0, [⟨15, 0, 0, 65534, 0x01⟩]⟩,
  ⟨0xF0020, 0x0, 1, 0x0, 0xFFFF, 0x0, 0x0, []⟩,
  ⟨0xF0024, 0x0, 1, 0x0, 0xFFFF, 0x0, 0x0, []⟩,
  ⟨0xF0028, 0x0, 1, 0x0, 0x707, 0x0, 0x0, [⟨10, 8, 0, 5, 0xF1⟩, ⟨2, 0, 0, 5, 0xF1⟩]⟩,
  ⟨0xF002C, 0x0, 1, 0x0, 0xFFFF, 0x0, 0x0, []⟩,
  ⟨0xF0030, 0x4, 4, 0x0, 0xFFFFFFFF, 0x0, 0x0, []⟩,
  ⟨0xF0040, 0x0, 1, 0x0, 0xFFFFFFFF, 0x0, 0x0, []⟩,
  ⟨0xF0044, 0x0, 1, 0x0, 0xFFFF, 0x0, 0x0, []⟩,
  ⟨0xF0048, 0x0, 1, 0x0, 0x7EFFF, 0x0, 0x0, []⟩,
  ⟨0xF004C, 0x0, 1, 0x0, 0xFF7F1F00, 0x0, 0x0, []⟩,
  ⟨0xF0050, 0x0, 1, 0x0, 0x8FFF8FFF, 0x0, 0x0, []⟩,
  ⟨0xF0054, 0x0, 1, 0x0, 0xFFFF, 0x0, 0x0, [⟨15, 0, 1, 60000, 0x09⟩]⟩,
  ⟨0xF0058, 0x0, 1, 0x0, 0xFFFF, 0x0, 0x0, [⟨15, 0, 100, 10000, 0x09⟩]⟩,
  ⟨0xF005C, 0x0, 1, 0x0, 0x7FF, 0x0, 0x0, []⟩,
  ⟨0xF0064, 0x4, 6, 0x0, 0xC00000FF, 0x0, 0x0, []⟩,
  ⟨0xF0084, 0x0, 1, 0x0, 0x0, 0x3F, 0x0, []⟩,
  ⟨0xF0088, 0x0, 1, 0x3F, 0x0, 0x0, 0x0, []⟩,
  ⟨0xF00A0, 0x0, 1, 0x7FF, 0x0, 0x0, 0x0, [⟨10, 0, 0, 1024, 0xF1⟩]⟩,
  ⟨0xF0200, 0x4, 64, 0x0, 0x8003FFFF, 0x0, 0x0, []⟩,
  ⟨0xF0300, 0x4, 16, 0x0, 0x80000FFF, 0x0, 0x0, []⟩]

/-- The rows of AFE that host software can change. -/
def regSpecsAfe : List RegSpec := [
  ⟨0x1C0010, 0x0, 1, 0x0, 0xFFFF, 0x0, 0x0, []⟩,
  ⟨0x1C0018, 0x0, 1, 0x0, 0x0, 0xF, 0x0, []⟩,
  ⟨0x1C001C, 0x0, 1, 0xF, 0x0, 0x0, 0x0, []⟩,
  ⟨0x1C0024, 0x0, 1, 0x3FFFFF, 0x0, 0x0, 0x0, [⟨21, 20, 0, 2, 0xF1⟩, ⟨19, 16, 1, 15, 0xF1⟩, ⟨15, 0, 1, 2400, 0xF1⟩]⟩,
  ⟨0x1C0034, 0x0, 1, 0xFFFF, 0x0, 0x0, 0x0, [⟨15, 0, 10, 10000, 0xF1⟩]⟩,
  ⟨0x1C0038, 0x0, 1, 0xFFFFFFFF, 0x0, 0x0, 0x0, []⟩,
  ⟨0x1C0100, 0x40, 16, 0x0, 0xF770007F, 0x0, 0x0, [⟨31, 28, 0, 7, 0xF1⟩, ⟨26, 24, 3, 5, 0x02⟩, ⟨6, 0, 1, 96, 0x02⟩]⟩,
  ⟨0x1C0104, 0x40, 16, 0xFFFFFFFF, 0x0, 0x0, 0x0, []⟩,
  ⟨0x1C0108, 0x40, 16, 0xFFFFFFFF, 0x0, 0x0, 0x0, []⟩,
  ⟨0x1C010C, 0x40, 16, 0xFFFFFFFF, 0x0, 0x0, 0x0, []⟩,
  ⟨0x1C0110, 0x40, 16, 0xFFFF, 0x0, 0x0, 0x0, []⟩,
  ⟨0x1C0114, 0x40, 16, 0xFFFFFFFF, 0x0, 0x0, 0x0, []⟩,
  ⟨0x1C0600, 0x20, 4, 0x6FFFFFFF, 0x0, 0x0, 0x0, []⟩]

/-- The rows of FLT that host software can change. -/
def regSpecsFlt : List RegSpec := [
  ⟨0x1D0020, 0x0, 1, 0x0, 0x0, 0x3, 0x0, []⟩,
  ⟨0x1D0024, 0x0, 1, 0x3, 0x0, 0x0, 0x0, []⟩,
  ⟨0x1D1000, 0x4, 4096, 0xFFFFFFFF, 0x0, 0x0, 0x0, []⟩]

/-- The rows of NRG that host software can change. -/
def regSpecsNrg : List RegSpec := [
  ⟨0x1E0010, 0x0, 1, 0x0, 0xFFFFFF03, 0x0, 0x0, []⟩,
  ⟨0x1E0014, 0x4, 2, 0x0, 0xFFFFFFFF, 0x0, 0x0, []⟩,
  ⟨0x1E001C, 0x4, 2, 0x0, 0xFFFFFFFF, 0x0, 0x0, []⟩,
  ⟨0x1E0024, 0x0, 1, 0x0, 0xFFFFFFFF, 0x0, 0x0, [⟨31, 16, 10, 1000, 0xF1⟩]⟩,
  ⟨0x1E0030, 0x0, 1, 0x0, 0x0, 0x7F, 0x0, []⟩,
  ⟨0x1E0034, 0x0, 1, 0x7F, 0x0, 0x0, 0x0, []⟩,
  ⟨0x1E0200, 0x10, 4, 0xF0F30000, 0x0, 0x0, 0x0, [⟨23, 20, 0, 6, 0xF1⟩]⟩,
  ⟨0x1E0204, 0x10, 4, 0xFFFFFFFF, 0x0, 0x0, 0x0, []⟩,
  ⟨0x1E0208, 0x10, 4, 0xFFFF, 0x0, 0x0, 0x0, []⟩,
  ⟨0x1E1000, 0x4, 32, 0x0, 0xF330001F, 0x0, 0x0, [⟨25, 24, 0, 2, 0xF1⟩]⟩,
  ⟨0x1E1800, 0x4, 32, 0x0, 0xF330001F, 0x0, 0x0, [⟨25, 24, 0, 2, 0xF1⟩]⟩]

/-- ETH_ADDR_MATCH of ports 0–5 (section 10.9). -/
def regSpecsEthMatch : List RegSpec := [
  ⟨0xE0060, 8, 16, 0xFFFFFFFF, 0, 0, 0, []⟩,
  ⟨0xE0064, 8, 16, 0x8000FFFF, 0, 0, 0, []⟩,
  ⟨0xE2060, 8, 16, 0xFFFFFFFF, 0, 0, 0, []⟩,
  ⟨0xE2064, 8, 16, 0x8000FFFF, 0, 0, 0, []⟩,
  ⟨0xE4060, 8, 16, 0xFFFFFFFF, 0, 0, 0, []⟩,
  ⟨0xE4064, 8, 16, 0x8000FFFF, 0, 0, 0, []⟩,
  ⟨0xE6060, 8, 16, 0xFFFFFFFF, 0, 0, 0, []⟩,
  ⟨0xE6064, 8, 16, 0x8000FFFF, 0, 0, 0, []⟩,
  ⟨0xE8060, 8, 16, 0xFFFFFFFF, 0, 0, 0, []⟩,
  ⟨0xE8064, 8, 16, 0x8000FFFF, 0, 0, 0, []⟩,
  ⟨0xEA060, 8, 16, 0xFFFFFFFF, 0, 0, 0, []⟩,
  ⟨0xEA064, 8, 16, 0x8000FFFF, 0, 0, 0, []⟩]

/-- Segment words of the capture masks (section 15.6). -/
def regSpecsCapSeg : List RegSpec := [
  ⟨0xC0404, 4, 48, 0, 0xFFFFFFFF, 0, 0, []⟩,
  ⟨0xC0504, 4, 48, 0, 0xFFFFFFFF, 0, 0, []⟩,
  ⟨0xC0604, 4, 48, 0, 0xFFFFFFFF, 0, 0, []⟩,
  ⟨0xC0704, 4, 48, 0, 0xFFFFFFFF, 0, 0, []⟩,
  ⟨0xC0804, 4, 48, 0, 0xFFFFFFFF, 0, 0, []⟩,
  ⟨0xC0904, 4, 48, 0, 0xFFFFFFFF, 0, 0, []⟩,
  ⟨0xC0A04, 4, 48, 0, 0xFFFFFFFF, 0, 0, []⟩,
  ⟨0xC0B04, 4, 48, 0, 0xFFFFFFFF, 0, 0, []⟩]

/-- The rows of the block whose region holds the address (Table 21.2). -/
def regSpecsAt (a : Nat) : List RegSpec :=
  if a < 0x10000 then regSpecsHst
  else if a < 0x20000 then regSpecsPwr
  else if a < 0x30000 then regSpecsPce
  else if a < 0x40000 then regSpecsTim
  else if a < 0x50000 then regSpecsKey
  else if a < 0x60000 then regSpecsLog
  else if a < 0x70000 then regSpecsTwn
  else if a < 0x80000 then regSpecsVrd
  else if a < 0x88000 then regSpecsDsp
  else if a < 0x90000 then regSpecsDoc
  else if a < 0xA0000 then regSpecsPln
  else if a < 0xA8000 then regSpecsVlt
  else if a < 0xB0000 then regSpecsAcc
  else if a < 0xC0000 then regSpecsArc
  else if a < 0xD0000 then regSpecsCap ++ regSpecsCapSeg
  else if a < 0xE0000 then regSpecsQue
  else if a < 0xF0000 then regSpecsEth ++ regSpecsEthMatch
  else if a < 0x100000 then regSpecsHsh
  else if a < 0x180000 then []
  else if a < 0x1C0000 then regSpecsDoc
  else if a < 0x1D0000 then regSpecsAfe
  else if a < 0x1E0000 then regSpecsFlt
  else if a < 0x1F0000 then regSpecsNrg
  else []

/-- Is the address one of base + stride × k, k < count? -/
def inArr (a base stride count : Nat) : Bool :=
  base ≤ a && a < base + stride * count && (a - base) % stride == 0

/-- The reset values of AFE CH_CFG: the roles of Table 13.1 over ORDER 4, RCODE 4, TAPS 96. -/
def chCfgReset (c : Nat) : BitVec 32 :=
  BitVec.ofNat 32 (0x04400060 + 0x10000000 * (if c = 14 then 0 else if c = 15 then 0 else c % 7 + 1))

/-- The value a register holds at reset: the reset value of its line or field table; 0 where the tables say
0. Part-dependent registers have the GLD-9600 value (DESIGN CHOICE, log entry 5). The MSI-X table's are "Per PCIe":
every vector masked (PRESUMED, log entry 29). -/
def regReset (a : Nat) : BitVec 32 :=
  if inArr a 0x100 4 64 then BitVec.ofNat 32 ((a - 0x100) / 4)
  else if inArr a 0x1C0100 0x40 16 then chCfgReset ((a - 0x1C0100) / 0x40)
  else if a = 0x1C0600 then 0x7F#32
  else if a = 0x1C0620 then 0x3F80#32
  else if a = 0x0 then 0x1#32
  else if inArr a 0x800C 0x10 64 then 0x1#32
  else if a = 0x10 then 0x96000000#32
  else if a = 0x14 then 0x10101#32
  else if a = 0x18 then 0x3F3FFFFE#32
  else if a = 0x44 then 0x96001D7C#32
  else if a = 0x10010 then 0x64#32
  else if a = 0x10014 then 0x2710#32
  else if a = 0x10044 then 0x1#32
  else if a = 0x10064 then 0x384#32
  else if a = 0x20014 then 0xFFFFFFFF#32
  else if a = 0x2001C then 0x3840000#32
  else if a = 0x20020 then 0x1E01#32
  else if a = 0x20024 then 0x352#32
  else if a = 0x20028 then 0x352#32
  else if a = 0x30010 then 0x1C8#32
  else if a = 0x3003C then 0x7F0F#32
  else if a = 0x30040 then 0xFFFFFFFF#32
  else if a = 0x30044 then 0x80000000#32
  else if a = 0x30048 then 0xA#32
  else if a = 0x30050 then 0x186A0#32
  else if a = 0x30068 then 0x20000064#32
  else if a = 0x3006C then 0x3E8#32
  else if a = 0x30070 then 0x64#32
  else if a = 0x30080 then 0x7A120#32
  else if inArr a 0x30100 0x80 2 then 0x400#32
  else if inArr a 0x30144 0x80 2 then 0x3E8#32
  else if inArr a 0x30148 0x80 2 then 0x2710#32
  else if inArr a 0x3014C 0x80 2 then 0xFFFFFFFF#32
  else if inArr a 0x30150 0x80 2 then 0xFFFFFFFF#32
  else if a = 0x50010 then 0x3E8#32
  else if a = 0x60020 then 0xFA07D0#32
  else if inArr a 0x80010 0x4 8 then 0x80#32
  else if a = 0x88010 then 0x1#32
  else if a = 0xA0010 then 0x10100#32
  else if a = 0xA0018 then 0x2002600#32
  else if a = 0xA001C then 0x2600#32
  else if a = 0xA8010 then 0x7D00032#32
  else if a = 0xA8018 then 0x80000000#32
  else if a = 0xB0014 then 0x40#32
  else if a = 0xC0014 then 0x6401F4#32
  else if a = 0xC0018 then 0x2710#32
  else if a = 0xC001C then 0xFF#32
  else if a = 0xC0028 then 0x7D0#32
  else if inArr a 0xC0200 0x20 16 then 0xFF0000#32
  else if inArr a 0xC0208 0x20 16 then 0x7FFFFFFF#32
  else if inArr a 0xC020C 0x20 16 then 0x80000000#32
  else if inArr a 0xC0210 0x20 16 then 0xFFFFFFFF#32
  else if inArr a 0xC0214 0x20 16 then 0xFFFFFFFF#32
  else if a = 0xD0010 then 0x10000#32
  else if a = 0xD0014 then 0x10000#32
  else if a = 0xD0028 then 0x1A80#32
  else if inArr a 0xE0010 0x2000 6 then 0x5F20000#32
  else if inArr a 0xE001C 0x2000 6 then 0x1#32
  else if inArr a 0xE0020 0x2000 6 then 0x900#32
  else if inArr a 0xE0024 0x2000 6 then 0xFFFF0760#32
  else if inArr a 0xE0030 0x2000 6 then 0x8#32
  else if inArr a 0xE0040 0x2000 6 then 0xFF0820#32
  else if inArr a 0xE0044 0x2000 6 then 0x8000#32
  else if a = 0xF0010 then 0x10140000#32
  else if a = 0xF0020 then 0x88B5#32
  else if a = 0xF0028 then 0x100#32
  else if a = 0xF0040 then 0x485348#32
  else if a = 0xF0044 then 0x300#32
  else if a = 0xF0048 then 0x4C000#32
  else if a = 0xF004C then 0x1000000#32
  else if a = 0xF0054 then 0x3E8#32
  else if a = 0xF0058 then 0x3E8#32
  else if inArr a 0xF0064 0x4 6 then 0x40000000#32
  else if a = 0x1C0024 then 0x20032#32
  else if a = 0x1C0034 then 0x64#32
  else if inArr a 0x1C0108 0x40 16 then 0x40000000#32
  else if inArr a 0x1C010C 0x40 16 then 0x40000000#32
  else if inArr a 0x1C0114 0x40 16 then 0x3F800000#32
  else if a = 0x1E0010 then 0x38400000#32
  else if inArr a 0x1E0014 0x4 2 then 0x447A0000#32
  else if inArr a 0x1E001C 0x4 2 then 0x43FA0000#32
  else if a = 0x1E0024 then 0x64028F#32
  else if inArr a 0x1E0208 0x10 4 then 0x64#32
  else 0#32

/-- The first row whose registers include the address. -/
def findSpec (l : List RegSpec) (a : Nat) : Option RegSpec :=
  l.find? (fun r => r.base = a || (r.count ≠ 1 && inArr a r.base r.stride r.count))

end Sys2Proof.Machine
end

