-- ==== Sys2Proof/Machine/Sparse.lean ====
section
/-! DEFINITION. Sparse tables: reading, writing and the canonical form. A table is a list of (key, value)
pairs; a key that is not listed reads as the default of that key. The canonical form has keys strictly rising
and lists no value equal to its key's default, so equal tables are equal lists. -/

namespace Sys2Proof.Machine

variable {β : Type}

/-- The value at a key; d is what an unlisted key reads as. -/
def smGet (d : β) (m : SMap β) (k : Nat) : β :=
  match m with
  | [] => d
  | (k', v) :: r => if k' = k then v else smGet d r k

/-- The value at a key, none when it is not listed. -/
def smFind (m : SMap β) (k : Nat) : Option β :=
  match m with
  | [] => none
  | (k', v) :: r => if k' = k then some v else smFind r k

/-- Drops a key. -/
def smErase (m : SMap β) (k : Nat) : SMap β :=
  match m with
  | [] => []
  | (k', v) :: r => if k' = k then smErase r k else (k', v) :: smErase r k

/-- Inserts a key that is not listed, before the first larger key. -/
def smInsert (m : SMap β) (k : Nat) (v : β) : SMap β :=
  match m with
  | [] => [(k, v)]
  | (k', v') :: r => if k < k' then (k, v) :: (k', v') :: r else (k', v') :: smInsert r k v

/-- Writes a key; writing the value an unlisted key reads as removes the entry. -/
def smPut [DecidableEq β] (d : β) (m : SMap β) (k : Nat) (v : β) : SMap β :=
  if v = d then smErase m k else smInsert (smErase m k) k v

/-- Writes a key whatever the value. -/
def smSet (m : SMap β) (k : Nat) (v : β) : SMap β := smInsert (smErase m k) k v

/-- Every key is above the bound and below the next. -/
def smSorted (m : SMap β) : Bool :=
  match m with
  | [] => true
  | (k, _) :: r => (match r with
      | [] => true
      | (k', _) :: _ => decide (k < k')) && smSorted r

/-- The canonical form. -/
def smWf [DecidableEq β] (d : Nat → β) (m : SMap β) : Bool :=
  smSorted m && m.all (fun p => decide (p.2 ≠ d p.1))

end Sys2Proof.Machine
end

