-- ==== Sys2Proof/Machine/State.lean ====
section
/-! DEFINITION. The state of the GLD-9600: the register file and everything the chapters give the machine beside
it, as plain data, and the machine right after reset (power-on, before the start-up ladder). -/

namespace Sys2Proof.Machine

/-! ## Host interface (21_host_interface.md) -/

/-- The two parts of Table 0.2. -/
inductive Part where
  | gld9600
  | gld9610
  deriving DecidableEq, Repr

/-- The latch of one host port (R17, R587): the words latched by its last low-word read. -/
structure Latch where
  tag : Nat
  words : SMap Word
  deriving DecidableEq, Repr

/-- What the host side of the device holds beside registers. -/
structure HostSt where
  latch : SMap Latch                 -- port ↦ latch (0 PCIe, 1 SPI)
  resp : List Word                   -- words the last read returned (output)
  spiDropped : Bool                  -- the previous SPI write transaction was dropped (R596)
  spiStatus : Nat                    -- status byte of the last SPI transaction (output, R596)
  heldCtrl : SMap (List Bool)        -- block base ↦ BLK_CTRL writes held during CHECK (R584)
  linkSpeed : Nat                    -- 0 while the link is down
  linkWidth : Nat
  busMaster : Bool
  msixEn : Bool
  funcMask : Bool
  vecPend : Nat                      -- bit v: vector v is pending (R590)
  msixPba : Nat                      -- bit v: a message is owed while masked (PBA)
  msiSent : List Nat                 -- vectors whose message was sent, newest first (output)
  vio : Nat                          -- bit b: VIO of bank A–D present (R613)
  mram : SMap Byte                   -- MRAM bytes outside the areas held as records
  ddr : SMap Byte                    -- LPDDR5X bytes (R594, R595)
  ddrTrained : Bool
  ddrLocked : Bool                   -- HST_DDR_CFG locked from START until the next reset (R594)
  hostMem : SMap Byte                -- bytes the device wrote to host memory (output)
  deriving DecidableEq, Repr

/-! ## Logbook (20_logbook.md) -/

/-- An event in the staging FIFO (R563, R564). -/
structure LogEvent where
  event : Nat
  source : Nat
  tai : Nat
  data : List Byte
  grant : Nat                        -- raw time of the grant
  keep : Bool
  deriving DecidableEq, Repr

/-- A logbook record (Table 20.1); its CRC is formed when it is read. -/
structure LogRec where
  recnum : Nat
  opSeconds : Nat
  powerCycles : Nat
  event : Nat
  source : Nat
  tai : Nat
  data : List Byte
  rep : Nat
  keep : Bool
  brace : Bool
  deriving DecidableEq, Repr

/-- One slot of the lifetime store (R571): generation, counters, calendar, floors. -/
structure LifeSlot where
  gen : Nat
  counters : List Nat
  firstTai : Nat
  lastTai : Nat
  tjMax : Nat
  floor : Nat
  pend : Option (Nat × Nat)          -- pending floor and its message counter (R569)
  deriving DecidableEq, Repr

structure LogSt where
  ring : SMap LogRec                 -- position ↦ record; an unlisted position is not valid
  fifo : List LogEvent               -- oldest first, at most 64
  fifoPeak : Nat
  next : Nat                         -- RECNUM the next record takes
  newestGrant : Nat                  -- grant time of the last occurrence the newest record covers
  foldable : Bool                    -- the newest record exists and no clear has passed it
  lost : Nat                         -- events lost since record 0x0641 was last written
  lostFirst : Nat                    -- EVENT of the first of them
  brace : Bool                       -- a brace is in progress (R565)
  floor : Nat
  pendFloor : Option (Nat × Nat)
  lifeSat : Nat                      -- bit k: counter k has saturated (R572)
  slot0 : Option LifeSlot
  slot1 : Option LifeSlot
  firstTai : Nat
  lastTai : Nat
  lifeAt : Nat                       -- raw second up to which the second counters count
  lifeSec : Option Nat               -- raw second of the last periodic commit (R571)
  wearSteps : Nat                    -- thresholds of R573 already reached
  clearPos : Option (Nat × Nat)      -- background pass: next position, positions left (R569)
  window : SMap (Nat × List Byte)    -- port ↦ status and bytes of its last latch (R567)
  deriving DecidableEq, Repr

/-! ## Time base (12_time_base.md) -/

/-- The values of one domain (R384). -/
structure DomVals where
  s : Nat
  ns : Nat
  sub : Nat
  rate : Int
  anchor : Nat
  deriving DecidableEq, Repr

/-- The states of Table 12.1. -/
inductive DomState where
  | free
  | locked
  | holdover
  | lost
  deriving DecidableEq, Repr

structure Domain where
  vals : DomVals
  gen : Nat
  errLast : Nat                      -- ERR_LAST in 1/8 ns (R386)
  lastLock : Option Nat              -- raw time of the last lock update
  st : DomState
  sourceJump : Bool
  jumpHold : Bool                    -- its HOLDOVER began with a source jump (Table 12.1)
  reacqForce : Option Nat            -- FORCE bit and host port of the REACQUIRE being carried out (R393)
  usable : Nat                       -- consecutive usable seconds
  inLock : Nat                       -- consecutive in-lock seconds (Table 12.1)
  jumps : Nat                        -- consecutive usable seconds above PPS_STEP_NS (R393)
  ePrev : Int
  lastUsable : Nat                   -- raw time of the last usable second
  deriving DecidableEq, Repr

/-- A slew (R389, R397): its start and the values it leaves. -/
structure Slew where
  start : Nat
  fromDom : Nat
  oldVals : Option DomVals           -- a STEP slews from the old values of the same domain
  deriving DecidableEq, Repr

/-- An entry of a transmit timestamp queue (R405). -/
structure TxStamp where
  msgType : Nat
  domain : Nat
  seqId : Nat
  raw : Nat
  sub : Nat
  deriving DecidableEq, Repr

structure TimSt where
  domA : Domain
  domB : Domain
  sel : Nat
  slew : Option Slew
  valid : Bool
  refLock : Bool
  refSel : Bool                      -- REF_SEL strap (R383)
  split : Bool
  ppsLast : Option (Nat × Nat)       -- raw time and SUB of the last accepted PPS_IN edge
  ppsMiss : Nat                      -- raw time from which the wait of PPS_MISSING runs (R404)
  irigLast : Option (Nat × Nat × Nat × Bool) -- on-time marker raw, SUB, label of the last usable frame; label in order
  lastLabel : Option Nat             -- last usable label
  leap : SMap (Nat × Int)            -- VALID leap entries: EFFECTIVE and OFFSET in use (R400, R401)
  txts : SMap (List TxStamp)         -- port ↦ queue
  txtsLatch : SMap (Option TxStamp)  -- host port × 8 + port ↦ words 1–3 latched (R406)
  domLatch : SMap (List Word)        -- host port × 2 + domain ↦ words at page offsets 0x0C–0x24 (R385)
  ppsOut : Bool
  ppsOutEnd : Nat
  deriving DecidableEq, Repr

/-! ## Pace (02_pace.md) -/

structure PceSt where
  vcore : Nat                        -- set-point in half millivolts
  cap : Nat                          -- PCE_VCORE_CAP in half millivolts, a multiple of 5 (R63)
  edge : Nat                         -- lower band edge in force, 16.16 (R59, R61, R64)
  fast : Bool                        -- windows of 4 µs in force (R65)
  stale : Bool                       -- the window in progress began before the last wake (R57)
  below : Nat                        -- consecutive windows below target that could not raise VCORE
  above : Nat                        -- consecutive windows at or above target while PACE_SHORT
  reqOk : Nat                        -- consecutive windows at or above the required pace while BELOW_REQ
  shortDur : Nat                     -- windows since PACE_SHORT was raised
  belowDur : Nat                     -- windows since BELOW_REQ was raised
  shortNs : Nat                      -- ns of PACE_SHORT not yet counted as whole seconds (R68)
  shortAt : Nat                      -- raw time up to which PACE_SHORT is counted
  calPts : List Nat                  -- calibration: lowest ring count of each completed voltage point
  deriving DecidableEq, Repr

/-! ## Queues (11_queues.md) -/

/-- A packet: its packet word's fields, ARRIVAL and data (R360, R361). -/
structure Packet where
  source : Nat                       -- block code of the producer
  port : Nat                         -- 0–5, 7 none
  arrival : Nat                      -- raw time
  sub : Nat                          -- 1/8 ns
  data : List Byte
  bad : Bool := false                -- a cut-through copy to be ended with a bad FCS (R313)
  deriving DecidableEq, Repr

/-- A host push (R376). -/
structure HPush where
  len : Nat
  data : List Byte
  isOpen : Bool                      -- OPEN, else PENDING
  deriving DecidableEq, Repr

/-- The packet a host port last popped (R374). -/
structure HPop where
  pkt : Packet
  pos : Nat                          -- bytes of ARRIVAL and data already read
  deriving DecidableEq, Repr

structure Queue where
  cfg : Word                         -- QUE_QCFG
  lim : Word                         -- QUE_QLIM
  wm : Word                          -- QUE_QWM
  pkts : List Packet                 -- committed, oldest first
  push : SMap HPush                  -- host port ↦ push
  pop : SMap HPop                    -- host port ↦ popped packet not yet released
  popHi : SMap Word                  -- host port ↦ POP_HI latch
  reason : SMap Nat                  -- host port ↦ reason code of the last push command
  txCells : SMap Nat                 -- consumer ↦ cells of the packet it has taken and not released (R379)
  held : Nat                         -- cells held
  peak : Nat
  above : Bool
  deriving DecidableEq, Repr

structure QueSt where
  q : SMap Queue
  waiting : List (Nat × Packet)      -- device producers waiting at a full queue, in order (R368)
  popWait : List (Nat × Nat)         -- waiting PCIe pops in order: queue, raw time it began (R375)
  deriving DecidableEq, Repr

/-! ## Power (19_power_and_start.md) -/

inductive PState where
  | run
  | trim
  | nap
  | keep
  | off
  deriving DecidableEq, Repr

/-- A dip being gathered (R538). -/
structure Dip where
  start : Nat
  repeats : Nat
  total : Nat                        -- ns
  longest : Nat                      -- ns
  lowest : Nat                       -- mV
  lastEnd : Nat
  deriving DecidableEq, Repr

/-- A boot record (R557): generation, ENABLE mask, entries of offset and value. -/
structure BootRec where
  gen : Nat
  enables : Nat
  entries : List (Nat × Word)
  deriving DecidableEq, Repr

/-- A request of R552: NAP or KEEP, of the power controller (port 2) or of a host port, or a wake. -/
inductive PReq where
  | nap
  | keep (port : Nat)
  | wake
  deriving DecidableEq, Repr

structure PwrSt where
  st : PState
  trans : Option PState              -- target of the transition in progress
  wakeAfter : Bool                   -- a wake event arrived during an entry (R552)
  pendReq : Option PReq
  vmain : Nat                        -- mV
  vback : Nat
  vsys : Nat
  onBackup : Bool
  mainGood : Option Nat              -- raw time since which VMAIN is at or above V_WARN + 0.8 V
  warn : Bool
  warnStart : Nat
  warnLow : Nat                      -- lowest VSYS of the warning
  brace : Bool
  dip : Option Dip
  cause : Nat                        -- PWR_RESET_CAUSE
  ladder : Nat                       -- start-up step in progress, 0 none
  keepBackup : Bool                  -- KEEP was entered on backup (R551)
  napOff : Bool                      -- PWR_REQ 3 cleared NAP_EN's effect (R553)
  boot0 : Option BootRec
  boot1 : Option BootRec
  deriving DecidableEq, Repr

/-! ## Ethernet ports (10_ethernet_ports.md) -/

/-- The preemption states of R342. -/
inductive PeState where
  | disabled
  | verifying
  | active
  | failed
  deriving DecidableEq, Repr

/-- What a port sent: a whole frame, a fragment, or flow control (output of the model). -/
inductive Sent where
  | frame (express : Bool) (data : List Byte)
  | fragment (first last : Bool) (smd count : Nat) (data : List Byte)
  | pause (pfcMask quanta : Nat)
  | verify
  | respond
  | beacon
  | badFcs (data : List Byte)
  deriving DecidableEq, Repr

/-- A frame a transmitter has begun: its queue and packet, its bytes on the wire. -/
structure TxPart where
  queue : Nat
  pkt : Packet
  wire : List Byte
  sent : Nat                         -- bytes of the fragments that are complete
  count : Nat                        -- fragment count of its next continuation, modulo 4 (R343)
  smd : Nat                          -- frame number of its SMD-S and SMD-C, modulo 4
  start8 : Nat                       -- its first delimiter, raw time in 1/8 ns (R338)
  frag8 : Nat                        -- delimiter of the fragment in transmission
  live : Bool                        -- on the wire now; else preempted
  deriving DecidableEq, Repr

/-- A preemptable frame in reassembly (R339). -/
structure RxFrag where
  data : List Byte
  next : Nat                         -- fragment count expected
  smd : Nat
  arrival : Nat                      -- first fragment's delimiter (R338)
  sub : Nat
  cells : Nat                        -- cells it occupies (R361)
  full : Bool                        -- the ingress queue refused one
  dead : Bool                        -- dropped and counted; its further fragments are not
  deriving DecidableEq, Repr

structure PortSt where
  link : Bool
  pe : PeState
  verifies : Nat                     -- verify mPackets sent and not answered
  verAt : Nat                        -- raw time of the last one (R342)
  hold : Bool
  holdFrom : Nat                     -- raw time at which HOLD was entered (R346)
  holdEnd : Nat
  pauseExp : Nat                     -- raw time at which the pause of the express class ends, 0 none
  pausePre : Nat
  pauseFrom : Nat                    -- raw time at which the pause of the preemptable class began
  flowOn : Bool                      -- flow control asserted (R373)
  flowTx : List Nat                  -- quanta of flow-control frames queued
  flowAt : Nat                       -- raw time of the last assertion or renewal (R349)
  express : Option TxPart            -- express frame in transmission
  part : Option TxPart               -- preemptable frame in transmission or preempted
  txSmd : Nat                        -- frame number of the next preemptable frame, modulo 4
  altExp : Bool                      -- R370: the host queue of the class goes next
  altPre : Bool
  rx : Option RxFrag                 -- preemptable frame in reassembly
  txAn : Nat
  txPn : Nat
  rxAn : Nat
  rxPn : Nat                         -- next packet number expected
  rxWk : Option (List Byte)          -- working key of the receive association when it is not the current one (R515)
  txAdvance : Bool                   -- the transmit AN advances at the next frame (R515)
  plca : Bool
  lastBeacon : Nat
  plcaSent : Nat                     -- frames of the present transmit opportunity (R356)
  plcaEnd : Nat                      -- raw time at which the last of them ended
  coll : Nat                         -- collisions of the frame being sent (R355)
  backoff : Nat                      -- raw time to which the port waits after a collision (R355)
  out : List Sent                    -- newest first (output)
  deriving DecidableEq, Repr

structure EthSt where
  ports : SMap PortSt
  deriving DecidableEq, Repr

/-! ## Hang plans (05_hang_plan.md) -/

/-- A tour table element (Table 5.3). -/
structure Tour where
  codeLen : Nat
  iramOff : Nat
  codeSrc : Nat
  budget : Nat
  kind : Nat
  priority : Nat
  affinity : Nat
  deriving DecidableEq, Repr

/-- A TABLE section: element size in bytes, COUNT, bytes (Table 5.4). -/
structure PTable where
  esize : Nat
  count : Nat
  data : List Byte
  deriving DecidableEq, Repr

/-- A timer (R175): tour, period and phase in µs. -/
structure PTimer where
  tour : Nat
  period : Nat
  phase : Nat
  deriving DecidableEq, Repr

/-- A plan as its image states it (Tables 5.1 to 5.4). -/
structure Plan where
  planId : Nat
  silence : Nat
  verdictDiv : Nat
  baseRate : Nat
  reqPace : Nat
  closeDrain : Nat
  cd : Nat
  lh : Nat
  hashSeed : Nat
  extentPages : Nat
  heldMax : Nat
  worst : Nat
  features : Nat
  closeTour : Nat
  sealTour : Nat
  templates : List (List Word)
  vaultMap : List Word
  tours : List Tour
  code : List Byte
  lines : List (List Byte)
  pins : List (List Byte)
  msgs : List (List Byte)
  msgBody : List Byte
  timers : List PTimer
  tables : SMap PTable
  deriving DecidableEq, Repr

/-- Plan slot states (Table 5.5). -/
inductive SlotState where
  | empty
  | loading
  | loaded
  | live
  | retiring
  deriving DecidableEq, Repr

structure PlanSlot where
  st : SlotState
  image : List Byte                  -- the slot's plan store
  plan : Option Plan
  start : Nat
  startFixed : Bool                  -- false until valid time fixes the start index (R190)
  stop : Nat                         -- end index of a RETIRING slot
  closed : Nat                       -- its indices below this one have passed their closing time (R132)
  retSeq : Nat                       -- accession order number when it became RETIRING (R192)
  liveAt : Int                       -- selected time of acceptance in 1/8 ns (R259)
  deriving DecidableEq, Repr

/-- A select record (section 5.8). -/
structure SelRec where
  gen : Nat
  area : Nat
  planId : Nat
  len : Nat
  autoboot : Bool
  fallback : Bool
  deriving DecidableEq, Repr

structure PlnSt where
  s0 : PlanSlot
  s1 : PlanSlot
  op : Nat                           -- PLN_OP.OP: 0 none, 1 LOAD, 2 SWAP, 3 COMMIT
  opSlot : Nat
  source : Nat
  data : List Byte                   -- SOURCE 3: bytes arrived
  applyTpl : Bool
  autoboot : Bool                    -- COMMIT: the bits of the new select record
  fallback : Bool
  sel0 : Option SelRec
  sel1 : Option SelRec
  area0 : List Byte                  -- MRAM plan store areas
  area1 : List Byte
  firstStart : Option Nat            -- start index of the first plan that went LIVE (R150)
  firstWaits : Bool                  -- that start index is still to be fixed (R190)
  deriving DecidableEq, Repr

/-! ## Accessions (03_accessions.md) -/

/-- Accession states (Table 3.3). -/
inductive AccState where
  | vacant
  | registered
  | live
  | silent
  | retired
  | checking
  deriving DecidableEq, Repr

structure AccEntry where
  st : AccState
  run : Nat                          -- consecutive expected exhibits closed without its frame (R98)
  runFirst : Nat                     -- exhibit index that began the run
  commitSeq : Nat                    -- order number of its commit (R100)
  retireSeq : Nat                    -- order number of its retirement (R101)
  heldCtl : List Word                -- ACC_CTL writes held while CHECKING (R93)
  lastLand : Nat                     -- raw time of its last landing
  deriving DecidableEq, Repr

structure AccSt where
  entries : SMap AccEntry            -- 0–16,383, 0x4000–0x4003 for L0–L3
  ident : SMap (List (List Byte × Nat)) -- bucket ↦ at most four identities (R89)
  seq : Nat                          -- order numbers of commits, retirements and openings
  checks : List Nat                  -- entries whose registration check runs or waits, in order (R95)
  deriving DecidableEq, Repr

/-! ## Vault (04_vault_and_exhibits.md) -/

/-- Exhibit states (Table 4.4). -/
inductive ExState where
  | opened
  | closing
  | closed
  | sealing
  | sealed
  deriving DecidableEq, Repr

structure Exhibit where
  index : Nat
  slot : Nat                         -- governing plan slot
  planId : Nat
  openSeq : Nat
  st : ExState
  revision : Nat
  closeCause : Nat
  sealCause : Nat                    -- cause of the seal condition once met (SEAL_CAUSE shows it after the seal event)
  sealCond : Bool                    -- the seal condition is met (R146, R147)
  expMask : Nat                      -- bit n: accession n is expected
  presMask : Nat
  addMask : Nat
  locExp : Nat                       -- L0–L3
  locPres : Nat
  presentAtClose : Nat
  onTime : Nat                       -- landings before the close condition
  verdict : Bool
  bank : Nat
  bankValid : Bool
  vaultLoss : Bool
  paceLate : Bool
  openTime : Nat
  condTime : Nat
  closeTime : Nat
  sealTime : Nat
  revTime : Nat
  digest : Nat
  pages : Nat                        -- bit p: data page p is taken
  slots : SMap (List Byte)           -- accession ↦ slot bytes (Table 4.3)
  landRev : SMap Nat                 -- accession ↦ LAND_REV
  digested : Nat                     -- highest revision the digest covers (R144)
  outflow : Nat                      -- bit 0 archive, bit 1 Hiash: consumers still reading (R149)
  sealSeg : Nat                      -- next segment of EXHIBIT SEALED (R322)
  deriving DecidableEq, Repr

/-- A view of the vault read window (R151–R153). -/
structure VaultView where
  status : Nat                       -- 0 UNBOUND, 1 BOUND, 2 NOT_HELD, 3 GONE
  index : Nat
  latch : SMap (List Word)           -- host port ↦ latched header
  deriving DecidableEq, Repr

structure VltSt where
  ex : SMap Exhibit                  -- index ↦ exhibit held
  general : Nat
  reserve : Nat
  landSeq : Nat
  newest : Option Nat                -- highest index opened
  rate : Nat                         -- base rate the index map counts by; 0 before the first plan
  past : List (Nat × Nat)            -- ranges [a, b) of indices of slots now EMPTY: released or lapsed (R150)
  gone : SMap Nat                    -- index ↦ 1 released, 2 lapsed
  waitOpen : List Nat                -- openings at exhibit time that lacked a resource (R131)
  reclaim : Bool
  recPeak : Nat
  views : SMap VaultView
  deriving DecidableEq, Repr

/-! ## Dispatch (07_dispatch.md) -/

/-- A job descriptor (Table 7.1). -/
structure Job where
  tour : Nat
  kind : Nat
  slot : Nat
  priority : Nat
  revision : Nat
  entry : Nat
  acc : Nat
  index : Nat
  arg : Nat
  raiseLo : Nat
  affinity : Nat
  raised : Nat                       -- raw time of raising (DSP_WAIT_MAX)
  deriving DecidableEq, Repr

/-- A frame that has passed admission, normalised (Table 3.2), before it lands. -/
structure Landing where
  acc : Nat
  port : Nat                         -- 0–5, 7 local
  arrival : Nat
  sub : Nat
  index : Nat
  offset : Int                       -- ns from the exhibit time
  status : Nat
  digs : List Nat
  freq : Nat
  rocof : Nat
  phasors : List (Nat × Nat)
  analogs : List Nat
  arrived : Int                      -- arrival in selected TAI, 1/8 ns, by the values at its admission (R114)
  commit : Nat                       -- order number of its accession's commit (R101)
  deriving DecidableEq, Repr

structure DspSt where
  levels : SMap (List Job)           -- level ↦ eligible entries, oldest first
  heldAdd : List Job                 -- addendum jobs held until their close event (R143, R245)
  evFifo : List Job
  evPeak : Nat
  peaks : SMap Nat
  fullSince : SMap Nat               -- level ↦ raw time it became FULL
  holdAt : SMap Nat                  -- level ↦ raw time up to which HOLD_US counts it
  timerPend : SMap Nat               -- timer ↦ pending firing number + 1
  timerNext : SMap Nat               -- timer ↦ next firing number + 1 not yet passed
  heldHsh : List Job
  heldLand : List Landing            -- held landings in order (R252, R253)
  localBuf : SMap (List Landing)     -- Lm ↦ estimates waiting (R255)
  deriving DecidableEq, Repr

/-! ## Docents (06_weawen_isa.md) -/

/-- What a job in a local slot waits for. -/
inductive JobWait where
  | ready
  | vld (index : Nat)                -- a VLD waits for the close event of an exhibit (R217)
  | fence                            -- FENCE, YIELD, DONE or ABORT waits for posted contributions (R231)
  deriving DecidableEq, Repr

/-- A job in a local slot: its descriptor and registers (R200–R204). -/
structure JobCtx where
  job : Job
  g : SMap DWord
  v : SMap VWord
  p : Nat                            -- bits p1–p7
  pc : Nat
  steps : Nat
  wait : JobWait
  deriving DecidableEq, Repr

structure Docent where
  s0 : Option JobCtx
  s1 : Option JobCtx
  active : Nat
  steps : Nat                        -- DOC_STEPS
  deriving DecidableEq, Repr

structure DocSt where
  d : SMap Docent
  iram : SMap Word                   -- docent × 8,192 + word address
  dram : SMap Byte                   -- docent × 0x1_8000 + byte address
  deriving DecidableEq, Repr

/-! ## Verdicts (08_verdicts_and_alarms.md) -/

/-- Bank states (Table 8.2). -/
inductive BankState where
  | free
  | held
  | reducing
  | keeping
  | clearing
  deriving DecidableEq, Repr

structure Bank where
  st : BankState
  index : Nat                        -- the exhibit that took the bank
  cells : SMap DWord                 -- cells that differ from Table 8.1
  mask : Nat                         -- close-instant results of its REVISE lines, until the keep set is copied (R295)
  deriving DecidableEq, Repr

/-- State of a verdict line (R274–R276). -/
structure LineState where
  history : Nat
  inst : Bool
  active : Bool
  unknown : Bool
  value : Nat                        -- float64
  changes : Nat
  deriving DecidableEq, Repr

/-- A RAISE that has not taken effect: the exhibit whose close event applies it, or none (R280). -/
structure PendRaise where
  exhibit : Option Nat
  line : Nat
  value : Bool
  deriving DecidableEq, Repr

/-- A published template (R289, R290). -/
structure TplState where
  stNum : Nat
  sqNum : Nat
  spdu : Nat
  interval : Nat                     -- ms to the next transmission
  nextAt : Nat                       -- raw time of it
  image : List Byte                  -- patched image of the trigger
  elem : List Byte                   -- its MSG_INDEX element and body: publication outlives the plan slot (R290)
  body : List Byte
  deriving DecidableEq, Repr

/-- An entry of the revision store (R295). -/
structure RevEntry where
  slot : Nat
  cells : SMap DWord
  closeMask : Nat
  repMask : Nat
  deriving DecidableEq, Repr

/-- A contribution to a ledger cell (R221). -/
structure Lga where
  index : Nat
  revision : Nat
  cell : Nat
  op : Nat                           -- 0 ADD, 1 MAX, 2 MIN, 3 OR
  value : DWord
  deriving DecidableEq, Repr

/-- A close event the verdict unit has taken and not applied: index, bank when the exhibit bears verdicts. -/
structure Reduction where
  index : Nat
  slot : Nat
  bank : Option Nat
  present : Nat
  expected : Nat
  closeCause : Nat
  paceLate : Bool
  raises : List PendRaise            -- RAISEs that arrived before the close event
  deriving DecidableEq, Repr

structure VrdSt where
  banks : SMap Bank
  lines : SMap LineState             -- plan slot × 4,096 + line
  tourSrc : Nat                      -- tour part of the alarm lines
  verdictSrc : Nat
  pendRaise : List PendRaise
  queue : List Reduction             -- close events not yet reduced, in order (R282)
  last : Nat                         -- last reduced index
  pinMap : List (List Byte)          -- PIN_MAP of the plan whose close event was last applied; [] none
  pinLive : Bool                     -- the first close event has been applied (R285)
  pinPlan : Option (Nat × Nat)       -- slot and start index of the plan whose templates publish
  pinIn : Nat                        -- inputs at the last evaluation
  latches : Nat
  pulses : SMap Nat                  -- pin ↦ raw end of its pulse
  tpl : SMap TplState
  rev : SMap RevEntry                -- exhibit ↦ revision store entry
  waitLga : List Lga                 -- waiting for the end of KEEPING (R296)
  deriving DecidableEq, Repr

/-! ## Keys (17_keys.md) -/

/-- The content of a key slot (section 17.4); issuerW [] is the blob written at manufacture, which unwraps to the
fused issuer secret. -/
structure KeySlot where
  lc : Nat
  counter : Nat
  epoch : Nat
  permit : Nat
  label : Nat
  wkW : Option (List Byte)           -- wrapped working key, none while its valid flag is 0
  issuerW : List Byte
  ownerW : List Byte
  crcOk : Bool
  deriving DecidableEq, Repr

/-- An update in progress (R507): what it writes and the working key it makes. -/
structure KeyUpdate where
  usage : Nat
  slot : KeySlot
  wk : Option (List Byte)
  deriving DecidableEq, Repr

structure KeySt where
  rootOk : Bool
  helper0 : Bool                     -- helper data copies whose CRC holds
  helper1 : Bool
  helperCopy : Nat
  lc : Nat
  storeBad : Bool
  wk : Option (List Byte)            -- working key register
  kek : Option (List Byte)           -- issuer or owner secret of the current state
  slot0 : Option KeySlot
  slot1 : Option KeySlot
  sel0 : Option (Nat × Nat)          -- select words: generation, slot; none while not valid
  sel1 : Option (Nat × Nat)
  update : Option KeyUpdate
  deriving DecidableEq, Repr

/-! ## Hiash (09_hiash_link.md) -/

/-- An entry of the absence table, or the overflow entry (R325, R327). -/
structure AbsEntry where
  kind : Nat
  id : Nat
  first : Nat
  rate : Nat
  origin : Nat
  repeats : Nat
  isLocal : Bool
  forwarded : Bool
  last : Nat                         -- raw time of the last report
  deriving DecidableEq, Repr

/-- An overflow episode: its entry, the start of its window, reports taken in the window. -/
structure Overflow where
  entry : AbsEntry
  windowStart : Nat
  taken : Nat
  deriving DecidableEq, Repr

/-- A HELLO heard (R331, R333). -/
structure HelloRec where
  id : Nat
  uid : Nat
  join : Nat
  port : Nat
  mac : List Byte
  heard : Nat                        -- raw time
  deriving DecidableEq, Repr

/-- A close-time summary kept in the upstream store (R319). -/
structure UpSummary where
  expected : Nat
  freq : Nat
  rocof : Nat
  digs : List Nat
  phasors : List (Nat × Nat)
  analogs : List Nat
  deriving DecidableEq, Repr

structure HshSt where
  seq : SMap Nat                     -- class ↦ SEQ of the next message of that class
  delivered : Nat                    -- messages delivered (ENTRY of R308)
  abs : SMap AbsEntry                -- entry number below 1,024 ↦ entry held
  overEp : Option Overflow
  relayed : List (Nat × Nat × Nat)   -- origin, class, SEQ of the last 256 relayed
  relayTab : List (Nat × Nat × Nat × Nat) -- origin, TIME, last relayed revision, raw time of it
  digSent : SMap (List (Nat × Nat))  -- port ↦ key and raw time of the last 256 digests sent
  hellos : List HelloRec
  silent : Bool
  dupSeen : Nat                      -- raw time of the last duplicate of the own ID + 1; 0 none
  join : Nat
  helloAt : Option Nat               -- raw time of the last HELLO since the enable (R330)
  up : SMap UpSummary                -- exhibit ↦ summary sent
  deriving DecidableEq, Repr

/-! ## Archive (16_archive_compression.md) -/

/-- Where a decompression stands between jobs (section 16.3). -/
inductive InfState where
  | header                           -- a zlib header is still to come
  | block                            -- a block header is still to come
  | stored (left : Nat)
  | huff (lit dist : List Nat)       -- code lengths of the current block
  | trailer                          -- the Adler-32 is still to come
  | ended
  deriving DecidableEq, Repr

/-- A state slot of the engine. -/
structure ArcSlot where
  op : Nat                           -- 0 EMPTY, 1 filled by COMPRESS, 2 by DECOMPRESS
  zlib : Bool
  hist : List Byte                   -- newest last, at most 32,768
  adler : Nat
  bits : List Bool                   -- bits read and not yet used, or pending output bits
  inf : InfState
  final : Bool                       -- the current block is the last
  copy : Nat × Nat                   -- length still to copy, distance
  inTotal : Nat
  outTotal : Nat
  deriving DecidableEq, Repr

structure ArcSt where
  slots : SMap ArcSlot
  waiting : List Nat                 -- sealed exhibits whose block has not started, in order
  cur : Option Nat                   -- exhibit whose block is being formed
  curReset : Bool
  serial : List Byte                 -- its serialisation
  runLeft : Nat                      -- blocks left in the run; 0: the next block starts one
  blocks : Nat                       -- blocks since RESET
  started : Bool                     -- a block has been committed since reset
  ring : List (Nat × Nat)            -- TARGET 1: offset and length of the blocks held, oldest first
  ringWait : Bool                    -- the current block waits for ring space (R486)
  jobOp : Nat
  jobSlot : Nat
  jobPort : Nat
  job : List Word                    -- descriptor of the running job
  deriving DecidableEq, Repr

/-! ## Twin pair (18_twin.md) -/

inductive TwinState where
  | off
  | active
  | standby
  | taking
  | isolated
  deriving DecidableEq, Repr

/-- An entry of the deferred buffer (R523). -/
inductive Deferred where
  | frame (pkt : Packet) (auth : Bool) (sv : Option SvPacket)
  | estimate (l : Landing)
  deriving DecidableEq, Repr

/-- An output held until the end of a takeover gap (R529): port, express, data. -/
structure HeldOut where
  port : Nat
  express : Bool
  data : List Byte
  deriving DecidableEq, Repr

structure TwnSt where
  st : TwinState
  synced : Bool
  takeUnsynced : Bool
  takeLevel : Bool
  partnerUid : Option Nat
  plansEqual : Bool                  -- the HELLO exchange found equal PLAN_IDs
  partnerPlans : Nat × Nat           -- PLAN_ID of slots 0 and 1 in the partner's last HELLO
  seqRx : Option Nat                 -- next SEQ expected
  hb : Bool                          -- level of TWIN_HB
  hbAt : Nat                         -- raw time of its last toggle
  role : Bool                        -- TWIN_ROLE high
  deferred : List Deferred
  deferAt : List Nat                 -- raw time each entry arrived
  own : SMap Nat                     -- exhibit × 256 + revision ↦ own digest
  partner : SMap Nat                 -- the same ↦ partner's digest
  gapStart : Nat
  held : List HeldOut
  lineHold : Nat                     -- alarm line states shown during a gap
  deriving DecidableEq, Repr

/-! ## Analog inputs (13_acquisition.md) -/

/-- An output sample of a channel: stamp in 1/8 ns, value in 1.31 format, marks (bit 0 TEST, bit 1 CLIP). -/
structure Sample where
  stamp : Nat
  value : Int
  marks : Nat
  deriving DecidableEq, Repr

/-- The correction values of a channel (R410, R411). -/
structure Corr where
  offset : Int
  gain : Nat
  trim : Nat
  delay : Int
  deriving DecidableEq, Repr

structure Chan where
  use_ : Corr                        -- values in use
  commit : Option Corr               -- values the channel takes at its next boundary
  bank : Nat                         -- active filter bank; the incoming one during a fade
  fade : Option (Nat × Nat)          -- samples of the fade given, F
  swap : Option Nat                  -- F of the swap that starts at a later boundary
  corr : List Int                    -- corrected samples, newest first: the FIR's input
  fir : List Int                     -- FIR outputs, newest first: the Farrow stage's input
  hist : List Sample                 -- output samples of the last 1.2 s, newest first
  changed : List Nat                 -- stamps of samples at which a commit or a fade was in force (R433)
  zcArmed : Bool                     -- the signal has been below −ZC_HYST
  zcCand : Nat                       -- time of the last passage through zero, 1/8 ns
  cross : List Nat                   -- positive-going crossings, newest first
  zcBase : Nat                       -- 1/8 ns: start of the wait for a crossing
  clipRun : Bool
  deriving DecidableEq, Repr

/-- An open-wire test in progress: channels still to test, the current one first. -/
structure OwRun where
  chans : List Nat
  done : Nat
  start : Nat                        -- raw time at which the current channel's test began
  deriving DecidableEq, Repr

/-- What one nominal cycle of a channel's calibration readings adds up to. -/
structure CalAcc where
  n : Nat
  sum : Int
  sq : Nat
  lo : Int
  hi : Int
  deriving DecidableEq, Repr

structure CalRun where
  mask : Nat
  full : Bool
  rms : Bool
  apply : Bool
  start : Nat                        -- raw time of the start
  acc : SMap (List CalAcc)           -- channel ↦ cycles, newest first
  wrote : Nat                        -- channels whose result is in CAL_OFFSET or CAL_GAIN
  deriving DecidableEq, Repr

structure AfeSt where
  ch : SMap Chan
  ow : Option OwRun
  cal : Option CalRun
  zeroed : Nat                       -- channels with a CAL_OFFSET since the last AFE enable (R424)
  calRec : Option (List (Word × Word)) -- the selected calibration record: OFFSET and GAIN of each channel
  lastFreq : SMap Nat                -- m ↦ FREQ of the last estimate
  deriving DecidableEq, Repr

/-! ## Energy (14_energy.md) -/

/-- An interval accumulator (R452, R453). -/
structure IntAcc where
  value : Nat
  frac : Nat                         -- 2^-32 units
  wrap : Bool
  wraps : Nat
  revs : Nat
  firstRev : Nat
  deriving DecidableEq, Repr

/-- What the energy record holds (section 14.3). -/
structure EnergySnap where
  totals : SMap Nat                  -- 28 × element + 7 × phase + quantity ↦ total in 2^-32 units
  accs : SMap IntAcc                 -- 32 × element + k
  seq : Nat
  start : Nat                        -- UTC second at which the running interval began
  startTai : Nat                     -- TAI second of the same
  opened : Bool                      -- an interval is running
  flags : Nat                        -- flags of both elements' interval: PARTIAL, TIME_GAP, POWER_GAP, LEAP
  elemFlags : SMap Nat               -- element ↦ DATA_GAP, CLIP, ZC_LOST
  steps : SMap Nat                   -- element ↦ steps applied
  fracs : SMap Nat                   -- pulse ↦ fraction in 2^-32 units of the quantity, × CONST (2^-16)
  deriving DecidableEq, Repr

structure Pulse where
  backlog : Nat
  lastStart : Option Nat             -- raw time
  endAt : Option Nat
  sent : Nat
  deriving DecidableEq, Repr

structure NrgSt where
  run : EnergySnap
  dir : SMap Nat                     -- 16 × element + m ↦ direction (NRG_DIR)
  lastDir : SMap Nat                 -- the same ↦ last direction other than NONE
  lastStep : Nat                     -- raw end of the last step
  pulses : SMap Pulse
  commit : Option EnergySnap         -- snapshot of the commit in progress
  commitAt : Nat                     -- position being written
  commitGen : Nat                    -- its generation
  commitSec : Option Nat             -- raw second of the last periodic commit (R444)
  again : Bool                       -- a warning commit follows the one in progress (R445)
  repeatPos : Option Nat             -- the next commit writes this position again (R447)
  rec0 : Option (Nat × EnergySnap)   -- generation and content of the valid record at each position
  rec1 : Option (Nat × EnergySnap)
  last : SMap (List Byte)            -- element ↦ record of the last closed interval
  auxLatch : SMap Word               -- host port × 64 + 32 × element + k ↦ INT_AUX latched
  seqLatch : SMap Nat                -- host port ↦ NRG_INT_SEQ latched
  live : SMap Word                   -- 128 × element + 16 × m + 4 × p ↦ float32 of the last step
  deriving DecidableEq, Repr

/-! ## Capture (15_capture.md) -/

/-- States of R466. -/
inductive CapMode where
  | idle
  | armed
  | recording
  | halted
  deriving DecidableEq, Repr

/-- A capture block (Table 15.1): its ring position, its first stamp, marks, and entries (GAP, VALUE) newest first. -/
structure CapBlock where
  pos : Nat
  seq : Nat                          -- order in the channel's history
  stamp : Nat                        -- 1/8 ns
  lastAt : Nat                       -- stamp of its last sample
  marks : Nat
  entries : List (Nat × Nat)
  isOpen : Bool
  deriving DecidableEq, Repr

structure CapRing where
  blocks : List CapBlock             -- oldest first
  next : Nat                         -- next ring position
  base : Nat                         -- first block order number that no record holds (R470)
  seq : Nat
  gap : Nat                          -- output samples since the last entry
  lastVal : Int
  lastMarks : Nat
  level : Bool                       -- last results of the tests (R468)
  slope : Bool
  roc : Bool
  deriving DecidableEq, Repr

/-- The open record. Instants are raw ns. -/
structure CapRec where
  first : Nat
  latest : Nat
  firstSrc : Nat
  sources : Nat
  triggers : Nat
  maskFail : Nat
  stopAt : Option Nat                -- violation instant of a STOP mask (R473)
  start : Nat                        -- first instant minus PRE_MS, or the end of the previous record
  flags : Nat
  tag : Nat
  copied : List (List Byte)          -- TARGET 1, 2: blocks copied, in order of closing
  deriving DecidableEq, Repr

/-- A record that has ended: its number, header bytes without CRC, blocks as bytes in order of closing. -/
structure CapDone where
  off : Nat                          -- its offset in the target
  num : Nat
  header : List Byte
  blocks : List (List Byte)
  keepHalted : Bool
  deriving DecidableEq, Repr

structure CapSt where
  st : CapMode
  rings : SMap CapRing
  cur : Option CapRec                -- the open record
  lastEnd : Nat                      -- end instant of the previous record
  storing : List CapDone             -- ended records whose header has not landed, oldest first
  recNum : Nat                       -- REC_NUM of the next record
  store : List (Nat × Nat × Nat)     -- records in the target: number, offset, length, oldest first
  held : Option (List (Nat × Nat))   -- TARGET 0: channel and block seq of the record's blocks
  wr : Nat                           -- offset in the target at which the next record goes
  anchor : Option (Nat × List (Nat × Nat × Nat)) -- generation and records of the valid anchor
  rocAt : Nat                        -- raw time of the last ROC evaluation
  drives : List (Nat × Nat)          -- planned bus assertions: raw time, lines
  driving : SMap Nat                 -- TRG line ↦ raw end of its pulse
  hostTx : Nat                       -- TRG lines asserted by others (input)
  deriving DecidableEq, Repr

/-! ## The state -/

/-- The machine. Registers are one file keyed by BAR0 offset; the copy of a per-port register that belongs to the
SPI port is at its offset + 0x100_0000. The rest is what the chapters give beside registers. -/
structure State where
  regs : SMap Word
  raw : Nat                          -- RAW in ns, modulo 2^64 (R381)
  part : Part
  freeCount : Nat                    -- the model's own counter of free values (log entry 3)
  host : HostSt
  log : LogSt
  tim : TimSt
  pce : PceSt
  que : QueSt
  pwr : PwrSt
  eth : EthSt
  pln : PlnSt
  acc : AccSt
  vlt : VltSt
  dsp : DspSt
  doc : DocSt
  vrd : VrdSt
  key : KeySt
  hsh : HshSt
  arc : ArcSt
  twn : TwnSt
  afe : AfeSt
  nrg : NrgSt
  cap : CapSt
  pending : List Instr
  deriving DecidableEq, Repr

/-- Why a command stops. No command of this machine stops with a fault: the spec gives every command an
effect, so the type has no constructor and nobody raises it. -/
inductive Fault where
  deriving DecidableEq, Repr

/-- Why a command has no meaning. -/
inductive Refusal where
  /-- The command of the opcode table that has no meaning yet; raised by the dispatch only. Safe: the
  machine stops where the hardware goes on. -/
  | notModelled (mnemonic : String)
  deriving DecidableEq, Repr

/-- A domain at reset: FREE, values 0 (section 12.10). -/
def Domain.reset : Domain :=
  { vals := ⟨0, 0, 0, 0, 0⟩, gen := 0, errLast := 0, lastLock := none, st := .free, sourceJump := false, jumpHold := false,
    reacqForce := none, usable := 0, inLock := 0, jumps := 0, ePrev := 0, lastUsable := 0 }

/-- The host side at reset: the link is down, no latch holds a value, every VIO is present (log entry 7). -/
def HostSt.reset : HostSt :=
  { latch := [], resp := [], spiDropped := false, spiStatus := 0, heldCtrl := [], linkSpeed := 0, linkWidth := 0,
    busMaster := false, msixEn := false, funcMask := false, vecPend := 0, msixPba := 0, msiSent := [], vio := 15,
    mram := [], ddr := [], ddrTrained := false, ddrLocked := false, hostMem := [] }

/-- The logbook before its first record (R566). -/
def LogSt.reset : LogSt :=
  { ring := [], fifo := [], fifoPeak := 0, next := 0, newestGrant := 0, foldable := false, lost := 0, lostFirst := 0,
    brace := false, floor := 0, pendFloor := none, lifeSat := 0, slot0 := none, slot1 := none, firstTai := 0,
    lastTai := 0, lifeAt := 0, lifeSec := none, wearSteps := 0, clearPos := none, window := [] }

def TimSt.reset : TimSt :=
  { domA := Domain.reset, domB := Domain.reset, sel := 0, slew := none, valid := false, refLock := false,
    refSel := false, split := false, ppsLast := none, ppsMiss := 0, irigLast := none,
    lastLabel := none, leap := [], txts := [],
    txtsLatch := [], domLatch := [], ppsOut := false, ppsOutEnd := 0 }

/-- VCORE 850 mV and the lower band edge 900 steps/µs (section 2.9). -/
def PceSt.reset : PceSt :=
  { vcore := 1700, cap := 1700, edge := 0x03840000, fast := false, stale := false, below := 0, above := 0, reqOk := 0,
    shortDur := 0, belowDur := 0, shortNs := 0, shortAt := 0, calPts := [] }

def QueSt.reset : QueSt := { q := [], waiting := [], popWait := [] }

def PwrSt.reset : PwrSt :=
  { st := .run, trans := none, wakeAfter := false, pendReq := none, vmain := 0, vback := 0, vsys := 0,
    onBackup := false, mainGood := none, warn := false, warnStart := 0, warnLow := 0, brace := false, dip := none,
    cause := 0, ladder := 0, keepBackup := false, napOff := false, boot0 := none, boot1 := none }

/-- A port at reset: link down, preemption DISABLED, packet numbers at 1 (section 10.9, R352). -/
def PortSt.reset : PortSt :=
  { link := false, pe := .disabled, verifies := 0, verAt := 0, hold := false, holdFrom := 0, holdEnd := 0, pauseExp := 0,
    pausePre := 0, pauseFrom := 0, flowOn := false, flowTx := [], flowAt := 0, express := none, part := none, txSmd := 0,
    altExp := false, altPre := false, rx := none, txAn := 0, txPn := 1, rxAn := 0, rxPn := 1, rxWk := none,
    txAdvance := false, plca := false, lastBeacon := 0, plcaSent := 0, plcaEnd := 0, coll := 0, backoff := 0, out := [] }

def EthSt.reset : EthSt := { ports := [] }

def PlanSlot.reset : PlanSlot :=
  { st := .empty, image := [], plan := none, start := 0, startFixed := true, stop := 0, closed := 0,
    retSeq := 0, liveAt := 0 }

def PlnSt.reset : PlnSt :=
  { s0 := PlanSlot.reset, s1 := PlanSlot.reset, op := 0, opSlot := 0, source := 0, data := [], applyTpl := false,
    autoboot := false, fallback := false, sel0 := none, sel1 := none, area0 := [], area1 := [], firstStart := none,
    firstWaits := false }

/-- An accession at reset: VACANT. -/
def AccEntry.reset : AccEntry :=
  { st := .vacant, run := 0, runFirst := 0, commitSeq := 0, retireSeq := 0, heldCtl := [], lastLand := 0 }

def AccSt.reset : AccSt := { entries := [], ident := [], seq := 0, checks := [] }

def VaultView.reset : VaultView := { status := 0, index := 0, latch := [] }

/-- The vault at reset: both pools full (section 4.2), nothing held. -/
def VltSt.reset : VltSt :=
  { ex := [], general := 9728, reserve := 512, landSeq := 0, newest := none, rate := 0, past := [], gone := [],
    waitOpen := [], reclaim := false, recPeak := 0, views := [] }

def DspSt.reset : DspSt :=
  { levels := [], heldAdd := [], evFifo := [], evPeak := 0, peaks := [], fullSince := [], holdAt := [], timerPend := [],
    timerNext := [], heldHsh := [], heldLand := [], localBuf := [] }

/-- An empty docent. -/
def Docent.reset : Docent := { s0 := none, s1 := none, active := 0, steps := 0 }

def DocSt.reset : DocSt := { d := [], iram := [], dram := [] }

def Bank.reset : Bank := { st := .free, index := 0, cells := [], mask := 0 }

def LineState.reset : LineState :=
  { history := 0, inst := false, active := false, unknown := false, value := 0, changes := 0 }

def TplState.reset : TplState := { stNum := 0, sqNum := 0, spdu := 0, interval := 0, nextAt := 0, image := [],
                                      elem := [], body := [] }

def VrdSt.reset : VrdSt :=
  { banks := [], lines := [], tourSrc := 0, verdictSrc := 0, pendRaise := [], queue := [], last := 0, pinMap := [],
    pinLive := false, pinPlan := none, pinIn := 0, latches := 0, pulses := [], tpl := [], rev := [], waitLga := [] }

/-- The key block at power-on: nothing regenerated; MRAM as delivered, ISSUED with counter 0 (log entry 9). -/
def KeySt.reset : KeySt :=
  { rootOk := false, helper0 := true, helper1 := true, helperCopy := 0, lc := 0, storeBad := false, wk := none,
    kek := none,
    slot0 := some { lc := 1, counter := 0, epoch := 0, permit := 0, label := 0, wkW := none, issuerW := [],
                    ownerW := [], crcOk := true },
    slot1 := none, sel0 := some (1, 0), sel1 := none, update := none }

def HshSt.reset : HshSt :=
  { seq := [], delivered := 0, abs := [], overEp := none, relayed := [], relayTab := [], digSent := [],
    hellos := [], silent := false, dupSeen := 0, join := 0, helloAt := none, up := [] }

/-- A state slot at reset: EMPTY. -/
def ArcSlot.reset : ArcSlot :=
  { op := 0, zlib := false, hist := [], adler := 1, bits := [], inf := .header, final := false, copy := (0, 0),
    inTotal := 0, outTotal := 0 }

def ArcSt.reset : ArcSt :=
  { slots := [], waiting := [], cur := none, curReset := false, serial := [], runLeft := 0, blocks := 0,
    started := false, ring := [], ringWait := false, jobOp := 0, jobSlot := 0, jobPort := 0, job := [] }

/-- Twin state OFF (Table 18.1). -/
def TwnSt.reset : TwnSt :=
  { st := .off, synced := false, takeUnsynced := false, takeLevel := false, partnerUid := none, plansEqual := false,
    partnerPlans := (0, 0), seqRx := none, hb := false, hbAt := 0, role := false, deferred := [], deferAt := [], own := [], partner := [],
    gapStart := 0, held := [], lineHold := 0 }

/-- Correction values at reset: OFFSET 0, GAIN and TRIM 1.0, DELAY 0 (section 13.8). -/
def Corr.reset : Corr := { offset := 0, gain := 0x40000000, trim := 0x40000000, delay := 0 }

def Chan.reset : Chan :=
  { use_ := Corr.reset, commit := none, bank := 0, fade := none, swap := none, corr := [], fir := [], hist := [],
    changed := [], zcArmed := false, zcCand := 0, cross := [], zcBase := 0, clipRun := false }

def AfeSt.reset : AfeSt := { ch := [], ow := none, cal := none, zeroed := 0, calRec := none, lastFreq := [] }

def IntAcc.reset : IntAcc := { value := 0, frac := 0, wrap := false, wraps := 0, revs := 0, firstRev := 0 }

def EnergySnap.reset : EnergySnap :=
  { totals := [], accs := [], seq := 0, start := 0, startTai := 0, opened := false, flags := 0, elemFlags := [],
    steps := [], fracs := [] }

def Pulse.reset : Pulse := { backlog := 0, lastStart := none, endAt := none, sent := 0 }

def NrgSt.reset : NrgSt :=
  { run := EnergySnap.reset, dir := [], lastDir := [], lastStep := 0, pulses := [], commit := none, commitAt := 0, commitGen := 0,
    commitSec := none, again := false, repeatPos := none, rec0 := none, rec1 := none, last := [], auxLatch := [], seqLatch := [],
    live := [] }

def CapRing.reset : CapRing :=
  { blocks := [], next := 0, base := 0, seq := 0, gap := 0, lastVal := 0, lastMarks := 0, level := false, slope := false,
    roc := false }

def CapSt.reset : CapSt :=
  { st := .idle, rings := [], cur := none, lastEnd := 0, storing := [], recNum := 0, store := [], held := none,
    wr := 0, anchor := none, rocAt := 0, drives := [], driving := [], hostTx := 0 }

/-- The machine right after power-on reset, before the start-up ladder: every register at its reset value,
RAW 0, nothing loaded, nothing queued. -/
def State.reset : State :=
  { regs := [], raw := 0, part := .gld9600, freeCount := 0, host := HostSt.reset, log := LogSt.reset,
    tim := TimSt.reset, pce := PceSt.reset, que := QueSt.reset, pwr := PwrSt.reset,
    eth := EthSt.reset,
    pln := PlnSt.reset,
    acc := AccSt.reset,
    vlt := VltSt.reset,
    dsp := DspSt.reset,
    doc := DocSt.reset,
    vrd := VrdSt.reset,
    key := KeySt.reset,
    hsh := HshSt.reset,
    arc := ArcSt.reset,
    twn := TwnSt.reset,
    afe := AfeSt.reset,
    nrg := NrgSt.reset,
    cap := CapSt.reset,
    pending := [] }

end Sys2Proof.Machine
end

