-- ==== Sys2Proof/Machine/Ops.lean ====
section
/-! DEFINITION. The named operations every family uses: registers, reason codes, OPSTAT words, statistics counters,
events and interrupts, the logbook's staging FIFO, times, and free values. -/

namespace Sys2Proof.Machine

/-! ### Registers -/

/-- The register at a BAR0 offset. -/
def getReg (s : State) (a : Nat) : Word := smGet (regReset a) s.regs a

/-- The machine with one register changed. -/
def setReg (s : State) (a : Nat) (v : Word) : State := { s with regs := smPut (regReset a) s.regs a v }

/-- A field of a register, as a number. -/
def regFld (s : State) (a hi lo : Nat) : Nat := fld (getReg s a) hi lo

/-- A bit of a register. -/
def regBit (s : State) (a i : Nat) : Bool := bit (getReg s a) i

/-- The machine with one field of a register changed. -/
def setRegFld (s : State) (a hi lo v : Nat) : State := setReg s a (setFld (getReg s a) hi lo v)

/-- The machine with a register holding a number, modulo 2^32. -/
def setRegN (s : State) (a v : Nat) : State := setReg s a (BitVec.ofNat 32 v)

/-- The register that holds a port's own copy (R581): the PCIe copy at the offset, the SPI copy 0x100_0000 above. -/
def portReg (port a : Nat) : Nat := if port = 0 then a else a + 0x1000000

/-- A pair of registers as one 64-bit number. -/
def getReg64 (s : State) (lo hi : Nat) : Nat := (getReg s lo).toNat + (getReg s hi).toNat * 2 ^ 32

def setReg64 (s : State) (lo hi v : Nat) : State := setRegN (setRegN s lo v) hi (v / 2 ^ 32)

/-! ### Blocks -/

/-- Regions the GLD-9610 does not have (R4). -/
def absentAt (s : State) (a : Nat) : Bool :=
  s.part = .gld9610 && ((0x1C0000 ≤ a && a < 0x1F0000) || (0xC0000 ≤ a && a < 0xD0000) || (0xE8000 ≤ a && a < 0xEC000))

/-- The page whose BLK_CTRL governs an offset (R577, R583). -/
def blkBase (a : Nat) : Nat :=
  if a < 0x80000 then a / 0x10000 * 0x10000
  else if a < 0x88000 then 0x80000
  else if a < 0x89000 then 0x88000
  else if a < 0xA0000 then 0x90000
  else if a < 0xA8000 then 0xA0000
  else if a < 0xB0000 then 0xA8000
  else if a < 0xE0000 then a / 0x10000 * 0x10000
  else if a < 0xEC000 then 0xE0000 + (a - 0xE0000) / 0x2000 * 0x2000
  else if a < 0xF0000 then 0xEC000
  else if a < 0x100000 then 0xF0000
  else if a < 0x180000 then 0xA8000
  else if a < 0x1C0000 then 0x88000
  else a / 0x10000 * 0x10000

/-- The block code of a page (Table 0.6). -/
def blkCode (base : Nat) : Nat :=
  if base = 0 then 1 else if base = 0x10000 then 2 else if base = 0x20000 then 3 else if base = 0x30000 then 4
  else if base = 0x40000 then 5 else if base = 0x50000 then 6 else if base = 0x60000 then 7
  else if base = 0x70000 then 8 else if base = 0x80000 then 9 else if base = 0x90000 then 0xA
  else if base = 0xA0000 then 0xB else if base = 0xB0000 then 0xC else if base = 0xC0000 then 0xD
  else if base = 0xD0000 then 0xE else if base = 0xF0000 then 0x10 else if base = 0xA8000 then 0x11
  else if base = 0x88000 then 0x12 else if base = 0x1C0000 then 0x13 else if base = 0x1D0000 then 0x14
  else if base = 0x1E0000 then 0x15 else 0xF

/-- BLK_CTRL.ENABLE of a page. -/
def enabled (s : State) (base : Nat) : Bool := regBit s base 0

/-- Records a reason code in the page's BLK_REFUSE (R19, R20). -/
def refuse (s : State) (base code : Nat) : State := setRegN s (base + 8) code

/-- The reason code of a cause byte in the page's block (R19). -/
def reason (base cause : Nat) : Nat := blkCode base * 256 + cause

/-- Records a cause byte of the page's own block. -/
def refuseC (s : State) (base cause : Nat) : State := refuse s base (reason base cause)

/-! ### Free values -/

/-- A fresh value the spec does not state, below n (log entry 3). -/
def freeBelow (s : State) (n : Nat) : Nat := Config.freeNat s.freeCount % n

/-- Moves to the next free value. -/
def nextFree (s : State) : State := { s with freeCount := s.freeCount + 1 }

/-! ### Time -/

/-- T_d at a raw time in units of 1/8 ns (R384). -/
def domTime8 (v : DomVals) (raw8 : Nat) : Int :=
  8000000000 * (v.s : Int) + 8 * (v.ns : Int) + (v.sub : Int) + (raw8 : Int) +
    (v.rate * ((raw8 : Int) - 8 * (v.anchor : Int))) / 2 ^ 40

/-- Domain d's record. -/
def domOf (s : State) (d : Nat) : Domain := if d = 0 then s.tim.domA else s.tim.domB

def setDom (s : State) (d : Nat) (x : Domain) : State :=
  { s with tim := if d = 0 then { s.tim with domA := x } else { s.tim with domB := x } }

/-- T_sel at a raw time in 1/8 ns, slews included (R397). -/
def selTime8 (s : State) (raw8 : Nat) : Int :=
  let new := domTime8 (domOf s s.tim.sel).vals raw8
  match s.tim.slew with
  | none => new
  | some sl =>
    let old := domTime8 (match sl.oldVals with | some v => v | none => (domOf s sl.fromDom).vals) raw8
    let el := raw8 - 8 * sl.start
    if 8000000000 ≤ el then new else old + (new - old) * (el : Int) / 8000000000

/-- Selected time now, whole TAI nanoseconds. -/
def taiNow (s : State) : Nat := (selTime8 s (8 * s.raw) / 8).toNat

/-- Selected time as a logbook record and a header hold it: 0 while time is not valid and in KEEP (R560). -/
def taiLog (s : State) : Nat := if s.tim.valid && s.pwr.st != .keep then taiNow s % 2 ^ 64 else 0

/-! ### Queues: what the interrupt rule needs -/

/-- The limits of Table 11.1 and Table 11.1A at reset. -/
def queueReset (q : Nat) : Queue :=
  let k := if q < 6 then 1 else if q < 12 then 2 else if q < 18 then 3 else if q < 64 then 4 else 5
  let mn := if q < 6 then 256 else if q < 12 then 64 else if q < 18 then 128 else if q < 32 then 128
    else if q < 64 then 72 else 0
  let mx := if q < 6 then 2048 else if q < 12 then 512 else if q < 18 then 8192 else if q < 32 then 128
    else if q < 64 then 72 else 0
  let hi := if q < 6 then 1536 else if q < 12 then 384 else if q < 18 then 6144 else mx
  let lo := if q < 6 then 1024 else if q < 12 then 256 else if q < 18 then 4096 else mx / 2
  { cfg := BitVec.ofNat 32 (k * 2 ^ 28), lim := BitVec.ofNat 32 (mx * 65536 + mn),
    wm := BitVec.ofNat 32 (hi * 65536 + lo), pkts := [], push := [], pop := [], popHi := [], reason := [],
    txCells := [], held := 0, peak := 0, above := false }

def getQ (s : State) (q : Nat) : Queue := smGet (queueReset q) s.que.q q

def setQ (s : State) (q : Nat) (x : Queue) : State :=
  { s with que := { s.que with q := smPut (queueReset q) s.que.q q x } }

/-- Is the queue enabled: queues 0–63 with QUE (R627), a host queue by its own ENABLE. -/
def qEnabled (s : State) (q : Nat) : Bool :=
  if q < 64 then enabled s Reg.queBase else bit (getQ s q).cfg 31

/-- The test "a host queue": KIND 5 and ENABLE 1 (section 11.2). -/
def isHostQueue (s : State) (q : Nat) : Bool := 64 ≤ q && q < 2048 && bit (getQ s q).cfg 31

/-! ### Interrupts (section 21.4) -/

/-- EVENTS and IRQ_EN of a block's page, by block code; port k ≥ 1 of ETH is source 0x15 + k. -/
def srcRegs (src : Nat) : Nat × Nat :=
  if src = 1 then (0x20, 0x24) else if src = 2 then (0x1001C, 0x10020) else if src = 3 then (0x20030, 0x20034)
  else if src = 4 then (0x30018, 0x3001C) else if src = 5 then (0x400A8, 0x400AC)
  else if src = 6 then (0x5002C, 0x50030) else if src = 7 then (0x6002C, 0x60030)
  else if src = 8 then (0x7003C, 0x70040) else if src = 9 then (0x80058, 0x8005C)
  else if src = 0xA then (0x90094, 0x90098) else if src = 0xB then (0xA0034, 0xA0038)
  else if src = 0xC then (0xB007C, 0xB0080) else if src = 0xD then (0xC0050, 0xC0054)
  else if src = 0xE then (0xD0018, 0xD001C) else if src = 0xF then (0xE0054, 0xE0058)
  else if src = 0x10 then (0xF0084, 0xF0088) else if src = 0x11 then (0xA8028, 0xA802C)
  else if src = 0x12 then (0x8801C, 0x88020) else if src = 0x13 then (0x1C0018, 0x1C001C)
  else if src = 0x14 then (0x1D0020, 0x1D0024) else if src = 0x15 then (0x1E0030, 0x1E0034)
  else (0xE0054 + 0x2000 * (src - 0x15), 0xE0058 + 0x2000 * (src - 0x15))

/-- Is an interrupt source pending (section 21.4, R589)? -/
def srcPending (s : State) (src : Nat) : Bool :=
  if src = 0 then false
  else if src ≤ 0x1A then
    let p := srcRegs src
    (getReg s p.1 &&& getReg s p.2) != 0
  else if src < 0x20 then false
  else
    let n := getReg s (Reg.hstQnotify (src - 0x20))
    bit n 31 && (if bit n 30 then (getQ s (fld n 10 0)).above else !(getQ s (fld n 10 0)).pkts.isEmpty)

/-- HST_PENDING: bit s for source s. -/
def pendingSources (s : State) : Nat :=
  sumNat ((List.range 64).map (fun i => if srcPending s i then 2 ^ i else 0))

/-- The vectors pending: a vector is pending while any of its sources is (R590). -/
def pendingVectors (s : State) : Nat :=
  (List.range 64).foldl (fun v i => if srcPending s i then v ||| 2 ^ (regFld s (Reg.hstVecMap i) 5 0) else v) 0

/-- IRQ_N asserted: any source whose bit is set in HST_PIN_EN is pending; in KEEP only PWR (R591). -/
def irqN (s : State) : Bool :=
  let en := getReg64 s (Reg.hstPinEn 0) (Reg.hstPinEn 1)
  if s.pwr.st = .keep then en.testBit 2 && srcPending s 2 else (pendingSources s &&& en) != 0

/-- A statistics counter one higher without its saturation record (R26). -/
def bumpQuiet (s : State) (a : Nat) : State :=
  let v := (getReg s a).toNat
  if v = 0xFFFFFFFF then s
  else
    let s := setRegN s a (v + 1)
    if v + 1 = 0xFFFFFFFF then setReg s (blkBase a + 4) (setBit (getReg s (blkBase a + 4)) 8 true) else s

/-- Puts an event into the staging FIFO, or counts it lost (R562–R564). -/
def logPush (s : State) (event source : Nat) (data : List Byte) : State :=
  if 64 ≤ s.log.fifo.length then
    let s := setReg s Reg.logEvents (setBit (getReg s Reg.logEvents) 1 true)
    let s := bumpQuiet s (Reg.logCnt 2)
    { s with log := { s.log with lost := s.log.lost + 1,
                                 lostFirst := if s.log.lost = 0 then event else s.log.lostFirst } }
  else
    let e : LogEvent := { event := event, source := source, tai := taiLog s, data := padTo 32 data, grant := s.raw,
                          keep := s.pwr.st == .keep }
    { s with log := { s.log with fifo := s.log.fifo ++ [e],
                                 fifoPeak := Nat.max s.log.fifoPeak (s.log.fifo.length + 1) } }

/-- A statistics counter one higher; at its limit it sets SAT and writes record 0x0644 (R26, R574, R586). -/
def bump (s : State) (a : Nat) : State :=
  let v := (getReg s a).toNat
  let s' := bumpQuiet s a
  if v + 1 = 0xFFFFFFFF then logPush s' 0x0644 (blkCode (blkBase a)) (leBytes 4 a) else s'

/-- A lifetime counter n higher, saturating; its first saturation writes record 0x0645 (R572). -/
def lifeBump (s : State) (k n : Nat) : State :=
  let v := (getReg s (Reg.logLife k)).toNat
  let s := setRegN s (Reg.logLife k) (Nat.min 0xFFFFFFFF (v + n))
  if 0xFFFFFFFF ≤ v + n && !s.log.lifeSat.testBit k then
    logPush { s with log := { s.log with lifeSat := s.log.lifeSat ||| 2 ^ k } } 0x0645 k []
  else s

/-- A statistics counter n higher, stopping at its limit (R26). -/
def bumpBy (s : State) (a n : Nat) : State :=
  let v := (getReg s a).toNat
  if n = 0 || v = 0xFFFFFFFF then s
  else if 0xFFFFFFFF ≤ v + n then bump (setRegN s a 0xFFFFFFFE) a
  else setRegN s a (v + n)

/-- Is a vector masked: the function mask, or bit 0 of its vector control word. -/
def vecMasked (s : State) (v : Nat) : Bool := s.host.funcMask || regBit s (0x8000 + 16 * v + 12) 0

/-- Sends a vector's MSI-X message, or owes it while masked (R590). No message while MSI-X or bus mastering is off. -/
def sendMsi (s : State) (v : Nat) : State :=
  if !s.host.msixEn then s
  else if vecMasked s v || !s.host.busMaster then { s with host := { s.host with msixPba := s.host.msixPba ||| 2 ^ v } }
  else bump { s with host := { s.host with msiSent := v :: s.host.msiSent } } (Reg.hstCnt 5)

/-- Follows the vectors: each that goes from not pending to pending sends its message (R590). -/
def irqEval (s : State) : State :=
  let now := pendingVectors s
  let s' := { s with host := { s.host with vecPend := now, msixPba := s.host.msixPba &&& now } }
  ((List.range 64).filter (fun v => now.testBit v && !s.host.vecPend.testBit v)).foldl sendMsi s'

/-- Sets bits of an EVENTS register and follows the interrupts. -/
def evt (s : State) (a mask : Nat) : State :=
  irqEval (setReg s a (getReg s a ||| BitVec.ofNat 32 mask))

/-- Hands an event to the logbook (R562, R563). -/
def logEvent (s : State) (event source : Nat) (data : List Byte) : State :=
  let s' := logPush s event source data
  if s'.log.lost = s.log.lost then s' else irqEval s'

/-! ### Long operations (R21–R25) -/

def opState (s : State) (a : Nat) : Nat := regFld s a 31 28

def opRunning (s : State) (a : Nat) : Bool := opState s a == 1

/-- Starts an operation: RUNNING, CAUSE and PROGRESS cleared (R23). -/
def opStart (s : State) (a : Nat) : State := setRegN s a 0x10000000

def opProgress (s : State) (a n : Nat) : State := setRegFld s a 15 0 n

/-- Ends an operation: 2 DONE, 3 FAILED with a cause, 4 STOPPED; FAILED also records the full reason code (R24). -/
def opEnd (s : State) (a st cause : Nat) : State :=
  let s := setRegN s a (st * 2 ^ 28 + cause * 65536 + regFld s a 15 0)
  if st = 3 then refuseC s (blkBase a) cause else s

/-- A start while RUNNING is refused with cause 0xF3, a stop while not RUNNING with 0xF4 (R23, Table 0.7). -/
def opRefuseStart (s : State) (a : Nat) : State := refuseC s (blkBase a) 0xF3
def opRefuseStop (s : State) (a : Nat) : State := refuseC s (blkBase a) 0xF4

/-- The stop request of a long operation that needs no more than its OPSTAT (R24). -/
def opStop (s : State) (a : Nat) : State := if opRunning s a then opEnd s a 4 0 else opRefuseStop s a

/-- What a pin drives, none where it is released: its asserted level is low with `low`, and an open-drain pin drives only
its low level. -/
def driveOf (asserted low openDrain : Bool) : Option Bool :=
  if openDrain && asserted != low then none else some (asserted != low)

/-- The start-up ladder runs or has yet to begin (Table 22.11). -/
def inLadder (s : State) : Bool := opState s Reg.pwrStartOpstat = 0 || opRunning s Reg.pwrStartOpstat

/-- What an output of pin bank b (A–D: 0–3) drives: nothing while the device is off or the bank's VIO is absent (R613), low
until the ladder has ended, then the level its block gives (Table 22.11). -/
def bankOut (s : State) (b : Nat) (level : Option Bool) : Option Bool :=
  if s.pwr.st = .off || !s.host.vio.testBit b then none
  else if inLadder s then some false
  else level

/-- IRQ_N, open drain in bank C: low while asserted (R591, Table 22.11). -/
def irqLevel (s : State) : Option Bool :=
  if irqN s && !inLadder s && s.pwr.st != .off && s.host.vio.testBit 2 then some false else none

/-- PWR_WARN_N, open drain in bank C: low while the warning is asserted, and with the device off while VSYS is above 4.0 V
(R536, Table 22.11). -/
def pwrWarnLevel (s : State) : Option Bool :=
  let low : Bool := if s.pwr.st = .off then decide (4000 < s.pwr.vsys) else s.pwr.warn
  if low && s.host.vio.testBit 2 then some false else none

/-- Ends a meaning. -/
def done (s : State) : Host.Outcome State Fault Refusal := .next s

end Sys2Proof.Machine
end

