-- ==== Sys2Proof/Machine/Queues.lean ====
section
/-! DEFINITION. Queues and the shared cell pool (11_queues.md). -/

namespace Sys2Proof.Machine

/-! ### Cells -/

/-- Cells of a packet of n data bytes (R360). -/
def cellsFor (n : Nat) : Nat := 1 + ceilDiv (n - 112) 128

def qMin (x : Queue) : Nat := fld x.lim 15 0
def qMax (x : Queue) : Nat := fld x.lim 31 16
def qHigh (x : Queue) : Nat := fld x.wm 31 16
def qLow (x : Queue) : Nat := fld x.wm 15 0

/-- Cells held by all queues. -/
def poolHeld (s : State) : Nat := sumNat (s.que.q.map (fun p => p.2.held))

/-- QUE_POOL.FREE. -/
def poolFree (s : State) : Nat := 65536 - poolHeld s

/-- The queues whose reservation counts: 0–63 at all times (R627) and the enabled host queues. -/
def reservingQueues (s : State) : List (Nat × Queue) :=
  (List.range 64).map (fun q => (q, getQ s q)) ++ s.que.q.filter (fun p => 64 ≤ p.1 && bit p.2.cfg 31)

/-- QUE_MIN_SUM (R627). -/
def minSum (s : State) : Nat := sumNat ((reservingQueues s).map (fun p => qMin p.2))

/-- The shared remainder (R365). -/
def remainderCells (s : State) : Nat :=
  poolFree s - sumNat ((reservingQueues s).map (fun p => qMin p.2 - p.2.held))

/-- Can the queue take n more cells (R365)? Queues 0–63 take none while QUE is disabled (R627). -/
def canTake (s : State) (q n : Nat) : Bool :=
  let x := getQ s q
  qEnabled s q && x.held + n ≤ qMax x &&
    (x.held + n) - Nat.max x.held (qMin x) ≤ remainderCells s

/-- Is q the ingress queue of a port P0–P3 with flow control on (R349, R373)? -/
def flowPort (s : State) (q : Nat) (x : Queue) : Bool :=
  q < 4 && bit x.cfg 26 && regFld s (0xE0024 + 0x2000 * q) 3 2 != 0

def getPort (s : State) (p : Nat) : PortSt := smGet PortSt.reset s.eth.ports p

def setPort (s : State) (p : Nat) (x : PortSt) : State :=
  { s with eth := { s.eth with ports := smPut PortSt.reset s.eth.ports p x } }

/-- Flow control asserted or released on a port: a pause frame of PAUSE_QUANTA or of zero quanta is queued (R373). -/
def flowSet (s : State) (p : Nat) (on : Bool) : State :=
  let x := getPort s p
  setPort s p { x with flowOn := on, flowAt := s.raw,
                       flowTx := x.flowTx ++ [if on then regFld s (0xE0024 + 0x2000 * p) 31 16 else 0] }

/-- Cells held changed: the watermark state (R371; where HIGH is not above LOW and both conditions hold, ABOVE sets, log
entry 32), flow control (R373), the peak (R622), the pool's low-water
mark and POOL_EMPTY (R369). -/
def setHeld (s : State) (q n : Nat) : State :=
  let before := poolFree s
  let x := getQ s q
  let ab := if qHigh x ≤ n then true else if n ≤ qLow x then false else x.above
  let s := setQ s q { x with held := n, above := ab, peak := Nat.max x.peak n }
  let s := if ab && !x.above then evt (bump s (Reg.queCnt 7)) Reg.queEvents 2 else s
  let s := if ab != x.above && flowPort s q x then flowSet s q ab else s
  let after := poolFree s
  let s := if after < (getReg s Reg.quePoolMin).toNat then setRegN s Reg.quePoolMin after else s
  if after = 0 && 0 < before then logEvent (evt s Reg.queEvents 1) 0x0E40 0xFFFF [] else s

def takeCells (s : State) (q n : Nat) : State := setHeld s q ((getQ s q).held + n)
def releaseCells (s : State) (q n : Nat) : State := setHeld s q ((getQ s q).held - n)

/-- The cells of packets that consumers of a queue have taken and not released. -/
def takenCells (x : Queue) : Nat := sumNat (x.txCells.map (·.2))

/-- A consumer of a queue releases the packet it has taken (R379). -/
def consumerRelease (s : State) (q key : Nat) : State :=
  let x := getQ s q
  match smFind x.txCells key with
  | some n => releaseCells (setQ s q { x with txCells := smErase x.txCells key }) q n
  | none => s

/-- Links a packet whose cells are taken at the tail of its queue (R361). -/
def linkPacket (s : State) (q : Nat) (p : Packet) : State :=
  let x := getQ s q
  irqEval (bump (setQ s q { x with pkts := x.pkts ++ [p] }) (Reg.queCnt 0))

/-- Takes the cells of a packet and commits it. -/
def commitPacket (s : State) (q : Nat) (p : Packet) : State :=
  linkPacket (takeCells s q (cellsFor p.data.length)) q p

/-- A device producer that waits at a full queue (Table 11.2, third row). -/
def devPush (s : State) (q : Nat) (p : Packet) : State :=
  if canTake s q (cellsFor p.data.length) && !(s.que.waiting.any (fun w => w.1 = q)) then commitPacket s q p
  else { s with que := { s.que with waiting := s.que.waiting ++ [(q, p)] } }

/-- Records the queue and reason of a refusal (QUE_LAST_REFUSE). -/
def queLast (s : State) (q code : Nat) : State := setRegN s Reg.queLastRefuse (code * 65536 + q)

/-- A refused access or command of a queue. -/
def queRefuse (s : State) (q code : Nat) : State := queLast (refuse s Reg.queBase code) q code

/-- A device copy into a host queue: refused while ABOVE, full or not enabled (Table 11.2, second row). -/
def devCopy (s : State) (q : Nat) (p : Packet) (counter : Nat) : State :=
  if isHostQueue s q && !(getQ s q).above && canTake s q (cellsFor p.data.length) then commitPacket s q p
  else
    let s := bump (bump s counter) (Reg.queCnt 3)
    logEvent (evt (queLast s q 0x0E41) Reg.queEvents 4) 0x0E41 q []

/-- The state of pin XOFFn before drive: a queue with XOFF_EN and XOFF n has ABOVE set (R372). -/
def xoffPin (s : State) (n : Nat) : Bool :=
  s.que.q.any (fun p => p.2.above && bit p.2.cfg 25 && fld p.2.cfg 23 21 == n)

/-- What pin XOFFn drives, none where it is released: its level and drive are those of QUE_XOFF_CFG (R372), in
the phases of Table 22.11. -/
def xoffLevel (s : State) (n : Nat) : Option Bool :=
  bankOut s 0 (driveOf (xoffPin s n) (regBit s Reg.queXoffCfg n) (regBit s Reg.queXoffCfg (8 + n)))

/-- QUE_XOFF: the asserted state of XOFF7–XOFF0. -/
def xoffPins (s : State) : Nat := sumNat ((List.range 8).map (fun n => if xoffPin s n then 2 ^ n else 0))

/-! ### Host configuration (R366, R367) -/

/-- The packet word of a popped packet (Table 11.4). -/
def packetWord (p : Packet) : Nat :=
  2 ^ 63 + p.source * 2 ^ 48 + p.port * 2 ^ 16 + p.data.length

/-- QUE_QCFG fields other than ENABLE that host software can write: WAIT_EMPTY, FLOW on ingress queues, XOFF_EN,
XOFF and WAIT_US; WAIT_US 51–63 leaves its field and records 0xF1. -/
def qcfgFields (q : Nat) (old v : Word) : Word :=
  let c := setFld old 27 27 (fld v 27 27)
  let c := if q < 6 then setFld c 26 26 (fld v 26 26) else c
  let c := setFld c 25 25 (fld v 25 25)
  let c := setFld c 23 21 (fld v 23 21)
  if fld v 5 0 ≤ 50 then setFld c 5 0 (fld v 5 0) else c

def qcfgStore (s : State) (q : Nat) (v : Word) : State :=
  let x := getQ s q
  let s := setQ s q { x with cfg := qcfgFields q x.cfg v }
  if 50 < fld v 5 0 then queRefuse s q 0x0EF1 else s

/-- The check of a host queue's enable (R366): 0 or the cause. -/
def queueCheck (s : State) (q : Nat) : Nat :=
  let x := getQ s q
  if qMin x ≤ qMax x && qLow x < qHigh x && qHigh x ≤ qMax x && 73 ≤ qMax x then
    (if 65536 < minSum s + qMin x then 0x0E02 else 0)
  else 0x0E01

/-- Ends a host push: its cells are released, nothing is linked (R363, R376). -/
def pushEndAbandon (s : State) (q port : Nat) : State :=
  let x := getQ s q
  match smFind x.push port with
  | none => s
  | some p =>
    let s := setQ s q { x with push := smErase x.push port }
    if p.isOpen then releaseCells s q (cellsFor p.len) else s

/-- Writing ENABLE 0 of a host queue (R367). -/
def queueDisable (s : State) (q : Nat) : State :=
  let s := pushEndAbandon (pushEndAbandon s q 0) q 1
  let x := getQ s q
  let n := x.pkts.length + x.pop.length
  let s := setQ s q { x with cfg := setBit x.cfg 31 false, pkts := [], pop := [] }
  let s := setHeld s q (takenCells x)
  irqEval ((List.replicate n ()).foldl (fun s _ => bump s (Reg.queCnt 4)) s)

/-- A write of QUE_QCFG for the selected queue. -/
def qcfgWrite (s : State) (v : Word) : State :=
  let q := regFld s Reg.queSel 10 0
  if q < 64 then qcfgStore s q v
  else if bit (getQ s q).cfg 31 then
    let keepFields := qcfgFields q (getQ s q).cfg v != (getQ s q).cfg || 50 < fld v 5 0
    let s := if keepFields then queRefuse s q 0x0E03 else s
    if bit v 31 then s else queueDisable s q
  else
    let s := qcfgStore s q v
    if bit v 31 then
      let c := queueCheck s q
      if c = 0 then setQ s q { getQ s q with cfg := setBit (getQ s q).cfg 31 true } else queRefuse s q c
    else s

/-- A write of QUE_QLIM or QUE_QWM for the selected queue: queues 0–17 RWL under QUE's enable, 18–63 read-only,
host queues while disabled (section 11.2, R366). -/
def qlimWrite (s : State) (isWm : Bool) (v : Word) : State :=
  let q := regFld s Reg.queSel 10 0
  let x := getQ s q
  let old := if isWm then x.wm else x.lim
  let upd := setQ s q (if isWm then { x with wm := v } else { x with lim := v })
  if q < 18 then
    (if enabled s Reg.queBase then (if v = old then s else queRefuse s q 0x0EF0) else upd)
  else if q < 64 then s
  else if bit x.cfg 31 then queRefuse s q 0x0E03
  else upd

/-! ### Pops (R374, R375, R377–R379) -/

/-- Releases the packet a host port last popped. -/
def releasePopped (s : State) (q port : Nat) : State :=
  let x := getQ s q
  match smFind x.pop port with
  | none => s
  | some p => releaseCells (setQ s q { x with pop := smErase x.pop port }) q (cellsFor p.pkt.data.length)

/-- Answers a read with words. -/
def respond (s : State) (ws : List Word) : State := { s with host := { s.host with resp := ws } }

/-- The not-valid word. -/
def popNotValid (s : State) : State := respond (bump s (Reg.queCnt 5)) [0#32, 0#32]

/-- Takes the head packet for a host port; the head exists. -/
def popTake (s : State) (q port : Nat) : State :=
  let x := getQ s q
  match x.pkts with
  | [] => popNotValid s
  | p :: r =>
    let w := packetWord p
    let s := setQ s q { x with pkts := r, pop := smSet x.pop port ⟨p, 0⟩,
                               popHi := smPut 0#32 x.popHi port (BitVec.ofNat 32 (w / 2 ^ 32)) }
    irqEval (respond (bump s (Reg.queCnt 1)) [BitVec.ofNat 32 w, BitVec.ofNat 32 (w / 2 ^ 32)])

def queuePop (s : State) (q port : Nat) : State :=
  if !isHostQueue s q then
    let x := getQ s q
    respond (queRefuse (setQ s q { x with popHi := smErase x.popHi port }) q 0x0E07) [0#32, 0#32]
  else
    let s := releasePopped s q port
    if (getQ s q).pkts.isEmpty then
      (if port = 0 && bit (getQ s q).cfg 27 then { s with que := { s.que with popWait := s.que.popWait ++ [(q, s.raw)] } }
       else
        let x := getQ s q
        popNotValid (setQ s q { x with popHi := smErase x.popHi port }))
    else popTake s q port

/-! ### Pushes (R376) -/

/-- Stores the reason code of a port's last push command. -/
def pushReason (s : State) (q port code : Nat) : State :=
  let x := getQ s q
  setQ s q { x with reason := smPut 0 x.reason port code }

def pushRefuse (s : State) (q port code : Nat) : State := pushReason (queRefuse s q code) q port code

/-- Opens a push whose cells can be reserved, else leaves it PENDING. -/
def pushOpen (s : State) (q port len : Nat) : State :=
  if canTake s q (cellsFor len) then
    let s := takeCells s q (cellsFor len)
    let x := getQ s q
    setQ s q { x with push := smSet x.push port ⟨len, [], true⟩ }
  else
    let x := getQ s q
    setQ s q { x with push := smSet x.push port ⟨len, [], false⟩ }

/-! ### The commands -/

/-- PUSH_START (R376, R377). -/
def execPushStart (port q : Nat) (len : Nat) (s : State) : Host.Outcome State Fault Refusal :=
  done (
    if !isHostQueue s q then queRefuse s q 0x0E07
    else if len = 0 then pushReason (pushEndAbandon s q port) q port 0
    else if (smFind (getQ s q).push port).isSome then pushRefuse s q port 0x0E08
    else if 9216 < len then pushRefuse s q port 0x0E04
    else pushReason (pushOpen s q port len) q port 0)

/-- PUSH_RESERVED: a PENDING push takes its cells once they are there. -/
def execPushReserved (port q : Nat) (s : State) : Host.Outcome State Fault Refusal :=
  done (
    match smFind (getQ s q).push port with
    | some p => if p.isOpen then s else pushOpen s q port p.len
    | none => s)

/-- PUSH_DATA_WRITE: the next 4 bytes of an open push. -/
def execPushDataWrite (port q : Nat) (v : Word) (s : State) : Host.Outcome State Fault Refusal :=
  done (
    if !isHostQueue s q then queRefuse s q 0x0E07
    else
      match smFind (getQ s q).push port with
      | some p =>
        if p.isOpen && p.data.length < p.len then
          let x := getQ s q
          let d := p.data ++ (leBytes 4 v.toNat).take (p.len - p.data.length)
          setQ s q { x with push := smSet x.push port { p with data := d } }
        else pushRefuse s q port 0x0E05
      | none => pushRefuse s q port 0x0E05)

/-- PUSH_END: the push commits with the raw time as ARRIVAL; the host's block code is 0x01 and it names no port. -/
def execPushEnd (port q : Nat) (s : State) : Host.Outcome State Fault Refusal :=
  done (
    if !isHostQueue s q then queRefuse s q 0x0E07
    else
      match smFind (getQ s q).push port with
      | some p =>
        if p.isOpen && p.data.length = p.len then
          let x := getQ s q
          let s := pushReason (setQ s q { x with push := smErase x.push port }) q port 0
          linkPacket s q { source := 1, port := 7, arrival := s.raw, sub := 0, data := p.data }
        else pushRefuse s q port 0x0E06
      | none => pushRefuse s q port 0x0E06)

/-- POP (R374, R375). -/
def execPop (port q : Nat) (s : State) : Host.Outcome State Fault Refusal := done (queuePop s q port)

/-- Has a waiting PCIe pop come to its end: a packet has committed, or WAIT_US has passed? -/
def popEnds (s : State) (w : Nat × Nat) : Bool :=
  !(getQ s w.1).pkts.isEmpty || w.2 + 1000 * fld (getQ s w.1).cfg 5 0 ≤ s.raw

/-- POP_WAIT_END: the first waiting PCIe pop that has come to its end takes its packet, or answers not-valid at its timeout
(R375). -/
def execPopWaitEnd (s : State) : Host.Outcome State Fault Refusal :=
  done (
    match s.que.popWait.find? (popEnds s) with
    | none => s
    | some w =>
      let s := { s with que := { s.que with popWait := s.que.popWait.erase w } }
      let x := getQ s w.1
      if !x.pkts.isEmpty then popTake s w.1 0
      else popNotValid (bump (setQ s w.1 { x with popHi := smErase x.popHi 0 }) (Reg.queCnt 6)))

/-- POP_DATA_READ: the next 4 bytes of ARRIVAL and data, 0 beyond the end (R374). -/
def execPopDataRead (port q : Nat) (s : State) : Host.Outcome State Fault Refusal :=
  done (
    if !isHostQueue s q then respond (queRefuse s q 0x0E07) [0#32]
    else
      match smFind (getQ s q).pop port with
      | none => respond s [0#32]
      | some p =>
        let all := leBytes 8 p.pkt.arrival ++ p.pkt.data
        let x := getQ s q
        let s := setQ s q { x with pop := smSet x.pop port { p with pos := p.pos + 4 } }
        respond s [BitVec.ofNat 32 (le all p.pos 4)])

/-- QUEUE_DONE: releases the popped packet (R374, R377). -/
def execQueueDone (port q : Nat) (s : State) : Host.Outcome State Fault Refusal :=
  done (if isHostQueue s q then releasePopped s q port else queRefuse s q 0x0E07)

/-- QUEUE_ENABLE: a write of QUE_QCFG with ENABLE 1 (R366). -/
def execQueueEnable (v : Word) (s : State) : Host.Outcome State Fault Refusal :=
  done (qcfgWrite s (setBit v 31 true))

/-- QUEUE_DISABLE: a write of QUE_QCFG with ENABLE 0 (R367). -/
def execQueueDisable (v : Word) (s : State) : Host.Outcome State Fault Refusal :=
  done (qcfgWrite s (setBit v 31 false))

/-- The first waiting producer whose queue can take its packet now, in order, with the rest of the list. -/
def firstReady (s : State) : List (Nat × Packet) → List Nat → Option ((Nat × Packet) × List (Nat × Packet))
  | [], _ => none
  | w :: r, seen =>
    if !seen.contains w.1 && canTake s w.1 (cellsFor w.2.data.length) then some (w, r)
    else (firstReady s r (w.1 :: seen)).map (fun x => (x.1, w :: x.2))

/-- PRODUCER_WAIT_COMMIT: a waiting device producer takes its cells and commits (R368). -/
def execProducerWaitCommit (s : State) : Host.Outcome State Fault Refusal :=
  done (
    match firstReady s s.que.waiting [] with
    | none => s
    | some (w, r) => commitPacket { s with que := { s.que with waiting := r } } w.1 w.2)

end Sys2Proof.Machine
end

