-- ==== Sys2Proof/Machine/Plan.lean ====
section
/-! DEFINITION. The plan image: its layout, its parsing and the tests of Table 5.8 (05_hang_plan.md, sections 5.1,
5.2 and 5.6; the verdict formats of 08_verdicts_and_alarms.md). -/

namespace Sys2Proof.Machine

/-- Where a test failed (R186): cause, section TYPE, element, image byte offset. -/
structure PlanFail where
  cause : Nat
  section_ : Nat
  entry : Nat
  offset : Nat
  deriving DecidableEq, Repr

/-- A directory entry (R168). -/
structure Sect where
  typ : Nat
  offset : Nat
  length : Nat
  count : Nat
  esize : Nat
  deriving DecidableEq, Repr

/-- The first failing test of a list, in order. -/
def firstFail : List (Bool × PlanFail) → Option PlanFail
  | [] => none
  | (bad, f) :: r => if bad then some f else firstFail r

/-- The first number below n with a property. -/
def firstBelow (n : Nat) (p : Nat → Bool) : Option Nat := (List.range n).find? p

/-! ### Phase 1, FRAME (R166–R169, R623) -/

/-- Element sizes and COUNT limits of Table 5.2. -/
def sectLimits (typ : Nat) : Option (Nat × Nat × Nat) :=
  if typ = 1 then some (32, 0, 16388) else if typ = 2 then some (4, 1, 16388) else if typ = 3 then some (32, 1, 256)
  else if typ = 4 then some (1, 4, 1048576) else if typ = 5 then some (32, 0, 4096) else if typ = 6 then some (16, 0, 16)
  else if typ = 7 then some (8, 0, 256) else if typ = 8 then some (1, 0, 262144) else if typ = 9 then some (16, 0, 16)
  else none

/-- Element size and COUNT limit of TABLE 0 to TABLE 8 (Table 5.4). -/
def tableLimits (n : Nat) : Option (Nat × Nat) :=
  if n = 0 then some (16, 256) else if n = 1 then some (32, 4095) else if n = 2 then some (4, 16388)
  else if n = 3 then some (16, 4096) else if n = 4 then some (64, 512) else if n = 5 then some (4, 131073)
  else if n = 6 then some (4, 524288) else if n = 7 then some (8, 524288) else if n = 8 then some (8, 16388) else none

/-- The element size a directory entry must have, none when TYPE or ESIZE_LOG2 breaks R169 or R623. -/
def sectSize (typ elog : Nat) : Option Nat :=
  if 0x100 ≤ typ && typ < 0x120 then
    match tableLimits (typ - 0x100) with
    | some (e, _) => if 2 ^ elog = e then some e else none
    | none => if 2 ≤ elog && elog ≤ 8 then some (2 ^ elog) else none
  else if elog = 0 then (sectLimits typ).map (·.1) else none

def sectAt (img : List Byte) (i : Nat) : Sect :=
  let e := 0x100 + 16 * i
  let w0 := le img e 4
  { typ := w0 % 65536, offset := le img (e + 4) 4, length := le img (e + 8) 4, count := le img (e + 12) 4,
    esize := match sectSize (w0 % 65536) (w0 / 65536 % 256) with | some n => n | none => 0 }

def directory (img : List Byte) : List Sect := (List.range (le img 0x13 1)).map (sectAt img)

/-- Does directory entry i break R168, R169 or R623? -/
def sectBad (img : List Byte) (ds : List Sect) (i : Nat) (d : Sect) : Bool :=
  let e := 0x100 + 16 * i
  le img (e + 3) 1 != 0 || d.esize = 0 || d.offset % 64 != 0 || d.offset < 0x100 + 16 * ds.length ||
  img.length - 4 < d.offset + d.length || d.length != d.count * d.esize ||
  (ds.take i).any (fun x => x.typ = d.typ ||
    (x.length != 0 && d.length != 0 && x.offset < d.offset + d.length && d.offset < x.offset + x.length))

def dirFail (img : List Byte) : Option PlanFail :=
  let n := le img 0x13 1
  if n = 0 || 48 < n || img.length - 4 < 0x100 + 16 * n then some ⟨0x05, 0, 0, 0x10⟩
  else
    let ds := directory img
    (firstBelow n (fun i => match ds[i]? with | some d => sectBad img ds i d | none => true)).map
      (fun i => ⟨0x05, 0, i, 0x100 + 16 * i⟩)

def findSect (ds : List Sect) (typ : Nat) : Option Sect := ds.find? (fun d => d.typ = typ)

/-- The bytes of a section; an absent one has COUNT 0 (R169). -/
def sectData (img : List Byte) (ds : List Sect) (typ : Nat) : List Byte :=
  match findSect ds typ with | some d => slice img d.offset d.length | none => []

def sectCount (ds : List Sect) (typ : Nat) : Nat := match findSect ds typ with | some d => d.count | none => 0
def sectOff (ds : List Sect) (typ : Nat) : Nat := match findSect ds typ with | some d => d.offset | none => 0

def crcNat (l : List Byte) : Nat := crc32c l

/-- The first header byte from 0x60 to 0xFB that is not 0 (R167, R186). -/
def reservedAt (img : List Byte) : Option Nat := ((List.range 0x9C).map (0x60 + ·)).find? (fun o => le img o 1 != 0)

/-- FRAME: 0x0A01 to 0x0A0C in the order of Table 5.8; len is the length declared for the copy (R166, R167, R188). -/
def frameFail (img : List Byte) (len : Nat) : Option PlanFail :=
  let n := img.length
  if n < 1024 || 4194304 < n || n % 64 != 0 || le img 8 4 != n || len != n then some ⟨0x01, 0, 0, 8⟩
  else
    match firstFail
      [(le img 0 4 != 0x50484C47, ⟨0x02, 0, 0, 0⟩), (le img 6 2 != 1, ⟨0x02, 0, 0, 4⟩),
       (le img 0x28 4 &&& 0xF800FE00 != 0, ⟨0x02, 0, 0, 0x28⟩), (le img 0x2C 4 &&& 0xFFFFC000 != 0, ⟨0x02, 0, 0, 0x2C⟩),
       (le img 0x30 4 &&& 0xFFFFFFE0 != 0, ⟨0x02, 0, 0, 0x30⟩), (le img 0x34 4 &&& 0xFFFF0000 != 0, ⟨0x02, 0, 0, 0x34⟩),
       ((reservedAt img).isSome, ⟨0x02, 0, 0, (reservedAt img).getD 0⟩),
       (le img 0xFC 4 != crcNat (img.take 0xFC), ⟨0x03, 0, 0, 0xFC⟩),
       (le img (n - 4) 4 != crcNat (img.take (n - 4)), ⟨0x04, 0, 0, n - 4⟩)] with
    | some f => some f
    | none =>
      match dirFail img with
      | some f => some f
      | none =>
        let ds := directory img
        let br := le img 0x10 1
        let vd := le img 0x11 1
        firstFail
          [((findSect ds 2).isNone, ⟨0x06, 2, 0, 0x100⟩), ((findSect ds 3).isNone, ⟨0x06, 3, 0, 0x100⟩),
           ((findSect ds 4).isNone, ⟨0x06, 4, 0, 0x100⟩),
           ((findSect ds 7).isSome && (findSect ds 8).isNone, ⟨0x06, 8, 0, 0x100⟩),
           (!([10, 12, 15, 20, 25, 30, 50, 60, 100, 120, 200, 240].contains br), ⟨0x07, 0, 0, 0x10⟩),
           (vd = 0 || br % vd != 0 || le img 0x12 1 = 0, ⟨0x08, 0, 0, 0x10⟩),
           (250000 < le img 0x1C 4, ⟨0x09, 0, 0, 0x1C⟩), (1000000 < le img 0x20 4, ⟨0x09, 0, 0, 0x20⟩),
           (15000000 < le img 0x1C 4 * br, ⟨0x0A, 0, 0, 0x1C⟩),
           (le img 0x14 4 = 0 || 1300 * 65536 * 100 < le img 0x14 4 * 106, ⟨0x0B, 0, 0, 0x14⟩),
           (le img 0x18 4 = 0 || 100000 < le img 0x18 4, ⟨0x0C, 0, 0, 0x18⟩)]

/-! ### The plan of an image -/

def words (l : List Byte) (n : Nat) : List Word := (List.range n).map (fun i => BitVec.ofNat 32 (le l (4 * i) 4))

def tourOf (d : List Byte) (t : Nat) : Tour :=
  let e := 32 * t
  { codeLen := le d (e + 2) 2, iramOff := le d e 2, codeSrc := le d (e + 4) 4, budget := le d (e + 8) 4,
    kind := le d (e + 13) 1, priority := le d (e + 12) 1 % 8, affinity := le d (e + 16) 8 }

def chunks (sz n : Nat) (d : List Byte) : List (List Byte) := (List.range n).map (fun i => slice d (sz * i) sz)

/-- The plan an image states, its sections found through the directory. -/
def parsePlan (img : List Byte) : Plan :=
  let ds := directory img
  let sec := sectData img ds
  let cnt := sectCount ds
  { planId := le img 0xC 4, silence := le img 0x12 1, verdictDiv := le img 0x11 1, baseRate := le img 0x10 1,
    reqPace := le img 0x14 4, closeDrain := le img 0x18 4, cd := le img 0x1C 4, lh := le img 0x20 4,
    hashSeed := le img 0x24 4, extentPages := le img 0x2A 2 % 2048, heldMax := le img 0x28 2 % 512,
    worst := le img 0x2C 2 % 16384, features := le img 0x30 1 % 32, closeTour := le img 0x34 1,
    sealTour := le img 0x35 1,
    templates := (chunks 32 (cnt 1) (sec 1)).map (fun c => words c 8),
    vaultMap := words (sec 2) (cnt 2),
    tours := (List.range (cnt 3)).map (tourOf (sec 3)),
    code := sec 4, lines := chunks 32 (cnt 5) (sec 5), pins := chunks 16 (cnt 6) (sec 6),
    msgs := chunks 8 (cnt 7) (sec 7), msgBody := sec 8,
    timers := (chunks 16 (cnt 9) (sec 9)).map (fun c => { tour := le c 0 1, period := le c 4 4, phase := le c 8 4 }),
    tables := (List.range 32).filterMap (fun n => (findSect ds (0x100 + n)).map (fun d =>
      (n, { esize := d.esize, count := d.count, data := slice img d.offset d.length }))) }

/-! ### Parts of a plan -/

/-- The vault map slot of an accession: granule offset and length (R170). -/
def mapSlot (p : Plan) (n : Nat) : Option (Nat × Nat) :=
  match p.vaultMap[n]? with
  | some w => if bit w 31 then some (fld w 15 0, fld w 19 16) else none
  | none => none

def ptable (p : Plan) (n : Nat) : Option PTable := smFind p.tables n
def tableCount (p : Plan) (n : Nat) : Nat := match ptable p n with | some t => t.count | none => 0
def tableElem (p : Plan) (n i : Nat) : List Byte :=
  match ptable p n with | some t => slice t.data (t.esize * i) t.esize | none => []

/-- The group count (R176). -/
def groupCount (p : Plan) : Nat := match ptable p 0 with | some t => t.count | none => 1

def tourKind (p : Plan) (t kind : Nat) : Bool :=
  match p.tours[t]? with | some x => x.kind = kind | none => false

/-- H and W as R157 recomputes them. -/
def planHeld (p : Plan) : Nat := ceilDiv ((p.cd + p.lh) * p.baseRate) 1000000 + 2
def planExtent (p : Plan) : Nat :=
  ceilDiv (p.vaultMap.foldl (fun m w => if bit w 31 then Nat.max m (fld w 15 0 + fld w 19 16) else m) 0) 64
def planWorst (p : Plan) : Nat := planHeld p * (2 + planExtent p)

/-! ### Verdict line elements (Table 8.4) -/

structure VLine where
  form : Nat
  aLine : Bool
  bLine : Bool
  revise : Bool
  compare : Nat
  a : Nat
  b : Nat
  fa : Nat
  fb : Nat
  gf : Nat
  gate : Nat
  gain : Nat
  set : Nat
  clear : Nat
  gateMin : Nat
  m : Nat
  n : Nat
  gateEn : Bool
  holdUnknown : Bool
  almEn : Bool
  setTpl : Bool
  clearTpl : Bool
  alm : Nat
  setTemplate : Nat
  clearTemplate : Nat
  tag : Nat
  deriving DecidableEq, Repr

def vline (e : List Byte) : VLine :=
  let w (i : Nat) : Word := BitVec.ofNat 32 (le e (4 * i) 4)
  { form := fld (w 0) 31 29, aLine := bit (w 0) 28, bLine := bit (w 0) 27, revise := bit (w 0) 26,
    compare := fld (w 0) 25 24, a := fld (w 0) 23 12, b := fld (w 0) 11 0, fa := fld (w 1) 31 26,
    fb := fld (w 1) 25 20, gf := fld (w 1) 19 14, gate := fld (w 1) 11 0, gain := (w 2).toNat, set := (w 3).toNat,
    clear := (w 4).toNat, gateMin := (w 5).toNat, m := fld (w 6) 31 27, n := fld (w 6) 26 22, gateEn := bit (w 6) 21,
    holdUnknown := bit (w 6) 20, almEn := bit (w 6) 19, setTpl := bit (w 6) 18, clearTpl := bit (w 6) 17,
    alm := fld (w 6) 15 12, setTemplate := fld (w 7) 31 24, clearTemplate := fld (w 7) 23 16, tag := fld (w 7) 15 0 }

/-- Lines a line names as operands. -/
def lineOps (v : VLine) : List Nat :=
  (if v.aLine then [v.a] else []) ++ (if v.bLine && (v.form = 2 || v.form = 3) then [v.b] else [])

/-- Cells a line reads itself. -/
def lineCells (v : VLine) : List Nat :=
  (if v.aLine then [] else if v.form = 4 then (List.range (v.b + 1)).map (v.a + ·) else [v.a]) ++
  (if (v.form = 2 || v.form = 3) && !v.bLine then [v.b] else []) ++ (if v.gateEn then [v.gate] else [])

/-- Threshold order of Table 8.5. -/
def thresholdsOk (v : VLine) : Bool :=
  if v.compare = 0 then fle f32 v.clear v.set
  else if v.compare = 1 then fle f32 v.set v.clear
  else if v.compare = 2 then fle f32 0 v.clear && fle f32 v.clear v.set
  else false

/-- Does line element i break Tables 8.4, 8.5 or R273 (R277) or a reference limit of R177? -/
def lineBad (e : List Byte) (i msgs : Nat) : Bool :=
  let v := vline e
  v.form = 0 || 4 < v.form || !thresholdsOk v || fld (BitVec.ofNat 32 (le e 4 4)) 13 12 != 0 ||
  le e 24 4 &&& 0x10FFF != 0 || v.m = 0 || 16 < v.m || v.n = 0 || v.m < v.n ||
  (!v.setTpl && v.setTemplate != 0) || (!v.clearTpl && v.clearTemplate != 0) ||
  (v.setTpl && msgs ≤ v.setTemplate) || (v.clearTpl && msgs ≤ v.clearTemplate) ||
  (v.aLine && (i ≤ v.a || v.fa != 0)) || (v.bLine && (i ≤ v.b || v.fb != 0)) ||
  (v.form = 1 && (v.b != 0 || v.fb != 0)) || ((v.form = 1 || v.form = 4) && v.bLine) ||
  (v.form = 4 && (v.aLine || 0xFFF < v.a + v.b))

def planLines (p : Plan) : List VLine := p.lines.map vline

/-- The longest chain of line operands ending at each line, ascending (R278). -/
def lineDepths (ls : List VLine) : List Nat :=
  ls.foldl (fun ds v =>
    ds ++ [match lineOps v with
           | [] => 0
           | ops => 1 + ops.foldl (fun m j => Nat.max m (match ds[j]? with | some d => d | none => 0)) 0]) []

/-- The reduction cost S (R278). -/
def reduceCost (p : Plan) : Nat :=
  let ls := planLines p
  2 * ceilDiv ls.length 16 + sumNat (ls.map (fun v => if v.form = 4 then ceilDiv (v.b + 1) 16 else 0)) +
    4 * (lineDepths ls).foldl Nat.max 0

/-- The cells each line reads, directly or through its operands, ascending by line. -/
def lineReads (ls : List VLine) : List (List Nat) :=
  ls.foldl (fun rs v =>
    rs ++ [(lineCells v ++ (lineOps v).flatMap (fun j => match rs[j]? with | some c => c | none => [])).eraseDups]) []

/-- The keep set, in ascending cell order (R294). -/
def keepSet (p : Plan) : List Nat :=
  let ls := planLines p
  let rs := lineReads ls
  let cells := (ls.zip rs).flatMap (fun x => if x.1.revise then x.2 else [])
  (List.range 4096).filter (fun c => cells.contains c)

def reviseLines (p : Plan) : List Nat :=
  (List.range p.lines.length).filter (fun i => match p.lines[i]? with | some e => (vline e).revise | none => false)

/-! ### Message templates (Tables 8.10 and 8.11) -/

structure Template where
  offset : Nat
  ports : Nat
  gmac : Bool
  kind : Nat
  length : Nat
  body : List Byte
  deriving DecidableEq, Repr

/-- The template of a MSG_INDEX element and a body. -/
def templateWith (e body : List Byte) : Template :=
  let w1 : Word := BitVec.ofNat 32 (le e 4 4)
  { offset := le e 0 4 % 2 ^ 18, ports := fld w1 21 16, gmac := bit w1 15, kind := fld w1 14 12, length := fld w1 11 0,
    body := body }

def templateOf (p : Plan) (t : Nat) : Option Template :=
  (p.msgs[t]?).map (fun e => templateWith e (slice p.msgBody (le e 0 4 % 2 ^ 18) (le e 4 4 % 4096)))

/-- Patch fields: offset in the patch header, bytes patched (Table 8.11). -/
def patchFields : List (Nat × Nat) :=
  [(4, 4), (6, 4), (8, 8), (0xA, 4), (0xC, 48), (0xE, 4), (0x10, 2), (0x12, 4), (0x14, 2), (0x16, 2), (0x18, 4), (0x1A, 16)]

def templateBad (p : Plan) (e : List Byte) : Bool :=
  let w0 := le e 0 4
  let w1 : Word := BitVec.ofNat 32 (le e 4 4)
  let o := w0 % 2 ^ 18
  let len := fld w1 11 0
  let kind := fld w1 14 12
  let b := slice p.msgBody o len
  let il := len - 32
  w0 / 2 ^ 18 != 0 || fld w1 31 22 != 0 || 2 < kind || (kind ≤ 1 && fld w1 21 16 = 0) || il < 60 || 1518 < il ||
  p.msgBody.length < o + len || le b 0x1C 4 != 0 ||
  (kind ≤ 1 && (le b 0 2 = 0 || 1000 < le b 0 2 || le b 2 2 < le b 0 2 || 60000 < le b 2 2)) ||
  patchFields.any (fun f => le b f.1 2 != 0 && (il < le b f.1 2 + f.2 || (f.1 = 0x18 && kind != 1) ||
    (f.1 = 0x1A && !bit w1 15))) ||
  (kind = 2 && (le b 32 1 != 1 || le b 33 1 != 1 || le b (32 + 0x1D) 1 != 0 || le b (32 + 0xA) 2 + 32 != il))

def pinBad (e : List Byte) : Bool :=
  le e 0 4 &&& 0xFFFF0F08 != 0 || le e 6 2 != 0 || le e 8 8 != 0 || le e 0 1 % 4 = 3 ||
  (le e 0 1 % 4 = 2 && le e 4 2 = 0)

/-! ### Accession conditions 2 to 8 of Table 3.4 against a plan -/

/-- Granules the check requires (R96). -/
def slotGranules (fmt : Word) : Nat := ceilDiv (40 + 8 * fld fmt 22 16 + 4 * fld fmt 15 11) 64

/-- The first failing condition from lo to 8 for record words w of accession n, 0 when all hold (Table 3.4, R116,
R118). -/
def recordFail (part : Part) (p : Plan) (w : List Word) (n lo : Nat) : Nat :=
  let g (i : Nat) : Word := match w[i]? with | some x => x | none => 0#32
  let fmt := g 5
  let bind := g 6
  let loc := 0x4000 ≤ n
  let carr := fld fmt 31 29
  let addr0 := g 0 = 0#32 && g 1 = 0#32 && g 2 = 0#32 && g 3 = 0#32
  let rd := fld fmt 7 0
  if loc && part = .gld9610 then 0x110F
  else if lo ≤ 2 && !loc && (3 < carr || (addr0 && carr != 3)) then 0x110F
  else if lo ≤ 3 && (64 < fld fmt 22 16 || 16 < fld fmt 15 11 || 4 < fld fmt 10 8 ||
      (!loc && carr = 1 && fld fmt 27 24 != 15)) then 0x1106
  else if rd = 0 || p.baseRate % rd != 0 then 0x1105
  else if !loc && carr = 0 && fld (g 7) 23 0 = 0 then 0x110E
  else if !tourKind p (fld bind 31 24) 0 then 0x1107
  else if groupCount p ≤ fld bind 19 12 || (fld bind 11 0 != 0xFFF && tableCount p 1 ≤ fld bind 11 0) then 0x1108
  else match mapSlot p n with
    | some (_, len) => if len < slotGranules fmt then 0x1109 else 0
    | none => 0x1109

/-- The identity of a record: ADDR with its first octet first, UDP_PORT, STREAM_ID, CARRIAGE, two zeros (R89). -/
def recordKey (w : List Word) : List Byte :=
  let g (i : Nat) : Nat := match w[i]? with | some x => x.toNat | none => 0
  beBytes 4 (g 3) ++ beBytes 4 (g 2) ++ beBytes 4 (g 1) ++ beBytes 4 (g 0) ++ beBytes 2 (g 4) ++
    beBytes 2 (g 4 / 65536) ++ beBytes 1 (g 5 / 2 ^ 29) ++ [0#8, 0#8]

/-! ### Phase 2, SECTIONS (0x0A0D to 0x0A15, then 0x0A17) -/

def elemFail (cause typ : Nat) (base esize : Nat) (i : Option Nat) : Option PlanFail :=
  i.map (fun k => ⟨cause, typ, k, base + esize * k⟩)

/-- 0x0A0D: a vault map element breaks R170. -/
def mapFail (p : Plan) (off : Nat) : Option PlanFail :=
  elemFail 0x0D 2 off 4 (firstBelow p.vaultMap.length (fun i =>
    match mapSlot p i with
    | none => false
    | some (o, l) => l = 0 || 10 < l || (List.range i).any (fun j =>
        match mapSlot p j with | some (o', l') => o' < o + l && o < o' + l' | none => false)))

/-- 0x0A11: a tour element breaks R172 or R173. -/
def tourFail (p : Plan) (raw : List Byte) (off : Nat) : Option PlanFail :=
  elemFail 0x11 3 off 32 (firstBelow p.tours.length (fun t =>
    match p.tours[t]? with
    | none => true
    | some x => x.codeLen % 4 != 0 || x.codeLen = 0 || 16384 < x.codeLen || x.iramOff % 4 != 0 || x.budget = 0 ||
        16777215 < x.budget || 5 < x.kind || x.affinity = 0 || le raw (32 * t + 24) 8 != 0 ||
        16384 < x.iramOff + x.codeLen ||
        p.code.length < x.codeSrc + x.codeLen ||
        (p.tours.take t).any (fun y => x.affinity &&& y.affinity != 0 &&
          !(x.iramOff = y.iramOff && x.codeLen = y.codeLen && x.codeSrc = y.codeSrc) &&
          x.iramOff < y.iramOff + y.codeLen && y.iramOff < x.iramOff + x.codeLen)))

def tplEnabled (w : List Word) : Bool := match w[7]? with | some c => bit c 31 | none => false
def wordAt (w : List Word) (i : Nat) : Word := match w[i]? with | some x => x | none => 0#32

/-- 0x0A12: a binding of R174. -/
def bindFail (p : Plan) (ds : List Sect) : Option PlanFail :=
  match firstFail [(p.closeTour != 0xFF && !tourKind p p.closeTour 1, ⟨0x12, 0, 0, 0x34⟩),
                   (p.sealTour != 0xFF && !tourKind p p.sealTour 2, ⟨0x12, 0, 0, 0x34⟩)] with
  | some f => some f
  | none =>
    match elemFail 0x12 1 (sectOff ds 1) 32 (firstBelow p.templates.length (fun i =>
        match p.templates[i]? with
        | some w => tplEnabled w && !tourKind p (fld (wordAt w 6) 31 24) 0
        | none => false)) with
    | some f => some f
    | none => elemFail 0x12 9 (sectOff ds 9) 16 (firstBelow p.timers.length (fun i =>
        match p.timers[i]? with | some t => !tourKind p t.tour 3 | none => false))

/-- 0x0A13: a COUNT beyond Table 5.2 or 5.4, the reduction cost, or the revision limits (R277, R294). -/
def countBad (ds : List Sect) (d : Sect) : Bool :=
  if 0x100 ≤ d.typ then
    (if d.typ = 0x107 then d.count != sectCount ds 0x106
     else match tableLimits (d.typ - 0x100) with
       | some (_, m) => m < d.count
       | none => 1048576 < d.length)
  else if d.typ = 6 then d.count != 0 && d.count != 16
  else match sectLimits d.typ with | some (_, lo, hi) => d.count < lo || hi < d.count | none => true

def countFail (p : Plan) (ds : List Sect) : Option PlanFail :=
  match ds.find? (countBad ds) with
  | some d => some ⟨0x13, d.typ, 0, d.offset⟩
  | none =>
    let ls := planLines p
    firstFail
      [((findSect ds 0x107).isNone && sectCount ds 0x106 != 0, ⟨0x13, 0x107, 0, 0⟩),
       (600 < reduceCost p, ⟨0x13, 5, 0, sectOff ds 5⟩), (64 < (reviseLines p).length, ⟨0x13, 5, 0, sectOff ds 5⟩),
       (128 < (keepSet p).length, ⟨0x13, 5, 0, sectOff ds 5⟩),
       (ls.any (fun v => v.revise && (lineOps v).any (fun j =>
          match ls[j]? with | some u => !u.revise | none => false)), ⟨0x13, 5, 0, sectOff ds 5⟩)]

/-- 0x0A14: table, timer, verdict, pin and template references (R175–R177, R277, R309, R624). -/
def refFail (p : Plan) (raw : List Byte) (ds : List Sect) : Option PlanFail :=
  let tbl (n : Nat) (bad : Nat → List Byte → Bool) : Option PlanFail :=
    elemFail 0x14 (0x100 + n) (sectOff ds (0x100 + n)) (match ptable p n with | some t => t.esize | none => 0)
      (firstBelow (tableCount p n) (fun i => bad i (tableElem p n i)))
  let g := groupCount p
  let n5 := tableCount p 5
  let tests : List (Option PlanFail) :=
    [tbl 1 (fun _ e => leNat e / 2 ^ g != 0),
     tbl 3 (fun _ e => le e 0 1 = le e 1 1 || g ≤ le e 0 1 || g ≤ le e 1 1),
     tbl 4 (fun _ e => (mapSlot p (le e 0 2)).isNone),
     tbl 5 (fun i e => (i = 0 && leNat e != 0) || (i + 1 = n5 && leNat e != tableCount p 6) ||
       (0 < i && leNat e < leNat (tableElem p 5 (i - 1)))),
     tbl 6 (fun _ e => 131072 ≤ leNat e),
     elemFail 0x14 9 (sectOff ds 9) 16 (firstBelow p.timers.length (fun i =>
       let e := slice (sectData raw ds 9) (16 * i) 16
       le e 1 3 != 0 || le e 12 4 != 0 || le e 4 4 < 100 || 60000000 < le e 4 4 || le e 4 4 ≤ le e 8 4)),
     elemFail 0x14 5 (sectOff ds 5) 32 (firstBelow p.lines.length (fun i =>
       match p.lines[i]? with | some e => lineBad e i p.msgs.length | none => false)),
     elemFail 0x14 6 (sectOff ds 6) 16 (firstBelow p.pins.length (fun i =>
       match p.pins[i]? with | some e => pinBad e | none => false)),
     elemFail 0x14 7 (sectOff ds 7) 8 (firstBelow p.msgs.length (fun i =>
       match p.msgs[i]? with | some e => templateBad p e | none => false))]
  tests.findSome? id

/-- 0x0A15: an enabled template breaks R171. -/
def templateFail (part : Part) (p : Plan) (ds : List Sect) : Option PlanFail :=
  elemFail 0x15 1 (sectOff ds 1) 32 (firstBelow p.templates.length (fun i =>
    match p.templates[i]? with
    | none => false
    | some w => tplEnabled w && (recordFail part p w i 2 != 0 || (i < 0x4000 && (p.templates.take i).any (fun u =>
        tplEnabled u && recordKey u = recordKey w)))))

/-- Does the plan's content use L0–L3, or ports P4 and P5 (R6, log entry 10)? -/
def usesLocal (p : Plan) : Bool :=
  (List.range 4).any (fun m => (mapSlot p (0x4000 + m)).isSome ||
    (match p.templates[0x4000 + m]? with | some w => tplEnabled w | none => false)) ||
  (List.range (tableCount p 4)).any (fun i => 0x4000 ≤ le (tableElem p 4 i) 0 2)
def usesP45 (p : Plan) : Bool := p.msgs.any (fun e => fld (BitVec.ofNat 32 (le e 4 4)) 21 20 != 0)

/-- SECTIONS in the order of Table 5.8 (R188). -/
def sectionsFail (part : Part) (img : List Byte) : Option PlanFail :=
  let ds := directory img
  let p := parsePlan img
  let tests : List (Option PlanFail) :=
    [mapFail p (sectOff ds 2),
     firstFail [(planExtent p != p.extentPages || planHeld p != p.heldMax, ⟨0x0E, 0, 0, 0x28⟩),
                (planWorst p != p.worst, ⟨0x0E, 0, 0, 0x2C⟩),
                (256 < planHeld p || 1024 < planExtent p, ⟨0x0F, 0, 0, 0x28⟩), (9216 < planWorst p, ⟨0x0F, 0, 0, 0x2C⟩)],
     tourFail p (sectData img ds 3) (sectOff ds 3), bindFail p ds, countFail p ds, refFail p img ds,
     templateFail part p ds,
     firstFail [((part = .gld9610 && p.features != 0) || (usesLocal p && p.features % 2 = 0) ||
                  (usesP45 p && p.features / 16 % 2 = 0), ⟨0x17, 0, 0, 0x30⟩)]]
  tests.findSome? id

/-! ### Plan slots (R178–R180) -/

def planSlot (s : State) (k : Nat) : PlanSlot := if k = 0 then s.pln.s0 else s.pln.s1
def setPlanSlot (s : State) (k : Nat) (x : PlanSlot) : State :=
  { s with pln := if k = 0 then { s.pln with s0 := x } else { s.pln with s1 := x } }

def liveSlot (s : State) : Option Nat :=
  if s.pln.s0.st = .live then some 0 else if s.pln.s1.st = .live then some 1 else none
def retiringSlot (s : State) : Option Nat :=
  if s.pln.s0.st = .retiring then some 0 else if s.pln.s1.st = .retiring then some 1 else none
def planAt (s : State) (k : Nat) : Option Plan := (planSlot s k).plan
def livePlan (s : State) : Option Plan := match liveSlot s with | some k => planAt s k | none => none

/-- The plan whose base rate admission uses (R110). -/
def ratePlan (s : State) : Option Plan :=
  match livePlan s with | some p => some p | none => (match retiringSlot s with | some k => planAt s k | none => none)

/-- Does slot k govern index e (R179)? Until its start index is fixed a LIVE slot opens nothing (R190). -/
def slotGoverns (s : State) (k e : Nat) : Bool :=
  let x := planSlot s k
  (x.st = .live && x.startFixed && x.start ≤ e) || (x.st = .retiring && x.startFixed && x.start ≤ e && e < x.stop)

def governing (s : State) (e : Nat) : Option Nat :=
  if slotGoverns s 0 e then some 0 else if slotGoverns s 1 e then some 1 else none

/-- Exhibit time, closing time and seal time of an index in TAI ns (R120, R121). -/
def exhibitTime (br e : Nat) : Nat := (2 * e * 1000000000 + br) / (2 * br)
def closingTime (p : Plan) (e : Nat) : Nat := exhibitTime p.baseRate e + 1000 * p.cd
def sealTimeOf (p : Plan) (e : Nat) : Nat := closingTime p e + 1000 * p.lh

/-- Has selected time reached a TAI time? -/
def timeReached (s : State) (t : Nat) : Bool := 8 * (t : Int) ≤ selTime8 s (8 * s.raw)

/-- The lowest index whose exhibit time is at least a TAI time. -/
def indexAtLeast (br t : Nat) : Nat :=
  let e := t * br / 1000000000
  let e0 := e - 1
  if t ≤ exhibitTime br e0 then e0 else if t ≤ exhibitTime br e then e else e + 1

end Sys2Proof.Machine
end

