-- ==== Sys2Proof/Machine/HiashMsg.lean ====
section
/-! DEFINITION. Subkeys (R513), the form and sending of Hiash messages (sections 9.2 to 9.4), and the twin
pair's sending side (section 18.2). -/

namespace Sys2Proof.Machine

/-! ### Subkeys (R513, Table 17.4) -/

/-- Is the subkey of a PERMIT bit usable? -/
def keyUsable (s : State) (permit : Nat) : Bool :=
  s.key.wk.isSome && 1 ≤ s.key.lc && s.key.lc ≤ 3 && (getReg s Reg.keyPermit).toNat.testBit permit

def ascii (t : String) : List Nat := t.toList.map (·.toNat)

/-- A subkey of the working key (R500, R513). -/
def subkey (s : State) (permit : Nat) (label : String) (ctx : List Nat) : Option (List Byte) :=
  if keyUsable s permit then s.key.wk.map (fun k => kdf k (ascii label) ctx) else none

/-- n free bytes. -/
def freeBytes (s : State) (n : Nat) : List Byte := leBytes n (freeBelow s (256 ^ n))

/-! ### The message (R303, Table 9.1) -/

structure HMsg where
  hops : Nat
  flags : Nat                        -- bit 0 RELAYED, bit 1 AUTH
  cls : Nat
  dst : Nat
  src : Nat
  origin : Nat
  seq : Nat
  time : Nat
  segs : Nat
  seg : Nat
  sub : Nat
  revision : Nat
  body : List Byte
  deriving DecidableEq, Repr

def hmsgHeader (m : HMsg) : List Byte :=
  leBytes 4 (m.hops * 2 ^ 24 + m.flags * 2 ^ 16 + m.cls * 256 + 1) ++ leBytes 4 (m.dst * 65536 + m.src) ++
  leBytes 4 (m.body.length * 65536 + m.origin) ++ leBytes 4 m.seq ++ leBytes 8 m.time ++
  leBytes 4 (m.segs * 65536 + m.seg) ++ leBytes 4 (m.sub * 256 + m.revision)

/-- The AUTH tag (R304, Table 17.4): AES-GMAC over header and body with HOPS and SRC_ID taken as 0, under a
vector the spec does not state (log entry 11). -/
def hmsgTag (s : State) (m : HMsg) : List Byte :=
  match subkey s 3 "HIASH-LINK" [] with
  | some k => gmac k (beBytes 12 (Config.hshIv m.origin m.cls m.seq).toNat) (hmsgHeader { m with hops := 0, src := 0 } ++ m.body)
  | none => freeBytes s 16

/-- A message with its tag and CRC (R303). -/
def hmsgBytes (s : State) (m : HMsg) : List Byte :=
  let b := hmsgHeader m ++ m.body ++ (if m.flags.testBit 1 then hmsgTag s m else [])
  b ++ leBytes 4 (crcNat b)

/-- What a received message's bytes say, header first. -/
def hmsgParse (b : List Byte) : HMsg :=
  { hops := le b 3 1, flags := le b 2 1, cls := le b 1 1, dst := le b 6 2, src := le b 4 2, origin := le b 8 2,
    seq := le b 12 4, time := le b 16 8, segs := le b 26 2, seg := le b 24 2, sub := le b 29 1, revision := le b 28 1,
    body := slice b 32 (le b 10 2) }

/-! ### Sending (R301, R302, R304, R310) -/

def hshEnabled (s : State) : Bool := enabled s Reg.hshBase
def hshOnline (s : State) : Bool := hshEnabled s && !s.hsh.silent
def hshId (s : State) : Nat := regFld s Reg.hshId 15 0
def hshUpId (s : State) : Nat := regFld s Reg.hshUpId 15 0
def hshTopo (s : State) : Nat := regFld s Reg.hshCfg 11 10
def hshPortA (s : State) : Nat := regFld s Reg.hshPorts 2 0
def hshPortB (s : State) : Nat := regFld s Reg.hshPorts 10 8

/-- A port's MAC address, first octet first. -/
def portMac (s : State) (p : Nat) : List Byte :=
  beBytes 6 (getReg64 s (0xE0014 + 0x2000 * p) (0xE0018 + 0x2000 * p))

def groupMac (s : State) : List Byte := beBytes 6 (getReg64 s Reg.hshGroupMacLo Reg.hshGroupMacHi)

/-- One's complement sum of 16-bit words, network order. -/
def onesSum (l : List Byte) : Nat :=
  let t := sumNat ((List.range ((l.length + 1) / 2)).map (fun i => beNat (padTo 2 (slice l (2 * i) 2))))
  let t := t % 65536 + t / 65536
  let t := t % 65536 + t / 65536
  65535 - (t % 65536 + t / 65536)

def ipv4Header (src dst : List Byte) (len : Nat) : List Byte :=
  let h (c : Nat) := beBytes 2 0x4500 ++ beBytes 2 (20 + len) ++ beBytes 4 0 ++ beBytes 2 0x4011 ++ beBytes 2 c ++ src ++ dst
  h (onesSum (h 0))

/-- A message's Ethernet frame (R302): the 802.1Q tag when VLAN_EN is 1, PCP by class. -/
def etherFrame (s : State) (port : Nat) (da : List Byte) (urgent : Bool) (payload : List Byte) : List Byte :=
  let pcp := if urgent then regFld s Reg.hshVlan 15 13 else regFld s Reg.hshVlan 18 16
  let tag := if regBit s Reg.hshCfg 7 then beBytes 2 0x8100 ++ beBytes 2 (pcp * 8192 + regFld s Reg.hshVlan 11 0) else []
  da ++ portMac s port ++ tag ++ beBytes 2 (getReg s Reg.hshEtype).toNat ++ payload

/-- The frame that carries a message on a port (R302): DA to payload, without FCS. The device's own IP address and
the next hop's MAC address of the UDP carriages are not stated and are free (log entry 11). -/
def hshFrame (s : State) (port dst : Nat) (express : Bool) (payload : List Byte) : List Byte :=
  let car := regFld s Reg.hshCfg 9 8
  if car = 0 then
    let da := if hshTopo s = 0 && dst != 0xFFFF then beBytes 6 (getReg64 s (Reg.hshUpAddr 0) (Reg.hshUpAddr 1))
      else groupMac s
    etherFrame s port da express payload
  else
    let up := regFld s Reg.hshUdpPort 15 0
    let len := 8 + payload.length
    let fr := freeBytes s 22
    let da := fr.take 6
    if car = 1 then
      da ++ portMac s port ++ beBytes 2 0x0800 ++ ipv4Header (slice fr 6 4) (beBytes 4 (getReg s (Reg.hshUpAddr 0)).toNat) len ++
        beBytes 2 up ++ beBytes 2 up ++ beBytes 2 len ++ beBytes 2 0 ++ payload
    else
      let src := slice fr 6 16
      let dip := (List.range 4).flatMap (fun k => beBytes 4 (getReg s (Reg.hshUpAddr (3 - k))).toNat)
      let udp (c : Nat) := beBytes 2 up ++ beBytes 2 up ++ beBytes 2 len ++ beBytes 2 c ++ payload
      let ck := onesSum (src ++ dip ++ beBytes 4 len ++ beBytes 4 17 ++ udp 0)
      da ++ portMac s port ++ beBytes 2 0x86DD ++ beBytes 4 0x60000000 ++ beBytes 2 len ++ beBytes 2 0x11FF ++ src ++ dip ++
        udp (if ck = 0 then 0xFFFF else ck)

/-- Queues a frame for a port's transmitter. -/
def txQueue (s : State) (port : Nat) (express : Bool) (source : Nat) (data : List Byte) : State :=
  devPush s (if express then 6 + port else 12 + port)
    { source := source, port := port, arrival := s.raw, sub := 0, data := data }

/-- May the device send alarms and Hiash URGENT, EXHIBIT and ADDENDUM messages (R45, Table 18.1)? -/
def twinMay (s : State) : Bool := s.twn.st = .off || s.twn.st = .active

/-- An alarm or URGENT frame: a port with ETH_CFG.NO_EXPRESS sends no express frame and counts it (section 10.9). -/
def expressOr (s : State) (port : Nat) (express : Bool) (source : Nat) (data : List Byte) : State :=
  if express && regBit s (0xE0010 + 0x2000 * port) 9 then bump s (0xE0100 + 0x2000 * port + 4 * 21)
  else txQueue s port express source data

/-- A frame of those outputs: sent, held during a takeover gap (R529), or not sent. -/
def outFrame (s : State) (port : Nat) (express : Bool) (source : Nat) (data : List Byte) : State :=
  if twinMay s then expressOr s port express source data
  else if s.twn.st = .taking then { s with twn := { s.twn with held := s.twn.held ++ [⟨port, express, data⟩] } }
  else s

/-- The ports an originated message leaves by (Table 9.4). -/
def hshPorts (s : State) (dst : Nat) : List Nat :=
  let a := hshPortA s
  let b := hshPortB s
  if hshTopo s = 0 then [a] else if hshTopo s = 1 then (if dst = 0xFFFF then [a, b] else [a]) else [a, b]

/-- Can the device tag a message it originates: AUTH_TX is 0, or the link subkey is usable (R304, R499)? -/
def hshTagOk (s : State) : Bool := !regBit s Reg.hshCfg 16 || keyUsable s 3

def nextSeq (s : State) (cls : Nat) : Nat := smGet 0 s.hsh.seq cls
def takeSeq (s : State) (cls : Nat) : State :=
  { s with hsh := { s.hsh with seq := smPut 0 s.hsh.seq cls ((nextSeq s cls + 1) % 2 ^ 32) } }

/-- A message the device creates now. -/
def newMsg (s : State) (cls sub dst time segs seg revision : Nat) (body : List Byte) : HMsg :=
  { hops := regFld s Reg.hshCfg 31 24, flags := if regBit s Reg.hshCfg 16 then 2 else 0, cls := cls, dst := dst,
    src := hshId s, origin := hshId s, seq := nextSeq s cls, time := time, segs := segs, seg := seg, sub := sub,
    revision := revision, body := body }

/-- Sends a message on the given ports. -/
def sendOn (s : State) (ports : List Nat) (m : HMsg) : State :=
  let express := m.cls = 1
  let b := hmsgBytes s m
  let gated := m.cls = 1 || m.cls = 2 || m.cls = 3
  nextFree (ports.foldl (fun s p =>
    let f := hshFrame s p m.dst express b
    if gated then outFrame s p express 0x10 f else txQueue s p express 0x10 f) s)

/-- May a message of a class be originated: URGENT, EXHIBIT and ADDENDUM follow the twin state (R45, Table 18.1). -/
def twinClass (s : State) (cls : Nat) : Bool := 3 < cls || twinMay s || s.twn.st = .taking

/-- Does the device originate messages of a class now? -/
def hshSends (s : State) (cls : Nat) : Bool := hshOnline s && hshTagOk s && twinClass s cls

/-- Originates a message (R301, R304, R310), counted by class. -/
def hshSendPorts (s : State) (ports : List Nat) (m : HMsg) : State :=
  if hshSends s m.cls then
    takeSeq (bump (sendOn s ports m) (Reg.hshCnt (m.cls - 1))) m.cls
  else s

def hshSend (s : State) (cls sub dst time segs seg revision : Nat) (body : List Byte) : State :=
  hshSendPorts s (hshPorts s dst) (newMsg s cls sub dst time segs seg revision body)

/-! ### The twin's replay stream (R520) -/

/-- Sends a TWIN message to the partner; TAKEN is express. -/
def twinMsg (s : State) (sub : Nat) (body : List Byte) : State :=
  let m := newMsg s 6 sub (regFld s Reg.twnPartnerId 15 0) (taiNow s) 1 0 0 body
  if hshOnline s && hshTagOk s then
    let p := regFld s Reg.twnCfg 17 16
    let express := sub = 6
    let f := etherFrame s p (beBytes 6 (getReg64 s Reg.twnPartnerMacLo Reg.twnPartnerMacHi)) false (hmsgBytes s m)
    let s := nextFree (txQueue s p express 7 f)
    let s := if s.twn.st = .active then setRegN s Reg.twnSeq m.seq else s
    takeSeq (bump (bump s (Reg.hshCnt 5)) (Reg.twnCnt 0)) 6
  else s

/-- A happening of the active device (R520). -/
def twinSend (s : State) (sub : Nat) (body : List Byte) : State :=
  if s.twn.st = .active then twinMsg s sub body else s

/-- MARK: 0 open, 1 close condition, 2 seal condition (Table 18.3). -/
def twinMark (s : State) (e what cause : Nat) : State := twinSend s 2 (leBytes 8 e ++ leBytes 4 (what + cause * 256))

/-- Does the device take its own openings, reclaims and timers (R523, R528)? R523 stops them in STANDBY and TAKING
only. -/
def twinOwn (s : State) : Bool := !(s.twn.st = .standby || s.twn.st = .taking)

/-- Are host commands dropped with 0x0704 (R523)? -/
def twinDrops (s : State) : Bool := s.twn.st = .standby || s.twn.st = .taking

/-- Is replay intake closed in TAKING: no replay message that had arrived by the acceptance waits in TWN_PORT's queue
(R528)? -/
def intakeClosed (s : State) : Bool :=
  !((getQ s (regFld s Reg.twnCfg 17 16)).pkts.any (fun k =>
    decide (k.arrival ≤ s.twn.gapStart) && be k.data (etypeAt k.data) 2 = (getReg s Reg.hshEtype).toNat &&
      le k.data (etypeAt k.data + 3) 1 = 6))

/-- Does the device take close and seal conditions from its own time (R523, R528)? -/
def twinConds (s : State) : Bool := twinOwn s || (s.twn.st = .taking && intakeClosed s)

/-- The write is dropped with cause 0x0704 (R523). -/
def twinRefuse (s : State) : State := refuse s Reg.twnBase 0x0704

end Sys2Proof.Machine
end

