-- ==== Sys2Proof/Machine/Jobs.lean ====
section
/-! DEFINITION. Job descriptors, levels, quotas and the raising of jobs (07_dispatch.md, sections 7.1 to 7.5). -/

namespace Sys2Proof.Machine

/-! ### Levels (R245, R246, R258) -/

def level (s : State) (l : Nat) : List Job := smGet [] s.dsp.levels l

def setLevel (s : State) (l : Nat) (js : List Job) : State :=
  { s with dsp := { s.dsp with levels := smPut [] s.dsp.levels l js } }

/-- Eligible and held addendum entries of a level. -/
def levelDepth (s : State) (l : Nat) : Nat :=
  (level s l).length + (s.dsp.heldAdd.filter (fun j => j.priority = l)).length

def totalDepth (s : State) : Nat := sumNat ((List.range 8).map (levelDepth s))

def quota (s : State) (l : Nat) : Nat := regFld s (Reg.dspQuota l) 10 0

/-- Is the level FULL: a source is held back on it (R258)? -/
def levelFull (s : State) (l : Nat) : Bool := (smFind s.dsp.fullSince l).isSome

/-- May the dispatcher add an entry (R245, R251)? -/
def levelRoom (s : State) (l : Nat) : Bool :=
  enabled s Reg.dspBase && levelDepth s l < quota s l && totalDepth s < 1024

/-- May a new source enter a level: it has room, and no source is held back on it (R257). -/
def levelOpen (s : State) (l : Nat) : Bool := levelRoom s l && !levelFull s l

/-- A source is held back on a level (R258). -/
def markFull (s : State) (l : Nat) : State :=
  if levelFull s l then s
  else
    let s := { s with dsp := { s.dsp with fullSince := smSet s.dsp.fullSince l s.raw,
                                          holdAt := smSet s.dsp.holdAt l s.raw } }
    logEvent (evt (bump s (Reg.dspCnt (8 + l))) Reg.dspEvents 1) 0x0940 0xFFFF []

/-- The tour element that gives a job its level. -/
def tourOfSlot (s : State) (slot t : Nat) : Option Tour :=
  match planAt s slot with | some p => p.tours[t]? | none => none

/-- The level of an accession's bound tour in a plan slot. -/
def tourLevel (s : State) (slot t : Nat) : Nat :=
  match tourOfSlot s slot t with | some x => x.priority | none => 0

/-- Is any source held back on the level: event FIFO, timers, Hiash jobs, landings and local estimates? -/
def sourcesHeld (s : State) (l : Nat) (landLevel : Landing → Nat) : Bool :=
  s.dsp.evFifo.any (fun j => j.priority = l) || s.dsp.heldHsh.any (fun j => j.priority = l) ||
  s.dsp.heldLand.any (fun x => landLevel x = l) ||
  s.dsp.timerPend.any (fun p => match liveSlot s with
    | some k => (match planAt s k with
      | some pl => (match pl.timers[p.1]? with | some t => tourLevel s k t.tour = l | none => false)
      | none => false)
    | none => false)

/-- HOLD_US of a level up to now (section 7.9). -/
def holdTick (s : State) (l : Nat) : State :=
  match smFind s.dsp.holdAt l with
  | none => s
  | some t =>
    let us := (s.raw - t) / 1000
    bumpBy { s with dsp := { s.dsp with holdAt := smSet s.dsp.holdAt l (t + 1000 * us) } } (Reg.dspCnt (16 + l)) us

/-- A level stops being FULL once nothing is held back on it (R258). -/
def clearFull (s : State) (l : Nat) (landLevel : Landing → Nat) : State :=
  match smFind s.dsp.fullSince l with
  | none => s
  | some t =>
    if sourcesHeld s l landLevel then s
    else
      let us := (s.raw - t) / 1000
      let s := holdTick s l
      let s := { s with dsp := { s.dsp with fullSince := smErase s.dsp.fullSince l, holdAt := smErase s.dsp.holdAt l } }
      logEvent (evt s Reg.dspEvents 2) 0x0941 0xFFFF (leBytes 4 us)

/-! ### Raising (R241–R244) -/

/-- The descriptor of a job (Table 7.1, R242). -/
def makeJob (s : State) (slot tour kind revision acc index arg : Nat) : Job :=
  let t := tourOfSlot s slot tour
  { tour := tour, kind := kind, slot := slot, priority := (match t with | some x => x.priority | none => 0),
    revision := revision, entry := (match t with | some x => x.iramOff | none => 0), acc := acc, index := index, arg := arg,
    raiseLo := s.raw % 2 ^ 32, affinity := (match t with | some x => x.affinity | none => 0), raised := s.raw }

/-- Word 0 of a descriptor (Table 7.1). -/
def jobWord0 (j : Job) : Nat :=
  j.tour * 2 ^ 24 + j.kind * 2 ^ 21 + j.slot * 2 ^ 20 + j.priority * 65536 + j.revision

/-- Records the depth a level has reached. -/
def levelPeak (s : State) (l : Nat) : State :=
  { s with dsp := { s.dsp with peaks := smPut 0 s.dsp.peaks l (Nat.max (smGet 0 s.dsp.peaks l) (levelDepth s l)) } }

/-- Enters an eligible job into its level and counts it; a job of kinds 3–5 is told to the twin (R520). -/
def enterJob (s : State) (j : Job) : State :=
  let s := setLevel s j.priority (level s j.priority ++ [j])
  let s := levelPeak (bump s (Reg.dspCnt j.priority)) j.priority
  if 3 ≤ j.kind then twinSend s 3 (leBytes 4 (jobWord0 j) ++ leBytes 4 j.arg) else s

/-- A job of kind 1 or 2: it enters its level, or the event FIFO (R256). -/
def raiseEvent (s : State) (j : Job) : State :=
  if levelOpen s j.priority then enterJob s j
  else
    let s := { s with dsp := { s.dsp with evFifo := s.dsp.evFifo ++ [j],
                                          evPeak := Nat.max s.dsp.evPeak (s.dsp.evFifo.length + 1) } }
    markFull s j.priority

/-- A Hiash message job: it enters its level or is held (R257). -/
def raiseHiash (s : State) (j : Job) : State :=
  if levelOpen s j.priority then enterJob s j
  else markFull { s with dsp := { s.dsp with heldHsh := s.dsp.heldHsh ++ [j] } } j.priority

/-! ### Jobs of an exhibit -/

def docentOf (s : State) (d : Nat) : Docent := smGet Docent.reset s.doc.d d
def setDocent (s : State) (d : Nat) (x : Docent) : State :=
  { s with doc := { s.doc with d := smPut Docent.reset s.doc.d d x } }

/-- Jobs in local slots. -/
def slottedJobs (s : State) : List Job :=
  s.doc.d.flatMap (fun p => (match p.2.s0 with | some c => [c.job] | none => []) ++
    (match p.2.s1 with | some c => [c.job] | none => []))

/-- Every job raised and not retired. -/
def allJobs (s : State) : List Job :=
  s.dsp.levels.flatMap (·.2) ++ s.dsp.heldAdd ++ s.dsp.evFifo ++ slottedJobs s

/-- Is some job of kinds 0–2 of exhibit e outstanding? -/
def jobsOf (s : State) (e : Nat) (p : Job → Bool) : Bool := (allJobs s).any (fun j => j.kind ≤ 2 && j.index = e && p j)

end Sys2Proof.Machine
end

