-- ==== Sys2Proof/Machine/HiashOps.lean ====
section
/-! DEFINITION. The absence table, digests, and delivery to host and job (R308, sections 9.3 and 9.7). -/

namespace Sys2Proof.Machine

/-- Can a device copy of n bytes enter a host queue (Table 11.2)? -/
def copyRoom (s : State) (q n : Nat) : Bool := isHostQueue s q && !(getQ s q).above && canTake s q (cellsFor n)

/-- A binding's job (R308): the tour must be in the LIVE plan and of kind 5. A twin standby takes jobs of kind 5 from
its partner (R521). -/
def bindJob (s : State) (cls origin : Nat) : State :=
  let b := getReg s (Reg.hshBind (cls - 1))
  if bit b 31 && twinOwn s then
    match liveSlot s, livePlan s with
    | some k, some p =>
      if tourKind p (fld b 7 0) 5 then
        raiseHiash s (makeJob s k (fld b 7 0) 5 0 0xFFFF 0 (origin * 65536 + s.hsh.delivered % 65536))
      else bump s (Reg.hshCnt 27)
    | _, _ => bump s (Reg.hshCnt 27)
  else s

/-- "Host and job" (R308) for a message's bytes received on a port. -/
def hostAndJob (s : State) (cls origin port arrival : Nat) (bytes : List Byte) : State :=
  let b := getReg s (Reg.hshBind (cls - 1))
  let q := regFld s Reg.hshRxQueue 10 0
  let head := leBytes 4 (port * 65536 + s.hsh.delivered % 65536) ++ leBytes 8 arrival ++ leBytes 4 0
  let s :=
    if bit b 30 then
      if copyRoom s q (16 + bytes.length) then
        commitPacket s q { source := 0x10, port := port, arrival := arrival, sub := 0, data := head ++ bytes }
      else evt (devCopy s q { source := 0x10, port := port, arrival := arrival, sub := 0, data := head ++ bytes }
        (Reg.hshCnt 26)) Reg.hshEvents 0x20
    else s
  bindJob s cls origin

/-- Counts a delivered message. -/
def hshDelivered (s : State) : State :=
  bump { s with hsh := { s.hsh with delivered := s.hsh.delivered + 1 } } (Reg.hshCnt 6)

/-! ### Digests (R324, R328) -/

def absWindowNs (s : State) : Nat := regFld s Reg.hshAbsWindow 15 0 * 1000000

/-- The body of Table 9.8. DESIGN CHOICE: a COUNT above 65,535, which the field cannot hold, shows as 65,535 (log entry
32). -/
def absBody (kind id first rate count : Nat) : List Byte :=
  leBytes 4 (kind * 65536 + id) ++ leBytes 4 first ++ leBytes 4 (rate * 65536 + first / 2 ^ 32) ++
    leBytes 4 (Nat.min 65535 count)

/-- May port p send a digest of a key now; if so it is remembered (R328). -/
def digestPort (s : State) (p key : Nat) : Bool × State :=
  let l := smGet [] s.hsh.digSent p
  if l.any (fun x => x.1 = key && s.raw < x.2 + absWindowNs s) then (false, bump s (Reg.hshCnt 21))
  else (true, { s with hsh := { s.hsh with digSent := smPut [] s.hsh.digSent p (((key, s.raw) :: l).take 256) } })

/-- The ports of a list that may send a digest of a key. -/
def digestPorts (s : State) (key : Nat) : List Nat → List Nat × State
  | [] => ([], s)
  | p :: r =>
    let x := digestPort s p key
    let y := digestPorts x.2 key r
    (if x.1 then p :: y.1 else y.1, y.2)

/-- Forwards a digest upstream that keeps the report's ORIGIN_ID (R324, R325). -/
def sendDigest (s : State) (kind id first rate count origin : Nat) : State :=
  if !hshSends s 1 then s
  else
    let x := digestPorts s (kind * 65536 + id) (hshPorts s (hshUpId s))
    let s := x.2
    if x.1.isEmpty then s
    else
      let m := newMsg s 1 2 (hshUpId s) (taiNow s) 1 0 0 (absBody kind id first rate count)
      takeSeq (bump (sendOn s x.1 { m with origin := origin }) (Reg.hshCnt 0)) 1

/-! ### The absence table (R325–R327) -/

def absFind (s : State) (kind id : Nat) : Option (Nat × AbsEntry) :=
  s.hsh.abs.find? (fun p => p.2.kind = kind && p.2.id = id)

def absFree (s : State) : Option Nat := firstBelow 1024 (fun n => (smFind s.hsh.abs n).isNone)

/-- The earlier of two first indices (R325): exhibit times are compared. -/
def earlier (f1 r1 f2 r2 : Nat) : Bool := f1 * r2 < f2 * r1

def absRepeat (s : State) (e : AbsEntry) (first rate n : Nat) : AbsEntry :=
  let e := { e with repeats := Nat.min 65535 (e.repeats + n), last := s.raw }
  if earlier first rate e.first e.rate then { e with first := first, rate := rate } else e

/-- A report, or a KIND 2 digest of n, for the overflow entry (R327): REPEAT counts the reports after the one that began the
episode, and every digest. -/
def overReport (s : State) (first rate origin n : Nat) (digest : Bool) : State :=
  match s.hsh.overEp with
  | some o =>
    { s with hsh := { s.hsh with overEp := some { o with entry := absRepeat s o.entry first rate n, taken := o.taken + n } } }
  | none =>
    let e : AbsEntry := { kind := 2, id := 0, first := first, rate := rate, origin := origin,
                          repeats := if digest then Nat.min 65535 n else 0, isLocal := origin = hshId s, forwarded := hshUpId s != 0, last := s.raw }
    let s := { s with hsh := { s.hsh with overEp := some { entry := e, windowStart := s.raw, taken := n } } }
    let s := logEvent (evt s Reg.hshEvents 2) 0x1043 0xFFFF []
    if hshUpId s != 0 then sendDigest s 2 0 first rate 1 origin else s

/-- A local report or a delivered digest of KIND 0 or 1 (R325). -/
def absReport (s : State) (kind id first rate origin : Nat) (isLocal : Bool) : State :=
  let s := if isLocal then s else bump s (Reg.hshCnt 19)
  match absFind s kind id with
  | some (n, e) =>
    bump { s with hsh := { s.hsh with abs := smSet s.hsh.abs n (absRepeat s e first rate 1) } } (Reg.hshCnt 20)
  | none =>
    match absFree s with
    | none => overReport s first rate origin 1 false
    | some n =>
      let fw := hshUpId s != 0
      let e : AbsEntry := { kind := kind, id := id, first := first, rate := rate, origin := origin, repeats := 0,
                            isLocal := isLocal, forwarded := fw, last := s.raw }
      let s := { s with hsh := { s.hsh with abs := smSet s.hsh.abs n e } }
      let s := evt (logEvent s 0x1042 0xFFFF []) Reg.hshEvents 1
      let s := bindJob s 1 origin
      if fw then sendDigest s kind id first rate 0 origin else s

/-- The local accession with a key leaves SILENT (R326). -/
def absLeave (s : State) (kind id : Nat) : State :=
  match absFind s kind id with
  | some (n, _) => { s with hsh := { s.hsh with abs := smErase s.hsh.abs n } }
  | none => s

end Sys2Proof.Machine
end

