-- ==== Sys2Proof/Machine/Accession.lean ====
section
/-! DEFINITION. Accession records, the identity table, the registration check, retirement and silence
(03_accessions.md, sections 3.3 to 3.5). -/

namespace Sys2Proof.Machine

/-! ### Records -/

/-- BAR0 offset of an accession's record (section 3.3, R115). -/
def accAddr (n : Nat) : Nat := if n < 0x4000 then 0x100000 + 32 * n else 0xA8400 + 32 * (n - 0x4000)

def getAcc (s : State) (n : Nat) : AccEntry := smGet AccEntry.reset s.acc.entries n
def setAcc (s : State) (n : Nat) (x : AccEntry) : State :=
  { s with acc := { s.acc with entries := smPut AccEntry.reset s.acc.entries n x } }

def accStateCode (st : AccState) : Nat :=
  match st with | .vacant => 0 | .registered => 1 | .live => 2 | .silent => 3 | .retired => 4 | .checking => 5

/-- Is the accession in REGISTERED, LIVE or SILENT? -/
def accIsEnabled (x : AccEntry) : Bool := x.st = .registered || x.st = .live || x.st = .silent

/-- ACC_CTL as read: ENABLE, STATE and TIME_BASE. -/
def accCtl (s : State) (n : Nat) : Word :=
  let x := getAcc s n
  let en := accIsEnabled x || x.st = .checking
  BitVec.ofNat 32 (b2n en * 2 ^ 31 + accStateCode x.st * 2 ^ 28 + regFld s (accAddr n + 28) 23 0)

/-- The eight words of a record, ACC_CTL holding TIME_BASE alone. -/
def accWords (s : State) (n : Nat) : List Word := (List.range 8).map (fun k => getReg s (accAddr n + 4 * k))

def accFmt (s : State) (n : Nat) : Word := getReg s (accAddr n + 20)
def accBind (s : State) (n : Nat) : Word := getReg s (accAddr n + 24)
def accCarriage (s : State) (n : Nat) : Nat := fld (accFmt s n) 31 29
def accRateDiv (s : State) (n : Nat) : Nat := fld (accFmt s n) 7 0

/-- The accessions in REGISTERED, LIVE or SILENT. -/
def enabledAccs (s : State) : List Nat := (s.acc.entries.filter (fun p => accIsEnabled p.2)).map (·.1)

/-- The accessions whose ENABLE reads 1: those, and the entries in CHECKING. -/
def readsEnabled (s : State) : List Nat :=
  (s.acc.entries.filter (fun p => accIsEnabled p.2 || p.2.st = .checking)).map (·.1)

/-- ACC_COUNT, ACC_PHASOR_SUM and ACC_INGRESS_SUM. -/
def accCountWord (s : State) : Nat :=
  (s.acc.entries.filter (fun p => p.1 < 0x4000 && accIsEnabled p.2)).length * 65536 +
    (s.acc.entries.filter (fun p => p.1 < 0x4000 && p.2.st = .live)).length
def phasorSum (s : State) : Nat := sumNat ((enabledAccs s).map (fun n => fld (accFmt s n) 22 16))
def ingressOf (s : State) (n : Nat) : Nat :=
  match ratePlan s with | some p => p.baseRate / accRateDiv s n | none => 0
def ingressSum (s : State) : Nat := sumNat ((enabledAccs s).map (ingressOf s))

/-- ACC_ALLOC: the lowest VACANT accession (R103). -/
def accAlloc (s : State) : Option Nat := firstBelow 0x4000 (fun n => (getAcc s n).st = .vacant)

/-! ### The identity table (R89–R92) -/

/-- The two candidate buckets of a key under a seed (R89). -/
def buckets (seed : Nat) (key : List Byte) : Nat × Nat :=
  let h1 := crcNat (leBytes 4 seed ++ key) % 8192
  let h2 := crcNat (leBytes 4 (seed ^^^ 0xFFFFFFFF) ++ key) % 8192
  (h1, if h2 = h1 then h1 ^^^ 1 else h2)

def accSeed (s : State) : Nat := (getReg s Reg.accHashSeed).toNat

/-- Is an identity installed, under whatever seed it was inserted (R91)? -/
def identInstalled (s : State) (key : List Byte) : Bool := s.acc.ident.any (fun b => b.2.any (fun x => x.1 = key))

/-- The accession a lookup finds an identity for. -/
def identFind (s : State) (key : List Byte) : Option Nat :=
  let b := buckets (accSeed s) key
  match (smGet [] s.acc.ident b.1).find? (fun x => x.1 = key) with
  | some x => some x.2
  | none => ((smGet [] s.acc.ident b.2).find? (fun x => x.1 = key)).map (·.2)

/-- Inserts into the candidate with more free ways, h1 on a tie; none when both are full (R90). -/
def identInsert (tbl : SMap (List (List Byte × Nat))) (seed n : Nat) (key : List Byte) :
    Option (SMap (List (List Byte × Nat))) :=
  let b := buckets seed key
  let l1 := smGet [] tbl b.1
  let l2 := smGet [] tbl b.2
  if 4 ≤ l1.length && 4 ≤ l2.length then none
  else if l1.length ≤ l2.length then some (smPut [] tbl b.1 (l1 ++ [(key, n)]))
  else some (smPut [] tbl b.2 (l2 ++ [(key, n)]))

/-- The identity of an accession is removed, under whatever seed it was inserted. -/
def identRemove (s : State) (n : Nat) : State :=
  { s with acc := { s.acc with ident :=
      (s.acc.ident.map (fun b => (b.1, b.2.filter (fun x => x.2 != n)))).filter (fun b => !b.2.isEmpty) } }

/-- Reinserts every installed identity under the seed in force, ascending; the first accession that does not fit
(R92). -/
def reseed (s : State) : Option Nat × State :=
  let ns := ((s.acc.entries.filter (fun p => p.1 < 0x4000 && (accIsEnabled p.2 || p.2.st = .retired))).map (·.1))
  let r := ns.foldl (fun (st : Option Nat × SMap (List (List Byte × Nat))) n =>
    match st.1 with
    | some _ => st
    | none => (match identInsert st.2 (accSeed s) n (recordKey (accWords s n)) with
      | some t => (none, t)
      | none => (some n, st.2))) (none, [])
  match r.1 with
  | some n => (some n, s)
  | none => (none, { s with acc := { s.acc with ident := r.2 } })

/-! ### Retirement (R101) -/

/-- A RETIRED accession whose last exhibit opened before the retirement is sealed becomes VACANT (Table 3.3). -/
def retireOne (s : State) (n : Nat) : State :=
  let x := getAcc s n
  if x.st = .retired && !(s.vlt.ex.any (fun p => p.2.openSeq < x.retireSeq && p.2.st != .sealed)) then
    let s := if n < 0x4000 then identRemove s n else s
    evt (setAcc s n AccEntry.reset) Reg.accEvents 4
  else s

def retireScan (s : State) : State :=
  ((s.acc.entries.filter (fun p => p.2.st = .retired)).map (·.1)).foldl retireOne s

/-! ### SILENT and LIVE (Table 3.3) -/

/-- The absence key of an accession: KIND and MISSING_ID (R323). -/
def absKey (s : State) (n : Nat) : Nat × Nat :=
  (if 2 ≤ accCarriage s n then 0 else 1, regFld s (accAddr n + 16) 31 16)

/-- An accession leaves SILENT: its absence entry is freed (R326). -/
def leaveSilent (s : State) (n : Nat) : State :=
  if n < 0x4000 then absLeave s (absKey s n).1 (absKey s n).2 else s

/-- An accession enters SILENT (R98, R323). -/
def enterSilent (s : State) (n br : Nat) : State :=
  let x := getAcc s n
  let s := setAcc s n { x with st := .silent, run := 0 }
  let s := logEvent (evt s Reg.accEvents 1) 0x1140 n []
  if regBit s Reg.hshCfg 18 && n < 0x4000 then
    absReport s (absKey s n).1 (absKey s n).2 x.runFirst br (hshId s) true
  else s

/-- A landing of the accession: REGISTERED or SILENT becomes LIVE, the SILENCE run is 0 (Table 3.3, R98). -/
def accLanded (s : State) (n : Nat) : State :=
  let x := getAcc s n
  let st := if x.st = .registered || x.st = .silent then AccState.live else x.st
  let s' := setAcc s n { x with st := st, run := 0, lastLand := s.raw }
  if x.st = .silent then leaveSilent (evt s' Reg.accEvents 2) n else s'

/-! ### Registration (Table 3.4, R93–R95, R184) -/

/-- PLN_OP.PHASE of the running LOAD. -/
def plnPhase (s : State) : Nat := regFld s Reg.plnOp 7 4

/-- The plan a registration check also tests: of a LOADED slot, or of one in phase 3 or 4 of its LOAD (R184). -/
def checkedPlan (s : State) (k : Nat) : Option Plan :=
  let x := planSlot s k
  if x.st = .loaded then x.plan
  else if x.st = .loading && s.pln.opSlot = k && 3 ≤ plnPhase s then some (parsePlan x.image) else none

/-- Conditions 1 to 8 against the LIVE plan, then 4 to 8 against those of `checkedPlan` (R184, R192). -/
def checkPlans (s : State) (n : Nat) : Nat :=
  match livePlan s with
  | none => if 0x4000 ≤ n && s.part = .gld9610 then 0x110F else 0x1104
  | some p =>
    let w := accWords s n
    let c := recordFail s.part p w n 2
    if c != 0 then c
    else
      let other (k : Nat) : Nat :=
        match checkedPlan s k with | some q => recordFail s.part q w n 4 | none => 0
      if other 0 != 0 then other 0 else other 1

/-- Conditions 9 to 12. -/
def checkCapacity (s : State) (n : Nat) : Nat :=
  if 131072 < phasorSum s + fld (accFmt s n) 22 16 then 0x110A
  else if 2097152 < ingressSum s + ingressOf s n then 0x110B
  else if n < 0x4000 then
    let key := recordKey (accWords s n)
    if identInstalled s key then 0x1103
    else if (identInsert s.acc.ident (accSeed s) n key).isNone then 0x1102
    else 0
  else 0

def registrationCause (s : State) (n : Nat) : Nat :=
  let c := checkPlans s n
  if c != 0 then c else checkCapacity s n

/-- A refusal of ACC: cause, entry, event. -/
def accRefuse (s : State) (n code : Nat) : State :=
  evt (setRegN (refuse s Reg.accBase code) Reg.accRefuseEntry n) Reg.accEvents 8

/-- CRC-32C of a record's eight words as CTRL carries it (Table 18.3). -/
def recordCrc (s : State) (n : Nat) : Nat :=
  crcNat ((List.range 8).flatMap (fun k => leBytes 4 (if k = 7 then regFld s (accAddr n + 28) 23 0 else
    (getReg s (accAddr n + 4 * k)).toNat)))

def twinCtrlAcc (s : State) (op n : Nat) : State := twinSend s 4 (leBytes 4 op ++ leBytes 4 n ++ leBytes 4 (recordCrc s n))

/-- The commit: the identity is installed and the entry becomes REGISTERED (R100). -/
def accCommit (s : State) (n : Nat) : State :=
  let s :=
    if n < 0x4000 then
      match identInsert s.acc.ident (accSeed s) n (recordKey (accWords s n)) with
      | some t => { s with acc := { s.acc with ident := t } }
      | none => s
    else s
  let x := getAcc s n
  let s := setAcc s n { x with st := .registered, run := 0, commitSeq := s.acc.seq, heldCtl := [] }
  { s with acc := { s.acc with seq := s.acc.seq + 1 } }

/-- ENABLE written 0 (Table 3.3). -/
def accRetire (s : State) (n : Nat) : State :=
  let x := getAcc s n
  let s := if x.st = .silent then leaveSilent s n else s
  let s := setAcc s n { getAcc s n with st := .retired, retireSeq := s.acc.seq, run := 0 }
  let s := { s with acc := { s.acc with seq := s.acc.seq + 1 } }
  retireOne (twinCtrlAcc s 2 n) n

/-- The check ends (R93, R94): the entry becomes REGISTERED, or returns to VACANT with its cause. -/
def accCheckEnd (s : State) (n : Nat) : State :=
  let c := registrationCause s n
  if c = 0 then twinCtrlAcc (accCommit s n) 1 n
  else accRefuse (setAcc s n AccEntry.reset) n c

/-- A write of TIME_BASE; L0–L3 ignore it (R116). -/
def setTimeBase (s : State) (n : Nat) (v : Word) : State :=
  if n < 0x4000 then setRegFld s (accAddr n + 28) 23 0 (fld v 23 0) else s

/-- Does a write carry another TIME_BASE than the one stored? -/
def timeBaseDiffers (s : State) (n : Nat) (v : Word) : Bool :=
  n < 0x4000 && fld v 23 0 != regFld s (accAddr n + 28) 23 0

/-- A write of ACC_CTL (R87, R88, R93, Table 3.3). DESIGN CHOICE: a write of ENABLE 1 with another TIME_BASE to a RETIRED
entry, which Table 3.3 and R87 both refuse, records 0x110D alone (log entry 32). -/
def accCtlWrite (s : State) (n : Nat) (v : Word) : State :=
  let x := getAcc s n
  match x.st with
  | .checking => setAcc s n { x with heldCtl := x.heldCtl ++ [v] }
  | .vacant =>
    let s := setTimeBase s n v
    if bit v 31 then
      { setAcc s n { x with st := .checking } with acc := { (setAcc s n { x with st := .checking }).acc with
          checks := s.acc.checks ++ [n] } }
    else s
  | .retired =>
    if bit v 31 then accRefuse s n 0x110D
    else if timeBaseDiffers s n v then refuse s Reg.accBase 0x110C else s
  | _ =>
    let s := if timeBaseDiffers s n v then refuse s Reg.accBase 0x110C else s
    if bit v 31 then s else accRetire s n

/-- A write of word k of a record's body (R87, R116). -/
def accBodyWrite (s : State) (n k : Nat) (v : Word) : State :=
  let x := getAcc s n
  if 0x4000 ≤ n && k != 6 then s
  else if x.st != .vacant then refuse s Reg.accBase 0x110C
  else
    let a := accAddr n + 4 * k
    if k = 5 then
      let s' := setReg s a (setFld (setFld v 23 23 0) 31 29 (if 3 < fld v 31 29 then regFld s a 31 29 else fld v 31 29))
      if 3 < fld v 31 29 then refuse s' Reg.accBase 0x11F1 else s'
    else if k = 6 then setReg s a (setFld v 21 20 0)
    else setReg s a v

end Sys2Proof.Machine
end

