-- ==== Sys2Proof/Machine/RegWrite.lean ====
section
/-! DEFINITION. A host write of a register under the access codes of Table 0.5 (R12–R16), without what the chapters
add for single registers. -/

namespace Sys2Proof.Machine

/-- Applies the checked fields of a row to a write whose mask of taken bits is m: a field the write places out of range
keeps its value, and a field the write leaves alone (R13: locked) is not checked; answers the value and the causes, in
order (R16). -/
def specChecks (old m : Word) : List FieldCheck → Word × List Nat → Word × List Nat
  | [], x => x
  | c :: r, x =>
    let f := fld x.1 c.hi c.lo
    if fld m c.hi c.lo = 0 || (c.min ≤ f && f ≤ c.max) then specChecks old m r x
    else specChecks old m r (setFld x.1 c.hi c.lo (fld old c.hi c.lo), x.2 ++ [c.cause])

/-- A write of v to the register at a: RW bits take the value, RWL bits while the block is disabled, W1C bits clear
(R12, R13, R16). The last cause stands in BLK_REFUSE. DESIGN CHOICE (log entry 32): a number outside the range a chapter
states without a cause (CAP_BUS.BUS_PULSE, CAP_BUS_LAT, TIM_PPS_LOOP.PHASE_SHIFT, HSH_ABS_SEL) is taken as an undefined
encoding, cause 0xF1. -/
def specWrite (s : State) (a : Nat) (v : Word) : State :=
  match findSpec (regSpecsAt a) a with
  | none => s
  | some r =>
    let old := getReg s a
    let base := blkBase a
    let lockd := enabled s base
    let rwl := BitVec.ofNat 32 r.rwl
    let m := BitVec.ofNat 32 r.rw ||| (if lockd then 0#32 else rwl)
    let merged := (old &&& ~~~m) ||| (v &&& m)
    let x := specChecks old m r.checks (merged, [])
    let new := x.1 &&& ~~~(v &&& BitVec.ofNat 32 r.w1c)
    let s := setReg s a new
    let s := if lockd && (old &&& rwl) != (v &&& rwl) then refuseC s base 0xF0 else s
    let s := x.2.foldl (fun s c => refuseC s base c) s
    if r.w1c = 0 then s else irqEval s

end Sys2Proof.Machine
end

