-- ==== Sys2Proof/Machine/TimeOps.lean ====
section
/-! DEFINITION. Error estimates, time quality and the leap table (12_time_base.md, sections 12.2, 12.4 and 12.6). -/

namespace Sys2Proof.Machine

/-! ### Domains -/

def domPage (d : Nat) : Nat := 0x30100 + 0x80 * d

/-- T_d now, in 1/8 ns (R384). -/
def domNow8 (s : State) (d : Nat) : Int := domTime8 (domOf s d).vals (8 * s.raw)

def domStateCode (x : DomState) : Nat := match x with | .free => 0 | .locked => 1 | .holdover => 2 | .lost => 3

/-- E_d in units of 10^-9 ns: it saturates at 0xFFFF_FFFF ns (R386), where it also stands before the first lock
update (ERR_EST's reset value). -/
def errExact (s : State) (d : Nat) : Nat :=
  let x := domOf s d
  let limit := 0xFFFFFFFF * 1000000000
  match x.lastLock with
  | none => limit
  | some t =>
    let drift := (getReg s (domPage d + 0x44)).toNat + (if s.tim.refLock then 0 else (getReg s Reg.timRefDrift).toNat)
    Nat.min limit (x.errLast * 125000000 + drift * (s.raw - t))

/-- ERR_EST: E_d in whole ns (R386). -/
def errEst (s : State) (d : Nat) : Nat := errExact s d / 1000000000

/-- Is E_d above HOLD_LIMIT (Table 12.1)? -/
def errLost (s : State) (d : Nat) : Bool := (getReg s (domPage d + 0x48)).toNat * 1000000000 < errExact s d

/-- AGE_MS: ms since the last lock update, saturating. -/
def ageMs (s : State) (d : Nat) : Nat :=
  match (domOf s d).lastLock with | none => 0xFFFFFFFF | some t => Nat.min 0xFFFFFFFF ((s.raw - t) / 1000000)

/-! ### The leap table (R400–R402) -/

def leapValid (s : State) (k : Nat) : Bool := (smFind s.tim.leap k).isSome
def leapEff (s : State) (k : Nat) : Nat := match smFind s.tim.leap k with | some e => e.1 | none => 0
def leapOff (s : State) (k : Nat) : Int := match smFind s.tim.leap k with | some e => e.2 | none => 0
def leapBase (s : State) : Int := toSigned 16 (regFld s Reg.timLeapBase 15 0)

/-- TAI−UTC for a UTC second (R400). -/
def taiMinusUtc (s : State) (u : Int) : Int :=
  (List.range 32).foldl (fun o k => if leapValid s k && (leapEff s k : Int) ≤ u then leapOff s k else o) (leapBase s)

/-- The UTC second of a TAI second: the largest u with u + offset(u) ≤ it (R402). The offset differs between
neighbouring entries by 1, so the largest u lies at a − o for one of the table's offsets o, or just below an
EFFECTIVE second. -/
def utcOfTai (s : State) (a : Int) : Int :=
  let base := leapBase s
  let cands := (List.range 32).foldl (fun c k =>
    if leapValid s k then (a - leapOff s k) :: ((leapEff s k : Int) - 1) :: c else c) [a - base]
  let ok := cands.filter (fun u => u + taiMinusUtc s u ≤ a)
  match ok with
  | [] => a - base
  | u :: r => r.foldl (fun m x => if m < x then x else m) u

/-- The UTC second that an inserted leap second follows: a positive leap at UTC second l (R106). -/
def leapInserted (s : State) (l : Int) : Bool :=
  (List.range 32).any (fun k => leapValid s k && (leapEff s k : Int) = l &&
    (if k = 0 then leapBase s else leapOff s (k - 1)) < leapOff s k)

/-- UtcTime of a TAI instant in ns: seconds, 24-bit fraction, quality byte (Table 8.11). -/
def utcTime (s : State) (tai : Nat) (quality : Nat) : List Byte :=
  let u := utcOfTai s (tai / 1000000000 : Nat)
  beBytes 4 (ofSigned 32 u) ++ beBytes 3 (tai % 1000000000 * 2 ^ 24 / 1000000000) ++ beBytes 1 quality

/-! ### Quality (R395, Table 12.3) -/

/-- The code 1 + ceil(log10 E): the number of the first power of ten E does not exceed. -/
def logTen (e : Nat) : Nat :=
  match firstBelow 11 (fun k => e ≤ 10 ^ (k + 9)) with | some k => 1 + k | none => 0xF

def c37Quality (s : State) : Nat :=
  match (domOf s s.tim.sel).st with
  | .locked => 0
  | .holdover => logTen (errExact s s.tim.sel)
  | _ => 0xF

/-- TimeAccuracy of an error in 10^-9 ns. -/
def timeAccuracy (e : Nat) : Nat :=
  if 10 ^ 18 < e then 31 else Nat.min 24 (Nat.log2 (10 ^ 18 / Nat.max e 1000000000))

def leapKnown (s : State) : Bool := (List.range 32).any (leapValid s)

/-- TQ, and the quality byte a patched UtcTime takes (R395). -/
def tqByte (s : State) : Nat :=
  let acc := timeAccuracy (errExact s s.tim.sel)
  b2n (leapKnown s) * 128 +
    (match (domOf s s.tim.sel).st with
     | .locked => acc
     | .holdover => 32 + acc
     | _ => 127)

def timQuality (s : State) : Nat := tqByte s * 256 + c37Quality s

/-- TIM_STATUS. -/
def timStatus (s : State) : Nat :=
  b2n s.tim.refSel * 2 ^ 16 + b2n s.tim.refLock * 2 ^ 15 + b2n s.tim.split * 2 ^ 14 + b2n s.tim.slew.isSome * 2 ^ 13 +
    b2n s.tim.valid * 2 ^ 12 + s.tim.sel * 256 + domStateCode s.tim.domB.st * 16 + domStateCode s.tim.domA.st

/-- Source bit 6 of Table 8.9. -/
def timeDegraded (s : State) : Bool := !s.tim.valid || (domOf s s.tim.sel).st = .holdover

end Sys2Proof.Machine
end

