-- ==== Sys2Proof/Machine/CaptureOps.lean ====
section
/-! DEFINITION. The capture engine's rings, triggers, records and spill targets (15_capture.md, sections 15.1 to
15.4). -/

namespace Sys2Proof.Machine

/-! ### Configuration -/

def capChan (s : State) : Nat := regFld s Reg.capCfg 31 16
def capTarget (s : State) : Nat := regFld s Reg.capCfg 1 0
def capOverwrite (s : State) : Bool := regBit s Reg.capCfg 5
def capRing (s : State) (c : Nat) : CapRing := smGet CapRing.reset s.cap.rings c
def setCapRing (s : State) (c : Nat) (x : CapRing) : State :=
  { s with cap := { s.cap with rings := smPut CapRing.reset s.cap.rings c x } }

/-- Blocks of a channel's partition of the 4 MiB (section 15.1). -/
def capPartition (s : State) : Nat := 4194304 / Nat.max 1 (popCount 16 (capChan s)) / 4096

/-- NOMINAL of L0 or L1 for a channel, in Hz (R418, Table 15.2). -/
def nominalHz (s : State) (c : Nat) : Nat :=
  if regBit s (if c < 7 then 0x1C0600 else 0x1C0620) 29 then 60 else 50

def chRcode (s : State) (c : Nat) : Nat := regFld s (0x1C0100 + 0x40 * c) 22 20
def chRatio (s : State) (c : Nat) : Nat := 16 * 2 ^ chRcode s c

/-- The open-wire verdict of a channel: 0 to 3. -/
def owVerdict (s : State) (c : Nat) : Nat := regFld s 0x1C002C (2 * c + 1) (2 * c)

/-! ### Blocks (Table 15.1) -/

/-- A block's 4,096 bytes; bytes past its entries read 0 (log entry 4). -/
def blockBytes (s : State) (c : Nat) (b : CapBlock) : List Byte :=
  let es := b.entries.reverse
  padTo 4096 (leBytes 4 (c * 2 ^ 28 + b.marks * 2 ^ 24 + chRcode s c * 65536 + es.length) ++ leBytes 8 (b.stamp / 8) ++
    leBytes 4 (b.stamp % 8) ++ es.flatMap (fun e => leBytes 4 (e.1 * 2 ^ 24 + e.2)))

/-! ### Targets (R474, R475) -/

/-- Bytes of LPDDR5X that can be used: none before training (R594). -/
def ddrFitted (s : State) : Nat :=
  let d := regFld s Reg.hstDdrCfg 2 0
  if !s.host.ddrTrained || d = 0 || 4 < d then 0 else 2 ^ (29 + d)

/-- Base and length of the target's ring in its memory. -/
def capRegion (s : State) : Nat × Nat :=
  if capTarget s = 1 then (getReg64 s (Reg.capLpBase 0) (Reg.capLpBase 1), (getReg s Reg.capLpLen).toNat * 1024)
  else (0x03000000, 16777216)

def capUsed (s : State) : Nat :=
  sumNat (s.cap.store.map (fun r => r.2.2)) + sumNat (s.cap.storing.map (fun d => 64 + 4096 * d.blocks.length))

/-- Writes bytes into a byte table, wrapping at the end of the ring. -/
def ringWrite (m : SMap Byte) (base len off : Nat) (bs : List Byte) : SMap Byte :=
  (bs.foldl (fun (x : SMap Byte × Nat) b => (smPut 0#8 x.1 (base + (if len = 0 then 0 else x.2 % len)) b, x.2 + 1)) (m, off)).1

def capWrite (s : State) (off : Nat) (bs : List Byte) : State :=
  let r := capRegion s
  if capTarget s = 1 then { s with host := { s.host with ddr := ringWrite s.host.ddr r.1 r.2 off bs } }
  else { s with host := { s.host with mram := ringWrite s.host.mram r.1 r.2 off bs } }

/-- Releases the oldest records until n more bytes fit (OVERWRITE 1). -/
def capRelease (size n : Nat) : Nat → List (Nat × Nat × Nat) → List (Nat × Nat × Nat)
  | _, [] => []
  | used, r :: l => if used + n ≤ size then r :: l else capRelease size n (used - r.2.2) l

/-! ### The end of a record (R469, R475) -/

/-- The record's blocks of TARGET 0, from the rings. -/
def heldBlocks (s : State) (ids : List (Nat × Nat)) : List (List Byte) :=
  ids.filterMap (fun i => ((capRing s i.1).blocks.find? (fun b => b.seq = i.2)).map (blockBytes s i.1))

/-- Is there room for n more bytes of the open record? With OVERWRITE 1 the oldest records make room (R474). -/
def capRoom (s : State) (n : Nat) : Bool × State :=
  let size := (capRegion s).2
  let store := if capOverwrite s then capRelease size n (capUsed s) s.cap.store else s.cap.store
  let s := { s with cap := { s.cap with store := store } }
  (decide (capUsed s + n ≤ size), s)

/-- A block of the open record closes: it is copied to the target (R474). Answers true when there is no space. -/
def copyBlock (s : State) (c : Nat) (b : CapBlock) : Bool × State :=
  match s.cap.cur with
  | none => (false, s)
  | some r =>
    if capTarget s = 0 then (false, s)
    else
      let x := capRoom s (64 + 4096 * (r.copied.length + 1))
      if !x.1 then (true, x.2)
      else
        let bs := blockBytes s c b
        let s := capWrite x.2 (s.cap.wr + 64 + 4096 * r.copied.length) bs
        (false, { s with cap := { s.cap with cur := some { r with copied := r.copied ++ [bs] } } })

/-- Closes the open block of a channel's ring. -/
def closeOpen (s : State) (c : Nat) : Option CapBlock × State :=
  let g := capRing s c
  match g.blocks.getLast? with
  | none => (none, s)
  | some b =>
    if b.isOpen && !b.entries.isEmpty then
      let b' := { b with isOpen := false }
      (some b', setCapRing s c { g with blocks := g.blocks.dropLast ++ [b'] })
    else (none, s)

/-- The header of Table 15.3 without its CRC. -/
def capHeader (num len chan : Nat) (r : CapRec) (flags trigTai startRaw endRaw blocks : Nat) : List Byte :=
  leBytes 4 num ++ leBytes 4 len ++ leBytes 4 (chan * 65536 + r.sources * 256 + r.firstSrc) ++
    leBytes 4 (r.triggers * 65536 + r.maskFail * 256 + flags) ++ leBytes 8 r.first ++ leBytes 8 trigTai ++
    leBytes 8 startRaw ++ leBytes 8 endRaw ++ leBytes 4 blocks ++ leBytes 4 r.tag ++ leBytes 4 0

/-- TAI ns of a raw instant (R468). -/
def taiOfRaw (s : State) (t : Nat) : Nat := (selTime8 s (8 * t) / 8).toNat

/-- Raw ns of a TAI instant with the selected domain's values (R468). -/
def rawOfTai (s : State) (tai : Nat) : Nat :=
  let v := (domOf s s.tim.sel).vals
  let base : Int := 8000000000 * (v.s : Int) + 8 * (v.ns : Int) + (v.sub : Int)
  let n : Int := (8 * (tai : Int) - base) * 2 ^ 40 + v.rate * (8 * (v.anchor : Int))
  (n / (2 ^ 40 + v.rate) / 8).toNat

/-- Ends the open record at an instant (R469): blocks closed, header formed, engine ARMED or HALTED. -/
def capEnd (s : State) (endAt flags : Nat) (halt full : Bool) : State :=
  match s.cap.cur with
  | none => s
  | some _ =>
    let chans := bitList 16 (capChan s)
    let z := chans.foldl (fun (z : Bool × State) c =>
      let x := closeOpen z.2 c
      match x.1 with
      | some b => if z.1 then (true, x.2) else copyBlock x.2 c b
      | none => (z.1, x.2)) (full, s)
    let s := z.2
    let halt := halt || z.1
    let flags := if z.1 then flags ||| 1 else flags
    match s.cap.cur with
    | none => s
    | some r =>
      let ids := match s.cap.held with | some l => l | none => []
      let own := if capTarget s = 0 then heldBlocks s ids else r.copied
      let ids' := chans.flatMap (fun c => ((capRing s c).blocks.filter (fun b => ids.any (fun i => i.1 = c && i.2 ≤ b.seq))).map
        (fun b => (c, b.seq)))
      let blocks := if capTarget s = 0 then heldBlocks s ids' else own
      let inval := !s.tim.valid
      let fl := r.flags ||| flags ||| (if inval then 0x20 else 0)
      let startRaw := blocks.foldl (fun m b => Nat.min m (le b 4 8)) (match blocks with | [] => 0 | b :: _ => le b 4 8)
      let len := 64 + 4096 * blocks.length
      let h := capHeader s.cap.recNum len (capChan s) r fl (if fl.testBit 5 then 0 else taiOfRaw s r.first) startRaw endAt
        blocks.length
      let s := chans.foldl (fun s c => let g := capRing s c; setCapRing s c { g with base := g.seq }) s
      let x := if capTarget s = 0 then (true, s) else capRoom s len
      let s := x.2
      let at_ := s.cap.wr
      let s := if x.1 && capTarget s != 0 then capWrite s at_ h else s
      let rec_ : CapDone := { off := at_, num := s.cap.recNum, header := h, blocks := blocks, keepHalted := halt }
      let s := { s with cap := { s.cap with
        cur := none, lastEnd := endAt, recNum := (s.cap.recNum + 1) % 2 ^ 32,
        held := (if capTarget s = 0 then some ids' else none),
        storing := if x.1 then s.cap.storing ++ [rec_] else s.cap.storing,
        wr := if x.1 && capTarget s != 0 then (at_ + len) % Nat.max 1 (capRegion s).2 else at_,
        st := if halt then .halted else .armed } }
      let s := if fl.testBit 0 then evt (bump s (Reg.capCnt 4)) Reg.capEvents 4 else s
      let s := if z.1 then logEvent s 0x0D42 0xFFFF [] else s
      if halt then evt s Reg.capEvents 0x10 else s

/-- The instant at which the open record ends (R469, R473). -/
def capEndAt (s : State) (r : CapRec) : Nat :=
  let post := 1000000 * regFld s Reg.capRec 15 0
  let e := Nat.min (r.latest + post) (r.first + 1000000 * (getReg s Reg.capMax).toNat)
  match r.stopAt with | some v => Nat.min e (v + post) | none => e

/-- The target is full (R474): the record ends TRUNCATED, record 0x0D42, engine HALTED. -/
def capFull (s : State) : State := capEnd s s.raw 1 true true

/-! ### Triggers (R467–R471, R477, R478) -/

/-- Opens a record at a trigger instant; TIME_INVALID while time is not valid (R476). -/
def capOpen (s : State) (src inst : Nat) : State :=
  let pre := 1000000 * regFld s Reg.capRec 31 16
  let want := inst - pre
  let chained := want < s.cap.lastEnd
  let start := if chained then s.cap.lastEnd else want
  let chans := bitList 16 (capChan s)
  let own (c : Nat) : List CapBlock :=
    let g := capRing s c
    let bs := g.blocks.filter (fun b => g.base ≤ b.seq)
    bs.filter (fun b => !(bs.any (fun n => n.seq = b.seq + 1 && n.stamp ≤ 8 * start)))
  let short := chans.any (fun c => match own c with
    | b :: _ => 8 * start < b.stamp && !(chained && b.seq = (capRing s c).base)
    | [] => true)
  let r : CapRec := { first := inst, latest := inst, firstSrc := src, sources := 2 ^ src, triggers := 1, maskFail := 0,
                      stopAt := none, start := start, flags := b2n short * 2 + b2n chained * 4 + b2n (!s.tim.valid) * 32,
                      tag := regFld s Reg.capTag 15 0, copied := [] }
  let s := { s with cap := { s.cap with
    cur := some r, st := .recording,
    store := if capTarget s = 0 then [] else s.cap.store,
    held := if capTarget s = 0 then some (chans.flatMap (fun c => (own c).map (fun b => (c, b.seq)))) else none } }
  let closed := (chans.flatMap (fun c => ((own c).filter (fun b => !b.isOpen)).map (fun b => (b.lastAt, c, b))))
  let order := closed.mergeSort (fun a b => a.1 < b.1 || (a.1 = b.1 && a.2.1 ≤ b.2.1))
  let x := order.foldl (fun (x : Bool × State) b => if x.1 then x else copyBlock x.2 b.2.1 b.2.2) (false, s)
  if x.1 then capFull x.2 else x.2

/-- A trigger's planned bus assertion (R477, R479). -/
def capDrive (s : State) (src inst : Nat) : State :=
  if regFld s Reg.capBus 23 16 / 2 ^ src % 2 = 1 && regFld s Reg.capBus 31 28 != 0 &&
      (twinMay s || s.twn.st = .taking) then
    let at_ := inst + 1000 * (getReg s Reg.capBusLat).toNat
    let s' := { s with cap := { s.cap with drives := s.cap.drives ++ [(Nat.max at_ s.raw, regFld s Reg.capBus 31 28)] } }
    if at_ < s.raw then
      match s'.cap.cur with
      | some r => bump { s' with cap := { s'.cap with cur := some { r with flags := r.flags ||| 0x40 } } } (Reg.capCnt 3)
      | none => bump s' (Reg.capCnt 3)
    else s'
  else s

/-- A trigger's Hiash URGENT TRIGGER message (R478); its DST_ID is that of an alarm (DEDUCED, log entry 24). -/
def capMessage (s : State) (src inst : Nat) : State :=
  if regFld s Reg.capRemote 15 8 / 2 ^ src % 2 = 1 then
    let tai := if s.tim.valid then taiOfRaw s inst else s.raw
    let dst := if hshUpId s = 0 then 0xFFFF else hshUpId s
    hshSend s 1 1 dst (taiNow s) 1 0 0
      (leBytes 4 (regFld s Reg.capRemote 23 20 + regFld s Reg.capTag 15 0 * 65536) ++ leBytes 8 tai ++ leBytes 4 0)
  else s

/-- A trigger of a source at a raw instant (R467, R469, R471). -/
def capTrigger (s : State) (src inst : Nat) : State :=
  if absentAt s Reg.capBase || !regBit s Reg.capSrcEn src then s
  else if s.cap.st = .idle || s.cap.st = .halted || inst < s.cap.lastEnd then bump s (Reg.capCnt 2)
  else
    let s := evt (bump s (Reg.capCnt 1)) Reg.capEvents 1
    let s :=
      match s.cap.cur with
      | none => capOpen s src inst
      | some r => { s with cap := { s.cap with cur := some { r with
          latest := Nat.max r.latest inst, sources := r.sources ||| 2 ^ src, triggers := Nat.min 65535 (r.triggers + 1) } } }
    capMessage (capDrive s src inst) src inst

/-- Rises of alarm lines at a close event (source VERDICT): the instant is the exhibit time, or the raw time while
time is not valid (R467, R476). -/
def capVerdict (s : State) (rises exTime : Nat) : State :=
  if rises &&& regFld s Reg.capVrdLines 15 0 != 0 then
    capTrigger s 4 (if s.tim.valid then rawOfTai s exTime else s.raw)
  else s

end Sys2Proof.Machine
end

