-- ==== Sys2Proof/Machine/TwinOps.lean ====
section
/-! DEFINITION. Digests of a twin pair (18_twin.md, section 18.3). -/

namespace Sys2Proof.Machine

def digestKey (e rev : Nat) : Nat := e * 256 + rev

/-- Compares the two digests of an index and revision (R525). -/
def digestCompare (s : State) (e rev own partner : Nat) : State :=
  if own = partner then bump s (Reg.twnCnt 2)
  else
    let s := setRegN s (Reg.twnMismatch 0) e
    let s := setRegN s (Reg.twnMismatch 1) (rev * 2 ^ 24 + e / 2 ^ 32)
    let s := setReg64 s (Reg.twnMismatch 2) (Reg.twnMismatch 3) own
    let s := setReg64 s (Reg.twnMismatch 4) (Reg.twnMismatch 5) partner
    bump (logEvent (evt s Reg.twnEvents 2) 0x0740 0xFFFF []) (Reg.twnCnt 3)

/-- The device's own digest of a revision: sent in a DIGEST message and compared with the partner's (R524, R525).
Outside a twin pair there is no partner. -/
def digestOwn (s : State) (e rev d : Nat) : State :=
  if s.twn.st = .active || s.twn.st = .standby || s.twn.st = .taking then
    let s := { s with twn := { s.twn with own := smSet s.twn.own (digestKey e rev) d } }
    let s := twinMsg s 5 (leBytes 8 e ++ leBytes 4 rev ++ leBytes 8 d)
    match smFind s.twn.partner (digestKey e rev) with
    | some p => digestCompare s e rev d p
    | none => s
  else s

/-- The partner's digest (R525). -/
def digestPartner (s : State) (e rev d : Nat) : State :=
  let s := { s with twn := { s.twn with partner := smSet s.twn.partner (digestKey e rev) d } }
  match smFind s.twn.own (digestKey e rev) with
  | some o => digestCompare s e rev o d
  | none => s

/-- At the exhibit's release each own digest without a partner's counts PARTNER_MISSING; the digests are dropped
(R525). -/
def digestRelease (s : State) (e : Nat) : State :=
  let mine := (s.twn.own.filter (fun p => p.1 / 256 = e)).map (·.1)
  let s := mine.foldl (fun s k =>
    if (smFind s.twn.partner k).isSome then s
    else logEvent (evt (bump s (Reg.twnCnt 4)) Reg.twnEvents 0x20) 0x0744 0xFFFF []) s
  { s with twn := { s.twn with own := s.twn.own.filter (fun p => p.1 / 256 != e),
                               partner := s.twn.partner.filter (fun p => p.1 / 256 != e) } }

end Sys2Proof.Machine
end

