-- ==== Sys2Proof/Machine/Verdict.lean ====
section
/-! DEFINITION. Ledger banks, verdict lines, alarm lines and pins, alarm messages, verdict records and revisions
(08_verdicts_and_alarms.md). -/

namespace Sys2Proof.Machine

/-! ### Banks and cells (R265–R270) -/

/-- The initial value of a cell (Table 8.1). -/
def cellInit (c : Nat) : DWord :=
  if c < 0xE00 then 0#64 else if c < 0xF00 then 0x8000000000000000#64 else 0x7FFFFFFFFFFFFFFF#64

def getBank (s : State) (b : Nat) : Bank := smGet Bank.reset s.vrd.banks b
def setBank (s : State) (b : Nat) (x : Bank) : State :=
  { s with vrd := { s.vrd with banks := smPut Bank.reset s.vrd.banks b x } }

def cellOf (m : SMap DWord) (c : Nat) : DWord := smGet (cellInit c) m c

/-- The lowest-numbered free bank (R266). -/
def freeBank (s : State) : Option Nat := firstBelow 16 (fun b => (getBank s b).st = .free)

/-- A bank is HELD by an exhibit with every cell at its initial value (R266, R267). -/
def takeBank (s : State) (b e : Nat) : State := setBank s b { st := .held, index := e, cells := [], mask := 0 }

/-- The exhibit's bank in one of the given states. -/
def bankOf (s : State) (e : Nat) (p : BankState → Bool) : Option Nat :=
  firstBelow 16 (fun b => (getBank s b).index = e && p (getBank s b).st)

/-- Has the exhibit's KEEPING not ended (R296)? -/
def keepingOf (s : State) (e : Nat) : Bool :=
  (bankOf s e (fun x => x = .held || x = .reducing || x = .keeping)).isSome

/-- VRD_BANKS: BUSY and HELD. -/
def vrdBanksWord (s : State) : Nat :=
  sumNat ((List.range 16).map (fun b => match (getBank s b).st with
    | .free => 0 | .held => 2 ^ b | _ => 2 ^ (16 + b)))

/-! ### Contributions (R221, R296) -/

/-- The value a cell takes: 0 ADD modulo 2^64, 1 MAX and 2 MIN signed, 3 OR (R221). -/
def ledgerOp (op : Nat) (old v : DWord) : DWord :=
  if op = 0 then old + v
  else if op = 1 then (if old.toInt < v.toInt then v else old)
  else if op = 2 then (if v.toInt < old.toInt then v else old)
  else old ||| v

/-- The keep set of the plan in a slot (R294). -/
def keepOf (s : State) (slot : Nat) : List Nat := match planAt s slot with | some p => keepSet p | none => []

/-- A revision contribution reaches the revision store, or is discarded as UNKEPT (R296). -/
def lgaStore (s : State) (l : Lga) : State :=
  let unkept := evt (bump s (Reg.vrdCnt 7)) Reg.vrdEvents 0x10
  match smFind s.vrd.rev l.index with
  | none => unkept
  | some r =>
    if (keepOf s r.slot).contains l.cell then
      let cells := smPut (cellInit l.cell) r.cells l.cell (ledgerOp l.op (cellOf r.cells l.cell) l.value)
      bump { s with vrd := { s.vrd with rev := smSet s.vrd.rev l.index { r with cells := cells } } } (Reg.vrdCnt 6)
    else unkept

/-- A contribution is posted: revision 0 to the bank its exhibit holds (R270), a later revision to the revision
store once KEEPING has ended (R296). -/
def lgaPost (s : State) (l : Lga) : State :=
  if l.revision = 0 then
    match bankOf s l.index (· == .held) with
    | some b =>
      let x := getBank s b
      setBank s b { x with cells := smPut (cellInit l.cell) x.cells l.cell (ledgerOp l.op (cellOf x.cells l.cell) l.value) }
    | none => s
  else if keepingOf s l.index then { s with vrd := { s.vrd with waitLga := s.vrd.waitLga ++ [l] } }
  else lgaStore s l

/-! ### Evaluation of a line (R272–R275) -/

/-- 2^−F as float64. -/
def pow2Neg (f : Nat) : Nat := (1023 - f) * 2 ^ 52

/-- A cell operand (R272). -/
def cellOperand (v : DWord) (f : Nat) : Nat := fmul f64 (fofInt f64 v.toInt) (pow2Neg f)

def widen (x : Nat) : Nat := fcvt f32 f64 x

/-- The result of an evaluation: unknown, value. -/
abbrev LineVal := Bool × Nat

def lineValAt (rs : List LineVal) (j : Nat) : LineVal := match rs[j]? with | some r => r | none => (true, fNan f64)

/-- Evaluates a line on cells and the results of lower-numbered lines (R272, R273). -/
def evalLine (v : VLine) (cells : SMap DWord) (rs : List LineVal) : LineVal :=
  let opd (line : Bool) (n f : Nat) : LineVal := if line then lineValAt rs n else (false, cellOperand (cellOf cells n) f)
  let a := opd v.aLine v.a v.fa
  let b := opd v.bLine v.b v.fb
  let g := widen v.gain
  let x :=
    if v.form = 1 then fmul f64 g a.2
    else if v.form = 2 then fmul f64 g (fdiv f64 a.2 b.2)
    else if v.form = 3 then fmul f64 g (fsub f64 a.2 b.2)
    else
      fmul f64 g ((List.range (v.b + 1)).foldl (fun (t : Nat) k =>
        let y := cellOperand (cellOf cells (v.a + k)) v.fa
        fadd f64 t (fmul f64 y y)) 0)
  let gateFails := v.gateEn && flt f64 (cellOperand (cellOf cells v.gate) v.gf) (widen v.gateMin)
  let two := v.form = 2 || v.form = 3
  let unknown := gateFails || (v.form = 2 && feq f64 b.2 0) || fIsNan f64 x || (v.aLine && a.1) || (two && v.bLine && b.1)
  (unknown, if unknown then fNan f64 else x)

/-- The instant result of a known evaluation (Table 8.5). -/
def instantOf (v : VLine) (prev : Bool) (x : Nat) : Bool :=
  let t := widen (if prev then v.clear else v.set)
  if v.compare = 0 then flt f64 t x else if v.compare = 1 then flt f64 x t else flt f64 t (fabs f64 x)

/-- The line's state after an evaluation (R274, R275). -/
def lineNext (v : VLine) (st : LineState) (r : LineVal) : LineState :=
  let known := !r.1
  let i := instantOf v st.inst r.2
  let hist := if known then (st.history * 2 + b2n i) % 65536
    else if v.holdUnknown then st.history else st.history * 2 % 65536
  let inst := if known then i else if v.holdUnknown then st.inst else false
  { st with history := hist, inst := inst, unknown := r.1, value := r.2, active := v.n ≤ popCount v.m hist }

def lineKey (slot i : Nat) : Nat := slot * 4096 + i
def getLine (s : State) (slot i : Nat) : LineState := smGet LineState.reset s.vrd.lines (lineKey slot i)

/-- The results of every line in ascending order. -/
def evalLines (ls : List VLine) (cells : SMap DWord) : List LineVal :=
  ls.foldl (fun rs v => rs ++ [evalLine v cells rs]) []

/-- The bits of the REVISE lines' instant results, an unknown result as 0 (R295). -/
def reviseMask (ls : List VLine) (inst : Nat → Bool) : Nat :=
  let idx := (List.range ls.length).filter (fun i => match ls[i]? with | some v => v.revise | none => false)
  sumNat ((List.range idx.length).map (fun k => match idx[k]? with | some i => if inst i then 2 ^ k else 0 | none => 0))

/-! ### Alarm lines and pins (R279–R287) -/

def alarmLines (s : State) : Nat := s.vrd.verdictSrc ||| s.vrd.tourSrc

/-- The pin map a plan applies; without PIN_MAP element p is LINE p (R287). -/
def pinMapOf (p : Plan) : List (List Byte) :=
  if p.pins.isEmpty then (List.range 16).map (fun n => leBytes 4 (n * 4096) ++ leBytes 8 0 ++ leBytes 4 0) else p.pins

def pinElem (s : State) (p : Nat) : List Byte := match s.vrd.pinMap[p]? with | some e => e | none => []
def pinMode (e : List Byte) : Nat := le e 0 1 % 4
def pinWidth (e : List Byte) : Nat := le e 4 2

/-- The device-status sources of Table 8.9, bits 4 to 7. -/
def statusSources (s : State) : Nat :=
  b2n (regBit s Reg.pceStatus 2) * 16 + b2n (regBit s Reg.pceStatus 3) * 32 + b2n (timeDegraded s) * 64 +
    b2n (s.acc.entries.any (fun x => x.2.st = .silent)) * 128

/-- The input of a pin (R283). -/
def pinInput (s : State) (p : Nat) : Bool :=
  let e := pinElem s p
  s.vrd.pinLive && ((alarmLines s).testBit (le e 1 1 / 16) || statusSources s &&& (le e 0 1 / 16 * 16) != 0)

/-- A pin's asserted state by MODE (Table 8.7), without a force. -/
def pinByMode (s : State) (p : Nat) : Bool :=
  let m := pinMode (pinElem s p)
  (smFind s.vrd.pulses p).isSome ||
    (if m = 1 then s.vrd.pinIn.testBit p || s.vrd.latches.testBit p
     else if m = 2 then false
     else s.vrd.pinIn.testBit p)

/-- The asserted states the mode logic gives; a pulse already running finishes after a swap (R285). -/
def pinStates (s : State) : Nat := sumNat ((List.range 16).map (fun p => if pinByMode s p then 2 ^ p else 0))

/-- The asserted states of ALM15–ALM0: held during a takeover gap (R529), with forced pins (R286). -/
def pinsShown (s : State) : Nat :=
  let base := if s.twn.st = .taking then s.twn.lineHold else pinStates s
  let en := regFld s Reg.vrdPinForce 31 16
  sumNat ((List.range 16).map (fun p =>
    if (if en.testBit p then regBit s Reg.vrdPinForce p else base.testBit p) then 2 ^ p else 0))

/-- What an ALM pin drives: none released, some level (R284, R285, Table 22.11); nothing in STANDBY and ISOLATED
(Table 18.1). -/
def pinLevel (s : State) (p : Nat) : Option Bool :=
  if s.twn.st = .standby || s.twn.st = .isolated then none
  else
    let low := s.vrd.pinLive && le (pinElem s p) 0 1 / 4 % 2 = 1
    bankOut s 0 (driveOf ((pinsShown s).testBit p) low (regBit s Reg.vrdPinDrive p))

/-- Follows the pins' inputs: each rise sets a latch or starts a pulse (Table 8.7). -/
def pinEval (s : State) : State :=
  let now := sumNat ((List.range 16).map (fun p => if pinInput s p then 2 ^ p else 0))
  let rises := (List.range 16).filter (fun p => now.testBit p && !s.vrd.pinIn.testBit p)
  let s := { s with vrd := { s.vrd with pinIn := now } }
  rises.foldl (fun s p =>
    let m := pinMode (pinElem s p)
    if m = 1 then { s with vrd := { s.vrd with latches := s.vrd.latches ||| 2 ^ p } }
    else if m = 2 then
      bump { s with vrd := { s.vrd with
        pulses := smSet s.vrd.pulses p (s.raw + 1000 * pinWidth (pinElem s p)) } } (Reg.vrdCnt 12)
    else s) s

/-- The PIN_MAP of the plan whose close event is applied; a pin whose MODE changes to another than LATCH loses its
latch (R285). -/
def pinMapSet (s : State) (m : List (List Byte)) : State :=
  if s.vrd.pinMap = m then { s with vrd := { s.vrd with pinLive := true } }
  else
    let keep := sumNat ((List.range 16).map (fun p => match m[p]? with
      | some e => if pinMode e = 1 then 2 ^ p else 0
      | none => 0))
    { s with vrd := { s.vrd with pinMap := m, pinLive := true, latches := s.vrd.latches &&& keep } }

/-! ### Messages (R288–R292, Tables 8.10 and 8.11) -/

/-- What a publication patches in. -/
structure Patch where
  time : Nat
  alarms : Nat
  value : Nat                        -- float32
  tag : Nat
  index : Nat
  present : Nat
  expected : Nat
  deriving DecidableEq, Repr

def patchAt (img : List Byte) (o : Nat) (b : List Byte) : List Byte := if o = 0 then img else patch img o b

/-- The image with the fields of a trigger (Table 8.11), in the protocol's byte order: Hiash is little-endian. -/
def patchTrigger (s : State) (tp : Template) (x : Patch) : List Byte :=
  let o (k : Nat) : Nat := le tp.body k 2
  let num (n v : Nat) : List Byte := if tp.kind = 2 then leBytes n v else beBytes n v
  let img := tp.body.drop 32
  let img := patchAt img (o 0x08) (utcTime s x.time (tqByte s))
  let img := if o 0x0C = 0 then img
    else (List.range 16).foldl (fun i k => patch i (o 0x0C + 3 * k + 2) [if x.alarms.testBit k then 0xFF#8 else 0#8]) img
  let img := patchAt img (o 0x0E) (num 4 x.value)
  let img := patchAt img (o 0x10) (num 2 x.tag)
  let img := patchAt img (o 0x12) (num 4 x.index)
  let img := patchAt img (o 0x14) (num 2 x.present)
  patchAt img (o 0x16) (num 2 x.expected)

/-- IPv4 header checksum recomputed; UDP checksum 0 over IPv4, computed over IPv6 (R291). -/
def fixSums (img : List Byte) : List Byte :=
  let e := etypeAt img
  let ip := e + 2
  if be img e 2 = 0x0800 then
    let hl := le img ip 1 % 16 * 4
    let img := patch img (ip + 10) (beBytes 2 0)
    let img := patch img (ip + 10) (beBytes 2 (onesSum (slice img ip hl)))
    patch img (ip + hl + 6) (beBytes 2 0)
  else if be img e 2 = 0x86DD then
    let u := ip + 40
    let len := be img (u + 4) 2
    let img := patch img (u + 6) (beBytes 2 0)
    let c := onesSum (slice img (ip + 8) 32 ++ beBytes 4 len ++ beBytes 4 17 ++ slice img u len)
    patch img (u + 6) (beBytes 2 (if c = 0 then 0xFFFF else c))
  else img

/-- A GMAC template that finds no usable key is not sent (R291). -/
def tplNoKey (s : State) : State := evt (bump s (Reg.vrdCnt 11)) Reg.vrdEvents 0x20

/-- An image with the tag of a GMAC template, whose value is free (log entry 11). -/
def tplTag (s : State) (tp : Template) (img : List Byte) : List Byte :=
  if tp.gmac then patchAt img (le tp.body 0x1A 2) (freeBytes s 16) else img

/-- Sends a publication on every port of the template (R289, R291); cnt is the counter it moves. In a takeover gap a
triggered template waits, a retransmission does not (R527, R529). -/
def tplSend (s : State) (t : Nat) (tp : Template) (x : TplState) (cnt : Nat) : State :=
  let o (k : Nat) : Nat := le tp.body k 2
  if tp.gmac && !keyUsable s 1 then tplNoKey s
  else
    let img := patchAt x.image (o 0x04) (beBytes 4 x.stNum)
    let img := patchAt img (o 0x06) (beBytes 4 x.sqNum)
    let img := patchAt img (o 0x0A) (beBytes 4 (2 * x.interval))
    let img := if tp.kind = 1 then patchAt img (o 0x18) (beBytes 4 x.spdu) else img
    let img := tplTag s tp img
    let s := if tp.gmac then nextFree s else s
    let img := if tp.kind = 1 then fixSums img else img
    let sent := twinMay s || s.twn.st = .taking
    let s := (bitList 6 tp.ports).foldl (fun s p =>
      if cnt = 10 && s.twn.st = .taking then expressOr s p true 8 img else outFrame s p true 8 img) s
    let s := if tp.kind = 1 then
        { s with vrd := { s.vrd with tpl := smSet s.vrd.tpl t { x with spdu := (x.spdu + 1) % 2 ^ 32 } } }
      else s
    if cnt = 10 && !sent then s else bump s (Reg.vrdCnt cnt)

def setTpl (s : State) (t : Nat) (x : TplState) : State := { s with vrd := { s.vrd with tpl := smSet s.vrd.tpl t x } }

/-- The number after stNum or sqNum (R289). -/
def next1 (n : Nat) : Nat := if n = 0xFFFFFFFF then 1 else n + 1

def tMin (tp : Template) : Nat := le tp.body 0 2
def tMax (tp : Template) : Nat := le tp.body 2 2

/-- A triggered GOOSE or R-GOOSE template (R289). -/
def tplTrigger (s : State) (t : Nat) (tp : Template) (x : Patch) : State :=
  let old := smGet TplState.reset s.vrd.tpl t
  let st := { old with stNum := next1 old.stNum, sqNum := 0, interval := tMin tp, nextAt := s.raw + 1000000 * tMin tp,
                       image := patchTrigger s tp x }
  tplSend (setTpl s t st) t tp st 9

/-- A template starts publishing (R290): stNum 1, sqNum 0, the heartbeat schedule; triggered in the same reduction it
carries that trigger. VALUE and TAG that no trigger supplies, and the first SPDU number, are not stated: free. -/
def tplStart (s : State) (t : Nat) (tp : Template) (elem : List Byte) (x : Patch) (triggered : Bool) : State :=
  let y := if triggered then x else { x with value := freeBelow s (2 ^ 32), tag := freeBelow s 65536 }
  let iv := if triggered then tMin tp else tMax tp
  let st : TplState := { stNum := 1, sqNum := 0, spdu := freeBelow (nextFree s) (2 ^ 32), interval := iv,
                         nextAt := s.raw + 1000000 * iv, image := patchTrigger s tp y, elem := elem, body := tp.body }
  tplSend (setTpl (nextFree (nextFree s)) t st) t tp st (if triggered then 9 else 10)

/-- A triggered Hiash URGENT template (R292, R309); one with GMAC takes its tag, or is not sent for want of a key
(R291). -/
def tplUrgent (s : State) (tp : Template) (x : Patch) : State :=
  if tp.gmac && !keyUsable s 1 then tplNoKey s
  else
    let dst := if hshUpId s = 0 then 0xFFFF else hshUpId s
    let img := tplTag s tp (patchTrigger s tp x)
    bump (hshSend (if tp.gmac then nextFree s else s) 1 0 dst x.time 1 0 0 (img.drop 32)) (Reg.vrdCnt 9)

/-- The trigger of a template: the lowest-numbered line that calls it (R288). ch holds line, became active, value. -/
def tplCause (ls : List VLine) (ch : List (Nat × Bool × Nat)) (t : Nat) : Option (Nat × Nat) :=
  (ch.find? (fun c => match ls[c.1]? with
    | some v => if c.2.1 then v.setTpl && v.setTemplate = t else v.clearTpl && v.clearTemplate = t
    | none => false)).map (fun c => (c.2.2, match ls[c.1]? with | some v => v.tag | none => 0))

/-- Templates of a close event: publication of a new plan starts (R290), triggered templates are sent (R288). -/
def templates (s : State) (p : Plan) (slot : Nat) (x : Patch) (ch : List (Nat × Bool × Nat)) : State :=
  let now := some (slot, (planSlot s slot).start)
  let fresh := s.vrd.pinPlan != now
  let s := if fresh then { s with vrd := { s.vrd with pinPlan := now, tpl := [] } } else s
  let ls := planLines p
  (List.range p.msgs.length).foldl (fun s t =>
    match templateOf p t with
    | none => s
    | some tp =>
      let c := tplCause ls ch t
      let y := match c with | some c => { x with value := fcvt f64 f32 c.1, tag := c.2 } | none => x
      if tp.kind = 2 then (if c.isSome then tplUrgent s tp y else s)
      else if fresh then tplStart s t tp (match p.msgs[t]? with | some e => e | none => []) y c.isSome
      else if c.isSome then tplTrigger s t tp y
      else s) s

/-! ### Verdict records (R293) -/

/-- Writes a verdict record to the host queue (Table 8.12). -/
def vrdRecord (s : State) (b : List Byte) : State :=
  if regBit s Reg.vrdCfg 16 then
    let q := regFld s Reg.vrdCfg 10 0
    let pk : Packet := { source := 8, port := 7, arrival := s.raw, sub := 0, data := b }
    if copyRoom s q 32 then commitPacket s q pk
    else logEvent (evt (devCopy s q pk (Reg.vrdCnt 8)) Reg.vrdEvents 8) 0x0843 q []
  else s

def recordBytes (ty line rev : Nat) (e slot : Nat) (cause : Nat) (late : Bool) (present expected value w6 alarms : Nat) :
    List Byte :=
  leBytes 4 (ty * 2 ^ 28 + line * 4096 + rev) ++ leBytes 4 e ++
    leBytes 4 (cause * 2 ^ 18 + b2n late * 2 ^ 17 + slot * 65536 + e / 2 ^ 32 % 65536) ++
    leBytes 4 (present * 65536 + expected) ++ leBytes 8 value ++ leBytes 4 w6 ++ leBytes 4 alarms

/-! ### The summary upstream (R315, R316, R319) -/

def to32 (x : Nat) : Nat := fcvt f64 f32 x
def qNan32 : Nat := 0x7FC00000

/-- A line's value as a summary takes it. -/
def upLine (rs : List LineVal) (l : Nat) : Nat :=
  match rs[l]? with | some r => if r.1 then qNan32 else to32 r.2 | none => qNan32

def upPhasor (s : State) (cells : SMap DWord) (k : Nat) : Nat × Nat :=
  let w := getReg s (Reg.hshUpPh k)
  let f := fld w 17 12
  let c := fld w 11 0
  let v (n : Nat) : Nat := to32 (cellOperand (cellOf cells n) f)
  if bit w 31 then (v c, v ((c + 1) % 4096)) else (0, 0)

def upAnalog (s : State) (rs : List LineVal) (j : Nat) : Nat :=
  let w := getReg s (Reg.hshUpAn j)
  if bit w 31 then upLine rs (fld w 11 0) else 0

def upFreq (s : State) (rs : List LineVal) : Nat :=
  if regBit s Reg.hshUpFr 31 then upLine rs (regFld s Reg.hshUpFr 27 16) else 0
def upRocof (s : State) (rs : List LineVal) : Nat :=
  if regBit s Reg.hshUpFr 15 then upLine rs (regFld s Reg.hshUpFr 11 0) else 0

/-- The body of Table 9.6. -/
def upBody (u : UpSummary) (present : Nat) (notices : List (Nat × Bool × Nat × Nat)) : List Byte :=
  leBytes 4 (notices.length * 65536 + u.analogs.length * 256 + u.phasors.length) ++
    leBytes 4 (u.expected * 65536 + present) ++ leBytes 4 u.freq ++ leBytes 4 u.rocof ++ u.digs.flatMap (leBytes 2) ++
    u.phasors.flatMap (fun p => leBytes 4 p.1 ++ leBytes 4 p.2) ++ u.analogs.flatMap (leBytes 4) ++
    notices.flatMap (fun n => leBytes 4 (n.1 + b2n n.2.1 * 4096 + n.2.2.1 * 65536) ++ leBytes 4 n.2.2.2)

def upDiv (s : State) : Nat := regFld s Reg.hshUpCfg 31 24
def upSelects (s : State) (e : Nat) : Bool := hshEnabled s && hshUpId s != 0 && upDiv s != 0 && e % upDiv s = 0

/-- EXHIBIT CLOSE of a verdict-bearing exhibit (R316); the summary of one that is sent is kept (R319). -/
def upSend (s : State) (e br : Nat) (cells : SMap DWord) (rs : List LineVal) (cause : Nat) (late loss : Bool)
    (present expected revision : Nat) : State :=
  if upSelects s e then
    let u : UpSummary :=
      { expected := expected, freq := upFreq s rs, rocof := upRocof s rs,
        digs := [alarmLines s, cause + b2n late * 4 + b2n loss * 8 + revision * 256, present % 65536, expected % 65536],
        phasors := (List.range (regFld s Reg.hshUpCfg 22 16)).map (upPhasor s cells),
        analogs := (List.range (regFld s Reg.hshUpCfg 12 8)).map (upAnalog s rs) }
    let s := if hshSends s 2 then { s with hsh := { s.hsh with up := smSet s.hsh.up e u } } else s
    hshSend s 2 0 (hshUpId s) (exhibitTime br e) 1 0 0 (upBody u present [])
  else s

/-! ### Applying a close event (R279, R280, R285, R290) -/

/-- The tour parts after the RAISEs of a close event, in their order of arrival. -/
def raiseApply (t : Nat) (rs : List PendRaise) : Nat :=
  rs.foldl (fun t r => if r.value then t ||| 2 ^ r.line else if t.testBit r.line then t - 2 ^ r.line else t) t

/-- Composes alarm lines and pins of a close event and sends its messages; VERDICT triggers follow (R467). -/
def applyClose (s : State) (p : Plan) (r : Reduction) (verdictSrc : Nat) (ch : List (Nat × Bool × Nat)) : State :=
  let before := alarmLines s
  let s := { s with vrd := { s.vrd with verdictSrc := verdictSrc, tourSrc := raiseApply s.vrd.tourSrc r.raises } }
  let s := pinEval (pinMapSet s (pinMapOf p))
  let x : Patch := { time := exhibitTime p.baseRate r.index, alarms := alarmLines s, value := 0, tag := 0,
                     index := r.index % 2 ^ 32, present := r.present, expected := r.expected }
  let s := templates s p r.slot x ch
  capVerdict s (alarmLines s - (alarmLines s &&& before)) (exhibitTime p.baseRate r.index)

/-! ### Digests (R524) -/

def getEx (s : State) (e : Nat) : Option Exhibit := smFind s.vlt.ex e
def setEx (s : State) (x : Exhibit) : State := { s with vlt := { s.vlt with ex := smSet s.vlt.ex x.index x } }

/-- The 2,048 bytes of a mask (Table 4.1). -/
def maskBytes (m : Nat) : List Byte := leBytes 2048 (m % 2 ^ 16384)

/-- Landed at the close condition: accessions, and those of them expected, L0–L3 included. -/
def onTimeMask (x : Exhibit) : Nat := x.presMask - (x.presMask &&& x.addMask)

/-- D0 of an exhibit; the masks are those of the close condition. -/
def digestZero (s : State) (x : Exhibit) (cells : Option (SMap DWord)) : Nat :=
  let lrev (k : Nat) : Bool := smGet 1 x.landRev (0x4000 + k) = 0
  let locs := ((List.range 4).filter (fun k => (x.locExp &&& x.locPres).testBit k && lrev k)).length
  let expPres := popCount 16384 (x.expMask &&& onTimeMask x) + locs
  crc64 (leBytes 8 x.index ++ [0#8] ++ leBytes 1 x.closeCause ++ leBytes 2 x.presentAtClose ++ leBytes 2 expPres ++
    maskBytes (onTimeMask x) ++
    (match cells with | some m => (List.range 4096).flatMap (fun c => leBytes 8 (cellOf m c).toNat) | none => []) ++
    leBytes 2 (alarmLines s))

/-- A digest enters the header and goes to the twin (R524). -/
def putDigest (s : State) (e rev d : Nat) : State :=
  match getEx s e with
  | some x => digestOwn (setEx s { x with digest := d, digested := rev }) e rev d
  | none => s

/-- The digests of the revisions up to top that are not yet covered (R144, R524). -/
def digestRevs (s : State) (e top : Nat) : Nat → State
  | 0 => s
  | n + 1 =>
    match getEx s e with
    | none => s
    | some x =>
      if Nat.min top x.revision ≤ x.digested then s
      else
        let r := x.digested + 1
        let tail := match smFind s.vrd.rev e with
          | some v => (keepOf s v.slot).flatMap (fun c => leBytes 8 (cellOf v.cells c).toNat) ++ leBytes 8 v.repMask
          | none => []
        digestRevs (putDigest s e r (crc64 (leBytes 8 x.digest ++ leBytes 1 r ++ tail))) e top n

/-! ### The reduction (REDUCTION_END) -/

/-- Stores a line's new state, counts and logs its change (R274, R275, Table 8.19). -/
def putLine (s : State) (slot i : Nat) (old new : LineState) : State :=
  let changed := old.active != new.active
  let ch := if changed then Nat.min 0xFFFFFFFF (old.changes + 1) else old.changes
  let s := { s with vrd := { s.vrd with
    lines := smPut LineState.reset s.vrd.lines (lineKey slot i) { new with changes := ch } } }
  let s := if changed && ch = 0xFFFFFFFF && old.changes != 0xFFFFFFFF then
      logEvent (setReg s 0x70004 (setBit (getReg s 0x70004) 8 true)) 0x0644 8 (leBytes 4 Reg.vrdLineChanges)
    else s
  let s := if new.unknown then bump s (Reg.vrdCnt 3) else s
  if !changed then s
  else if new.active then logEvent (evt (bump s (Reg.vrdCnt 1)) Reg.vrdEvents 1) 0x0840 i []
  else logEvent (evt (bump s (Reg.vrdCnt 2)) Reg.vrdEvents 2) 0x0841 i []

/-- The records of a reduction's line changes (R293). -/
def changeRecords (s : State) (ls : List VLine) (r : Reduction) (ch : List (Nat × Bool × Nat)) : State :=
  ch.foldl (fun s c =>
    let st := getLine s r.slot c.1
    let tag := match ls[c.1]? with | some v => v.tag | none => 0
    vrdRecord s (recordBytes (if c.2.1 then 1 else 2) c.1 0 r.index r.slot r.closeCause r.paceLate r.present r.expected
      c.2.2 (b2n st.active * 2 ^ 17 + b2n st.inst * 65536 + tag) (alarmLines s))) s

/-- The verdict parts of the alarm lines (R279). -/
def verdictParts (s : State) (ls : List VLine) (slot : Nat) : Nat :=
  (List.range ls.length).foldl (fun a i => match ls[i]? with
    | some v => if v.almEn && (getLine s slot i).active then a ||| 2 ^ v.alm else a
    | none => a) 0

/-- The registers that show a reduction. -/
def reduceShown (s : State) (e ns steps : Nat) : State :=
  let n := Nat.min 65535 ns
  let s := setReg64 s (Reg.vrdLast 0) (Reg.vrdLast 1) e
  let s := setRegN s Reg.vrdReduce (n * 65536 + steps % 65536)
  let s := if regFld s Reg.vrdReduceMax 15 0 < n then setRegN s Reg.vrdReduceMax n else s
  bump { s with vrd := { s.vrd with last := e } } (Reg.vrdCnt 0)

/-- Reduces a verdict-bearing exhibit's bank (R272–R280, R295, R315, R524). -/
def reduceBank (s : State) (p : Plan) (r : Reduction) (b ns steps : Nat) : State :=
  let ls := planLines p
  let cells := (getBank s b).cells
  let rs := evalLines ls cells
  let olds := (List.range ls.length).map (getLine s r.slot)
  let news := (ls.zip (olds.zip rs)).map (fun x => lineNext x.1 x.2.1 x.2.2)
  let s := ((List.range ls.length).zip (olds.zip news)).foldl (fun s x => putLine s r.slot x.1 x.2.1 x.2.2) s
  let ch := ((List.range ls.length).zip (olds.zip news)).filterMap (fun x =>
    if x.2.1.active != x.2.2.active then some (x.1, x.2.2.active, x.2.2.value) else none)
  let s := applyClose s p r (verdictParts s ls r.slot) ch
  let inst (i : Nat) : Bool := match news[i]? with | some n => n.inst && !n.unknown | none => false
  let s := setBank s b { getBank s b with st := .keeping, mask := reviseMask ls inst }
  let s := changeRecords s ls r ch
  let ex := getEx s r.index
  let s := upSend s r.index p.baseRate cells rs r.closeCause r.paceLate (match ex with | some x => x.vaultLoss | none => false)
    r.present r.expected 0
  let s := match ex with | some x => putDigest s r.index 0 (digestZero s x (some cells)) | none => s
  reduceShown s r.index ns steps

/-! ### Revisions (R295–R297, R319) -/

/-- A notice: line, new instant, TAG, value as float64. -/
abbrev Notice := Nat × Bool × Nat × Nat

/-- Evaluates the REVISE lines on an entry's cells; lines without REVISE give an unknown placeholder. -/
def reviseEval (ls : List VLine) (cells : SMap DWord) : List LineVal :=
  ls.foldl (fun rs v => rs ++ [if v.revise then evalLine v cells rs else (true, fNan f64)]) []

/-- The instants of the REVISE lines of an evaluation, each from its close-instant bit (R297). -/
def reviseInstants (ls : List VLine) (rs : List LineVal) (closeMask : Nat) : List (Nat × Nat × Bool) :=
  let idx := (List.range ls.length).filter (fun i => match ls[i]? with | some v => v.revise | none => false)
  (List.range idx.length).filterMap (fun k => match idx[k]? with
    | some i => (match ls[i]? with
      | some v => let r := lineValAt rs i
                  some (k, i, !r.1 && instantOf v (closeMask.testBit k) r.2)
      | none => none)
    | none => none)

/-- ADDENDUM of an exhibit sent upstream (R319). -/
def upAddendum (s : State) (x : Exhibit) (br : Nat) (entry : Option RevEntry) (rs : List LineVal) (ls : List VLine)
    (ns : List Notice) (present : Nat) : State :=
  match smFind s.hsh.up x.index with
  | none => s
  | some u =>
    let keep := match entry with | some v => keepOf s v.slot | none => []
    let cells := match entry with | some v => v.cells | none => []
    let rev (l : Nat) : Bool := match ls[l]? with | some v => v.revise | none => false
    let ph := (List.range u.phasors.length).map (fun k =>
      let c := regFld s (Reg.hshUpPh k) 11 0
      if regBit s (Reg.hshUpPh k) 31 && keep.contains c && keep.contains ((c + 1) % 4096) then upPhasor s cells k
      else match u.phasors[k]? with | some q => q | none => (0, 0))
    let an := (List.range u.analogs.length).map (fun j =>
      let w := getReg s (Reg.hshUpAn j)
      if bit w 31 && rev (fld w 11 0) then upAnalog s rs j else match u.analogs[j]? with | some q => q | none => 0)
    let fr := if regBit s Reg.hshUpFr 31 && rev (regFld s Reg.hshUpFr 27 16) then upFreq s rs else u.freq
    let ro := if regBit s Reg.hshUpFr 15 && rev (regFld s Reg.hshUpFr 11 0) then upRocof s rs else u.rocof
    let d1 := match u.digs[1]? with | some d => d % 256 + x.revision * 256 | none => 0
    let u' := { u with phasors := ph, analogs := an, freq := fr, rocof := ro, digs := u.digs.set 1 d1 }
    let s := bumpBy s (Reg.hshCnt 25) (ns.length - 16)
    hshSend s 3 0 (hshUpId s) (exhibitTime br x.index) 1 0 x.revision
      (upBody u' present ((ns.take 16).map (fun n => (n.1, n.2.1, n.2.2.1, to32 n.2.2.2))))

/-- Accessions landed so far, and expected, L0–L3 included (Table 4.2). -/
def exPresent (x : Exhibit) : Nat := popCount 16384 x.presMask + popCount 4 x.locPres
def exExpected (x : Exhibit) : Nat := popCount 16384 x.expMask + popCount 4 x.locExp
def exExpPresent (x : Exhibit) : Nat := popCount 16384 (x.presMask &&& x.expMask) + popCount 4 (x.locPres &&& x.locExp)

/-- The revision evaluation of an exhibit (R297): notices, then digests, then the ADDENDUM. -/
def revEvaluate (s : State) (e : Nat) : State :=
  match getEx s e with
  | none => s
  | some x =>
    match planAt s x.slot with
    | none => digestRevs s e 255 255
    | some p =>
      let ls := planLines p
      match smFind s.vrd.rev e with
      | none => upAddendum (digestRevs s e 255 255) x p.baseRate none [] ls [] (exPresent x)
      | some v =>
        let rs := reviseEval ls v.cells
        let insts := reviseInstants ls rs v.closeMask
        let diff := insts.filter (fun i => v.repMask.testBit i.1 != i.2.2)
        let rep := diff.foldl (fun m i => m ^^^ 2 ^ i.1) v.repMask
        let v' := { v with repMask := rep }
        let s := bump { s with vrd := { s.vrd with rev := smSet s.vrd.rev e v' } } (Reg.vrdCnt 4)
        let tag (i : Nat) : Nat := match ls[i]? with | some l => l.tag | none => 0
        let s := diff.foldl (fun s i =>
          let s := evt (bump s (Reg.vrdCnt 5)) Reg.vrdEvents 4
          vrdRecord s (recordBytes 3 i.2.1 x.revision e x.slot x.closeCause x.paceLate (exPresent x) (exExpected x)
            (lineValAt rs i.2.1).2 (b2n (v.closeMask.testBit i.1) * 2 ^ 18 + b2n i.2.2 * 65536 + tag i.2.1)
            (alarmLines s))) s
        let s := digestRevs s e 255 255
        upAddendum s x p.baseRate (some v') rs ls
          (diff.map (fun i => (i.2.1, i.2.2, tag i.2.1, (lineValAt rs i.2.1).2))) (exPresent x)

/-- Is an addendum job of the exhibit held, waiting or in a local slot (R297)? -/
def addendumJob (s : State) (e : Nat) : Bool := jobsOf s e (fun j => j.kind = 0 && 1 ≤ j.revision)

/-- The highest revision below which no addendum job is outstanding: every one up to it is complete (R144). -/
def doneUpTo (s : State) (e : Nat) : Nat :=
  ((allJobs s).filter (fun j => j.kind = 0 && 1 ≤ j.revision && j.index = e)).foldl (fun m j => Nat.min m (j.revision - 1)) 255

/-- A revision may have completed (R144), KEEPING having ended (R296): DIGEST is rewritten, and the evaluator works unless
another addendum job is outstanding (R297). -/
def revisionDone (s : State) (e : Nat) : State :=
  match getEx s e with
  | none => s
  | some x =>
    if x.digested < x.revision && x.st != .opened && x.st != .closing && !keepingOf s e then
      (if addendumJob s e then digestRevs s e (doneUpTo s e) 255 else revEvaluate s e)
    else s

/-- KEEPING ends (R295): the keep set and the instants are copied, waiting contributions are applied (R296), and the
bank moves to CLEARING. -/
def keepCopied (s : State) (b : Nat) : State :=
  let x := getBank s b
  let live : Option Exhibit := (getEx s x.index).filter (fun v => v.st != .sealed)
  let s := match live with
    | none => s
    | some v =>
      let keep := keepOf s v.slot
      let has := match planAt s v.slot with | some p => !(reviseLines p).isEmpty | none => false
      if has then
        let cells := x.cells.filter (fun c => keep.contains c.1)
        { s with vrd := { s.vrd with
          rev := smSet s.vrd.rev x.index { slot := v.slot, cells := cells, closeMask := x.mask, repMask := x.mask } } }
      else s
  let s := setBank s b { x with st := .clearing }
  let mine := s.vrd.waitLga.filter (fun l => l.index = x.index)
  let s := { s with vrd := { s.vrd with waitLga := s.vrd.waitLga.filter (fun l => l.index != x.index) } }
  mine.foldl lgaStore s

/-- BANK_CLEARED (R267, R268). -/
def bankFreed (s : State) (b : Nat) : State :=
  if (getBank s b).st = .clearing then setBank s b Bank.reset else s

end Sys2Proof.Machine
end

