-- ==== Sys2Proof/Machine/Pace.lean ====
section
/-! DEFINITION. Pace: measurement, the voltage controller, pace conditions and calibration (02_pace.md). -/

namespace Sys2Proof.Machine

/-! ### Target and edges (R59, R61, R64, R65) -/

def paceReqOf (s : State) (k : Nat) : Nat :=
  match (planSlot s k).st, planAt s k with
  | .live, some p => p.reqPace
  | .retiring, some p => p.reqPace
  | _, _ => 0

def planActive (s : State) : Bool := (liveSlot s).isSome || (retiringSlot s).isSome

/-- The target of R59 for a required pace. -/
def paceTargetOf (req : Nat) : Nat := Nat.min 0xFFFFFFFF (req * 106 / 100)

/-- The lower band edge: the target, or in TRIM PWR_TRIM.PACE while no exhibit is held (R64, section 19.4). -/
def paceEdge (s : State) : Nat :=
  if s.pwr.st = .trim && s.vlt.ex.isEmpty then regFld s Reg.pwrTrim 10 0 * 65536
  else (getReg s Reg.pcePaceTarget).toNat

/-- The window length in µs in force (R65). -/
def windowUs (s : State) : Nat := if s.pce.fast then 4 else 4 * 4 ^ regFld s Reg.pceCfg 1 0

/-- Do the rings run (R57)? -/
def ringsRun (s : State) : Bool := s.pwr.st != .nap && s.pwr.st != .keep && s.pwr.st != .off

/-- A change of window length from `us` ends the window in progress; the next begins at that instant (R66), after the last
wake unless the rings stand. -/
def windowEnds (s : State) (us : Nat) : State :=
  if windowUs s = us || !ringsRun s then s else { s with pce := { s.pce with stale := false } }

/-- Follows the lower band edge; a rise starts windows of 4 µs (R65), which ends a longer one in progress (R66). -/
def paceEdgeEval (s : State) : State :=
  let e := paceEdge s
  windowEnds { s with pce := { s.pce with edge := e, fast := s.pce.fast || s.pce.edge < e } } (windowUs s)

/-- PCE_PACE_REQ and PCE_PACE_TARGET after a change of the plan slots (R61, R191). -/
def paceRetarget (s : State) : State :=
  let req := Nat.max (paceReqOf s 0) (paceReqOf s 1)
  let s := setRegN s Reg.pcePaceReq req
  let s := setRegN s Reg.pcePaceTarget (if planActive s then paceTargetOf req else 900 * 65536)
  paceEdgeEval s

/-- Is pace above the upper band edge, the lower edge × (100 + HEADROOM) ÷ 100? TRIM treats HEADROOM as 0. -/
def aboveUpper (s : State) (now : Nat) : Bool :=
  let head := if s.pwr.st = .trim then 0 else regFld s Reg.pceCfg 13 8
  s.pce.edge * (100 + head) < now * 100

/-- PCE_PACE_NOW of a ring's steps over a length in µs (R55). -/
def ringPace (steps us : Nat) : Nat := Nat.min 0xFFFFFFFF (steps * 65536 / us)

/-- Stores the ring registers of a measurement of the 20 rings (missing rings count 0) and PCE_PACE_NOW. -/
def setRings (s : State) (counts : List Nat) (us : Nat) : State :=
  let p (k : Nat) : Nat := ringPace (match counts[k]? with | some c => c | none => 0) us
  let s := (List.range 20).foldl (fun s k => setRegN s (Reg.pceRingPace k) (p k)) s
  let now := (List.range 20).foldl (fun m k => Nat.min m (p k)) 0xFFFFFFFF
  let s := setRegN s Reg.pcePaceNow now
  if now < (getReg s Reg.pcePaceMin).toNat then setRegN s Reg.pcePaceMin now else s

/-- May the controller raise VCORE (R62)? -/
def canRaise (s : State) : Bool := s.pce.vcore < 1700 && s.pce.vcore < s.pce.cap

/-- PCE_VCORE_NOW and AT_CAP follow the set-point and the cap. -/
def showVcore (s : State) : State :=
  let s := setRegN s Reg.pceVcoreNow (s.pce.vcore / 2)
  setReg s Reg.pceStatus (setBit (getReg s Reg.pceStatus) 1 (s.pce.vcore = 1700 || s.pce.vcore = s.pce.cap))

/-- The step of 2.5 mV at the end of a window (R62). -/
def vcoreStep (s : State) (now : Nat) : State :=
  let v := s.pce.vcore
  let v' :=
    if now < s.pce.edge && canRaise s then v + 5
    else if aboveUpper s now && 1200 < v then v - 5
    else if s.pce.cap < v then v - 5
    else v
  showVcore { s with pce := { s.pce with vcore := v' } }

/-- Counts the whole seconds of PACE_SHORT up to now (R68). A part-second carries over (DEDUCED, log entry 12). -/
def shortTick (s : State) : State :=
  if regBit s Reg.pceStatus 2 then
    let ns := s.pce.shortNs + (s.raw - s.pce.shortAt)
    bumpBy { s with pce := { s.pce with shortNs := ns % 1000000000, shortAt := s.raw } } Reg.pceShortSeconds
      (ns / 1000000000)
  else s

def setStatusBit (s : State) (i : Nat) (b : Bool) : State :=
  setReg s Reg.pceStatus (setBit (getReg s Reg.pceStatus) i b)

/-- PACE_SHORT (Table 2.4, R67). could: VCORE could be raised at the window's end. DESIGN CHOICE (log entry 32): VCORE in
record 0x0340, and in 0x0342, is the set-point after the window's step. -/
def paceShort (s : State) (now : Nat) (could : Bool) : State :=
  let tgt := (getReg s Reg.pcePaceTarget).toNat
  if regBit s Reg.pceStatus 2 then
    let s := shortTick s
    let ok := if tgt ≤ now then s.pce.above + 1 else 0
    let s := { s with pce := { s.pce with above := ok, shortDur := s.pce.shortDur + 1 } }
    if 64 ≤ ok then
      let s := evt (setStatusBit s 2 false) Reg.pceEvents 2
      logEvent { s with pce := { s.pce with above := 0, below := 0 } } 0x0341 0xFFFF (leBytes 4 s.pce.shortDur)
    else s
  else
    let n := if now < tgt && !could then s.pce.below + 1 else 0
    let s := { s with pce := { s.pce with below := n } }
    if 2 ≤ n then
      let s := bump (evt (setStatusBit s 2 true) Reg.pceEvents 1) Reg.pceShortCount
      let s := { s with pce := { s.pce with below := 0, above := 0, shortDur := 0, shortAt := s.raw } }
      logEvent s 0x0340 0xFFFF (leBytes 4 now ++ leBytes 2 (s.pce.vcore / 2) ++ leBytes 2 (s.pce.cap / 2) ++
        leBytes 2 (getReg s Reg.pceTj).toNat)
    else s

/-- BELOW_REQ (Table 2.4, R67). -/
def paceBelow (s : State) (now : Nat) : State :=
  let req := (getReg s Reg.pcePaceReq).toNat
  if regBit s Reg.pceStatus 3 then
    let ok := if req ≤ now then s.pce.reqOk + 1 else 0
    let s := { s with pce := { s.pce with reqOk := ok, belowDur := s.pce.belowDur + 1 } }
    if 4 ≤ ok then
      logEvent (evt (setStatusBit s 3 false) Reg.pceEvents 8) 0x0343 0xFFFF (leBytes 4 s.pce.belowDur)
    else s
  else if now < req then
    let s := evt (setStatusBit s 3 true) Reg.pceEvents 4
    let s := { s with pce := { s.pce with reqOk := 0, belowDur := 0 } }
    logEvent s 0x0342 0xFFFF (leBytes 4 now ++ leBytes 2 (s.pce.vcore / 2) ++ leBytes 2 (s.pce.cap / 2) ++
      leBytes 2 (getReg s Reg.pceTj).toNat)
  else s

/-- Tj as read; LOG keeps the highest (R573). -/
def setTj (s : State) (tj : Nat) : State :=
  let s := setRegN s Reg.pceTj (tj % 65536)
  if toSigned 16 (getReg s Reg.logTjMax).toNat < toSigned 16 tj then setRegN s Reg.logTjMax (tj % 65536) else s

/-- PACE_WINDOW_END (R55–R57, R62, R65, R67): the steps of the 20 rings over the window and Tj. The rings stand in
NAP and KEEP, and calibration has windows of its own (R74). -/
def execPaceWindowEnd (counts : List Nat) (tj : Nat) (s : State) : Host.Outcome State Fault Refusal :=
  done (
    if !ringsRun s || opRunning s Reg.pceCalOpstat then s
    else
      let stale := s.pce.stale
      let s := setRings s counts (windowUs s)
      let s := setTj s tj
      let now := (getReg s Reg.pcePaceNow).toNat
      let could := canRaise s
      let s := paceEdgeEval s
      let s := vcoreStep s now
      let s := if s.pce.edge ≤ now then { s with pce := { s.pce with fast := false } } else s
      if stale then { s with pce := { s.pce with stale := false } }
      else pinEval (paceBelow (paceShort (setStatusBit s 0 true) now could) now))

/-- A write of PCE_CFG (R66). A window whose length changes ends without a measurement; the next PACE_WINDOW_END is of a
window of the new length. -/
def pceCfgStore (s : State) (v : Word) : State := windowEnds (specWrite s Reg.pceCfg v) (windowUs s)

/-- PCE_CFG_WRITE (R66). -/
def execPceCfgWrite (v : Word) (s : State) : Host.Outcome State Fault Refusal := done (pceCfgStore s v)

/-- A write of PCE_VCORE_CAP (R63). DESIGN CHOICE (log entry 32): a cap at a half millivolt reads back truncated, as
PCE_VCORE_NOW does. -/
def pceCapStore (s : State) (v : Word) : State :=
  let mv := fld v 9 0
  if mv < 600 || 850 < mv then refuse s Reg.pceBase 0x0301
  else
    let half := 2 * mv - (2 * mv) % 5
    showVcore (setRegN { s with pce := { s.pce with cap := half } } Reg.pceVcoreCap (half / 2))

/-! ### Calibration (R74–R76) -/

/-- The voltage of calibration point k in half millivolts. -/
def calVcore (k : Nat) : Nat := 1200 + 50 * k

/-- PCE_CAL_CTRL.START (R75): VCORE goes to the first point, 0.60 V. -/
def pceCalStart (s : State) : State :=
  if opRunning s Reg.pceCalOpstat then opRefuseStart s Reg.pceCalOpstat
  else if !s.vlt.ex.isEmpty then refuse s Reg.pceBase 0x0304
  else showVcore (opStart { s with pce := { s.pce with calPts := [], vcore := calVcore 0 } } Reg.pceCalOpstat)

def execPceCalStart (s : State) : Host.Outcome State Fault Refusal := done (pceCalStart s)

/-- The lowest count of a point's 20 rings. -/
def calLow (lows : List Nat) : Nat :=
  (List.range 20).foldl (fun m k => Nat.min m (match lows[k]? with | some x => x | none => 0)) (2 ^ 32)

/-- The registers of the points completed: PROGRESS and the points' ring paces, the last one's staying (R25, R74, R76).
Each point's steps are those of four windows of 16 µs. DESIGN CHOICE (log entry 32): PCE_PACE_NOW and PCE_PACE_MIN follow
a calibration measurement as they follow a window. -/
def calPoints (s : State) (pts : List (List Nat)) : State :=
  let s := { s with pce := { s.pce with calPts := s.pce.calPts ++ pts.map calLow } }
  pts.foldl (fun s c => setRings s c 64) (opProgress s Reg.pceCalOpstat s.pce.calPts.length)

/-- How many of the given points calibration measures, k being complete before them. DESIGN CHOICE (log entry 32): it ends
at the first point that fails, which counts as completed (R74). -/
def paceCalTaken : Nat → List (List Nat) → Nat
  | _, [] => 0
  | k, c :: rest =>
    if calLow c = 0 || (k = 0 && ringPace (calLow c) 64 < 900 * 65536) then 1 else 1 + paceCalTaken (k + 1) rest

/-- The cause calibration fails with, from the lowest counts of its points: 2 a ring counted no step at some point, 3 a
ring below 900 steps/µs at 0.60 V, 0 none (R74). DESIGN CHOICE (log entry 32): cause 2 where both hold. -/
def paceCalCause (lows : List Nat) : Nat :=
  if lows.any (fun c => c = 0) then 2
  else match lows with
    | c :: _ => if ringPace c 64 < 900 * 65536 then 3 else 0
    | [] => 0

/-- The point whose VCORE calibration leaves: the first at which the lowest ring reaches the target, else the last. -/
def paceCalSeed (s : State) (lows : List Nat) : Nat :=
  let tgt := (getReg s Reg.pcePaceTarget).toNat
  match firstBelow 11 (fun i => match lows[i]? with | some c => tgt ≤ ringPace c 64 | none => false) with
  | some k => k
  | none => 10

/-- Calibration completes the given points: it ends at the one that fails or after the 11th (R74); until then their
results are readable and VCORE is that of the next point. -/
def paceCalRun (s : State) (pts : List (List Nat)) : State :=
  if !opRunning s Reg.pceCalOpstat then s
  else
    let n := s.pce.calPts.length
    let t := calPoints s (pts.take (Nat.min (11 - n) (paceCalTaken n pts)))
    let cause := paceCalCause t.pce.calPts
    if cause != 0 then opEnd (showVcore { t with pce := { t.pce with vcore := 1700 } }) Reg.pceCalOpstat 3 cause
    else if t.pce.calPts.length < 11 then
      showVcore { t with pce := { t.pce with vcore := calVcore (Nat.min 10 t.pce.calPts.length) } }
    else
      let t := showVcore { t with pce := { t.pce with vcore := calVcore (paceCalSeed t t.pce.calPts) } }
      opEnd (setStatusBit t 4 true) Reg.pceCalOpstat 2 0

/-- PCE_CAL_CTRL.STOP with the points completed before it (R24, R76): VCORE stays at that of the point being measured. -/
def pceCalStop (s : State) (pts : List (List Nat)) : State :=
  let s := paceCalRun s pts
  if opRunning s Reg.pceCalOpstat then opEnd s Reg.pceCalOpstat 4 0 else opRefuseStop s Reg.pceCalOpstat

/-- PCE_CAL_STOP with the points completed before it. -/
def execPceCalStop (pts : List (List Nat)) (s : State) : Host.Outcome State Fault Refusal := done (pceCalStop s pts)

/-- PCE_CAL_END: the steps of the points that complete next (R74). Fewer points than are left of the 11 and none that
fails are no end: their results are readable while calibration goes on (R25). -/
def execPceCalEnd (pts : List (List Nat)) (s : State) : Host.Outcome State Fault Refusal := done (paceCalRun s pts)

end Sys2Proof.Machine
end

