-- ==== Sys2Proof/Machine/Vault.lean ====
section
/-! DEFINITION. The vault and the life of an exhibit (04_vault_and_exhibits.md): pools, opening, landing, close, seal,
reclaim and release; the start of a plan's retirement from its exhibits (R178, R195). -/

namespace Sys2Proof.Machine

/-! ### Pools (R124, R126, R158) -/

def vltHeld (s : State) : Nat := s.vlt.ex.length

/-- The general pool's new size; VLT_PAGES_MIN keeps its lowest. -/
def setGeneral (s : State) (n : Nat) : State :=
  let s := { s with vlt := { s.vlt with general := n } }
  if n < (getReg s Reg.vltPagesMin).toNat then setRegN s Reg.vltPagesMin n else s

/-- n data pages, from the general pool, then from the reserve (R158). -/
def takePages (s : State) (n : Nat) : State :=
  let g := Nat.min n s.vlt.general
  let s := setGeneral s (s.vlt.general - g)
  if g < n then evt { s with vlt := { s.vlt with reserve := s.vlt.reserve - (n - g) } } Reg.vltEvents 4 else s

/-- n pages return, first to the reserve until it holds 512 (R149). -/
def returnPages (s : State) (n : Nat) : State :=
  let r := Nat.min n (512 - s.vlt.reserve)
  { s with vlt := { s.vlt with reserve := s.vlt.reserve + r, general := s.vlt.general + (n - r) } }

/-! ### Indices (R131, R132, R150) -/

/-- Does a range of indices hold an index? -/
def inRange (r : Nat × Nat) (e : Nat) : Bool := r.1 ≤ e && e < r.2

/-- The end of the indices a LIVE or RETIRING slot governs. -/
def slotTop (x : PlanSlot) : Nat := if x.st = .retiring then x.stop else 2 ^ 48

/-- A slot's governed indices whose closing time has passed, once its start index is fixed (R190). -/
def slotPast (x : PlanSlot) : List (Nat × Nat) :=
  if (x.st = .live || x.st = .retiring) && x.startFixed then [(x.start, Nat.min x.closed (slotTop x))] else []

/-- Every index whose closing time has passed under a plan that governed it. -/
def pastRanges (s : State) : List (Nat × Nat) := s.vlt.past ++ slotPast s.pln.s0 ++ slotPast s.pln.s1

/-- Adds a range to the list, newest first. -/
def addPast (l : List (Nat × Nat)) (r : Nat × Nat) : List (Nat × Nat) :=
  if r.2 ≤ r.1 then l
  else match l with
    | (a, b) :: t => if b = r.1 then (a, r.2) :: t else r :: l
    | [] => [r]

/-- Held, and released, indices of a range. -/
def heldIn (s : State) (r : Nat × Nat) : Nat := (s.vlt.ex.filter (fun x => inRange r x.1)).length
def goneIn (s : State) (r : Nat × Nat) : Nat := (s.vlt.gone.filter (fun x => inRange r x.1)).length

/-- What the vault knows of an index that holds no exhibit: 1 released, 2 lapsed, 0 neither. -/
def goneKind (s : State) (e : Nat) : Nat :=
  match smFind s.vlt.gone e with
  | some k => k
  | none => if (pastRanges s).any (inRange · e) then 2 else 0

/-- The first index whose closing time has not been reached. -/
def firstNotClosed (s : State) (p : Plan) : Nat := indexAtLeast p.baseRate (taiNow s + 1 - 1000 * p.cd)

/-- Where the indices of a slot stand that its closing times have reached. -/
def closedTo (s : State) (x : PlanSlot) : Nat :=
  match x.plan with
  | none => x.closed
  | some p => if s.tim.valid then Nat.max x.closed (Nat.min (slotTop x) (firstNotClosed s p)) else x.closed

/-- Lapses what has lapsed of slot k (R132): LAPSE is set when an index reached is neither held nor released. -/
def lapseSlot (s : State) (k : Nat) : State :=
  let x := planSlot s k
  let r := (Nat.max x.start x.closed, closedTo s x)
  if !(x.st = .live || x.st = .retiring) || !x.startFixed || r.2 ≤ r.1 then s
  else
    let known := heldIn s r + goneIn s r
    let s := setPlanSlot s k { x with closed := r.2 }
    let s := { s with vlt := { s.vlt with
      gone := s.vlt.gone.filter (fun g => r.2 ≤ g.1 + 16384), waitOpen := s.vlt.waitOpen.filter (fun e => !inRange r e) } }
    if known < r.2 - r.1 then evt s Reg.vltEvents 0x20 else s

/-- Lapses what has lapsed of both slots. Nothing lapses while time is not valid (R178). -/
def lapsePast (s : State) : State := if s.tim.valid then lapseSlot (lapseSlot s 0) 1 else s

/-! ### Conditions (R135, R146, R147) -/

/-- The close condition (R135): 1 deadline, 2 early, 3 forced. The twin hears of those that are not early (R520). -/
def closeCond (s : State) (e cause : Nat) : State :=
  match getEx s e with
  | none => s
  | some x =>
    if x.st != .opened then s
    else
      let s := bump (setEx s { x with st := .closing, condTime := s.raw, closeCause := cause }) (Reg.vltCnt cause)
      if cause = 2 then s else twinMark s e 1 cause

/-- The early condition (Table 4.5). -/
def checkEarly (s : State) (e : Nat) : State :=
  match getEx s e with
  | none => s
  | some x =>
    match planAt s x.slot with
    | none => s
    | some p =>
      if x.st = .opened && s.tim.valid && timeReached s (exhibitTime p.baseRate e) && exExpPresent x = exExpected x then
        closeCond s e 2
      else s

/-- The seal condition (R146, R147): 1 horizon, 2 reclaim, 3 host, 4 time lost. An OPEN or CLOSING exhibit enters
SEALING at its close event. -/
def sealCond (s : State) (e cause : Nat) : State :=
  match getEx s e with
  | none => s
  | some x =>
    if x.sealCond then s
    else
      let s := setEx s { x with sealCond := true, sealCause := cause, st := if x.st = .closed then .sealing else x.st }
      let s := twinMark s e 2 cause
      if cause = 2 then logEvent (evt s Reg.vltEvents 1) 0x0B40 0xFFFF (leBytes 8 e)
      else if cause = 3 then logEvent (evt s Reg.vltEvents 1) 0x0B41 0xFFFF []
      else s

/-- Loss of valid time (R141): every OPEN exhibit is force-closed, every unsealed one gets a seal condition. A twin
standby takes them from its partner (R523). -/
def timeLostClose (s : State) : State :=
  if !twinOwn s then s
  else
    let es := s.vlt.ex.map (·.1)
    let s := es.foldl (fun s e => match getEx s e with | some x => if x.st = .opened then closeCond s e 3 else s | none => s) s
    let pend := es.filter (fun e => match getEx s e with | some x => !x.sealCond | none => false)
    if pend.isEmpty then s
    else logEvent (evt (pend.foldl (fun s e => sealCond s e 4) s) Reg.vltEvents 0x40) 0x0B42 0xFFFF []

/-! ### Opening (R97, R131, R133, R161) -/

/-- Why exhibit e cannot open now: 1 RECORDS, 0 POOL, 2 BANK (R161). -/
def openLack (s : State) (verdict : Bool) : Option Nat :=
  if 256 ≤ vltHeld s then some 1
  else if s.vlt.general < 2 then some 0
  else if verdict && (freeBank s).isNone then some 2
  else none

/-- Is accession n expected in index e governed by slot k at its opening (R97, R192)? -/
def accExpected (s : State) (k e n : Nat) : Bool :=
  let x := getAcc s n
  let div := accRateDiv s n
  (x.st = .registered || x.st = .live) && div != 0 && e % div = 0 &&
    !((planSlot s k).st = .retiring && (planSlot s k).retSeq ≤ x.commitSeq)

/-- The exhibit opens: record and bank taken, expected set fixed (Table 4.4). -/
def openExhibit (s : State) (k : Nat) (p : Plan) (e : Nat) : State :=
  let verdict := e % p.verdictDiv = 0
  let exp := (enabledAccs s).filter (accExpected s k e)
  let mask (l : List Nat) : Nat := l.foldl (fun m n => m ||| 2 ^ n) 0
  let bank := if verdict then freeBank s else none
  let s := match bank with | some b => takeBank s b e | none => s
  let s := setGeneral s (s.vlt.general - 2)
  let x : Exhibit :=
    { index := e, slot := k, planId := p.planId, openSeq := s.acc.seq, st := .opened, revision := 0, closeCause := 0,
      sealCause := 0, sealCond := false, expMask := mask (exp.filter (· < 0x4000)), presMask := 0, addMask := 0,
      locExp := mask ((exp.filter (0x4000 ≤ ·)).map (· - 0x4000)), locPres := 0, presentAtClose := 0, onTime := 0,
      verdict := verdict, bank := (match bank with | some b => b | none => 0), bankValid := bank.isSome,
      vaultLoss := false, paceLate := false, openTime := s.raw, condTime := 0, closeTime := 0, sealTime := 0,
      revTime := 0, digest := 0, pages := 0, slots := [], landRev := [], digested := 0, outflow := 0, sealSeg := 0 }
  let s := setEx s x
  let s := { s with acc := { s.acc with seq := s.acc.seq + 1 },
                    vlt := { s.vlt with
                      newest := some (match s.vlt.newest with | some n => Nat.max n e | none => e),
                      recPeak := Nat.max s.vlt.recPeak s.vlt.ex.length,
                      waitOpen := s.vlt.waitOpen.filter (· != e) } }
  paceEdgeEval (twinMark (bump s (Reg.vltCnt 0)) e 0 0)

/-- May index e open by its time: governed, not held, not released or lapsed, its exhibit time reached? -/
def mayOpenByTime (s : State) (e : Nat) : Option (Nat × Plan) :=
  match governing s e with
  | none => none
  | some k =>
    match planAt s k with
    | none => none
    | some p =>
      if s.tim.valid && (getEx s e).isNone && goneKind s e = 0 && timeReached s (exhibitTime p.baseRate e) &&
          !timeReached s (closingTime p e) then some (k, p)
      else none

/-- Openings that waited are tried again, lowest index first (R131). -/
def retryOpen (s : State) : State :=
  (s.vlt.waitOpen.mergeSort (· ≤ ·)).foldl (fun s e =>
    match mayOpenByTime s e with
    | none => { s with vlt := { s.vlt with waitOpen := s.vlt.waitOpen.filter (· != e) } }
    | some (k, p) =>
      if twinOwn s && (openLack s (e % p.verdictDiv = 0)).isNone then checkEarly (openExhibit s k p e) e else s) s

/-! ### Release (R149, R152, R487) -/

/-- ARC drops what it was to read of a released exhibit (R487). -/
def arcDrop (s : State) (e : Nat) : State :=
  if s.arc.cur = some e then
    let s := { s with arc := { s.arc with cur := none, serial := [], runLeft := 0 } }
    logEvent (evt (bump s (Reg.arcCnt 2)) Reg.arcEvents 0x10) 0x0C42 0xFFFF []
  else { s with arc := { s.arc with waiting := s.arc.waiting.filter (· != e) } }

/-- The exhibit is released: its pages return and bound views are GONE. -/
def releaseRaw (s : State) (e : Nat) : State :=
  match getEx s e with
  | none => s
  | some x =>
    let s := { s with vlt := { s.vlt with
      ex := smErase s.vlt.ex e, gone := smSet s.vlt.gone e 1,
      views := s.vlt.views.map (fun v => (v.1, if v.2.status = 1 && v.2.index = e then { v.2 with status := 3 } else v.2)) } }
    let s := returnPages s (2 + popCount 1024 x.pages)
    paceEdgeEval (digestRelease (arcDrop s e) e)

/-! ### The end of a RETIRING slot (Table 5.5) -/

/-- Does work of a plan slot remain: an exhibit, a close event to be reduced, or a job in a local slot? -/
def slotBusy (s : State) (k : Nat) : Bool :=
  s.vlt.ex.any (fun x => x.2.slot = k) || s.vrd.queue.any (fun r => r.slot = k) ||
    (slottedJobs s).any (fun j => j.slot = k) || s.dsp.levels.any (fun l => l.2.any (fun j => j.slot = k && j.kind ≤ 2))

/-- Is every index of a RETIRING slot that is not held released or lapsed (R178)? -/
def slotDone (s : State) (x : PlanSlot) : Bool :=
  let a := Nat.max x.start x.closed
  !x.startFixed || x.stop ≤ a + goneIn s (a, x.stop)

/-- A RETIRING slot whose last index below its end has gone becomes EMPTY (Table 5.5, R191). -/
def slotRetireAt (s : State) (k : Nat) : State :=
  let x := planSlot s k
  if x.st = .retiring && slotDone s x && !slotBusy s k then
    let past := match x.plan with
      | some p => if x.startFixed && p.baseRate = s.vlt.rate then addPast s.vlt.past (x.start, x.stop) else s.vlt.past
      | none => s.vlt.past
    let s := { s with vlt := { s.vlt with past := past } }
    paceRetarget (evt (setPlanSlot s k PlanSlot.reset) Reg.plnEvents 8)
  else s

/-- Both slots: a WITHDRAW during a swap leaves two RETIRING ones. -/
def slotRetire (s : State) : State := slotRetireAt (slotRetireAt s 0) 1

/-- A release and what follows it at once: waiting openings, the end of a RETIRING slot. -/
def freeEx (s : State) (e : Nat) : State := slotRetire (retryOpen (releaseRaw s e))

/-! ### Reclaim (R159–R163) -/

def reclaimDone (s : State) : Bool := regFld s Reg.vltCfg 15 0 ≤ s.vlt.general && vltHeld s < 256

/-- The lowest held index in a state. -/
def oldestEx (s : State) (p : Exhibit → Bool) : Option Nat := (s.vlt.ex.find? (fun x => p x.2)).map (·.1)

/-- Step 2 of R159. -/
def reclaimDrop (s : State) : State :=
  if regBit s Reg.vltCfg 16 && s.vlt.reserve < 128 then
    match oldestEx s (fun x => x.st = .sealed && x.outflow != 0) with
    | some e =>
      freeEx (logEvent (evt (bump s (Reg.vltCnt 9)) Reg.vltEvents 8) 0x0B43 0xFFFF (leBytes 8 e)) e
    | none => s
  else s

/-- Goes on with the reclaim: one CLOSED exhibit at a time, then step 2, then its end. It waits for the exhibit being
sealed, and for the release of a SEALED one that no outflow holds (R149). -/
def reclaimStep (s : State) : State :=
  if !s.vlt.reclaim then s
  else if (oldestEx s (fun x => (x.st = .sealing && x.sealCause = 2) || (x.st = .sealed && x.outflow = 0))).isSome then s
  else if reclaimDone s then { s with vlt := { s.vlt with reclaim := false } }
  else
    match oldestEx s (fun x => x.st = .closed) with
    | some e => if twinOwn s then sealCond s e 2 else s
    | none =>
      let s := reclaimDrop s
      { s with vlt := { s.vlt with reclaim := false } }

def reclaimStart (s : State) : State :=
  reclaimStep { s with vlt := { s.vlt with reclaim := true } }

/-- Release and what follows: waiting openings, RETIRING slots, reclaim. -/
def releaseEx (s : State) (e : Nat) : State := reclaimStep (freeEx s e)

/-! ### Landing (R30, R129, R139, R142, R143, R158–R164) -/

/-- ACC_LAST_DISCARD (R112). -/
def lastDiscard (s : State) (cause port acc index arrival sub : Nat) : State :=
  let s := setRegN s (Reg.accLastDiscard 0) (cause * 2 ^ 24 + port * 65536 + acc)
  let s := setRegN s (Reg.accLastDiscard 1) index
  let s := setReg64 s (Reg.accLastDiscard 2) (Reg.accLastDiscard 3) arrival
  setRegN s (Reg.accLastDiscard 4) sub

/-- A refusal of Table 4.9. -/
def vaultRefuse (s : State) (l : Landing) (sub : Nat) : State :=
  let s := bump s (Reg.vltCnt (10 + sub))
  let s := setRegN s (Reg.vltLastRefuse 0) ((0x0B30 + sub) * 65536 + l.acc)
  let s := setReg64 s (Reg.vltLastRefuse 1) (Reg.vltLastRefuse 2) l.index
  evt (lastDiscard s (0x30 + sub) l.port l.acc l.index l.arrival l.sub) Reg.vltEvents 2

/-- The bytes of a slot (Table 4.3), padded to its granules. -/
def slotBytes (l : Landing) (rev seq len : Nat) : List Byte :=
  padTo (64 * len) (leBytes 8 l.arrival ++ leBytes 4 (ofSigned 32 l.offset) ++ leBytes 4 (l.status * 65536 + l.acc) ++
    leBytes 4 (rev * 2 ^ 24 + l.port * 2 ^ 21 + l.sub * 2 ^ 18) ++ leBytes 4 seq ++
    padTo 8 (l.digs.flatMap (leBytes 2)) ++ leBytes 4 l.freq ++ leBytes 4 l.rocof ++
    l.phasors.flatMap (fun p => leBytes 4 p.1 ++ leBytes 4 p.2) ++ l.analogs.flatMap (leBytes 4))

/-- Bound tour and latency class of an accession. -/
def bindTour (s : State) (n : Nat) : Nat := fld (accBind s n) 31 24
def latClass (s : State) (n : Nat) : Nat := fld (accBind s n) 23 22

/-- The bound of a latency class in µs (Table 3.6). -/
def latBound (c : Nat) : Nat := if c = 0 then 1000 else if c = 1 then 10000 else if c = 2 then 50000 else 250000

/-- A landing whose arrival, by the domain values of its admission, is later than its class's bound (R114). -/
def lateClass (s : State) (l : Landing) (br : Nat) : State :=
  let c := latClass s l.acc
  if 8 * ((exhibitTime br l.index + 1000 * latBound c : Nat) : Int) < l.arrived then bump s (Reg.accLateClass c) else s

/-- The level of a landing's job. -/
def landLevel (s : State) (l : Landing) : Nat :=
  match governing s l.index, getEx s l.index with
  | _, some x => tourLevel s x.slot (bindTour s l.acc)
  | some k, none => tourLevel s k (bindTour s l.acc)
  | none, none => 0

/-- Has the accession landed in the exhibit? -/
def landed (x : Exhibit) (n : Nat) : Bool :=
  if n < 0x4000 then x.presMask.testBit n else x.locPres.testBit (n - 0x4000)

/-- Pages a slot at granule o of n granules needs that are not taken. -/
def newPages (x : Exhibit) (o n : Nat) : List Nat :=
  ((List.range (((o + n - 1) / 64) - o / 64 + 1)).map (o / 64 + ·)).filter (fun p => !x.pages.testBit p)

/-- Writes a landed frame whose pages are there (R129, R142): slot image, presence, revision. -/
def landWrite (s : State) (x : Exhibit) (acc rev : Nat) (img : List Byte) (pages : List Nat) : State :=
  let loc := 0x4000 ≤ acc
  let b := 2 ^ (if loc then acc - 0x4000 else acc)
  let x := { x with
    slots := smSet x.slots acc img, landRev := smPut 0 x.landRev acc rev,
    pages := pages.foldl (fun m p => m ||| 2 ^ p) x.pages,
    presMask := if loc then x.presMask else x.presMask ||| b,
    locPres := if loc then x.locPres ||| b else x.locPres,
    onTime := if rev = 0 then x.onTime + 1 else x.onTime }
  let x := if rev = 0 then x
    else { x with revision := rev, revTime := s.raw, addMask := if loc then x.addMask else x.addMask ||| b }
  let s := setEx s x
  if rev = 0 then s else bump s (Reg.vltCnt 5)

/-- The job of a landing: held until the close event while the exhibit is CLOSING (R143, R243). -/
def landJob (s : State) (x : Exhibit) (acc rev seq : Nat) : State :=
  let j := makeJob s x.slot (bindTour s acc) 0 rev acc x.index seq
  if x.st = .closing then
    levelPeak (bump { s with dsp := { s.dsp with heldAdd := s.dsp.heldAdd ++ [j] } } (Reg.dspCnt j.priority)) j.priority
  else enterJob s j

/-- A frame lands in a held exhibit (R162). -/
def landIn (s : State) (l : Landing) (x : Exhibit) (p : Plan) : State :=
  match mapSlot p l.acc with
  | none => s
  | some (o, n) =>
    let pg := newPages x o n
    let s := if !pg.isEmpty && s.vlt.general < pg.length then reclaimStart s else s
    match getEx s l.index with
    | none => s
    | some x =>
      if s.vlt.general + s.vlt.reserve < pg.length then vaultRefuse (setEx s { x with vaultLoss := true }) l 3
      else
        let s := takePages s pg.length
        let rev := if x.st = .opened then 0 else x.revision + 1
        let seq := s.vlt.landSeq
        let img := slotBytes l rev seq n
        let s := landWrite { s with vlt := { s.vlt with landSeq := (seq + 1) % 2 ^ 32 } } x l.acc rev img pg
        let s := lateClass (accLanded s l.acc) l p.baseRate
        let s := twinSend s 1 (leBytes 4 l.index ++ leBytes 2 (l.index / 2 ^ 32) ++ leBytes 2 0 ++ img)
        let s := landJob s x l.acc rev seq
        pinEval (checkEarly s l.index)

/-- A frame that has passed admission and whose level has room (R131, R132, R161). -/
def landFrame (s : State) (l : Landing) : State :=
  match getEx s l.index with
  | some x => (match planAt s x.slot with | some p => landIn s l x p | none => s)
  | none =>
    if goneKind s l.index != 0 then vaultRefuse s l 4
    else
      match governing s l.index with
      | none => s
      | some k =>
        match planAt s k with
        | none => s
        | some p =>
          match openLack s (l.index % p.verdictDiv = 0) with
          | some sub => vaultRefuse (if sub = 2 then s else reclaimStart s) l sub
          | none =>
            let s := openExhibit s k p l.index
            (match getEx s l.index with | some x => landIn s l x p | none => s)

/-- Do two landings keep the order of their port, or of their local accession (R33, R253)? -/
def sameLane (x y : Landing) : Bool := x.port = y.port && (x.port != 7 || x.acc = y.acc)

/-- Reservation of an entry of the job's level before the landing (R251, R252): a landing that finds its level not
open is held on it; one whose port already holds a landing waits behind that (R253). -/
def reserveLand (s : State) (l : Landing) : State :=
  let lv := landLevel s l
  let hold : State := { s with dsp := { s.dsp with heldLand := s.dsp.heldLand ++ [l] } }
  if s.dsp.heldLand.any (sameLane l) then hold
  else if levelOpen s lv then landFrame s l
  else markFull hold lv

/-! ### The commands -/

/-- EXHIBIT_TIME_REACHED (R131): index e opens at its exhibit time, or waits; an exhibit whose set was complete earlier
closes. -/
def execExhibitTimeReached (e : Nat) (s : State) : Host.Outcome State Fault Refusal :=
  done (
    let s := lapsePast s
    if (getEx s e).isSome then checkEarly s e
    else if !twinOwn s then s
    else
      match mayOpenByTime s e with
      | none => s
      | some (k, p) =>
        match openLack s (e % p.verdictDiv = 0) with
        | none => checkEarly (openExhibit s k p e) e
        | some sub =>
          let s := if s.vlt.waitOpen.contains e then s else { s with vlt := { s.vlt with waitOpen := s.vlt.waitOpen ++ [e] } }
          if sub = 2 then s else reclaimStart s)

/-- CLOSING_TIME_REACHED (R135): the deadline of exhibit e; indices without a record lapse (R132). -/
def execClosingTimeReached (e : Nat) (s : State) : Host.Outcome State Fault Refusal :=
  done (
    let s := slotRetire (lapsePast s)
    match getEx s e with
    | none => s
    | some x =>
      match planAt s x.slot with
      | none => s
      | some p => if twinConds s && s.tim.valid && timeReached s (closingTime p e) then closeCond s e 1 else s)

/-- Does a slot govern an index below e that is still to open: neither held, released nor past its closing time? -/
def slotOpensBelow (s : State) (x : PlanSlot) (e : Nat) : Bool :=
  let r := (Nat.max x.start (closedTo s x), Nat.min e (slotTop x))
  (x.st = .live || x.st = .retiring) && x.startFixed && decide (heldIn s r + goneIn s r < r.2 - r.1)

/-- May the close event of exhibit e occur (R36, R37, R136, R193)? -/
def closeReady (s : State) (e : Nat) (x : Exhibit) : Bool :=
  x.st = .closing && !jobsOf s e (fun j => j.kind = 0 && j.revision = 0) && s.vrd.queue.isEmpty &&
    !(s.vlt.ex.any (fun y => y.1 < e && (y.2.st = .opened || y.2.st = .closing))) &&
    !slotOpensBelow s s.pln.s0 e && !slotOpensBelow s s.pln.s1 e

/-- SILENCE runs at a close event (R98, R138). -/
def silenceRun (s : State) (p : Plan) (x : Exhibit) : State :=
  let step (s : State) (n : Nat) (present : Bool) : State :=
    let a := getAcc s n
    if present then s
    else
      let a := { a with run := a.run + 1, runFirst := if a.run = 0 then x.index else a.runFirst }
      let s := setAcc s n a
      if p.silence ≤ a.run && (a.st = .registered || a.st = .live) then enterSilent s n p.baseRate else s
  let s := (bitList 16384 x.expMask).foldl (fun s n => step s n (x.presMask.testBit n)) s
  (bitList 4 x.locExp).foldl (fun s m => step s (0x4000 + m) (x.locPres.testBit m)) s

/-- Every P0–P3 port whose PE_STATE is ACTIVE enters HOLD (R346). -/
def holdPorts (s : State) : State :=
  (List.range 4).foldl (fun s p =>
    let x := getPort s p
    if x.pe = .active then bump (setPort s p { x with hold := true, holdFrom := if x.hold then x.holdFrom else s.raw,
                                                        holdEnd := s.raw + 1300 }) (0xE0100 + 0x2000 * p + 4 * 18)
    else s) s

/-- Addendum jobs held for the exhibit are raised in landing order (R137). -/
def raiseHeld (s : State) (e : Nat) : State :=
  let mine := s.dsp.heldAdd.filter (fun j => j.index = e)
  let s := { s with dsp := { s.dsp with heldAdd := s.dsp.heldAdd.filter (fun j => j.index != e) } }
  mine.foldl (fun s j => setLevel s j.priority (level s j.priority ++ [{ j with raised := s.raw }])) s

/-- The bank goes to the verdict unit, or a non-verdict exhibit's close is applied at once (R137, R280, R316). -/
def closeHandOver (s : State) (p : Plan) (x : Exhibit) : State :=
  let mine (r : PendRaise) : Bool := r.exhibit = none || r.exhibit = some x.index
  let red : Reduction :=
    { index := x.index, slot := x.slot, bank := if x.verdict then some x.bank else none, present := x.presentAtClose,
      expected := exExpected x, closeCause := x.closeCause, paceLate := x.paceLate,
      raises := s.vrd.pendRaise.filter mine }
  let s := { s with vrd := { s.vrd with pendRaise := s.vrd.pendRaise.filter (fun r => !mine r) } }
  if x.verdict then
    let s := setBank s x.bank { getBank s x.bank with st := .reducing }
    { s with vrd := { s.vrd with queue := s.vrd.queue ++ [red] } }
  else
    let s := applyClose s p red s.vrd.verdictSrc []
    let s := if upSelects s x.index then bump s (Reg.hshCnt 22) else s
    putDigest s x.index 0 (digestZero s x none)

/-- VLDs that waited for an exhibit's close event go on (R217, R219). -/
def docResume (s : State) (e : Nat) : State :=
  let wake (c : Option JobCtx) : Option JobCtx := c.map (fun c => if c.wait = .vld e then { c with wait := .ready } else c)
  let idle (c : Option JobCtx) : Bool := match c with | some c => (match c.wait with | .vld _ => true | _ => false) | none => true
  (s.doc.d.map (·.1)).foldl (fun s d =>
    let x := docentOf s d
    let x := { x with s0 := wake x.s0, s1 := wake x.s1 }
    let cur := if x.active = 0 then x.s0 else x.s1
    let other := if x.active = 0 then x.s1 else x.s0
    setDocent s d (if idle cur && !idle other then { x with active := 1 - x.active } else x)) s

/-- The close event (R137): one indivisible update. -/
def closeEvent (s : State) (e : Nat) (x : Exhibit) (p : Plan) : State :=
  let late := p.closeDrain < s.raw - x.condTime
  let x := { x with closeTime := s.raw, presentAtClose := x.onTime, paceLate := late, bankValid := false,
                    st := if x.sealCond then .sealing else .closed }
  let s := setEx s x
  let s := if late then evt (bump s (Reg.vltCnt 4)) Reg.vltEvents 0x10 else s
  let s := holdPorts s
  let s := closeHandOver s p x
  let s := silenceRun s p x
  let s := raiseHeld s e
  let s := if p.closeTour = 0xFF then s
    else raiseEvent s (makeJob s x.slot p.closeTour 1 0 0xFFFF e (x.presentAtClose * 65536 + b2n late * 16 + x.closeCause))
  reclaimStep (pinEval (docResume s e))

/-- CLOSE_EVENT of exhibit e (R137). -/
def execCloseEvent (e : Nat) (s : State) : Host.Outcome State Fault Refusal :=
  done (
    match getEx s e with
    | none => s
    | some x =>
      match planAt s x.slot with
      | none => s
      | some p => if closeReady s e x then closeEvent s e x p else s)

/-- SEAL_TIME_REACHED (R146). -/
def execSealTimeReached (e : Nat) (s : State) : Host.Outcome State Fault Refusal :=
  done (
    match getEx s e with
    | none => s
    | some x =>
      match planAt s x.slot with
      | none => s
      | some p => if twinConds s && s.tim.valid && timeReached s (sealTimeOf p e) then sealCond s e 1 else s)

def forceResult (s : State) (code : Nat) : State :=
  let s := setRegN s Reg.vltForceResult code
  if code = 0 then s else refuse s Reg.vltBase code

/-- A force command of the host (Table 4.12); dropped on a twin standby (R523). -/
def forceCmd (s : State) (action : Nat) : State :=
  if twinDrops s then twinRefuse s
  else if action != 1 && action != 2 then s
  else
    let e := (getReg s Reg.vltForceLo).toNat + regFld s Reg.vltForceHi 15 0 * 2 ^ 32
    match getEx s e with
    | none => forceResult s 0x0B01
    | some x =>
      if action = 1 then (if x.st = .opened then closeCond (forceResult s 0) e 3 else forceResult s 0x0B02)
      else if x.sealCond then forceResult s 0x0B03
      else sealCond (forceResult s 0) e 3

/-- FORCE_CLOSE (R135): ACTION 1. -/
def execForceClose (s : State) : Host.Outcome State Fault Refusal := done (forceCmd s 1)

/-- FORCE_SEAL (R147): ACTION 2. -/
def execForceSeal (s : State) : Host.Outcome State Fault Refusal := done (forceCmd s 2)

/-! ### The read window (R151–R154) -/

def getView (s : State) (v : Nat) : VaultView := smGet VaultView.reset s.vlt.views v
def setView (s : State) (v : Nat) (x : VaultView) : State :=
  { s with vlt := { s.vlt with views := smPut VaultView.reset s.vlt.views v x } }

def exCode (st : ExState) : Nat :=
  match st with | .opened => 0 | .closing => 1 | .closed => 2 | .sealing => 3 | .sealed => 4

/-- The 32 words of an exhibit header (Table 4.2). -/
def headerWords (x : Exhibit) : List Word :=
  let n64 (v : Nat) : List Nat := [v, v / 2 ^ 32]
  let ws : List Nat :=
    [x.index,
     x.revision * 2 ^ 24 + exCode x.st * 2 ^ 21 + x.closeCause * 2 ^ 19 + (if x.st = .sealed then x.sealCause else 0) * 2 ^ 16 +
       x.index / 2 ^ 32 % 65536,
     exExpected x * 65536 + exPresent x,
     x.presentAtClose * 65536 + exExpPresent x,
     b2n x.verdict * 2 ^ 31 + x.slot * 2 ^ 30 + b2n x.vaultLoss * 2 ^ 29 + b2n x.paceLate * 2 ^ 28 + x.locExp * 2 ^ 20 +
       x.locPres * 65536 + b2n x.bankValid * 4096 + x.bank * 256,
     0] ++ n64 x.openTime ++ n64 x.condTime ++ n64 x.closeTime ++ n64 x.sealTime ++ n64 x.revTime ++
    [x.planId, popCount 1024 x.pages] ++ n64 x.digest
  ws.map (BitVec.ofNat 32 ·) ++ List.replicate 12 0#32

/-- The extent word at a byte offset: the slot that covers it, 0 elsewhere. -/
def extentWord (s : State) (x : Exhibit) (o : Nat) : Word :=
  match planAt s x.slot with
  | none => 0#32
  | some p =>
    match x.slots.find? (fun sl => match mapSlot p sl.1 with
      | some (g, n) => 64 * g ≤ o && o < 64 * (g + n)
      | none => false) with
    | some sl => (match mapSlot p sl.1 with
      | some (g, _) => BitVec.ofNat 32 (le sl.2 (o - 64 * g) 4)
      | none => 0#32)
    | none => 0#32

/-- The current word of a bound exhibit at a view offset (section 4.10). -/
def viewWord (s : State) (x : Exhibit) (o : Nat) : Word :=
  let maskWord (m k : Nat) : Word := BitVec.ofNat 32 (m >>> (32 * k))
  if o < 0x80 then (match (headerWords x)[o / 4]? with | some w => w | none => 0#32)
  else if o < 0x800 then 0#32
  else if o < 0x1000 then maskWord x.presMask ((o - 0x800) / 4)
  else if o < 0x1800 then maskWord x.expMask ((o - 0x1000) / 4)
  else if o < 0x2000 then maskWord x.addMask ((o - 0x1800) / 4)
  else if o < 0x402000 then extentWord s x (o - 0x2000)
  else 0#32

/-- A read of the vault read window at a window offset (R151–R153). -/
def vaultRead (s : State) (port o : Nat) : Word × State :=
  let v := o / 0x800000 % 2
  let w := o % 0x800000
  let view := getView s v
  if view.status != 1 then (0#32, s)
  else
    match getEx s view.index with
    | none => (0#32, s)
    | some x =>
      if w = 0 then
        let h := headerWords x
        ((match h with | a :: _ => a | [] => 0#32), setView s v { view with latch := smSet view.latch port h })
      else if w < 0x80 then
        (match smFind view.latch port with
         | some h => ((match h[w / 4]? with | some a => a | none => 0#32), s)
         | none => (viewWord s x w, s))
      else (viewWord s x w, s)

/-- Binds a view (R151, R153). -/
def viewBind (s : State) (v e : Nat) : State :=
  if (getEx s e).isSome then setView s v { status := 1, index := e, latch := [] }
  else refuse (setView s v { status := 2, index := e, latch := [] }) Reg.vltBase 0x0B06

/-- VIEW_BIND: a write of VLT_VIEW_INDEX_HI. -/
def viewIndexHi (s : State) (v : Nat) (w : Word) : State :=
  let s := setRegFld s (Reg.vltViewIndexHi v) 15 0 (fld w 15 0)
  viewBind s v ((getReg s (Reg.vltViewIndexLo v)).toNat + fld w 15 0 * 2 ^ 32)

def execViewBind (v : Nat) (w : Word) (s : State) : Host.Outcome State Fault Refusal :=
  done (viewIndexHi s (v % 2) w)

/-- VIEW_HEADER_LATCH: a read at view offset 0 (R153). -/
def execViewHeaderLatch (port v : Nat) (s : State) : Host.Outcome State Fault Refusal :=
  done (let x := vaultRead s port (v % 2 * 0x800000); respond x.2 [x.1])

/-- VAULT_WINDOW_WRITE: dropped (R154). -/
def execVaultWindowWrite (_off : Nat) (_v : Word) (s : State) : Host.Outcome State Fault Refusal :=
  done (refuse s Reg.vltBase 0x0B05)

/-- VLT_STAT_CLR sets PEAK to the records held (R622). -/
def vltStatClr (s : State) : State := { s with vlt := { s.vlt with recPeak := s.vlt.ex.length } }

end Sys2Proof.Machine
end

