-- ==== Sys2Proof/Machine/Operands.lean ====
section
/-! DEFINITION. Weawen words and operands: the formats of Table 6.2, the test of R206, the register context of a job
(R200–R203) and the memories of a docent (R200, R201). -/

namespace Sys2Proof.Machine

/-! ### Fields (Table 6.2) -/

def wOp (w : Nat) : Nat := w / 2 ^ 26 % 64
def wRd (w : Nat) : Nat := w / 2 ^ 20 % 64
def wRa (w : Nat) : Nat := w / 2 ^ 14 % 64
def wRb (w : Nat) : Nat := w / 2 ^ 8 % 64
def wFn (w : Nat) : Nat := w % 256
def wSub (w : Nat) : Nat := w / 2 ^ 16 % 16
def wImm (w : Nat) : Nat := w % 65536
def wImm14 (w : Nat) : Nat := w % 16384
def wVd (w : Nat) : Nat := w / 2 ^ 22 % 16
def wVa (w : Nat) : Nat := w / 2 ^ 18 % 16
def wVb (w : Nat) : Nat := w / 2 ^ 14 % 16

/-- IMM16 and IMM14 sign-extended to 64 bits (R207). -/
def sImm (w : Nat) : DWord := BitVec.ofNat 64 (ofSigned 64 (toSigned 16 (wImm w)))
def sImm14 (w : Nat) : DWord := BitVec.ofNat 64 (ofSigned 64 (toSigned 14 (wImm14 w)))

/-! ### Which words are instructions (R206, Tables 6.3 to 6.12) -/

def okInt (w : Nat) : Bool :=
  let f := wFn w
  [0, 1, 2, 3, 4, 5, 8, 9, 0xA, 0x10, 0x11, 0x12, 0x14, 0x15, 0x16, 0x17, 0x18, 0x19, 0x1A, 0x1B].contains f ||
    ([0x20, 0x21, 0x22, 0x24, 0x25].contains f && wRb w = 0)

def okCmp (w : Nat) : Bool :=
  let f := wFn w
  wRd w < 8 && (f < 6 || (0x10 ≤ f && f < 0x14) || (0x18 ≤ f && f < 0x1C))

def okPred (w : Nat) : Bool :=
  let f := wFn w
  (f < 4 && wRd w < 8 && wRa w < 8 && wRb w < 8) || (f = 4 && wRd w < 8 && wRa w < 8 && wRb w = 0) ||
    (f = 8 && wRa w < 8 && wRb w = 0) || (f = 9 && wRd w < 8 && wRb w = 0)

def okFp (w : Nat) : Bool :=
  let f := wFn w
  [0, 1, 2, 3, 5, 6, 7, 0x10, 0x11, 0x12, 0x13, 0x15, 0x16, 0x17].contains f ||
    ([4, 8, 9, 0x14, 0x18, 0x19, 0x20, 0x21, 0x22, 0x23, 0x24, 0x25].contains f && wRb w = 0)

def okImm (w : Nat) : Bool :=
  let u := wSub w
  u < 4 || ((u = 4 || u = 5 || u = 6) && wImm w < 64) || u = 8 || 0xC ≤ u

def okVf (w : Nat) : Bool :=
  let f := wFn w
  let gs := wRb w
  (f < 6 && gs = 0) || (f = 8 && wVd w = 0 && wVb w = 0) || (f = 9 && wVa w = 0 && wVb w = 0) ||
    (f = 0xA && wVd w = 0 && wVb w < 8) || (f = 0xB && wVa w = 0 && wVb w < 8) ||
    (f = 0xC && wVa w = 0 && wVb w = 0 && gs = 0) || (f = 0xD && wVb w = 0 && gs = 0) || (f = 0xE && wVb w = 0)

def okVc (w : Nat) : Bool :=
  let f := wFn w
  (f < 5 && wRb w = 0) || ((f = 5 || f = 6 || f = 7 || f = 9) && wVb w = 0 && wRb w = 0) || (f = 8 && wVb w = 0)

def okSys (w : Nat) : Bool :=
  let f := wFn w
  (f < 4 && wRd w = 0 && wRa w = 0 && wRb w = 0) || (f = 4 && wRd w = 0 && wRb w = 0) ||
    (f = 0x10 && wRb w = 0 && wRa w < 15)

/-- Is the word an instruction (R206)? OR of LGAF and LGAS is not (R221). -/
def wordOk (w : Nat) : Bool :=
  match wOp w with
  | 0x00 => okInt w
  | 0x01 => okCmp w
  | 0x02 => okPred w
  | 0x03 => wFn w < 16
  | 0x04 => okFp w
  | 0x08 => okImm w
  | 0x09 | 0x0A | 0x0B => true
  | 0x0C => wSub w = 0 && wRd w / 8 % 4 = 0
  | 0x0D | 0x0E => wSub w = 0
  | 0x10 | 0x11 | 0x12 | 0x13 | 0x14 | 0x15 | 0x16 | 0x18 | 0x19 | 0x1A | 0x1B => true
  | 0x1C | 0x1D => wRd w < 16
  | 0x20 => okVf w
  | 0x21 => okVc w
  | 0x30 => true
  | 0x31 => wRd w < 16
  | 0x34 | 0x35 => wFn w < 32
  | 0x36 => wFn w < 32 && wRd w < 16
  | 0x38 => wRb w = 0 && wFn w % 64 = 0
  | 0x39 | 0x3A => wRb w = 0 && wFn w < 192
  | 0x3C => wRd w = 0 && wRa w = 0 && wRb w = 0 && wFn w / 16 % 8 = 0
  | 0x3D => okSys w
  | _ => false

/-- The word of a format with a function, a sub-operation, or an opcode alone. -/
def isFn (op fn w : Nat) : Bool := wOp w = op && wFn w = fn
def isSub (op sub w : Nat) : Bool := wOp w = op && wSub w = sub
def isOp (op w : Nat) : Bool := wOp w = op

/-! ### The context (R202) -/

/-- g0 reads 0. -/
def getG (c : JobCtx) (n : Nat) : DWord := if n = 0 then 0#64 else smGet 0#64 c.g n
def setG (c : JobCtx) (n : Nat) (v : DWord) : JobCtx := if n = 0 then c else { c with g := smPut 0#64 c.g n v }
def getV (c : JobCtx) (n : Nat) : VWord := smGet 0#256 c.v n
def setV (c : JobCtx) (n : Nat) (v : VWord) : JobCtx := { c with v := smPut 0#256 c.v n v }

/-- The context at a job's start (R203). -/
def startCtx (j : Job) : JobCtx :=
  let has := j.kind ≤ 2
  let c : JobCtx := { job := j, g := [], v := [], p := 0, pc := j.entry, steps := 0, wait := .ready }
  setG (setG (setG (setG c 1 (if has then BitVec.ofNat 64 j.index else 0#64)) 2 (BitVec.ofNat 64 j.acc))
    3 (BitVec.ofNat 64 (j.arg % 2 ^ 32))) 4 (BitVec.ofNat 64 j.revision)

def slotCtx (x : Docent) (k : Nat) : Option JobCtx := if k = 0 then x.s0 else x.s1
def putCtx (x : Docent) (k : Nat) (c : Option JobCtx) : Docent := if k = 0 then { x with s0 := c } else { x with s1 := c }

/-! ### Memories (R200, R201) -/

/-- The instruction word at a byte address of bank b. -/
def iramAt (s : State) (d b a : Nat) : Nat := (smGet 0#32 s.doc.iram (d * 8192 + (b * 0x4000 + a) / 4)).toNat

def iramPut (s : State) (d b a : Nat) (w : Word) : State :=
  { s with doc := { s.doc with iram := smPut 0#32 s.doc.iram (d * 8192 + (b * 0x4000 + a) / 4) w } }

/-- Key of a DRAM byte of docent d, half h. -/
def dramKey (d h a : Nat) : Nat := d * 0x18000 + h * 0xC000 + a

def dramRead (s : State) (d h a n : Nat) : List Byte := (List.range n).map (fun i => smGet 0#8 s.doc.dram (dramKey d h (a + i)))

def dramWrite (s : State) (d h a : Nat) (bs : List Byte) : State :=
  { s with doc := { s.doc with dram :=
    (bs.foldl (fun (x : SMap Byte × Nat) b => (smPut 0#8 x.1 (dramKey d h x.2) b, x.2 + 1)) (s.doc.dram, a)).1 } }

/-! ### Vector lanes (R213) -/

def lane (v : VWord) (i : Nat) : Nat := v.toNat >>> (32 * i) % 2 ^ 32
def lanesOf (v : VWord) : List Nat := (List.range 8).map (lane v)
def ofLanes (l : List Nat) : VWord := BitVec.ofNat 256 (l.foldr (fun x a => a * 2 ^ 32 + x % 2 ^ 32) 0)

/-- Float32 source of a general register (R211). -/
def g32 (c : JobCtx) (n : Nat) : Nat := (getG c n).toNat % 2 ^ 32

end Sys2Proof.Machine
end

