-- ==== Sys2Proof/Machine/Flags.lean ====
section
/-! DEFINITION. Predicates and comparisons (R202, Tables 6.5 and 6.6): the predicate registers are the docents'
flags. -/

namespace Sys2Proof.Machine

/-- p0 reads 1. -/
def getP (c : JobCtx) (n : Nat) : Bool := n = 0 || c.p.testBit n
def setP (c : JobCtx) (n : Nat) (b : Bool) : JobCtx :=
  if n = 0 then c
  else { c with p := if b then c.p ||| 2 ^ n else if c.p.testBit n then c.p - 2 ^ n else c.p }

/-- The integer comparison of a function of CMP: 0 EQ, 1 NE, 2 LT, 3 GE, 4 LTU, 5 GEU. -/
def intCmp (k : Nat) (a b : DWord) : Bool :=
  match k with
  | 0 => a = b
  | 1 => a ≠ b
  | 2 => a.toInt < b.toInt
  | 3 => b.toInt ≤ a.toInt
  | 4 => a.toNat < b.toNat
  | _ => b.toNat ≤ a.toNat

/-- A float comparison: 0 FEQ, 1 FLT, 2 FLE, 3 FUN. -/
def fltCmp (f : FFmt) (k a b : Nat) : Bool :=
  match k with
  | 0 => feq f a b
  | 1 => flt f a b
  | 2 => fle f a b
  | _ => fIsNan f a || fIsNan f b

/-- The sources of a float comparison: bits [31:0] for .S, all 64 for .D (R211). -/
def fltSrc (c : JobCtx) (dbl : Bool) (n : Nat) : Nat := if dbl then (getG c n).toNat else g32 c n

/-- FMIN and FMAX (R212): −0 is below +0; of one NaN the other operand, of two the quiet NaN. -/
def fMinMax (f : FFmt) (mx : Bool) (a b : Nat) : Nat :=
  if fIsNan f a && fIsNan f b then fNan f
  else if fIsNan f a then b
  else if fIsNan f b then a
  else
    let less (x y : Nat) : Bool := flt f x y || (feq f x y && fSignW f ≤ x && y < fSignW f)
    if mx then (if less a b then b else a) else (if less b a then b else a)

/-- A float as an integer number of 2^−k: the value saturated to int64, and whether it was out of range or NaN (R212,
R222). -/
def fltToInt (f : FFmt) (k a : Nat) : DWord × Bool :=
  match fUnpack f a with
  | .nan => (0#64, true)
  | .inf n => (if n then 0x8000000000000000#64 else 0x7FFFFFFFFFFFFFFF#64, true)
  | v =>
    match vToFix k v with
    | none => (0#64, true)
    | some i =>
      let r := clampI (-(2 ^ 63)) (2 ^ 63 - 1) i
      (BitVec.ofInt 64 r, decide (r ≠ i))

end Sys2Proof.Machine
end

