-- ==== Sys2Proof/Machine/DocOps.lean ====
section
/-! DEFINITION. The execution of one Weawen instruction by a docent: fetch, step count, faults and retirement
(06_weawen_isa.md, sections 6.1, 6.8 to 6.10). -/

namespace Sys2Proof.Machine

/-- What an instruction does: it completes with a context and a machine, meets faults (codes and operands), waits,
yields, or retires its job (ABORT with its USER). -/
inductive Eff where
  | ok (c : JobCtx) (s : State)
  | fault (fs : List (Nat × Option Nat))
  | wait (w : JobWait)
  | yields
  | retire (user : Option Nat)

/-- Does a contribution of the job still wait at the verdict unit (R228, R296)? -/
def jobPosted (s : State) (j : Job) : Bool :=
  j.kind = 0 && s.vrd.waitLga.any (fun l => l.index = j.index && l.revision = j.revision)

/-- Does the context wait under R217? -/
def vldWaits (c : JobCtx) : Bool := match c.wait with | .vld _ => true | _ => false

def ctxRuns (c : Option JobCtx) : Bool := match c with | some c => !vldWaits c | none => false

/-- The running job's slot after a change: the other one when the active one cannot run (R204, R219). -/
def docSwitch (x : Docent) : Docent :=
  if !ctxRuns (slotCtx x x.active) && ctxRuns (slotCtx x (1 - x.active)) then { x with active := 1 - x.active } else x

/-- A job leaves its local slot (R228, R236): counts, the revision it completes (R144), a RETIRING slot's end. -/
def docRetire (s : State) (d k : Nat) (j : Job) : State :=
  let x := putCtx (docentOf s d) k none
  let s := bump (setDocent s d (docSwitch x)) (Reg.docState d + 0x80)
  let s := if j.kind = 0 && 1 ≤ j.revision then revisionDone s j.index else s
  slotRetire s

/-- The six words of a fault record (section 6.12). -/
def faultWords (d : Nat) (c : JobCtx) (code user opd : Nat) : List Nat :=
  [code * 65536 + d * 256 + c.job.tour, c.job.revision * 65536 + c.pc, user * 65536 + c.job.acc, c.job.index,
   c.job.index / 2 ^ 32 % 65536, opd]

def setWords (s : State) (a : Nat) (ws : List Nat) : State :=
  ((List.range ws.length).zip ws).foldl (fun s p => setRegN s (a + 4 * p.1) p.2) s

/-- A single-bit error corrected on a read (R205). -/
def memCorrected (s : State) : State := evt (bump s (Reg.docCnt 20)) Reg.docEvents 2

/-- What the codes of the 64-bit memory words of an access of n bytes found, word by word: me holds one base-4 digit for
each, 0 nothing, 1 an error it corrected, 2 or 3 one it could not (R205). -/
def eccCodes (n me : Nat) : List Nat := (List.range ((n + 7) / 8)).map (fun k => me / 4 ^ k % 4)

/-- Each corrected word of an access is counted (R205). -/
def eccCorrect (s : State) (codes : List Nat) : State :=
  codes.foldl (fun s k => if k = 1 then memCorrected s else s) s

/-- A double-bit error met (R205). -/
def memFailed (s : State) : State := evt s Reg.docEvents 4

/-- A job faults (R236, R237): recorded, counted, logged, retired. An operand the spec does not name is free. -/
def docFault (s : State) (d k : Nat) (c : JobCtx) (code : Nat) (opd : Option Nat) (user : Nat) : State :=
  if jobPosted s c.job then setDocent s d (putCtx (docentOf s d) k (some { c with wait := .fence }))
  else
    let o := match opd with | some o => o | none => freeBelow s (2 ^ 32)
    let s := match opd with | some _ => s | none => nextFree s
    let ws := faultWords d c code user o
    let s := setWords (setWords s (Reg.docState d + 0x60) ws) (Reg.docLastFault 0) ws
    let s := bump (bump (bump s (Reg.docCnt (code - 0x1201))) (Reg.docCnt 17)) (Reg.docState d + 0x84)
    let s := evt s Reg.docEvents 1
    let s := if code = 0x120B then memFailed s else s
    let s := logEvent s code d (leBytes 2 code ++ leBytes 1 d ++ leBytes 1 c.job.tour ++ leBytes 2 c.pc ++
      leBytes 2 c.job.acc ++ leBytes 8 c.job.index)
    docRetire s d k c.job

/-- The fault with the lowest code (R235). -/
def lowestFault : List (Nat × Option Nat) → Option (Nat × Option Nat)
  | [] => none
  | f :: r =>
    match lowestFault r with
    | some g => if g.1 < f.1 then some g else some f
    | none => some f

/-- STEP_BUDGET of a job's tour. -/
def stepBudget (s : State) (j : Job) : Nat := match tourOfSlot s j.slot j.tour with | some t => t.budget | none => 0

/-- Stores the context after an instruction that cost n steps (R233). -/
def docStore (s : State) (d k : Nat) (c : JobCtx) (n : Nat) : State :=
  let x := docentOf s d
  setDocent s d (docSwitch { putCtx x k (some { c with steps := c.steps + n }) with steps := (x.steps + n) % 2 ^ 64 })

/-- The other local slot's job is of equal or higher priority and can run (R232). -/
def yieldTo (x : Docent) (k prio : Nat) : Bool :=
  match slotCtx x (1 - k) with
  | some c => prio ≤ c.job.priority && !vldWaits c
  | none => false

/-- A docent counts n executed steps outside the job's own count (R233, R234). -/
def docCharge (s : State) (d n : Nat) : State :=
  let x := docentOf s d
  setDocent s d { x with steps := (x.steps + n) % 2 ^ 64 }

/-- Applies what an instruction of cost n does to the job in slot k of docent d; c is the context before it. -/
def docApply (s : State) (d k n : Nat) (c : JobCtx) (e : Eff) : State :=
  let c1 := { c with pc := c.pc + 4, wait := .ready }
  match e with
  | .fault fs =>
    let s := if jobPosted s c.job || n = 0 then s else docCharge s d n
    (match lowestFault fs with | some f => docFault s d k c f.1 f.2 0 | none => s)
  | .wait w => setDocent s d (docSwitch (putCtx (docentOf s d) k (some { c with wait := w })))
  | .ok c' s' => docStore s' d k { c' with wait := .ready } n
  | .yields =>
    if jobPosted s c.job then setDocent s d (putCtx (docentOf s d) k (some { c with wait := .fence }))
    else
      let s := docStore s d k c1 n
      let x := docentOf s d
      if yieldTo x k c.job.priority then setDocent s d { x with active := 1 - k } else s
  | .retire u =>
    if jobPosted s c.job then setDocent s d (putCtx (docentOf s d) k (some { c with wait := .fence }))
    else
      match u with
      | some user => docFault (docStore s d k c n) d k { c with steps := c.steps + n } 0x120A none user
      | none => docRetire (bump (docStore s d k c1 n) (Reg.docCnt 16)) d k c.job

/-- One instruction of docent d's running job (R204, R209, R234, R235). An instruction that faults has its cost
counted; one the budget stops is not executed and has not. The instruction word at the PC must be one
that `is` accepts: the command of another instruction changes nothing. fe is what the code of the fetched word found
(R205): 0 nothing, 1 an error it corrected, 2 one it could not. -/
def docRun (s : State) (d fe : Nat) (is : Nat → Bool) (cost : JobCtx → Nat → Nat)
    (sem : State → JobCtx → Nat → Eff) : State :=
  let x := docentOf s d
  match slotCtx x x.active with
  | none => s
  | some c =>
    if vldWaits c && !(match c.wait with
        | .vld i => (match getEx s i with | some v => v.st != .opened && v.st != .closing | none => true)
        | _ => true) then s
    else if 0x3FFC < c.pc then docFault s d x.active c 0x1202 (some c.pc) 0
    else if 2 ≤ fe then docFault s d x.active c 0x120B (some c.pc) 0
    else
      let w := iramAt s d c.job.slot c.pc
      if !is w then s
      else
        let s := if fe = 1 then memCorrected s else s
        let n := cost c w
        let e := sem s { c with pc := c.pc + 4 } w
        let ovr : List (Nat × Option Nat) :=
          if stepBudget s c.job < c.steps + n then [(0x1209, some (c.steps + n))] else []
        match e with
        | .fault fs => docApply s d x.active (if ovr.isEmpty then n else 0) c (.fault (fs ++ ovr))
        | _ => if ovr.isEmpty then docApply s d x.active n c e else docApply s d x.active 0 c (.fault ovr)

/-- The PC of the instruction itself, from the context an instruction's meaning is given. -/
def ownPc (c : JobCtx) : Nat := c.pc - 4

/-- A result in a general register. -/
def okG (s : State) (c : JobCtx) (rd : Nat) (v : DWord) : Eff := .ok (setG c rd v) s
def okP (s : State) (c : JobCtx) (pd : Nat) (b : Bool) : Eff := .ok (setP c pd b) s
def okV (s : State) (c : JobCtx) (vd : Nat) (v : VWord) : Eff := .ok (setV c vd v) s

/-- A float32 result, zero-extended (R211). -/
def okS (s : State) (c : JobCtx) (rd v : Nat) : Eff := okG s c rd (BitVec.ofNat 64 (v % 2 ^ 32))

/-- A transfer to a target (R209). -/
def jumpTo (s : State) (c : JobCtx) (t : Int) : Eff :=
  if 0 ≤ t && t ≤ 0x3FFC && t % 4 = 0 then .ok { c with pc := t.toNat } s
  else .fault [(0x1202, some (ofSigned 32 t))]

/-- Every word that is no instruction faults with 0x1201 (R206). -/
def docIllegal (s : State) (d fe : Nat) : State :=
  docRun s d fe (fun w => !wordOk w) (fun _ _ => 0) (fun _ _ _ => .fault [(0x1201, none)])

/-- An instruction of fixed cost. -/
def docFix (s : State) (d fe : Nat) (is : Nat → Bool) (n : Nat) (sem : State → JobCtx → Nat → Eff) : State :=
  docRun s d fe (fun w => wordOk w && is w) (fun _ _ => n) sem

end Sys2Proof.Machine
end

