-- ==== Sys2Proof/Machine/Trig.lean ====
section
/-! DEFINITION. Sine, cosine and arctangent to 1,024 fraction bits, for the values the spec rounds once from the
exact real result (R86, R215). The result of a nonzero rational argument is irrational, so it is never halfway
between two floats; the fixed-point error is below 2^−850 (log entry 8). -/

namespace Sys2Proof.Machine

/-- π × 2^1024, rounded down. -/
def piFix : Nat := 0x3243F6A8885A308D313198A2E03707344A4093822299F31D0082EFA98EC4E6C89452821E638D01377BE5466CF34E90C6CC0AC29B7C97C50DD3F84D5B5B54709179216D5D98979FB1BD1310BA698DFB5AC2FFD72DBD01ADFB7B8E1AFED6A267E96BA7C9045F12C7F9924A19947B3916CF70801F2E2858EFC16636920D871574E69

/-- Adds the Taylor terms of sine and cosine: k terms, starting at index n, of the argument r × 2^−1024. -/
def sinCosGo (r : Int) : Nat → Nat → Int → Int → Int → Int × Int
  | 0, _, _, sn, cs => (sn, cs)
  | k + 1, n, t, sn, cs =>
    let t' := t * r / (((2 ^ 1024 : Nat) : Int) * (n : Int))
    let sn' := if n % 4 = 1 then sn + t' else if n % 4 = 3 then sn - t' else sn
    let cs' := if n % 4 = 2 then cs - t' else if n % 4 = 0 then cs + t' else cs
    sinCosGo r k (n + 1) t' sn' cs'

/-- Sine and cosine of r × 2^−1024, |r| at most π, to 1,024 fraction bits. -/
def sinCosFix (r : Int) : Int × Int :=
  sinCosGo r 260 1 ((2 ^ 1024 : Nat) : Int) 0 ((2 ^ 1024 : Nat) : Int)

/-- ±m × 2^e radians reduced modulo 2π into (−π, π], to 1,024 fraction bits. -/
def reduceRad (neg : Bool) (m : Nat) (e : Int) : Int :=
  let s : Int := e + 1024
  let a : Nat := if 0 ≤ s then m <<< s.toNat else m >>> (-s).toNat
  let r : Nat := a % (2 * piFix)
  let r' : Int := if piFix < r then (r : Int) - ((2 * piFix : Nat) : Int) else (r : Int)
  if neg then -r' else r'

/-- Cosine (or sine) of an angle in radians times a value, rounded once to the format. -/
def mulTrigRad (f : FFmt) (mag ang : FVal) (sine : Bool) : Nat :=
  match mag, ang with
  | .fin n m e, .fin an am ae =>
    if am = 0 then (if sine then fPack f (.fin (n != an) 0 0) else fPack f (.fin n m e))
    else
      let sc := sinCosFix (reduceRad an am ae)
      let c := if sine then sc.1 else sc.2
      fRound f (n != decide (c < 0)) (m * c.natAbs) (e - 1024) (m ≠ 0)
  | .inf n, .fin an am ae =>
    if am = 0 then (if sine then fNan f else fPack f (.inf n))
    else
      let sc := sinCosFix (reduceRad an am ae)
      let c := if sine then sc.1 else sc.2
      fPack f (.inf (n != decide (c < 0)))
  | _, _ => fNan f

/-- Cosine or sine of d × 30°, doubled, where it is rational: none otherwise (Niven). -/
def trig30 (d : Nat) (sine : Bool) : Option Int :=
  let d := if sine then (d + 9) % 12 else d % 12
  if d = 0 then some 2 else if d = 2 || d = 10 then some 1 else if d = 3 || d = 9 then some 0
  else if d = 4 || d = 8 then some (-1) else if d = 6 then some (-2) else none

/-- Cosine (or sine) of an angle in degrees times a value, rounded once (the 90-5 polar row of Table 3.2). -/
def mulTrigDeg (f : FFmt) (mag ang : FVal) (sine : Bool) : Nat :=
  match mag, ang with
  | .fin n m e, .fin an am ae =>
    -- the angle in units of 2^-k degrees, modulo 360 degrees
    let k : Nat := (-ae).toNat
    let a : Nat := (if 0 ≤ ae then am <<< ae.toNat else am) % (360 <<< k)
    let a : Nat := if an then ((360 <<< k) - a) % (360 <<< k) else a
    let exact : Option Int := if a % (30 <<< k) = 0 then trig30 (a / (30 <<< k)) sine else none
    match exact with
    | some c => fRound f (n != decide (c < 0)) (m * c.natAbs) (e - 1) false
    | none =>
      let r : Int := ((a * piFix / (180 <<< k) : Nat) : Int)
      let r : Int := if (piFix : Int) < r then r - ((2 * piFix : Nat) : Int) else r
      let sc := sinCosFix r
      let c := if sine then sc.1 else sc.2
      fRound f (n != decide (c < 0)) (m * c.natAbs) (e - 1024) (m ≠ 0)
  | _, _ => fNan f

/-- Adds the terms of arctangent: t^(2n+1) / (2n+1) with alternating signs; t2 is t² × 2^−1024. -/
def atanGo (t2 : Nat) : Nat → Nat → Nat → Int → Int
  | 0, _, _, s => s
  | k + 1, n, p, s =>
    let term : Int := ((p / (2 * n + 1) : Nat) : Int)
    atanGo t2 k (n + 1) ((p * t2) >>> 1024) (if n % 2 = 0 then s + term else s - term)

/-- t / (1 + √(1 + t²)): the tangent of half the angle, to 1,024 fraction bits. -/
def tanHalf (t : Nat) : Nat :=
  let one := 2 ^ 1024
  (t <<< 1024) / (one + isqrt (one * one + t * t))

/-- Arctangent of t × 2^−1024, 0 ≤ t ≤ 1, to 1,024 fraction bits less a few. -/
def atanFix (t : Nat) : Nat :=
  let u := tanHalf (tanHalf (tanHalf (tanHalf t)))
  16 * (atanGo ((u * u) >>> 1024) 140 0 u 0).toNat

/-- The angle of (x, y) in (−π, π], rounded once to the format; the special cases are those of IEEE atan2. -/
def atan2Round (f : FFmt) (y x : FVal) : Nat :=
  let k (neg : Bool) (num den : Nat) : Nat := fRound f neg (num * piFix / den) (-1024) true
  match y, x with
  | .nan, _ => fNan f
  | _, .nan => fNan f
  | .inf ny, .inf nx => if nx then k ny 3 4 else k ny 1 4
  | .inf ny, .fin .. => k ny 1 2
  | .fin ny _ _, .inf nx => if nx then k ny 1 1 else fPack f (.fin ny 0 0)
  | .fin ny my ey, .fin nx mx ex =>
    if my = 0 then (if nx then k ny 1 1 else fPack f (.fin ny 0 0))
    else if mx = 0 then k ny 1 2
    else
      let lo : Int := if ey < ex then ey else ex
      let a := my <<< (ey - lo).toNat
      let b := mx <<< (ex - lo).toNat
      -- a quotient far below 2^-700 is its own arctangent to every bit that matters
      if bitLen a + 300 < bitLen b then
        (if nx then k ny 1 1
         else
          let q := (a <<< (bitLen b + 100)) / b
          fRound f ny (4 * q - 1) (-(((bitLen b + 102 : Nat)) : Int)) true)
      else
        let th : Nat := if a ≤ b then atanFix ((a <<< 1024) / b) else piFix / 2 - atanFix ((b <<< 1024) / a)
        fRound f ny (if nx then piFix - th else th) (-1024) true

end Sys2Proof.Machine
end

