-- ==== Sys2Proof/Machine/DocFloat.lean ====
section
/-! DEFINITION. Weawen floating point, vector and complex instructions (R211–R215, Tables 6.8 to 6.10). -/

namespace Sys2Proof.Machine

/-- An FP instruction in both precisions: fn for .S at cost ns, fn + 0x10 for .D at cost nd; f takes RD, RA, RB. -/
def fpOp (s : State) (d fe fn ns nd : Nat) (f : FFmt → Nat → Nat → Nat → Nat) : State :=
  docRun s d fe (fun w => wordOk w && (isFn 0x04 fn w || isFn 0x04 (fn + 0x10) w))
    (fun _ w => if wFn w = fn then ns else nd) (fun s c w =>
      let dbl := wFn w != fn
      let x (n : Nat) : Nat := fltSrc c dbl n
      okG s c (wRd w) (BitVec.ofNat 64 (f (if dbl then f64 else f32) (x (wRd w)) (x (wRa w)) (x (wRb w)))))

/-- FADD: RD ← RA + RB (R211). -/
def execFadd (d fe : Nat) (s : State) : Host.Outcome State Fault Refusal :=
  done (fpOp s d fe 0x00 1 2 (fun k _ a b => fadd k a b))

/-- FSUB: RD ← RA − RB (R211). -/
def execFsub (d fe : Nat) (s : State) : Host.Outcome State Fault Refusal :=
  done (fpOp s d fe 0x01 1 2 (fun k _ a b => fsub k a b))

/-- FMUL: RD ← RA × RB (R211). -/
def execFmul (d fe : Nat) (s : State) : Host.Outcome State Fault Refusal :=
  done (fpOp s d fe 0x02 1 2 (fun k _ a b => fmul k a b))

/-- FDIV: RD ← RA ÷ RB (R211). -/
def execFdiv (d fe : Nat) (s : State) : Host.Outcome State Fault Refusal :=
  done (fpOp s d fe 0x03 6 12 (fun k _ a b => fdiv k a b))

/-- FSQRT: RD ← √RA (R211). -/
def execFsqrt (d fe : Nat) (s : State) : Host.Outcome State Fault Refusal :=
  done (fpOp s d fe 0x04 6 12 (fun k _ a _ => fsqrt k a))

/-- FMIN: RD ← minimum (R212). -/
def execFmin (d fe : Nat) (s : State) : Host.Outcome State Fault Refusal :=
  done (fpOp s d fe 0x05 1 1 (fun k _ a b => fMinMax k false a b))

/-- FMAX: RD ← maximum (R212). -/
def execFmax (d fe : Nat) (s : State) : Host.Outcome State Fault Refusal :=
  done (fpOp s d fe 0x06 1 1 (fun k _ a b => fMinMax k true a b))

/-- FMAC: RD ← RD + RA × RB, rounded once (R212). -/
def execFmac (d fe : Nat) (s : State) : Host.Outcome State Fault Refusal :=
  done (fpOp s d fe 0x07 2 3 (fun k r a b => ffma k a b r))

/-- FABS: RD ← abs(RA) (R211). -/
def execFabs (d fe : Nat) (s : State) : Host.Outcome State Fault Refusal :=
  done (fpOp s d fe 0x08 1 1 (fun k _ a _ => fabs k a))

/-- FNEG: RD ← −RA (R211). -/
def execFneg (d fe : Nat) (s : State) : Host.Outcome State Fault Refusal :=
  done (fpOp s d fe 0x09 1 1 (fun k _ a _ => fneg k a))

/-- A conversion: RD ← f RA. -/
def cvtOp (s : State) (d fe fn : Nat) (f : DWord → DWord) : State :=
  docFix s d fe (isFn 0x04 fn) 1 (fun s c w => okG s c (wRd w) (f (getG c (wRa w))))

/-- FCVT_D_S: float32 to float64 (R211). -/
def execFcvtDS (d fe : Nat) (s : State) : Host.Outcome State Fault Refusal :=
  done (cvtOp s d fe 0x20 (fun a => BitVec.ofNat 64 (fcvt f32 f64 (a.toNat % 2 ^ 32))))

/-- FCVT_S_D: float64 to float32 (R211). -/
def execFcvtSD (d fe : Nat) (s : State) : Host.Outcome State Fault Refusal :=
  done (cvtOp s d fe 0x21 (fun a => BitVec.ofNat 64 (fcvt f64 f32 a.toNat)))

/-- FCVT_S_L: int64 to float32 (R211). -/
def execFcvtSL (d fe : Nat) (s : State) : Host.Outcome State Fault Refusal :=
  done (cvtOp s d fe 0x22 (fun a => BitVec.ofNat 64 (fofInt f32 a.toInt)))

/-- FCVT_D_L: int64 to float64 (R211). -/
def execFcvtDL (d fe : Nat) (s : State) : Host.Outcome State Fault Refusal :=
  done (cvtOp s d fe 0x23 (fun a => BitVec.ofNat 64 (fofInt f64 a.toInt)))

/-- FCVT_L_S: float32 to int64 (R212). -/
def execFcvtLS (d fe : Nat) (s : State) : Host.Outcome State Fault Refusal :=
  done (cvtOp s d fe 0x24 (fun a => (fltToInt f32 0 (a.toNat % 2 ^ 32)).1))

/-- FCVT_L_D: float64 to int64 (R212). -/
def execFcvtLD (d fe : Nat) (s : State) : Host.Outcome State Fault Refusal :=
  done (cvtOp s d fe 0x25 (fun a => (fltToInt f64 0 a.toNat).1))

/-- A lane-wise vector operation: VD ← f VD VA VB on each float lane. -/
def vecOp (s : State) (d fe fn n : Nat) (f : Nat → Nat → Nat → Nat) : State :=
  docFix s d fe (isFn 0x20 fn) n (fun s c w =>
    let r := getV c (wVd w)
    let a := getV c (wVa w)
    let b := getV c (wVb w)
    okV s c (wVd w) (ofLanes ((List.range 8).map (fun i => f (lane r i) (lane a i) (lane b i)))))

/-- VADD: VD ← VA + VB, per float lane (R213). -/
def execVadd (d fe : Nat) (s : State) : Host.Outcome State Fault Refusal :=
  done (vecOp s d fe 0 1 (fun _ a b => fadd f32 a b))

/-- VSUB: VD ← VA − VB, per float lane (R213). -/
def execVsub (d fe : Nat) (s : State) : Host.Outcome State Fault Refusal :=
  done (vecOp s d fe 1 1 (fun _ a b => fsub f32 a b))

/-- VMUL: VD ← VA × VB, per float lane (R213). -/
def execVmul (d fe : Nat) (s : State) : Host.Outcome State Fault Refusal :=
  done (vecOp s d fe 2 1 (fun _ a b => fmul f32 a b))

/-- VMAC: VD ← VD + VA × VB, rounded once, per float lane (R213). -/
def execVmac (d fe : Nat) (s : State) : Host.Outcome State Fault Refusal :=
  done (vecOp s d fe 3 2 (fun r a b => ffma f32 a b r))

/-- VMIN: VD ← as FMIN, per float lane (R213). -/
def execVmin (d fe : Nat) (s : State) : Host.Outcome State Fault Refusal :=
  done (vecOp s d fe 4 1 (fun _ a b => fMinMax f32 false a b))

/-- VMAX: VD ← as FMAX, per float lane (R213). -/
def execVmax (d fe : Nat) (s : State) : Host.Outcome State Fault Refusal :=
  done (vecOp s d fe 5 1 (fun _ a b => fMinMax f32 true a b))

/-- VSUM: GS ← ((l0 + l1) + (l2 + l3)) + ((l4 + l5) + (l6 + l7)) of VA (R213). -/
def execVsum (d fe : Nat) (s : State) : Host.Outcome State Fault Refusal :=
  done (docFix s d fe (isFn 0x20 0x08) 3 (fun s c w =>
    let l (i : Nat) : Nat := lane (getV c (wVa w)) i
    let p (i : Nat) : Nat := fadd f32 (fadd f32 (l i) (l (i + 1))) (fadd f32 (l (i + 2)) (l (i + 3)))
    okS s c (wRb w) (fadd f32 (p 0) (p 4))))

/-- VBCAST: every lane of VD ← GS[31:0] (R213). -/
def execVbcast (d fe : Nat) (s : State) : Host.Outcome State Fault Refusal :=
  done (docFix s d fe (isFn 0x20 0x09) 1 (fun s c w => okV s c (wVd w) (ofLanes (List.replicate 8 (g32 c (wRb w))))))

/-- VEXT: GS ← lane VB of VA, zero-extended (R213). -/
def execVext (d fe : Nat) (s : State) : Host.Outcome State Fault Refusal :=
  done (docFix s d fe (isFn 0x20 0x0A) 1 (fun s c w => okS s c (wRb w) (lane (getV c (wVa w)) (wVb w))))

/-- VINS: lane VB of VD ← GS[31:0] (R213). -/
def execVins (d fe : Nat) (s : State) : Host.Outcome State Fault Refusal :=
  done (docFix s d fe (isFn 0x20 0x0B) 1 (fun s c w => okV s c (wVd w) (ofLanes ((lanesOf (getV c (wVd w))).set (wVb w) (g32 c (wRb w))))))

/-- VZERO: VD ← 0 (R213). -/
def execVzero (d fe : Nat) (s : State) : Host.Outcome State Fault Refusal :=
  done (docFix s d fe (isFn 0x20 0x0C) 1 (fun s c w => okV s c (wVd w) 0#256))

/-- VMOV: VD ← VA (R213). -/
def execVmov (d fe : Nat) (s : State) : Host.Outcome State Fault Refusal :=
  done (docFix s d fe (isFn 0x20 0x0D) 1 (fun s c w => okV s c (wVd w) (getV c (wVa w))))

/-- VSCALE: VD ← VA × GS[31:0] (R213). -/
def execVscale (d fe : Nat) (s : State) : Host.Outcome State Fault Refusal :=
  done (docFix s d fe (isFn 0x20 0x0E) 1 (fun s c w =>
    okV s c (wVd w) (ofLanes ((lanesOf (getV c (wVa w))).map (fun a => fmul f32 a (g32 c (wRb w)))))))

/-- Complex lane k of a vector: real, imaginary. -/
def clane (v : VWord) (k : Nat) : Nat × Nat := (lane v (2 * k), lane v (2 * k + 1))

/-- The complex product (R214). -/
def cmulLane (a b : Nat × Nat) : Nat × Nat :=
  let p := fmul f32 a.2 b.2
  let q := fmul f32 a.2 b.1
  (ffma f32 a.1 b.1 (fneg f32 p), ffma f32 a.1 b.2 q)

def conjLane (a : Nat × Nat) : Nat × Nat := (a.1, fneg f32 a.2)
def caddLane (a b : Nat × Nat) : Nat × Nat := (fadd f32 a.1 b.1, fadd f32 a.2 b.2)
def csubLane (a b : Nat × Nat) : Nat × Nat := (fsub f32 a.1 b.1, fsub f32 a.2 b.2)

/-- The magnitude of a lane, correctly rounded (R215). -/
def cabsVal (a : Nat × Nat) : Nat :=
  match fUnpack f32 a.1, fUnpack f32 a.2 with
  | .inf _, _ => fInfBits f32
  | _, .inf _ => fInfBits f32
  | .nan, _ => fNan f32
  | _, .nan => fNan f32
  | x, y => vSqrtRound f32 (vAdd (vMul x x) (vMul y y))

/-- The argument of a lane, correctly rounded (R215). -/
def cargVal (a : Nat × Nat) : Nat :=
  let x := fUnpack f32 a.1
  match x, fUnpack f32 a.2 with
  | .nan, _ => fNan f32
  | _, .nan => fNan f32
  | .inf false, .fin _ _ _ => 0
  | _, .fin ny m e =>
    if m = 0 then (if vLt x (.fin false 0 0) then 0x40490FDB else 0) else atan2Round f32 (.fin ny m e) x
  | _, y => atan2Round f32 y x

/-- cos θ and sin θ, correctly rounded (R215). -/
def cosSin (t : Nat) : Nat × Nat :=
  let th := fUnpack f32 t
  (mulTrigRad f32 (.fin false 1 0) th false, mulTrigRad f32 (.fin false 1 0) th true)

/-- A complex operation: VD ← f VD VA VB on each complex lane; g is GS[31:0]. -/
def cplxOp (s : State) (d fe fn n : Nat) (f : Nat → Nat × Nat → Nat × Nat → Nat × Nat → Nat × Nat) : State :=
  docFix s d fe (isFn 0x21 fn) n (fun s c w =>
    let r := getV c (wVd w)
    let a := getV c (wVa w)
    let b := getV c (wVb w)
    okV s c (wVd w) (ofLanes ((List.range 4).flatMap (fun k =>
      let x := f (g32 c (wRb w)) (clane r k) (clane a k) (clane b k)
      [x.1, x.2]))))

/-- CADD: VD ← a + b (R214). -/
def execCadd (d fe : Nat) (s : State) : Host.Outcome State Fault Refusal :=
  done (cplxOp s d fe 0 1 (fun _ _ a b => caddLane a b))

/-- CSUB: VD ← a − b (R214). -/
def execCsub (d fe : Nat) (s : State) : Host.Outcome State Fault Refusal :=
  done (cplxOp s d fe 1 1 (fun _ _ a b => csubLane a b))

/-- CMUL: VD ← a × b (R214). -/
def execCmul (d fe : Nat) (s : State) : Host.Outcome State Fault Refusal :=
  done (cplxOp s d fe 2 2 (fun _ _ a b => cmulLane a b))

/-- CMULJ: VD ← a × conj(b) (R214). -/
def execCmulj (d fe : Nat) (s : State) : Host.Outcome State Fault Refusal :=
  done (cplxOp s d fe 3 2 (fun _ _ a b => cmulLane a (conjLane b)))

/-- CMAC: VD ← VD + a × b (R214). -/
def execCmac (d fe : Nat) (s : State) : Host.Outcome State Fault Refusal :=
  done (cplxOp s d fe 4 2 (fun _ r a b => caddLane r (cmulLane a b)))

/-- CCONJ: VD ← conj(a) (R211). -/
def execCconj (d fe : Nat) (s : State) : Host.Outcome State Fault Refusal :=
  done (cplxOp s d fe 5 1 (fun _ _ a _ => conjLane a))

/-- CABS: VD ← abs(a), imaginary part 0 (R215). -/
def execCabs (d fe : Nat) (s : State) : Host.Outcome State Fault Refusal :=
  done (cplxOp s d fe 6 4 (fun _ _ a _ => (cabsVal a, 0)))

/-- CARG: VD ← arg(a), imaginary part 0 (R215). -/
def execCarg (d fe : Nat) (s : State) : Host.Outcome State Fault Refusal :=
  done (cplxOp s d fe 7 8 (fun _ _ a _ => (cargVal a, 0)))

/-- CROT: VD ← a × (cos θ + j sin θ), θ = GS[31:0] (R214, R215). -/
def execCrot (d fe : Nat) (s : State) : Host.Outcome State Fault Refusal :=
  done (cplxOp s d fe 8 6 (fun g _ a _ => cmulLane a (cosSin g)))

/-- CSUM: VD lane 0 ← (l0 + l1) + (l2 + l3) of VA, lanes 1–3 ← 0 (R213). -/
def execCsum (d fe : Nat) (s : State) : Host.Outcome State Fault Refusal :=
  done (docFix s d fe (isFn 0x21 0x09) 2 (fun s c w =>
    let l (k : Nat) : Nat × Nat := clane (getV c (wVa w)) k
    let x := caddLane (caddLane (l 0) (l 1)) (caddLane (l 2) (l 3))
    okV s c (wVd w) (ofLanes [x.1, x.2, 0, 0, 0, 0, 0, 0])))

end Sys2Proof.Machine
end

