-- ==== Sys2Proof/Machine/DocInt.lean ====
section
/-! DEFINITION. Weawen integer, comparison, predicate and immediate instructions (R202, R207, R208, Tables 6.4 to 6.6). d is the
docent, fe what the code of the fetched word found (R205). -/

namespace Sys2Proof.Machine

/-- An INT instruction: RD ← f RA RB. -/
def intOp (s : State) (d fe fn n : Nat) (f : DWord → DWord → DWord) : State :=
  docFix s d fe (isFn 0x00 fn) n (fun s c w => okG s c (wRd w) (f (getG c (wRa w)) (getG c (wRb w))))

/-- Signed division (R208). -/
def divS (a b : DWord) : DWord := if b = 0#64 then BitVec.allOnes 64 else BitVec.ofInt 64 (Int.tdiv a.toInt b.toInt)
def divU (a b : DWord) : DWord := if b = 0#64 then BitVec.allOnes 64 else BitVec.ofNat 64 (a.toNat / b.toNat)
def remS (a b : DWord) : DWord := if b = 0#64 then a else BitVec.ofInt 64 (Int.tmod a.toInt b.toInt)
def remU (a b : DWord) : DWord := if b = 0#64 then a else BitVec.ofNat 64 (a.toNat % b.toNat)

/-- The low six bits of a shift count (R208). -/
def shCount (b : DWord) : Nat := b.toNat % 64

def clz64 (a : DWord) : DWord := BitVec.ofNat 64 (64 - bitLen a.toNat)
def ctz64 (a : DWord) : DWord := BitVec.ofNat 64 (match firstBelow 64 (fun i => a.toNat.testBit i) with | some i => i | none => 64)

/-- ADD: RA + RB (R208). -/
def execAdd (d fe : Nat) (s : State) : Host.Outcome State Fault Refusal :=
  done (intOp s d fe 0x00 1 (fun a b => a + b))

/-- SUB: RA − RB (R208). -/
def execSub (d fe : Nat) (s : State) : Host.Outcome State Fault Refusal :=
  done (intOp s d fe 0x01 1 (fun a b => a - b))

/-- AND: RA AND RB (R208). -/
def execAnd (d fe : Nat) (s : State) : Host.Outcome State Fault Refusal :=
  done (intOp s d fe 0x02 1 (fun a b => a &&& b))

/-- OR: RA OR RB (R208). -/
def execOr (d fe : Nat) (s : State) : Host.Outcome State Fault Refusal :=
  done (intOp s d fe 0x03 1 (fun a b => a ||| b))

/-- XOR: RA XOR RB (R208). -/
def execXor (d fe : Nat) (s : State) : Host.Outcome State Fault Refusal :=
  done (intOp s d fe 0x04 1 (fun a b => a ^^^ b))

/-- ANDN: RA AND NOT RB (R208). -/
def execAndn (d fe : Nat) (s : State) : Host.Outcome State Fault Refusal :=
  done (intOp s d fe 0x05 1 (fun a b => a &&& ~~~b))

/-- SHL: RA shifted left by RB (R208). -/
def execShl (d fe : Nat) (s : State) : Host.Outcome State Fault Refusal :=
  done (intOp s d fe 0x08 1 (fun a b => a <<< shCount b))

/-- SHR: RA shifted right, zeros in (R208). -/
def execShr (d fe : Nat) (s : State) : Host.Outcome State Fault Refusal :=
  done (intOp s d fe 0x09 1 (fun a b => a >>> shCount b))

/-- SAR: RA shifted right, sign in (R208). -/
def execSar (d fe : Nat) (s : State) : Host.Outcome State Fault Refusal :=
  done (intOp s d fe 0x0A 1 (fun a b => BitVec.sshiftRight a (shCount b)))

/-- MUL: low 64 bits of RA × RB (R208). -/
def execMul (d fe : Nat) (s : State) : Host.Outcome State Fault Refusal :=
  done (intOp s d fe 0x10 2 (fun a b => a * b))

/-- MULH: high 64 bits of the signed product (R208). -/
def execMulh (d fe : Nat) (s : State) : Host.Outcome State Fault Refusal :=
  done (intOp s d fe 0x11 2 (fun a b => BitVec.ofInt 64 (a.toInt * b.toInt / 2 ^ 64)))

/-- MULHU: high 64 bits of the unsigned product (R208). -/
def execMulhu (d fe : Nat) (s : State) : Host.Outcome State Fault Refusal :=
  done (intOp s d fe 0x12 2 (fun a b => BitVec.ofNat 64 (a.toNat * b.toNat / 2 ^ 64)))

/-- DIV: signed quotient, truncated (R208). -/
def execDiv (d fe : Nat) (s : State) : Host.Outcome State Fault Refusal :=
  done (intOp s d fe 0x14 12 (fun a b => divS a b))

/-- DIVU: unsigned quotient (R208). -/
def execDivu (d fe : Nat) (s : State) : Host.Outcome State Fault Refusal :=
  done (intOp s d fe 0x15 12 (fun a b => divU a b))

/-- REM: signed remainder (R208). -/
def execRem (d fe : Nat) (s : State) : Host.Outcome State Fault Refusal :=
  done (intOp s d fe 0x16 12 (fun a b => remS a b))

/-- REMU: unsigned remainder (R208). -/
def execRemu (d fe : Nat) (s : State) : Host.Outcome State Fault Refusal :=
  done (intOp s d fe 0x17 12 (fun a b => remU a b))

/-- MIN: signed minimum (R208). -/
def execMin (d fe : Nat) (s : State) : Host.Outcome State Fault Refusal :=
  done (intOp s d fe 0x18 1 (fun a b => if b.toInt < a.toInt then b else a))

/-- MAX: signed maximum (R208). -/
def execMax (d fe : Nat) (s : State) : Host.Outcome State Fault Refusal :=
  done (intOp s d fe 0x19 1 (fun a b => if a.toInt < b.toInt then b else a))

/-- MINU: unsigned minimum (R208). -/
def execMinu (d fe : Nat) (s : State) : Host.Outcome State Fault Refusal :=
  done (intOp s d fe 0x1A 1 (fun a b => if b.toNat < a.toNat then b else a))

/-- MAXU: unsigned maximum (R208). -/
def execMaxu (d fe : Nat) (s : State) : Host.Outcome State Fault Refusal :=
  done (intOp s d fe 0x1B 1 (fun a b => if a.toNat < b.toNat then b else a))

/-- CLZ: leading zeros of RA (R208). -/
def execClz (d fe : Nat) (s : State) : Host.Outcome State Fault Refusal :=
  done (intOp s d fe 0x20 1 (fun a _ => clz64 a))

/-- CTZ: trailing zeros of RA (R208). -/
def execCtz (d fe : Nat) (s : State) : Host.Outcome State Fault Refusal :=
  done (intOp s d fe 0x21 1 (fun a _ => ctz64 a))

/-- POPC: set bits of RA (R208). -/
def execPopc (d fe : Nat) (s : State) : Host.Outcome State Fault Refusal :=
  done (intOp s d fe 0x22 1 (fun a _ => BitVec.ofNat 64 (popCount 64 a.toNat)))

/-- SEXT32: RA[31:0] sign-extended (R208). -/
def execSext32 (d fe : Nat) (s : State) : Host.Outcome State Fault Refusal :=
  done (intOp s d fe 0x24 1 (fun a _ => BitVec.ofNat 64 (ofSigned 64 (toSigned 32 a.toNat))))

/-- ZEXT32: RA[31:0] zero-extended (R208). -/
def execZext32 (d fe : Nat) (s : State) : Host.Outcome State Fault Refusal :=
  done (intOp s d fe 0x25 1 (fun a _ => BitVec.ofNat 64 (a.toNat % 2 ^ 32)))

/-- An integer comparison of CMP. -/
def cmpOp (s : State) (d fe fn : Nat) : State :=
  docFix s d fe (isFn 0x01 fn) 1 (fun s c w => okP s c (wRd w) (intCmp fn (getG c (wRa w)) (getG c (wRb w))))

/-- EQ: pd ← RA = RB (Table 6.5). -/
def execEq (d fe : Nat) (s : State) : Host.Outcome State Fault Refusal :=
  done (cmpOp s d fe 0)

/-- NE: pd ← RA ≠ RB (Table 6.5). -/
def execNe (d fe : Nat) (s : State) : Host.Outcome State Fault Refusal :=
  done (cmpOp s d fe 1)

/-- LT: pd ← RA < RB, signed (Table 6.5). -/
def execLt (d fe : Nat) (s : State) : Host.Outcome State Fault Refusal :=
  done (cmpOp s d fe 2)

/-- GE: pd ← RA ≥ RB, signed (Table 6.5). -/
def execGe (d fe : Nat) (s : State) : Host.Outcome State Fault Refusal :=
  done (cmpOp s d fe 3)

/-- LTU: pd ← RA < RB, unsigned (Table 6.5). -/
def execLtu (d fe : Nat) (s : State) : Host.Outcome State Fault Refusal :=
  done (cmpOp s d fe 4)

/-- GEU: pd ← RA ≥ RB, unsigned (Table 6.5). -/
def execGeu (d fe : Nat) (s : State) : Host.Outcome State Fault Refusal :=
  done (cmpOp s d fe 5)

/-- A float comparison of CMP, .S or .D by its function (R211). -/
def fcmpOp (s : State) (d fe k : Nat) : State :=
  docFix s d fe (fun w => isFn 0x01 (0x10 + k) w || isFn 0x01 (0x18 + k) w) 1 (fun s c w =>
    let dbl := 0x18 ≤ wFn w
    okP s c (wRd w) (fltCmp (if dbl then f64 else f32) k (fltSrc c dbl (wRa w)) (fltSrc c dbl (wRb w))))

/-- FEQ: pd ← float comparison, equal (R211). -/
def execFeq (d fe : Nat) (s : State) : Host.Outcome State Fault Refusal :=
  done (fcmpOp s d fe 0)

/-- FLT: pd ← float comparison, below (R211). -/
def execFlt (d fe : Nat) (s : State) : Host.Outcome State Fault Refusal :=
  done (fcmpOp s d fe 1)

/-- FLE: pd ← float comparison, below or equal (R211). -/
def execFle (d fe : Nat) (s : State) : Host.Outcome State Fault Refusal :=
  done (fcmpOp s d fe 2)

/-- FUN: pd ← float comparison, unordered (R211). -/
def execFun (d fe : Nat) (s : State) : Host.Outcome State Fault Refusal :=
  done (fcmpOp s d fe 3)

/-- A predicate operation on two predicates. -/
def predOp (s : State) (d fe fn : Nat) (f : Bool → Bool → Bool) : State :=
  docFix s d fe (isFn 0x02 fn) 1 (fun s c w => okP s c (wRd w) (f (getP c (wRa w)) (getP c (wRb w))))

/-- PAND: pd ← pa AND pb (R202). -/
def execPand (d fe : Nat) (s : State) : Host.Outcome State Fault Refusal :=
  done (predOp s d fe 0 (fun a b => a && b))

/-- POR: pd ← pa OR pb (R202). -/
def execPor (d fe : Nat) (s : State) : Host.Outcome State Fault Refusal :=
  done (predOp s d fe 1 (fun a b => a || b))

/-- PXOR: pd ← pa XOR pb (R202). -/
def execPxor (d fe : Nat) (s : State) : Host.Outcome State Fault Refusal :=
  done (predOp s d fe 2 (fun a b => a != b))

/-- PANDN: pd ← pa AND NOT pb (R202). -/
def execPandn (d fe : Nat) (s : State) : Host.Outcome State Fault Refusal :=
  done (predOp s d fe 3 (fun a b => a && !b))

/-- PNOT: pd ← NOT pa (R202). -/
def execPnot (d fe : Nat) (s : State) : Host.Outcome State Fault Refusal :=
  done (predOp s d fe 4 (fun a _ => !a))

/-- PGET: RD ← 1 if pa else 0 (R202). -/
def execPget (d fe : Nat) (s : State) : Host.Outcome State Fault Refusal :=
  done (docFix s d fe (isFn 0x02 0x08) 1 (fun s c w => okG s c (wRd w) (if getP c (wRa w) then 1#64 else 0#64)))

/-- PSET: pd ← RA ≠ 0 (R202). -/
def execPset (d fe : Nat) (s : State) : Host.Outcome State Fault Refusal :=
  done (docFix s d fe (isFn 0x02 0x09) 1 (fun s c w => okP s c (wRd w) (getG c (wRa w) != 0#64)))

/-- SEL: RD ← RA if p XOR N, else RB (Table 6.5). -/
def execSel (d fe : Nat) (s : State) : Host.Outcome State Fault Refusal :=
  done (docFix s d fe (isOp 0x03) 1 (fun s c w =>
    okG s c (wRd w) (if getP c (wFn w % 8) != (wFn w).testBit 3 then getG c (wRa w) else getG c (wRb w))))

/-- An immediate operation on RG. -/
def immOp (s : State) (d fe sub : Nat) (f : DWord → Nat → DWord) : State :=
  docFix s d fe (isSub 0x08 sub) 1 (fun s c w => okG s c (wRd w) (f (getG c (wRd w)) w))

/-- ADDI: RG ← RG + IMM16 (R207). -/
def execAddi (d fe : Nat) (s : State) : Host.Outcome State Fault Refusal :=
  done (immOp s d fe 0 (fun a w => a + sImm w))

/-- ANDI: RG ← RG AND IMM16 zero-extended (R207). -/
def execAndi (d fe : Nat) (s : State) : Host.Outcome State Fault Refusal :=
  done (immOp s d fe 1 (fun a w => a &&& BitVec.ofNat 64 (wImm w)))

/-- ORI: RG ← RG OR IMM16 zero-extended (R207). -/
def execOri (d fe : Nat) (s : State) : Host.Outcome State Fault Refusal :=
  done (immOp s d fe 2 (fun a w => a ||| BitVec.ofNat 64 (wImm w)))

/-- XORI: RG ← RG XOR IMM16 zero-extended (R207). -/
def execXori (d fe : Nat) (s : State) : Host.Outcome State Fault Refusal :=
  done (immOp s d fe 3 (fun a w => a ^^^ BitVec.ofNat 64 (wImm w)))

/-- SHLI: RG ← RG shifted left (R207). -/
def execShli (d fe : Nat) (s : State) : Host.Outcome State Fault Refusal :=
  done (immOp s d fe 4 (fun a w => a <<< (wImm w % 64)))

/-- SHRI: RG ← RG shifted right, zeros in (R207). -/
def execShri (d fe : Nat) (s : State) : Host.Outcome State Fault Refusal :=
  done (immOp s d fe 5 (fun a w => a >>> (wImm w % 64)))

/-- SARI: RG ← RG shifted right, sign in (R207). -/
def execSari (d fe : Nat) (s : State) : Host.Outcome State Fault Refusal :=
  done (immOp s d fe 6 (fun a w => BitVec.sshiftRight a (wImm w % 64)))

/-- MOVI: RG ← IMM16 (R207). -/
def execMovi (d fe : Nat) (s : State) : Host.Outcome State Fault Refusal :=
  done (immOp s d fe 8 (fun _ w => sImm w))

/-- IMM16 in bits [16k+15:16k] of a register. -/
def movkVal (a : DWord) (k imm : Nat) : DWord := setFld a (16 * k + 15) (16 * k) imm

/-- MOVK: IMM16 into RG bits [16k+15:16k], k = SUB − 0xC (Table 6.6). -/
def execMovk (d fe : Nat) (s : State) : Host.Outcome State Fault Refusal :=
  done (docFix s d fe (fun w => wOp w = 0x08 && 0xC ≤ wSub w) 1 (fun s c w =>
    okG s c (wRd w) (movkVal (getG c (wRd w)) (wSub w - 0xC) (wImm w))))

/-- A comparison with an immediate: SUB [3:1] is pd, [0] negates. -/
def cmpiOp (s : State) (d fe op : Nat) (f : DWord → Nat → Bool) : State :=
  docFix s d fe (isOp op) 1 (fun s c w => okP s c (wSub w / 2) (f (getG c (wRd w)) w != (wSub w % 2 = 1)))

/-- CMPI_EQ: pd ← RG = IMM16, or ≠ (R207). -/
def execCmpiEq (d fe : Nat) (s : State) : Host.Outcome State Fault Refusal :=
  done (cmpiOp s d fe 0x09 (fun a w => a = sImm w))

/-- CMPI_LT: pd ← RG < IMM16, signed, or ≥ (R207). -/
def execCmpiLt (d fe : Nat) (s : State) : Host.Outcome State Fault Refusal :=
  done (cmpiOp s d fe 0x0A (fun a w => a.toInt < (sImm w).toInt))

/-- CMPI_LTU: pd ← RG < IMM16 zero-extended, unsigned, or ≥ (R207). -/
def execCmpiLtu (d fe : Nat) (s : State) : Host.Outcome State Fault Refusal :=
  done (cmpiOp s d fe 0x0B (fun a w => a.toNat < wImm w))

end Sys2Proof.Machine
end

