-- ==== Sys2Proof/Machine/DocMem.lean ====
section
/-! DEFINITION. Weawen local loads and stores (R205, R210, Table 6.7). me is what the codes of the accessed memory words found (R205: `eccCodes`). -/

namespace Sys2Proof.Machine

/-- The address of a local access (R210). -/
def localAddr (c : JobCtx) (w : Nat) : Nat := (getG c (wRa w) + sImm14 w).toNat

/-- The fault of a local access of n bytes, if any (R210). -/
def localFault (a n : Nat) : List (Nat × Option Nat) :=
  if a % n != 0 || 0xC000 < a + n then [(0x1203, some (a % 2 ^ 32))] else []

/-- A load of n bytes: f takes the bytes as a number. -/
def loadOp (s : State) (d fe me op n cost : Nat) (f : State → JobCtx → Nat → Nat → Eff) : State :=
  docFix s d fe (isOp op) cost (fun s c w =>
    let a := localAddr c w
    let fs := localFault a n
    if !fs.isEmpty then .fault fs
    else if (eccCodes n me).any (2 ≤ ·) then .fault [(0x120B, some (a % 2 ^ 32))]
    else f (eccCorrect s (eccCodes n me)) c w (leNat (dramRead s d c.job.slot a n)))

/-- A store of the low n bytes of a value. -/
def storeOp (s : State) (d fe op n cost : Nat) (v : JobCtx → Nat → Nat) : State :=
  docFix s d fe (isOp op) cost (fun s c w =>
    let a := localAddr c w
    let fs := localFault a n
    if !fs.isEmpty then .fault fs
    else .ok c (dramWrite s d c.job.slot a (leBytes n (v c w))))

/-- LDB: RT ← 1 byte, zero-extended (R210). -/
def execLdb (d fe me : Nat) (s : State) : Host.Outcome State Fault Refusal :=
  done (loadOp s d fe me 0x10 1 1 (fun s c w v => okG s c (wRd w) (BitVec.ofNat 64 v)))

/-- LDH: RT ← 2 bytes, zero-extended (R210). -/
def execLdh (d fe me : Nat) (s : State) : Host.Outcome State Fault Refusal :=
  done (loadOp s d fe me 0x11 2 1 (fun s c w v => okG s c (wRd w) (BitVec.ofNat 64 v)))

/-- LDW: RT ← 4 bytes, zero-extended (R210). -/
def execLdw (d fe me : Nat) (s : State) : Host.Outcome State Fault Refusal :=
  done (loadOp s d fe me 0x12 4 1 (fun s c w v => okG s c (wRd w) (BitVec.ofNat 64 v)))

/-- LDD: RT ← 8 bytes (R210). -/
def execLdd (d fe me : Nat) (s : State) : Host.Outcome State Fault Refusal :=
  done (loadOp s d fe me 0x13 8 1 (fun s c w v => okG s c (wRd w) (BitVec.ofNat 64 v)))

/-- LDBS: RT ← 1 byte, sign-extended (R210). -/
def execLdbs (d fe me : Nat) (s : State) : Host.Outcome State Fault Refusal :=
  done (loadOp s d fe me 0x14 1 1 (fun s c w v => okG s c (wRd w) (BitVec.ofNat 64 (ofSigned 64 (toSigned 8 v)))))

/-- LDHS: RT ← 2 bytes, sign-extended (R210). -/
def execLdhs (d fe me : Nat) (s : State) : Host.Outcome State Fault Refusal :=
  done (loadOp s d fe me 0x15 2 1 (fun s c w v => okG s c (wRd w) (BitVec.ofNat 64 (ofSigned 64 (toSigned 16 v)))))

/-- LDWS: RT ← 4 bytes, sign-extended (R210). -/
def execLdws (d fe me : Nat) (s : State) : Host.Outcome State Fault Refusal :=
  done (loadOp s d fe me 0x16 4 1 (fun s c w v => okG s c (wRd w) (BitVec.ofNat 64 (ofSigned 64 (toSigned 32 v)))))

/-- VLDL: vector RT[3:0] ← 32 bytes (R210). -/
def execVldl (d fe me : Nat) (s : State) : Host.Outcome State Fault Refusal :=
  done (loadOp s d fe me 0x1C 32 2 (fun s c w v => okV s c (wRd w) (BitVec.ofNat 256 v)))

/-- STB: the low 1 byte of RT (R210). -/
def execStb (d fe : Nat) (s : State) : Host.Outcome State Fault Refusal :=
  done (storeOp s d fe 0x18 1 1 (fun c w => (getG c (wRd w)).toNat))

/-- STH: the low 2 bytes of RT (R210). -/
def execSth (d fe : Nat) (s : State) : Host.Outcome State Fault Refusal :=
  done (storeOp s d fe 0x19 2 1 (fun c w => (getG c (wRd w)).toNat))

/-- STW: the low 4 bytes of RT (R210). -/
def execStw (d fe : Nat) (s : State) : Host.Outcome State Fault Refusal :=
  done (storeOp s d fe 0x1A 4 1 (fun c w => (getG c (wRd w)).toNat))

/-- STD: the low 8 bytes of RT (R210). -/
def execStd (d fe : Nat) (s : State) : Host.Outcome State Fault Refusal :=
  done (storeOp s d fe 0x1B 8 1 (fun c w => (getG c (wRd w)).toNat))

/-- VSTL: 32 bytes from vector RT[3:0] (R210). -/
def execVstl (d fe : Nat) (s : State) : Host.Outcome State Fault Refusal :=
  done (storeOp s d fe 0x1D 32 2 (fun c w => (getV c (wRd w)).toNat))

end Sys2Proof.Machine
end

