-- ==== Sys2Proof/Machine/DocCtl.lean ====
section
/-! DEFINITION. Weawen transfers, vault and table reads, ledger adds, alarm lines and system functions, and the host
windows of the docents' memories (R205, R209, R216–R232, R238–R240, Tables 6.6, 6.11 and 6.12). -/

namespace Sys2Proof.Machine

/-! ### Transfers (R209) -/

/-- PC of the branch plus four times IMM16. -/
def branchTarget (c : JobCtx) (w : Nat) : Int := (ownPc c : Int) + 4 * toSigned 16 (wImm w)

/-- Is a BRP taken? RG[5] is N, RG[2:0] is p. -/
def brTaken (c : JobCtx) (w : Nat) : Bool := getP c (wRd w % 8) != (wRd w).testBit 5

/-- BRP: one step when not taken, two when taken. -/
def execBrp (d fe : Nat) (s : State) : Host.Outcome State Fault Refusal :=
  done (docRun s d fe (fun w => wordOk w && isOp 0x0C w) (fun c w => if brTaken c w then 2 else 1) (fun s c w =>
    if brTaken c w then jumpTo s c (branchTarget c w) else .ok c s))

/-- JAL: RG ← PC + 4, then the transfer. -/
def execJal (d fe : Nat) (s : State) : Host.Outcome State Fault Refusal :=
  done (docFix s d fe (isOp 0x0D) 2 (fun s c w =>
    jumpTo s (setG c (wRd w) (BitVec.ofNat 64 c.pc)) (branchTarget c w)))

/-- JR: PC ← RG + 4 × IMM16. -/
def execJr (d fe : Nat) (s : State) : Host.Outcome State Fault Refusal :=
  done (docFix s d fe (isOp 0x0E) 2 (fun s c w =>
    jumpTo s c ((getG c (wRd w) + BitVec.ofNat 64 (ofSigned 64 (4 * toSigned 16 (wImm w)))).toNat : Nat)))

/-! ### Vault gathers (R216–R219) -/

/-- The exhibit a VLD names (R216): modulo 2^64. -/
def vldIndex (c : JobCtx) (w : Nat) : Nat :=
  if c.job.kind ≤ 2 then (getG c 1 + getG c (wRb w)).toNat else (getG c (wRb w)).toNat

/-- Faults of a VLD of n bytes (R216). -/
def vldFaults (s : State) (c : JobCtx) (w n : Nat) : List (Nat × Option Nat) :=
  let b := getG c (wRb w)
  let e := vldIndex c w
  let acc := (getG c (wRa w)).toNat
  let off := 8 * wFn w
  let far := if c.job.kind ≤ 2 then 0 < b.toInt else 2 ^ 48 ≤ b.toNat
  (if far then [(0x1205, some (b.toNat % 2 ^ 32))] else []) ++
  (match getEx s e with
   | none => [(0x1204, some (e % 2 ^ 32))]
   | some x =>
     if x.st = .sealed then [(0x1204, some (e % 2 ^ 32))]
     else
       match (planAt s x.slot).bind (fun p => if acc ≤ 0x4003 then mapSlot p acc else none) with
       | none => [(0x1205, some (acc % 2 ^ 32))]
       | some (_, len) => if 64 * len < off + n then [(0x1205, some off)] else [])

/-- Does the VLD wait for the named exhibit's close event (R217)? -/
def vldOther (c : JobCtx) (e : Nat) : Bool := !(c.job.kind ≤ 2 && c.job.index = e)

/-- A VLD of n bytes: f stores the value (R218). -/
def vldOp (s : State) (d fe op n cost : Nat) (f : JobCtx → Nat → Nat → JobCtx) : State :=
  docFix s d fe (isOp op) cost (fun s c w =>
    let fs := vldFaults s c w n
    if !fs.isEmpty then .fault fs
    else
      let e := vldIndex c w
      match getEx s e with
      | none => .fault [(0x1204, some (e % 2 ^ 32))]
      | some x =>
        if vldOther c e && (x.st = .opened || x.st = .closing) then .wait (.vld e)
        else
          let acc := (getG c (wRa w)).toNat
          let top := if vldOther c e then 0 else c.job.revision
          let here := landed x acc && smGet 0 x.landRev acc ≤ top
          let v := if here then le (smGet [] x.slots acc) (8 * wFn w) n else 0
          .ok (setP (f c (wRd w) v) 7 here) s)

/-- VLDD (R216). -/
def execVldd (d fe : Nat) (s : State) : Host.Outcome State Fault Refusal :=
  done (vldOp s d fe 0x30 8 4 (fun c rd v => setG c rd (BitVec.ofNat 64 v)))

/-- VLDV (R216). -/
def execVldv (d fe : Nat) (s : State) : Host.Outcome State Fault Refusal :=
  done (vldOp s d fe 0x31 32 5 (fun c rd v => setV c rd (BitVec.ofNat 256 v)))

/-! ### Table reads (R220) -/

/-- A TBL of n bytes. -/
def tblOp (s : State) (d fe op n cost : Nat) (f : JobCtx → Nat → Nat → JobCtx) : State :=
  docFix s d fe (isOp op) cost (fun s c w =>
    let i := (getG c (wRa w)).toNat
    let o := (getG c (wRb w)).toNat
    match (planAt s c.job.slot).bind (fun p => ptable p (wFn w)) with
    | none => .fault [(0x1206, some (i % 2 ^ 32))]
    | some t =>
      if t.count ≤ i then .fault [(0x1206, some (i % 2 ^ 32))]
      else if o % n != 0 || t.esize < o + n then .fault [(0x1206, some (o % 2 ^ 32))]
      else .ok (f c (wRd w) (le t.data (t.esize * i + o) n)) s)

/-- TBLW, zero-extended (R220). -/
def execTblw (d fe : Nat) (s : State) : Host.Outcome State Fault Refusal :=
  done (tblOp s d fe 0x34 4 3 (fun c rd v => setG c rd (BitVec.ofNat 64 v)))

/-- TBLD (R220). -/
def execTbld (d fe : Nat) (s : State) : Host.Outcome State Fault Refusal :=
  done (tblOp s d fe 0x35 8 3 (fun c rd v => setG c rd (BitVec.ofNat 64 v)))

/-- TBLV (R220). -/
def execTblv (d fe : Nat) (s : State) : Host.Outcome State Fault Refusal :=
  done (tblOp s d fe 0x36 32 4 (fun c rd v => setV c rd (BitVec.ofNat 256 v)))

/-! ### Ledger adds (R221–R223) -/

/-- Is an LGA of the job accepted (R223)? -/
def lgaOpen (s : State) (j : Job) : Bool :=
  j.kind = 0 &&
    (match getEx s j.index with
     | some x => x.verdict && (1 ≤ j.revision || (bankOf s j.index (· == .held)).isSome)
     | none => false)

/-- An LGA: v gives the value delivered and whether its conversion was out of range. -/
def lgaOp (s : State) (d fe op : Nat) (v : JobCtx → Nat → DWord × Bool) : State :=
  docFix s d fe (isOp op) 2 (fun s c w =>
    let cell := (getG c (wRa w)).toNat
    let x := v c w
    let strict := regBit s Reg.docCfg 1
    let fs : List (Nat × Option Nat) :=
      (if lgaOpen s c.job then [] else [(0x1207, none)]) ++
      (if 4096 ≤ cell then [(0x1208, some (cell % 2 ^ 32))] else []) ++ (if x.2 && strict then [(0x120C, none)] else [])
    if !fs.isEmpty then .fault fs
    else
      let s := if x.2 then evt (bump s (Reg.docCnt 19)) Reg.docEvents 8 else s
      .ok c (lgaPost s { index := c.job.index, revision := c.job.revision, cell := cell, op := wFn w / 64, value := x.1 }))

/-- LGA (R221). -/
def execLga (d fe : Nat) (s : State) : Host.Outcome State Fault Refusal :=
  done (lgaOp s d fe 0x38 (fun c w => (getG c (wRd w), false)))

/-- LGAF: float64 × 2^F (R221). -/
def execLgaf (d fe : Nat) (s : State) : Host.Outcome State Fault Refusal :=
  done (lgaOp s d fe 0x39 (fun c w => fltToInt f64 (wFn w % 64) (getG c (wRd w)).toNat))

/-- LGAS: float32 × 2^F (R221). -/
def execLgas (d fe : Nat) (s : State) : Host.Outcome State Fault Refusal :=
  done (lgaOp s d fe 0x3A (fun c w => fltToInt f32 (wFn w % 64) (g32 c (wRd w))))

/-! ### Alarm lines and system functions (R224, Table 6.12) -/

/-- RAISE: the verdict unit has the change; it takes effect at a close event (R224, R280). -/
def execRaise (d fe : Nat) (s : State) : Host.Outcome State Fault Refusal :=
  done (docFix s d fe (isOp 0x3C) 2 (fun s c w =>
    if 1 ≤ c.job.revision then .ok c (evt (bump s (Reg.docCnt 18)) Reg.docEvents 0x10)
    else
      let r : PendRaise := { exhibit := if c.job.kind = 0 then some c.job.index else none, line := wFn w % 16,
                             value := 128 ≤ wFn w }
      .ok c { s with vrd := { s.vrd with pendRaise := s.vrd.pendRaise ++ [r] } }))

/-- NOP (R206). -/
def execNop (d fe : Nat) (s : State) : Host.Outcome State Fault Refusal :=
  done (docFix s d fe (isFn 0x3D 0x00) 1 (fun s c _ => .ok c s))

/-- YIELD (R232). -/
def execYield (d fe : Nat) (s : State) : Host.Outcome State Fault Refusal :=
  done (docFix s d fe (isFn 0x3D 0x01) 2 (fun _ _ _ => .yields))

/-- DONE: fence, then retirement (R228). -/
def execDone (d fe : Nat) (s : State) : Host.Outcome State Fault Refusal :=
  done (docFix s d fe (isFn 0x3D 0x02) 2 (fun _ _ _ => .retire none))

/-- FENCE (R231). -/
def execFence (d fe : Nat) (s : State) : Host.Outcome State Fault Refusal :=
  done (docFix s d fe (isFn 0x3D 0x03) 1 (fun s c _ => if jobPosted s c.job then .wait .fence else .ok c s))

/-- ABORT: fence, then FAULT 0x120A with USER (R236). -/
def execAbort (d fe : Nat) (s : State) : Host.Outcome State Fault Refusal :=
  done (docFix s d fe (isFn 0x3D 0x04) 1 (fun _ c w => .retire (some ((getG c (wRa w)).toNat % 65536))))

/-- The RDSYS selectors of Table 6.12. -/
def sysValue (s : State) (d : Nat) (c : JobCtx) (n : Nat) : Nat :=
  let j := c.job
  let has := j.kind ≤ 2
  let p := planAt s j.slot
  match n with
  | 0 => if has then j.index else 0
  | 1 => j.acc
  | 2 => j.arg % 2 ^ 32
  | 3 => j.revision
  | 4 => j.kind
  | 5 => if has then (match p with | some p => exhibitTime p.baseRate j.index | none => 0) else 0
  | 6 => c.steps
  | 7 => stepBudget s j
  | 8 => d
  | 9 => j.slot
  | 10 => (match p with | some p => p.planId | none => 0)
  | 11 => (match p with | some p => p.baseRate | none => 0)
  | 12 => if j.acc = 0xFFFF then 0 else (accBind s j.acc).toNat
  | 13 => s.raw
  | _ => if j.acc = 0xFFFF then 0 else
      match p.bind (fun p => mapSlot p j.acc) with
      | some (o, l) => 2 ^ 31 + l * 65536 + o
      | none => 0

/-- RDSYS: XD ← the value the XA field selects (R203). -/
def execRdsys (d fe : Nat) (s : State) : Host.Outcome State Fault Refusal :=
  done (docFix s d fe (isFn 0x3D 0x10) 1 (fun s c w => okG s c (wRd w) (BitVec.ofNat 64 (sysValue s d c (wRa w)))))

/-- ILLEGAL_INSTRUCTION: a word that is no instruction (R206). -/
def execIllegalInstruction (d fe : Nat) (s : State) : Host.Outcome State Fault Refusal := done (docIllegal s d fe)

/-! ### Host windows (R205, R239, R240) -/

/-- Latches words for a host port: later reads of the words' addresses return them (R17, R587). -/
def latchWords (s : State) (port tag : Nat) (ws : SMap Word) : State :=
  { s with host := { s.host with latch := smSet s.host.latch port { tag := tag, words := ws } } }

/-- A read of DOC_DRAM_DATA_LO of docent d; me is what the word's code found. -/
def dramWinRead (s : State) (port d me : Nat) : Word × State :=
  let a := regFld s (Reg.docDramAddr d) 16 0
  if a % 8 != 0 || 0x17FF8 < a then (0#32, refuse s Reg.docBase 0x1221)
  else
    let v := leNat (dramRead s d 0 a 8)
    let s := if me = 1 then memCorrected s else if 2 ≤ me then memFailed s else s
    let s := setRegN s (Reg.docDramAddr d) (a + 8)
    (BitVec.ofNat 32 v,
     latchWords s port (Reg.docDramAddr d + 4) [(Reg.docDramDataHi d, BitVec.ofNat 32 (v / 2 ^ 32))])

/-- A write of DOC_DRAM_DATA_LO. -/
def dramWinWrite (s : State) (d : Nat) (v : Word) : State :=
  let a := regFld s (Reg.docDramAddr d) 16 0
  if a % 8 != 0 || 0x17FF8 < a then refuse s Reg.docBase 0x1221
  else if (planSlot s (a / 0xC000)).st != .empty then refuse s Reg.docBase 0x1220
  else
    let s := dramWrite s d 0 a (leBytes 4 v.toNat ++ leBytes 4 (getReg s (Reg.docDramDataHi d)).toNat)
    setRegN s (Reg.docDramAddr d) (a + 8)

/-- A read of DOC_IRAM_DATA. -/
def iramWinRead (s : State) (d me : Nat) : Word × State :=
  let a := regFld s (Reg.docIramAddr d) 14 0
  if a % 4 != 0 then (0#32, refuse s Reg.docBase 0x1221)
  else
    let s := if me = 1 then memCorrected s else if 2 ≤ me then memFailed s else s
    (BitVec.ofNat 32 (iramAt s d 0 a), setRegN s (Reg.docIramAddr d) ((a + 4) % 0x8000))

/-- DRAM_WINDOW_READ (R239). -/
def execDramWindowRead (port d me : Nat) (s : State) : Host.Outcome State Fault Refusal :=
  done (let x := dramWinRead s port (d % 64) me; respond x.2 [x.1])

/-- DRAM_WINDOW_WRITE (R239). -/
def execDramWindowWrite (d : Nat) (v : Word) (s : State) : Host.Outcome State Fault Refusal :=
  done (dramWinWrite s (d % 64) v)

/-- IRAM_WINDOW_READ (R239). -/
def execIramWindowRead (d me : Nat) (s : State) : Host.Outcome State Fault Refusal :=
  done (let x := iramWinRead s (d % 64) me; respond x.2 [x.1])

/-- BACKGROUND_SCRUB of docent d (R205): a word with a single-bit error is corrected and counted, while SCRUB is 1 and
the docent holds no job. -/
def execBackgroundScrub (d me : Nat) (s : State) : Host.Outcome State Fault Refusal :=
  done (
    let x := docentOf s d
    if regBit s Reg.docCfg 0 && x.s0.isNone && x.s1.isNone && me = 1 then memCorrected s else s)

/-! ### Placement (R203, R247–R251) -/

/-- A docent of an affinity with a free slot: one with both free first, then the lowest number (R248). -/
def freeDocent (s : State) (aff : Nat) : Option Nat :=
  let can (d : Nat) : Bool := aff.testBit d
  match firstBelow 64 (fun d => can d && (docentOf s d).s0.isNone && (docentOf s d).s1.isNone) with
  | some d => some d
  | none => firstBelow 64 (fun d => can d && ((docentOf s d).s0.isNone || (docentOf s d).s1.isNone))

/-- The first entry of a level that a docent can take, its docent, and the level's rest. -/
def takeEntry (s : State) : List Job → Option (Job × Nat × List Job)
  | [] => none
  | j :: r =>
    match freeDocent s j.affinity with
    | some d => some (j, d, r)
    | none => (takeEntry s r).map (fun x => (x.1, x.2.1, j :: x.2.2))

/-- The entry placed next: of the highest level, the oldest a free slot can take. -/
def nextPlace (s : State) : Nat → Option (Nat × Job × Nat × List Job)
  | 0 => none
  | l + 1 =>
    match takeEntry s (level s l) with
    | some x => some (l, x)
    | none => nextPlace s l

/-- A job enters a local slot of a docent; a docent that runs nothing starts it (R203, R249). -/
def placeJob (s : State) (d : Nat) (j : Job) : State :=
  let x := docentOf s d
  let k := if x.s0.isNone then 0 else 1
  let s := setDocent s d (docSwitch (putCtx x k (some (startCtx j))))
  let w := s.raw - j.raised
  if (getReg s (Reg.dspWaitMax j.priority)).toNat < w then setRegN s (Reg.dspWaitMax j.priority) (Nat.min w 0xFFFFFFFF) else s

/-- JOB_PLACE (R247, R248). -/
def execJobPlace (s : State) : Host.Outcome State Fault Refusal :=
  done (
    if !(enabled s Reg.dspBase && enabled s Reg.docBase) then s
    else
      match nextPlace s 8 with
      | none => s
      | some (l, j, d, r) => placeJob (setLevel s l r) d j)

end Sys2Proof.Machine
end

