-- ==== Sys2Proof/Machine/DispatchCmds.lean ====
section
/-! DEFINITION. The dispatcher's sources: timers, doorbells, the event FIFO and what is held back on a level
(07_dispatch.md, sections 7.5 to 7.7). -/

namespace Sys2Proof.Machine

/-! ### Tests a held landing meets again -/

/-- Test 10 of Table 3.5 for a frame of accession n: TOO_LATE (R110). A frame that has landed would be no addendum. -/
def tooLate (s : State) (n e : Nat) : Bool :=
  match getEx s e with
  | some x => x.sealCond || (x.revision = 255 && x.st != .opened && !landed x n)
  | none =>
    match governing s e with
    | none => true
    | some k =>
      goneKind s e = 1 || (match planAt s k with | some p => timeReached s (sealTimeOf p e) | none => true)

/-- Test 13 of Table 3.5: DUPLICATE (R35). -/
def duplicate (s : State) (n e : Nat) : Bool := match getEx s e with | some x => landed x n | none => false

/-- A discard of Table 3.5 (R111, R112). -/
def accDiscard (s : State) (cause port acc index arrival sub : Nat) : State :=
  lastDiscard (bump s (Reg.accDisc (cause - 0x20))) cause port acc index arrival sub

/-! ### The order of R257 -/

/-- May a job leave the event FIFO: a replayed addendum's job waits for its exhibit's close event (R143, log entry 33)? -/
def jobDue (s : State) (j : Job) : Bool :=
  j.kind != 0 || (match getEx s j.index with | some x => x.st != .closing | none => true)

/-- Does the event FIFO hold an entry of a level that may leave it? -/
def fifoHas (s : State) (l : Nat) : Bool := s.dsp.evFifo.any (fun j => j.priority = l && jobDue s j)

/-- Level of a timer entry of the LIVE plan. -/
def timerLevel (s : State) (t : Nat) : Option (Nat × PTimer) :=
  match liveSlot s with
  | none => none
  | some k => ((planAt s k).bind (fun p => p.timers[t]?)).map (fun x => (tourLevel s k x.tour, x))

/-- The lowest pending timer entry of a level. -/
def pendingTimer (s : State) (l : Nat) : Option (Nat × Nat) :=
  s.dsp.timerPend.find? (fun p => (match timerLevel s p.1 with | some x => x.1 = l | none => false))

def hshHas (s : State) (l : Nat) : Bool := s.dsp.heldHsh.any (fun j => j.priority = l)

/-- The first job of a list on a level that may leave the list, and the rest. -/
def takeLevel (s : State) (l : Nat) : List Job → Option (Job × List Job)
  | [] => none
  | j :: r => if j.priority = l && jobDue s j then some (j, r) else (takeLevel s l r).map (fun x => (x.1, j :: x.2))

/-- The level's FULL state after a source left. -/
def levelEval (s : State) (l : Nat) : State := clearFull s l (landLevel s)

/-- EVENT_FIFO_RAISE: the oldest close or seal job of level l enters it (R256, R257). -/
def execEventFifoRaise (l : Nat) (s : State) : Host.Outcome State Fault Refusal :=
  done (
    if !levelRoom s l then s
    else
      match takeLevel s l s.dsp.evFifo with
      | none => s
      | some (j, r) => levelEval (enterJob { s with dsp := { s.dsp with evFifo := r } } j) l)

/-! ### Timers (R259–R261) -/

/-- The kind-3 job of a firing (Table 7.2). -/
def timerJob (s : State) (k t n tour : Nat) : Job := makeJob s k tour 3 0 0xFFFF 0 (t * 2 ^ 28 + n % 2 ^ 28)

/-- A timer's job enters its level and is counted. -/
def timerEnter (s : State) (k t n tour : Nat) : State := enterJob (bump s (Reg.dspTimerFired t)) (timerJob s k t n tour)

/-- Number of the first firing at or after a selected time in 1/8 ns. -/
def firstFiring (x : PTimer) (t8 : Int) : Nat := (-((8000 * (x.phase : Int) - t8) / (8000 * (Nat.max 1 x.period : Int)))).toNat

/-- The next firing of an entry that has not passed. -/
def nextFiring (s : State) (k t : Nat) (x : PTimer) : Nat :=
  match smFind s.dsp.timerNext t with
  | some n => n - 1
  | none => firstFiring x (planSlot s k).liveAt

/-- The timers of a plan go on with their first firing at or after a selected time in 1/8 ns. -/
def timersFrom (s : State) (p : Plan) (t8 : Int) : State :=
  (List.range p.timers.length).foldl (fun s t =>
    match p.timers[t]? with
    | some x => { s with dsp := { s.dsp with timerNext := smSet s.dsp.timerNext t (firstFiring x t8 + 1) } }
    | none => s) s

/-- TIMER_FIRE: the next instant of timer entry t has come (R259–R261). While DSP is disabled its job cannot enter its
level (R251), so the firing becomes pending. -/
def execTimerFire (t : Nat) (s : State) : Host.Outcome State Fault Refusal :=
  done (
    match liveSlot s, timerLevel s t with
    | some k, some (l, x) =>
      let n := nextFiring s k t x
      if !timeReached s (1000 * (x.phase + x.period * n)) then s
      else
        let s := { s with dsp := { s.dsp with timerNext := smSet s.dsp.timerNext t (n + 2) } }
        if !twinOwn s then s
        else if !s.tim.valid then bump s (Reg.dspCnt 25)
        else if (smFind s.dsp.timerPend t).isSome then
          logEvent (evt (bump s (Reg.dspCnt 24)) Reg.dspEvents 4) 0x0942 0xFFFF []
        else if levelOpen s l then timerEnter s k t n x.tour
        else markFull { s with dsp := { s.dsp with timerPend := smSet s.dsp.timerPend t (n + 1) } } l
    | _, _ => s)

/-- TIMER_PENDING_RAISE: the lowest pending timer of level l enters it (R257, R260). -/
def execTimerPendingRaise (l : Nat) (s : State) : Host.Outcome State Fault Refusal :=
  done (
    if !levelRoom s l || fifoHas s l then s
    else
      match liveSlot s, pendingTimer s l with
      | some k, some (t, n) =>
        (match timerLevel s t with
         | some (_, x) =>
           levelEval (timerEnter { s with dsp := { s.dsp with timerPend := smErase s.dsp.timerPend t } } k t (n - 1) x.tour) l
         | none => s)
      | _, _ => s)

/-- HELD_HIASH_JOB_RAISE: the first held Hiash job of level l enters it (R257). -/
def execHeldHiashJobRaise (l : Nat) (s : State) : Host.Outcome State Fault Refusal :=
  done (
    if !levelRoom s l || fifoHas s l || (pendingTimer s l).isSome then s
    else
      match takeLevel s l s.dsp.heldHsh with
      | none => s
      | some (j, r) => levelEval (enterJob { s with dsp := { s.dsp with heldHsh := r } } j) l)

/-! ### Held landings (R252, R253, R257) -/

/-- The first landing of a list on level l that no earlier one of its port precedes, and the others; before holds those
passed. -/
def takeHeldAfter (s : State) (l : Nat) (before : List Landing) : List Landing → Option (Landing × List Landing)
  | [] => none
  | x :: r =>
    if landLevel s x = l && !before.any (sameLane x) then some (x, before ++ r) else takeHeldAfter s l (before ++ [x]) r

/-- The first held landing of a level in the order of its port, and the rest (R33, R253, R257). -/
def takeHeld (s : State) (l : Nat) (held : List Landing) : Option (Landing × List Landing) := takeHeldAfter s l [] held

/-- The first test of Table 3.5 that a landing held since its admission now fails, 0 when none does: ACC disabled, time
not valid, the seal condition (Table 4.6), its accession retired meanwhile (R101), the other copy landed. A local frame
meets no DUPLICATE test (R117). -/
def heldCause (s : State) (l : Landing) : Nat :=
  let x := getAcc s l.acc
  let before : Bool := match getEx s l.index with | some v => v.openSeq < x.retireSeq | none => false
  if !enabled s Reg.accBase then 0x20
  else if !s.tim.valid then 0x29
  else if tooLate s l.acc l.index then 0x2C
  else if x.st = .vacant || x.st = .checking || x.commitSeq != l.commit || (x.st = .retired && !before) then 0x28
  else if l.port != 7 && duplicate s l.acc l.index then 0x2D
  else 0

/-- A held landing goes on, or is discarded. -/
def landHeld (s : State) (l : Landing) : State :=
  let s := lapsePast s
  let c := heldCause s l
  if c != 0 then accDiscard s c l.port l.acc l.index l.arrival l.sub else landFrame s l

/-- The estimates that wait behind a held local landing of Lm follow it in order, up to the first that lands or is held
(R255). -/
def nextLocalOf (s : State) (m : Nat) : List Landing → State
  | [] => { s with dsp := { s.dsp with localBuf := smPut [] s.dsp.localBuf m [] } }
  | l :: r =>
    let c := heldCause s l
    if c != 0 then nextLocalOf (accDiscard s c l.port l.acc l.index l.arrival l.sub) m r
    else reserveLand { s with dsp := { s.dsp with localBuf := smPut [] s.dsp.localBuf m r } } l

def nextLocal (s : State) (acc : Nat) : State :=
  nextLocalOf s (acc - 0x4000) (smGet [] s.dsp.localBuf (acc - 0x4000))

/-- The parser's key among the consumers of an ingress queue; a port's transmitters have 0 to 11. -/
def parserKey : Nat := 12

/-- Once no held landing of a port is left, the cells its frame kept in the ingress queue return (R253). -/
def heldCells (s : State) (port : Nat) : State :=
  if port < 6 && !(s.dsp.heldLand.any (fun h => h.port = port)) then consumerRelease s port parserKey else s

/-- The landing that waited behind one of its port is held on its own level now, unless that is open (R253, R258). -/
def laneNext (s : State) (x : Landing) : State :=
  match s.dsp.heldLand.find? (sameLane x) with
  | some y => if levelOpen s (landLevel s y) then s else markFull s (landLevel s y)
  | none => s

/-- HELD_LANDING_COMMIT: the first held landing of level l commits (R257). -/
def execHeldLandingCommit (l : Nat) (s : State) : Host.Outcome State Fault Refusal :=
  done (
    if !levelRoom s l || fifoHas s l || (pendingTimer s l).isSome || hshHas s l then s
    else
      match takeHeld s l s.dsp.heldLand with
      | none => s
      | some (x, r) =>
        let s := heldCells (landHeld { s with dsp := { s.dsp with heldLand := r } } x) x.port
        let s := if x.port = 7 then nextLocal s x.acc else s
        levelEval (laneNext s x) l)

/-! ### Doorbells (R262) -/

/-- The first failing cause of a doorbell, 0 when it is accepted. -/
def doorbellCause (s : State) (tour : Nat) : Nat :=
  if !enabled s Reg.dspBase then 0x0906
  else
    match livePlan s with
    | none => 0x0903
    | some p =>
      if !tourKind p tour 4 then 0x0904
      else if (match liveSlot s with | some k => levelOpen s (tourLevel s k tour) | none => false) then 0
      else 0x0905

/-- A doorbell refused with a cause of a block: RESULT, count and event (R262). -/
def doorbellRefuse (s : State) (port base c : Nat) : State :=
  evt (bump (refuse (setRegN s (portReg port Reg.dspDoorbellResult) c) base c) (Reg.dspCnt 26)) Reg.dspEvents 8

/-- A write of DSP_DOORBELL with RING 1 from a host port; refused on a twin standby (R523). -/
def doorbellRing (s : State) (port tour : Nat) : State :=
  if twinDrops s then doorbellRefuse s port Reg.twnBase 0x0705
  else
    let c := doorbellCause s tour
    if c = 0 then
      let s := setRegN s (portReg port Reg.dspDoorbellResult) 0
      match liveSlot s with
      | some k => enterJob s (makeJob s k tour 4 0 0xFFFF 0 (getReg s (portReg port Reg.dspDoorbellArg)).toNat)
      | none => s
    else doorbellRefuse s port Reg.dspBase c

/-- DOORBELL (R262). -/
def execDoorbell (port tour : Nat) (s : State) : Host.Outcome State Fault Refusal :=
  done (doorbellRing s (port % 2) (tour % 256))

/-! ### SWAP (R263) -/

/-- Waiting work of kinds 3–5 of the slot that becomes RETIRING is discarded and counted. -/
def swapDiscard (s : State) (slot : Nat) : State :=
  let old (j : Job) : Bool := 3 ≤ j.kind && j.slot = slot
  let n := sumNat (s.dsp.levels.map (fun l => (l.2.filter old).length)) + (s.dsp.heldHsh.filter old).length +
    s.dsp.timerPend.length
  let s := (List.range 8).foldl (fun s l => setLevel s l ((level s l).filter (fun j => !old j))) s
  let s := { s with dsp := { s.dsp with heldHsh := s.dsp.heldHsh.filter (fun j => !old j), timerPend := [],
                                        timerNext := [] } }
  bumpBy ((List.range 8).foldl levelEval s) (Reg.dspCnt 28) n

end Sys2Proof.Machine
end

