-- ==== Sys2Proof/Machine/Ethernet.lean ====
section
/-! DEFINITION. The Ethernet ports: receive tests, preemption, flow control, MACsec, 10BASE-T1S, link state and
transmission (10_ethernet_ports.md; R368, R370, R405 of the neighbouring chapters). -/

namespace Sys2Proof.Machine

/-! ### Registers of a port -/

def ethBase (p : Nat) : Nat := 0xE0000 + 0x2000 * p
def ethCnt (p c : Nat) : Nat := ethBase p + 0x100 + 4 * c
def ethOn (s : State) (p : Nat) : Bool := p < 6 && enabled s (ethBase p) && !absentAt s (ethBase p)
def ethMode (s : State) (p : Nat) : Nat := regFld s (ethBase p + 0x10) 2 0
def ethMaxLen (s : State) (p : Nat) : Nat := regFld s (ethBase p + 0x10) 29 16
def ethNoExpress (s : State) (p : Nat) : Bool := regBit s (ethBase p + 0x10) 9
def ethFlow (s : State) (p hi lo : Nat) : Nat := regFld s (ethBase p + 0x24) hi lo
def ethEvt (s : State) (p mask : Nat) : State := evt s (ethBase p + 0x54) mask
def ethHostQ (s : State) (p cls : Nat) : Nat :=
  if cls = 0 then regFld s (ethBase p + 0x2C) 26 16 else regFld s (ethBase p + 0x2C) 10 0

/-- A 64-bit octet counter n higher (section 10.9). -/
def addOctets (s : State) (a n : Nat) : State := setReg64 s a (a + 4) ((getReg64 s a (a + 4) + n) % 2 ^ 64)

/-- Bit rate of a port in Mbit/s (Table 10.1). -/
def ethMbps (s : State) (p : Nat) : Nat :=
  match ethMode s p with | 1 => 25000 | 2 => 10000 | 3 => 1000 | _ => 10

/-! ### The enable check (R336, R350, R354, R356, R359) -/

/-- The first failing cause of a port's enable, 0 when it may be enabled. -/
def ethCheck (s : State) (p : Nat) : Nat :=
  let b := ethBase p
  let mode := ethMode s p
  let fec := regFld s (b + 0x10) 5 4
  let mac := getReg64 s (b + 0x14) (b + 0x18)
  let tx := ethFlow s p 3 2
  let plca := getReg s (b + 0x40)
  if (if p < 4 then mode = 0 || 3 < mode else mode != 4 || s.part = .gld9610) then 0x01
  else if mac = 0 || mac.testBit 40 then 0x02
  else if fec = 3 || (fec = 2 && mode != 1) || (fec = 1 && 2 < mode) then 0x03
  else if tx = 3 || (tx = 2 && ethFlow s p 10 8 = ethFlow s p 6 4) || (tx != 0 && 4 ≤ p) then 0x04
  else if regBit s (b + 0x30) 0 && (4 ≤ p || !keyUsable s 0) then 0x05
  else if 4 ≤ p && bit plca 31 && (fld plca 23 16 = 255 || fld plca 7 0 = 0 || fld plca 15 8 = 0) then 0x06
  else if ethMaxLen s p < 1518 || 9216 < ethMaxLen s p then 0x07
  else if !isHostQueue s (ethHostQ s p 0) || !isHostQueue s (ethHostQ s p 1) then 0x08
  else 0

/-- The enable check of the parser's page (section 10.9). -/
def parserCheck (s : State) : Nat :=
  if isHostQueue s (regFld s Reg.ethParseCfg 26 16) && isHostQueue s (regFld s Reg.ethParseCfg 10 0) then 0 else 0x08

/-- The frame in reassembly is given up: the cells it occupies return (R340, R363). -/
def rxFree (s : State) (p : Nat) : State :=
  match (getPort s p).rx with
  | none => s
  | some r =>
    let s := setPort s p { getPort s p with rx := none }
    if r.cells = 0 then s else releaseCells s p r.cells

/-- ENABLE written 0 (Table 10.4, R626): a frame in reception is dropped, a frame being sent completes. -/
def ethDisabled (s : State) (p : Nat) : State :=
  let s := rxFree s p
  setPort s p { getPort s p with link := false, pe := .disabled }

/-! ### MACsec (R351–R354, R515) -/

def macsecOn (s : State) (p : Nat) : Bool := p < 4 && regBit s (ethBase p + 0x30) 0
def xpnOn (s : State) (p : Nat) : Bool := regBit s (ethBase p + 0x30) 1

/-- A port's own SCI: MAC address and port identifier 1 (R351). -/
def ownSci (s : State) (p : Nat) : Nat :=
  (getReg64 s (ethBase p + 0x14) (ethBase p + 0x18) % 2 ^ 48) * 65536 + 1

def peerSci (s : State) (p : Nat) : Nat := getReg64 s (ethBase p + 0x38) (ethBase p + 0x3C)

/-- The SAK of an SCI and association number under a working key (Table 17.4). -/
def sakOf (wk : List Byte) (sci an : Nat) : List Byte :=
  kdf wk (ascii "MACSEC-SAK") ((beBytes 8 sci ++ [BitVec.ofNat 8 an]).map (·.toNat))

/-- The nonce: SCI and packet number for GCM-AES-256; for XPN it is not stated. -/
def macsecIv (xpn : Bool) (sci an pn : Nat) : List Byte :=
  if xpn then beBytes 12 (Config.xpnNonce sci an pn).toNat else beBytes 8 sci ++ beBytes 4 pn

def isPtp (data : List Byte) : Bool := be data (etypeAt data) 2 = 0x88F7
def isMacControl (data : List Byte) : Bool := beNat (data.take 6) = 0x0180C2000001

/-- A received frame under MACsec: the counter of test 7 that takes it, or the frame without its tag and the port's
state after it (R353). -/
def macsecRx (s : State) (p : Nat) (data : List Byte) : Sum Nat (List Byte × PortSt) :=
  let x := getPort s p
  if be data 12 2 != 0x88E5 then
    if isMacControl data || (isPtp data && regBit s (ethBase p + 0x30) 3) then .inr (data, x) else .inl 7
  else
    let tci := le data 14 1
    let an := tci % 4
    let expl := tci.testBit 5
    let sci := if expl then be data 20 8 else beNat (slice data 6 6) * 65536 + 1
    let hdr := 12 + 8 + (if expl then 8 else 0)
    let next := (x.rxAn + 1) % 4
    if sci != peerSci s p || (an != x.rxAn && an != next) || !keyUsable s 0 || data.length < hdr + 16 then .inl 8
    else
      let low := be data 16 4
      let base := if an = x.rxAn then x.rxPn else 1
      let pn := if xpnOn s p then
          (let c := base / 2 ^ 32 * 2 ^ 32 + low; if c + 2 ^ 31 < base then c + 2 ^ 32 else c)
        else low
      let wk := if an = x.rxAn && x.rxWk.isSome then x.rxWk else s.key.wk
      match wk with
      | none => .inl 8
      | some wk =>
        let key := sakOf wk sci an
        let iv := macsecIv (xpnOn s p) sci an pn
        let body := slice data hdr (data.length - hdr - 16)
        let icv := data.drop (data.length - 16)
        let enc := tci.testBit 3
        let good := if enc then gcmTag key iv (data.take hdr) body = icv
          else gmac key iv (data.take hdr ++ body) = icv
        if !good then .inl 9
        else if pn + (getReg s (ethBase p + 0x34)).toNat < base then .inl 10
        else
          let plain := if enc then gcmCrypt key iv body else body
          let x := if an = x.rxAn then { x with rxPn := Nat.max x.rxPn (pn + 1) }
            else { x with rxAn := an, rxPn := pn + 1, rxWk := none }
          .inr (data.take 12 ++ plain, x)

/-- Moves the transmit channel to the next association (R352). -/
def saAdvance (s : State) (p : Nat) : State :=
  let x := getPort s p
  let s := setPort s p { x with txAn := (x.txAn + 1) % 4, txPn := 1, txAdvance := false }
  logEvent (ethEvt (bump (bump s (ethCnt p 29)) (Reg.keyCnt 3)) p 8) 0x0F43 p []

/-- Must a frame of the port be protected? PTP frames follow PTP_CLEAR (R353). -/
def needsMacsec (s : State) (p : Nat) (data : List Byte) : Bool :=
  macsecOn s p && !(isPtp data && regBit s (ethBase p + 0x30) 3)

/-- A frame as it goes onto the wire, without FCS: padded to the minimum and protected when it must be. -/
def wireOf (s : State) (p : Nat) (data : List Byte) : List Byte × State :=
  let data := padTo (Nat.max 60 data.length) data
  if !needsMacsec s p data then (data, s)
  else
    let s := if (getPort s p).txAdvance then saAdvance s p else s
    let x := getPort s p
    match s.key.wk with
    | none => (data, s)
    | some wk =>
      let sci := ownSci s p
      let conf := regBit s (ethBase p + 0x30) 2
      let key := sakOf wk sci x.txAn
      let iv := macsecIv (xpnOn s p) sci x.txAn x.txPn
      let body := data.drop 12
      let sl := if body.length < 48 then body.length else 0
      let hdr := data.take 12 ++ beBytes 2 0x88E5 ++ beBytes 1 (0x20 + (if conf then 0xC else 0) + x.txAn) ++
        beBytes 1 sl ++ beBytes 4 x.txPn ++ beBytes 8 sci
      let out := if conf then
          (let ct := gcmCrypt key iv body; hdr ++ ct ++ gcmTag key iv hdr ct)
        else hdr ++ body ++ gmac key iv (hdr ++ body)
      let s := setPort s p { x with txPn := x.txPn + 1 }
      let limit := if xpnOn s p then 2 ^ 64 - 2 ^ 16 else 0xFFFF0000
      (out, if limit ≤ x.txPn + 1 then saAdvance s p else s)

/-! ### Pause received (R341, R347, R348) -/

/-- Raw time at which a pause of some quanta of 512 bit times ends; 0 quanta end it. -/
def pauseEnd (s : State) (p quanta : Nat) : Nat :=
  if quanta = 0 then 0 else s.raw + ceilDiv (quanta * 512 * 1000) (ethMbps s p)

/-- A pause of classes (bit 0 express, bit 1 preemptable) with a quanta of each. -/
def pauseSet (s : State) (p : Nat) (exp pre : Option Nat) : State :=
  let s := bump s (ethCnt p 12)
  if 4 ≤ p || !regBit s (ethBase p + 0x24) 11 then s
  else
    let x := getPort s p
    let x := match exp with | some q => { x with pauseExp := pauseEnd s p q } | none => x
    let x := match pre with
      | some q => { x with pausePre := pauseEnd s p q, pauseFrom := if x.pausePre ≤ s.raw then s.raw else x.pauseFrom }
      | none => x
    setPort s p x

/-- A PFC frame's priorities (mask) and their quanta (R348). -/
def pfcSet (s : State) (p mask : Nat) (quanta : List Nat) : State :=
  let q (pri : Nat) : Option Nat :=
    if mask.testBit pri then some (match quanta[pri]? with | some v => v | none => 0) else none
  pauseSet s p (q (ethFlow s p 10 8)) (q (ethFlow s p 6 4))

/-- A MAC control frame is consumed by the MAC (R341, R347, R348). Its layout is IEEE 802.3's, to which the rules
refer (PRESUMED, log entry 23): type 0x8808, operation 0x0001 PAUSE with its quanta, 0x0101 PFC with a mask and eight
quanta. Any other is dropped. -/
def macControl (s : State) (p : Nat) (data : List Byte) : State :=
  if be data 12 4 = 0x88080001 then pauseSet s p (some (be data 16 2)) (some (be data 16 2))
  else if be data 12 4 = 0x88080101 then
    pfcSet s p (be data 16 2 % 256) ((List.range 8).map (fun k => be data (18 + 2 * k) 2))
  else s

/-! ### Receive (R339–R341, R353, R625) -/

/-- The address filter (R341). -/
def addrAccepts (s : State) (p : Nat) (da : List Byte) : Bool :=
  let b := ethBase p
  let a := beNat da
  a = getReg64 s (b + 0x14) (b + 0x18) % 2 ^ 48 || (a = 0xFFFFFFFFFFFF && regBit s (b + 0x1C) 0) || regBit s (b + 0x1C) 1 ||
    (List.range 16).any (fun m => regBit s (b + 0x64 + 8 * m) 31 &&
      a = (getReg s (b + 0x60 + 8 * m)).toNat + regFld s (b + 0x64 + 8 * m) 15 0 * 2 ^ 32)

/-- A complete frame, FCS checked: tests 6 to 8 (Table 10.2). It occupies r.cells cells, which return with the count of a
failing test (R340). MAC control frames are consumed here. -/
def rxWhole (s : State) (p len : Nat) (r : RxFrag) : State :=
  let free (s : State) : State := if r.cells = 0 then s else releaseCells s p r.cells
  if isMacControl r.data then macControl (free s) p r.data
  else if !addrAccepts s p (r.data.take 6) then bump (free s) (ethCnt p 6)
  else
    match (if macsecOn s p then macsecRx s p r.data else .inr (r.data, getPort s p)) with
    | .inl c => bump (free s) (ethCnt p c)
    | .inr (d, x) =>
      let s := setPort s p x
      let n := cellsFor d.length
      if !r.full && (n ≤ r.cells || canTake s p (n - r.cells)) then
        let s := addOctets (bump s (ethCnt p 0)) (ethBase p + 0x200) len
        let s := if n < r.cells then releaseCells s p (r.cells - n)
          else if r.cells < n then takeCells s p (n - r.cells) else s
        linkPacket s p { source := 0xF, port := p, arrival := r.arrival, sub := r.sub, data := d }
      else bump (bump (free s) (ethCnt p 11)) (Reg.queCnt 2)

/-- A frame or fragment fails a test of rows 1 to 5: counted once, its frame's cells return. Of a frame whose further
fragments may follow (kinds 2 and 3), those are not counted (R339). -/
def rxFail (s : State) (p kind c : Nat) : State :=
  let s := bump s (ethCnt p c)
  if kind < 2 then s
  else
    let s := rxFree s p
    let r : RxFrag := { data := [], next := 0, smd := 0, arrival := 0, sub := 0, cells := 0, full := false, dead := true }
    if kind = 4 then s else setPort s p { getPort s p with rx := some r }

/-- A frame in reassembly takes the cells of its bytes so far (R361); one that is refused fails test 8 at its end. -/
def rxKeep (s : State) (p : Nat) (r : RxFrag) : State :=
  let n := cellsFor r.data.length
  let take : Bool := !r.full && r.cells < n
  let ok := canTake s p (n - r.cells)
  let s' := if take && ok then takeCells s p (n - r.cells) else s
  let r' := if !take then r else if ok then { r with cells := n } else { r with full := true }
  bump (setPort s' p { getPort s' p with rx := some r' }) (ethCnt p 13)

/-- A new preemptable frame begins while one is in reassembly: that one's final fragment is missing (R339). -/
def rxUnfinished (s : State) (p : Nat) : State :=
  match (getPort s p).rx with
  | none => s
  | some r => if r.dead then rxFree s p else bump (rxFree s p) (ethCnt p 5)

/-- A fragment or frame that passed tests 1 to 3: tests 4 and 5. kind: 0 express frame, 1 preemptable frame, 2 first
fragment, 3 further fragment, 4 final fragment; cnt is the fragment count, smd the frame number of its SMD. -/
def rxPart (s : State) (p len kind cnt smd arrival sub : Nat) (data : List Byte) : State :=
  let ovr (n : Nat) : Bool := ethMaxLen s p < n
  let new : RxFrag :=
    { data := data, next := 0, smd := smd, arrival := arrival, sub := sub, cells := 0, full := false, dead := false }
  if kind < 3 then
    (if ovr len then rxFail s p kind 4 else if kind < 2 then rxWhole s p len new else rxKeep s p new)
  else
    match (getPort s p).rx with
    | none => bump s (ethCnt p 5)
    | some r =>
      let all := r.data ++ data
      if ovr (all.length + 4) then rxFail s p kind 4
      else if cnt != r.next || smd != r.smd then rxFail s p kind 5
      else if kind = 3 then rxKeep s p { r with data := all, next := (r.next + 1) % 4 }
      else rxWhole (setPort s p { getPort s p with rx := none }) p (all.length + 4) { r with data := all }

/-- The row of tests 1 to 3 a frame or fragment fails (Table 10.2, R625): cut off by a new delimiter, a frame counts RUNT
when it holds fewer than 64 bytes, else CODE. -/
def rxEarly (held len flags : Nat) : Option Nat :=
  if flags.testBit 2 then some (if held + len < 64 then 1 else 2)
  else if len < 64 then some 1
  else if flags.testBit 0 then some 2
  else if flags.testBit 1 then some 3
  else none

/-- FRAME_RECEIVE (R339, R625): a frame or fragment of len bytes, FCS or mCRC included, whose bytes before it are data.
flags: bit 0 code error or broken octet, bit 1 FCS or mCRC wrong, bit 2 cut off by a new delimiter. kind 5 is a verify
mPacket, which an enabled port answers (R342). arrival and sub are those of its delimiter; a preempted frame's are those of
its first fragment (R338). -/
def execFrameReceive (p len flags kind : Nat) (marks : FragMarks) (arrival sub : Nat) (data : List Byte) (s : State) :
    Host.Outcome State Fault Refusal :=
  done (
    if !ethOn s p then s
    else if kind = 5 then setPort s p { getPort s p with out := .respond :: (getPort s p).out }
    else
      let s := if kind = 1 || kind = 2 then rxUnfinished s p else s
      let open_ := if kind < 3 then none else (getPort s p).rx
      if (match open_ with | some r => r.dead | none => false) then (if kind = 4 then rxFree s p else s)
      else
        match rxEarly (match open_ with | some r => r.data.length | none => 0) len flags with
        | some c => rxFail s p kind c
        | none => rxPart s p len kind marks.cnt marks.smd arrival sub data)

/-! ### Link and preemption states (R342, R358, R626) -/

/-- A class's key among the consumers of a queue. -/
def txKey (p cls : Nat) : Nat := 2 * p + cls

/-- What a transmitter has begun of a class. -/
def txOf (x : PortSt) (cls : Nat) : Option TxPart := if cls = 0 then x.express else x.part
def setTx (s : State) (p cls : Nat) (t : Option TxPart) : State :=
  setPort s p (if cls = 0 then { getPort s p with express := t } else { getPort s p with part := t })

/-- The frame a port has begun of a class is cut off or dropped: its cells return. -/
def dropTx (s : State) (p cls : Nat) : State :=
  match txOf (getPort s p) cls with
  | none => s
  | some t => consumerRelease (setTx s p cls none) t.queue (txKey p cls)

/-- A link loss cuts a frame off (Table 10.4). -/
def abortTx (s : State) (p cls : Nat) : State :=
  if (txOf (getPort s p) cls).isSome then bump (dropTx s p cls) (ethCnt p 19) else s

/-- A port's block is reset: what it holds of queues returns. -/
def portReset (s : State) (p : Nat) : State := setPort (dropTx (dropTx (rxFree s p) p 0) p 1) p PortSt.reset

/-- LINK_DOWN (R358, R626): a frame in reception is dropped as CODE, unless its loss is already counted. -/
def execLinkDown (p : Nat) (s : State) : Host.Outcome State Fault Refusal :=
  done (
    if !ethOn s p || !(getPort s p).link then s
    else
      let s := match (getPort s p).rx with
        | some r => if r.dead then rxFree s p else bump (rxFree s p) (ethCnt p 2)
        | none => s
      let s := abortTx (abortTx s p 0) p 1
      let s := setPort s p { getPort s p with link := false, pe := .disabled }
      logEvent (ethEvt (bump s (ethCnt p 23)) p 1) 0x0F40 p [])

/-- LINK_UP (R342, R626). -/
def execLinkUp (p : Nat) (s : State) : Host.Outcome State Fault Refusal :=
  done (
    if !ethOn s p || (getPort s p).link then s
    else
      let pe := if 4 ≤ p then PeState.disabled else if regBit s (ethBase p + 0x20) 0 then .active else .verifying
      let s := setPort s p { getPort s p with link := true, pe := pe, verifies := 0 }
      logEvent (ethEvt s p 2) 0x0F41 p [])

/-- VERIFY_MPACKET_TIMER (R342): VERIFY_MS after the last one, a verify mPacket goes out, or the third one has gone
unanswered. The first goes out at link up. -/
def execVerifyMpacketTimer (p : Nat) (s : State) : Host.Outcome State Fault Refusal :=
  done (
    let x := getPort s p
    let due := x.verAt + 1000000 * (regFld s (ethBase p + 0x20) 14 8 + 1)
    if !ethOn s p || x.pe != .verifying || (x.verifies != 0 && s.raw < due) then s
    else if x.verifies < 3 then
      setPort s p { x with verifies := x.verifies + 1, verAt := s.raw, out := .verify :: x.out }
    else logEvent (ethEvt (bump (setPort s p { x with pe := .failed }) (ethCnt p 22)) p 4) 0x0F42 p [])

/-- RESPOND_MPACKET_RECEIVED (R342). -/
def execRespondMpacketReceived (p : Nat) (s : State) : Host.Outcome State Fault Refusal :=
  done (
    let x := getPort s p
    if ethOn s p && x.pe = .verifying then setPort s p { x with pe := .active } else s)

/-! ### Pause (R347–R349) -/

/-- PAUSE_RECEIVED (R347). -/
def execPauseReceived (p quanta : Nat) (s : State) : Host.Outcome State Fault Refusal :=
  done (if ethOn s p then pauseSet s p (some quanta) (some quanta) else s)

/-- PFC_RECEIVED (R348): the priorities the frame names and their quanta. -/
def execPfcReceived (p mask : Nat) (quanta : List Nat) (s : State) : Host.Outcome State Fault Refusal :=
  done (if ethOn s p then pfcSet s p mask quanta else s)

/-- PAUSE_EXPIRE (R347). -/
def execPauseExpire (p : Nat) (s : State) : Host.Outcome State Fault Refusal :=
  done (
    let x := getPort s p
    setPort s p { x with pauseExp := if x.pauseExp ≤ s.raw then 0 else x.pauseExp,
                         pausePre := if x.pausePre ≤ s.raw then 0 else x.pausePre })

/-- PAUSE_RENEW (R349): half of PAUSE_QUANTA has passed, with flow control asserted, since it was asserted or renewed. -/
def execPauseRenew (p : Nat) (s : State) : Host.Outcome State Fault Refusal :=
  done (
    let x := getPort s p
    let q := ethFlow s p 31 16
    if ethOn s p && x.flowOn && ethFlow s p 3 2 != 0 && x.flowAt + ceilDiv (q * 256 * 1000) (ethMbps s p) ≤ s.raw then
      setPort s p { x with flowTx := x.flowTx ++ [q], flowAt := s.raw }
    else s)

/-- HOLD_END (R346): the moment after C + 1.3 µs at which no express frame waits or is in
transmission. -/
def execHoldEnd (p : Nat) (s : State) : Host.Outcome State Fault Refusal :=
  done (
    let x := getPort s p
    if x.hold && x.holdEnd ≤ s.raw && x.express.isNone && (getQ s (6 + p)).pkts.isEmpty &&
        (getQ s (ethHostQ s p 0)).pkts.isEmpty then
      setPort s p { x with hold := false }
    else s)

/-! ### Transmission (R343–R347, R352, R358, R370, R405) -/

/-- The queue a class sends from next, alternating when both hold packets (R370). -/
def txPick (s : State) (p cls : Nat) : Option Nat :=
  let dev := (if cls = 0 then 6 else 12) + p
  let host := ethHostQ s p cls
  let x := getPort s p
  let alt := if cls = 0 then x.altExp else x.altPre
  let d := !(getQ s dev).pkts.isEmpty
  let h := isHostQueue s host && !(getQ s host).pkts.isEmpty
  if d && h then some (if alt then host else dev) else if d then some dev else if h then some host else none

/-- Takes the head of a queue for a transmitter; its cells stay held until they are released. -/
def txTake (s : State) (p cls q : Nat) : Option (Packet × State) :=
  let x := getQ s q
  match x.pkts with
  | [] => none
  | k :: r =>
    let s := setQ s q { x with pkts := r, txCells := smSet x.txCells (txKey p cls) (cellsFor k.data.length) }
    let y := getPort s p
    some (k, irqEval (setPort s p (if cls = 0 then { y with altExp := q < 64 } else { y with altPre := q < 64 })))

def txtsBase (p : Nat) : Nat := 0x30800 + 0x20 * p

/-- The transmit timestamp of a PTP event message, at8 its delimiter's raw time in 1/8 ns (R405). -/
def stampTx (s : State) (p at8 : Nat) (data : List Byte) : State :=
  let o := etypeAt data + 2
  if isPtp data && le data o 1 % 16 < 4 then
    let l := smGet [] s.tim.txts p
    if l.length < 16 then
      let t : TxStamp := { msgType := le data o 1 % 16, domain := le data (o + 4) 1, seqId := be data (o + 30) 2,
                           raw := at8 / 8, sub := at8 % 8 }
      { s with tim := { s.tim with txts := smPut [] s.tim.txts p (l ++ [t]) } }
    else
      let s := bump s (txtsBase p + 0x14)
      if regBit s (txtsBase p + 0x10) 8 then s
      else
        let s := setReg s (txtsBase p + 0x10) (setBit (getReg s (txtsBase p + 0x10)) 8 true)
        logEvent (evt s Reg.timEvents 0x40) 0x0444 p []
  else s

/-- A frame has gone: counters, timestamp of its first delimiter (R338), output, collision count (R355), the frames of a
transmit opportunity (R356). A cut-through copy that ends with a bad FCS (R313) is no good frame. -/
def txDone (s : State) (p cls : Nat) (t : TxPart) (o : Sent) : State :=
  let x := getPort s p
  let s := setPort s p { x with coll := 0, plcaSent := x.plcaSent + 1, plcaEnd := s.raw,
                                out := (if t.pkt.bad then .badFcs t.wire else o) :: x.out }
  if t.pkt.bad then s
  else
    let s := bump s (ethCnt p 14)
    let s := if cls = 0 then bump s (ethCnt p 15) else s
    let s := addOctets s (ethBase p + 0x208) (t.wire.length + 4)
    let s := if x.coll = 1 then bump s (ethCnt p 24) else if 1 < x.coll then bump s (ethCnt p 25) else s
    stampTx s p t.start8 t.pkt.data

/-- May a frame's start carry its protection: a protected frame needs a usable key (R354)? -/
def txKeyed (s : State) (p q : Nat) : Bool :=
  match (getQ s q).pkts with
  | k :: _ => !needsMacsec s p k.data || keyUsable s 0
  | [] => false

/-- Sends a flow-control frame, ahead of both classes (R349, R373). -/
def txFlow (s : State) (p : Nat) : State :=
  let x := getPort s p
  match x.flowTx with
  | [] => s
  | q :: r =>
    let mask := if ethFlow s p 3 2 = 2 then regFld s (ethBase p + 0x28) 7 0 else 0
    bump (setPort s p { x with flowTx := r, out := .pause mask q :: x.out }) (ethCnt p 17)

/-- Is an express frame waiting that may be sent now? -/
def expressReady (s : State) (p : Nat) : Bool :=
  (txPick s p 0).isSome && (getPort s p).pauseExp ≤ s.raw

/-- A frame at the head of a class while the link is down: discarded (R358). -/
def txDiscard (s : State) (p cls : Nat) : State :=
  match txPick s p cls with
  | none => s
  | some q => (match txTake s p cls q with
    | some (_, s) => bump (consumerRelease s q (txKey p cls)) (ethCnt p 20)
    | none => s)

/-- Is a frame or fragment of a class on the wire? -/
def onAir (s : State) (p cls : Nat) : Bool := match txOf (getPort s p) cls with | some t => t.live | none => false
def wireFree (s : State) (p : Nat) : Bool := !onAir s p 0 && !onAir s p 1

/-- Is PLCA in force on a port (R355, R356)? -/
def plcaOn (s : State) (p : Nat) : Bool := regBit s (ethBase p + 0x40) 31 && (getPort s p).plca

/-- May a port start a frame by its medium? A T1S port under PLCA in its transmit opportunity, which comes NODE_ID times
TO_TIMER after the beacon at the earliest and takes 1 + MAX_BC frames, each within BURST_TMR of the one before (R356;
PRESUMED from IEEE 802.3cg, log entry 23); else once its backoff has passed (R355). -/
def mediumMay (s : State) (p : Nat) : Bool :=
  let x := getPort s p
  let w := getReg s (ethBase p + 0x40)
  let b := getReg s (ethBase p + 0x44)
  if p < 4 then true
  else if plcaOn s p then
    x.lastBeacon + 100 * fld w 23 16 * fld w 7 0 ≤ s.raw &&
      (x.plcaSent = 0 || (x.plcaSent ≤ fld b 7 0 && s.raw ≤ x.plcaEnd + 100 * fld b 15 8))
  else x.backoff ≤ s.raw

/-- May the preemptable class start or go on: preemption active or NO_EXPRESS on P0–P3 (R344), no HOLD (R346), no
pause, and no express frame that can go first? -/
def preMay (s : State) (p : Nat) : Bool :=
  let x := getPort s p
  (4 ≤ p || x.pe = .active || ethNoExpress s p) && !x.hold && x.pausePre ≤ s.raw && !expressReady s p

/-- May a class start a frame or a fragment now? -/
def classMay (s : State) (p cls : Nat) : Bool :=
  ethOn s p && wireFree s p && mediumMay s p && (if cls = 0 then (getPort s p).pauseExp ≤ s.raw else preMay s p)

/-- The raw time at which the first reason for a preemption came up: HOLD, a pause of the class, or an express frame that can
go, by its arrival (R343, R346, R347). -/
def cutReason (s : State) (p : Nat) : Option Nat :=
  let x := getPort s p
  let exp := if !expressReady s p then none
    else (txPick s p 0).bind (fun q => (getQ s q).pkts.head?.map (·.arrival))
  let rs := (if x.hold then [x.holdFrom] else []) ++ (if s.raw < x.pausePre then [x.pauseFrom] else []) ++ exp.toList
  match rs with
  | [] => none
  | r :: l => some (l.foldl Nat.min r)

/-- Data bytes of the fragment in transmission on the wire at a raw time: its SMD, and a continuation's count, come before
them. -/
def onWire (s : State) (p : Nat) (t : TxPart) (at_ : Nat) : Nat :=
  (8 * at_ - t.frag8) * ethMbps s p / 64000 - (if t.sent = 0 then 1 else 2)

/-- Where the fragment in transmission is preempted: the first point after the reason came up that R343 allows. -/
def cutPoint (s : State) (p : Nat) (t : TxPart) : Option Nat :=
  match cutReason s p with
  | none => none
  | some r =>
    let n := Nat.max (64 * (1 + regFld s (ethBase p + 0x20) 3 2) - 4) (4 * ceilDiv (onWire s p t r) 4)
    if (getPort s p).pe = .active && t.sent + n + 64 ≤ t.wire.length + 4 then some n else none

/-- A class starts: the remainder of a preempted frame, or the frame at the head of its next queue. -/
def txBegin (s : State) (p cls at8 : Nat) : State :=
  match txOf (getPort s p) cls with
  | some t => setTx s p cls (some { t with frag8 := at8, live := true })
  | none =>
    match txPick s p cls with
    | none => s
    | some q =>
      if !txKeyed s p q then s
      else
        match txTake s p cls q with
        | none => s
        | some (k, s) =>
          let w := wireOf s p k.data
          let s := w.2
          let x := getPort s p
          let s := if cls = 1 then setPort s p { x with txSmd := (x.txSmd + 1) % 4 } else s
          setTx s p cls (some { queue := q, pkt := k, wire := w.1, sent := 0, count := 0, smd := x.txSmd, start8 := at8,
                                frag8 := at8, live := true })

/-- A fragment of n bytes of a preemptable frame has gone and the frame is preempted. -/
def txFragment (s : State) (p n : Nat) (t : TxPart) : State :=
  let s := setTx (bump s (ethCnt p 16)) p 1
    (some { t with sent := t.sent + n, count := if t.sent = 0 then 0 else (t.count + 1) % 4, live := false })
  let x := getPort s p
  setPort s p { x with out := .fragment (t.sent = 0) false t.smd t.count (slice t.wire t.sent n) :: x.out }

/-- The frame or fragment of a class on the wire goes on to its end, or to the point at which it is preempted. -/
def txFinish (s : State) (p cls : Nat) : State :=
  match txOf (getPort s p) cls with
  | none => s
  | some t =>
    match (if cls = 1 then cutPoint s p t else none) with
    | some n => txFragment s p n t
    | none =>
      let o : Sent := if t.sent = 0 then .frame (cls = 0) t.wire else .fragment false true t.smd t.count (t.wire.drop t.sent)
      consumerRelease (txDone (setTx s p cls none) p cls t o) t.queue (txKey p cls)

/-- FRAME_TRANSMIT (R370): port p sends of a class (0 express, 1 preemptable). What is on the wire goes on to its end, or to
its preemption; else the class starts, at8 being the raw time of the delimiter in 1/8 ns, and with `start` stays on the
wire. Flow control goes at the next boundary, ahead of both classes (R373). Where no rule lets the port send, nothing
happens; a port that is disabled still completes what it has begun (Table 10.4). -/
def execFrameTransmit (p cls : Nat) (start : Bool) (at8 : Nat) (s : State) : Host.Outcome State Fault Refusal :=
  done (
    let x := getPort s p
    let cls := if cls = 0 then 0 else 1
    if 6 ≤ p then s
    else if ethOn s p && !x.link then txDiscard s p cls
    else if x.link && wireFree s p && !x.flowTx.isEmpty then txFlow s p
    else if onAir s p cls then (if start then s else txFinish s p cls)
    else if classMay s p cls || (!ethOn s p && (txOf x cls).isSome && wireFree s p) then
      let s := txBegin s p cls at8
      if start then s else if onAir s p cls then txFinish s p cls else s
    else s)

/-! ### 10BASE-T1S (R355–R357) -/

/-- A frame on the wire that is to be sent again returns to the head of its queue, which is its class's next; one of a host
queue disabled meanwhile is gone. -/
def txUnsend (s : State) (p cls : Nat) : State :=
  match txOf (getPort s p) cls with
  | none => s
  | some t =>
    let s := setTx s p cls none
    let y := getPort s p
    let s := setPort s p (if cls = 0 then { y with altExp := 64 ≤ t.queue } else { y with altPre := 64 ≤ t.queue })
    let x := getQ s t.queue
    if t.queue < 64 || isHostQueue s t.queue then
      setQ s t.queue { x with pkts := t.pkt :: x.pkts, txCells := smErase x.txCells (txKey p cls) }
    else consumerRelease s t.queue (txKey p cls)

/-- The head frame of a class is dropped after collisions. -/
def collDrop (s : State) (p cls : Nat) : State :=
  let s := match txPick s p cls with
    | none => s
    | some q => (match txTake s p cls q with | some (_, s) => consumerRelease s q (txKey p cls) | none => s)
  setPort s p { getPort s p with coll := 0 }

/-- T1S_COLLISION (R355): a collision of the frame of a class; late after its first 512 bits. After the nth the port waits r
slot times of 51.2 µs, r drawn from 0 to 2^min(n, 10) − 1: a free value. PLCA in force keeps the medium free of
collisions. -/
def execT1sCollision (p cls : Nat) (late : Bool) (s : State) : Host.Outcome State Fault Refusal :=
  done (
    if !ethOn s p || p < 4 || plcaOn s p then s
    else
      let s := txUnsend s p cls
      let x := getPort s p
      if (txPick s p cls).isNone then s
      else if late then bump (collDrop s p cls) (ethCnt p 26)
      else if 15 ≤ x.coll then bump (collDrop s p cls) (ethCnt p 27)
      else
        let r := freeBelow s (2 ^ Nat.min (x.coll + 1) 10)
        nextFree (setPort s p { x with coll := x.coll + 1, backoff := s.raw + 51200 * r }))

/-- PLCA_BEACON (R357): received, or sent as coordinator (node 0). -/
def execPlcaBeacon (p : Nat) (s : State) : Host.Outcome State Fault Refusal :=
  done (
    let x := getPort s p
    if !ethOn s p || p < 4 || !regBit s (ethBase p + 0x40) 31 then s
    else
      let out := if regFld s (ethBase p + 0x40) 23 16 = 0 then .beacon :: x.out else x.out
      setPort s p { x with plca := true, lastBeacon := s.raw, plcaSent := 0, out := out })

/-- PLCA_INACTIVE (R357): no beacon for 4 × NODE_COUNT × TO_TIMER bit times of 100 ns. -/
def execPlcaInactive (p : Nat) (s : State) : Host.Outcome State Fault Refusal :=
  done (
    let x := getPort s p
    let w := getReg s (ethBase p + 0x40)
    if x.plca && x.lastBeacon + 400 * fld w 15 8 * fld w 7 0 ≤ s.raw then
      ethEvt (bump (setPort s p { x with plca := false }) (ethCnt p 28)) p 16
    else s)

/-! ### ETH_STATUS -/

def peCode (x : PeState) : Nat := match x with | .disabled => 0 | .verifying => 1 | .active => 2 | .failed => 3

/-- ETH_STATUS of a port (section 10.9). -/
def ethStatus (s : State) (p : Nat) : Nat :=
  let x := getPort s p
  let host := ethHostQ s p 1
  let waiting := !(getQ s (12 + p)).pkts.isEmpty || (isHostQueue s host && !(getQ s host).pkts.isEmpty)
  x.txAn * 1024 + b2n (ethOn s p && macsecOn s p && !keyUsable s 0) * 512 + b2n x.plca * 256 +
    b2n (s.raw < x.pausePre) * 128 + b2n (s.raw < x.pauseExp) * 64 + b2n x.hold * 32 +
    b2n (p < 4 && waiting && x.pe != .active && !ethNoExpress s p) * 16 + peCode x.pe * 4 +
    b2n (x.link && ethMode s p = 3 && regBit s (ethBase p + 0x10) 8) * 2 + b2n (x.link && ethOn s p)

end Sys2Proof.Machine
end

