-- ==== Sys2Proof/Machine/Admission.lean ====
section
/-! DEFINITION. The parser's routing, normalisation, and admission (03_accessions.md, sections 3.1, 3.2, 3.6 and 3.7;
R317, R318, R320, R523). -/

namespace Sys2Proof.Machine

/-! ### Recognising a frame (Table 3.1) -/

/-- A frame's fields the parser finds: identity address, UDP destination port (0 outside UDP), where the payload
starts, the payload, and whether it came over Ethernet as Hiash. -/
structure RxFrame where
  addr : List Byte
  dport : Nat
  at_ : Nat
  payload : List Byte
  udp : Bool
  deriving DecidableEq, Repr

/-- A UDP datagram over IPv4 or IPv6, none for anything else. -/
def udpOf (data : List Byte) : Option RxFrame :=
  let e := etypeAt data
  let ip := e + 2
  let dgram (u : Nat) (src : List Byte) : Option RxFrame :=
    let len := be data (u + 4) 2
    if len < 8 then none
    else some { addr := src, dport := be data (u + 2) 2, at_ := u + 8, payload := slice data (u + 8) (len - 8), udp := true }
  if be data e 2 = 0x0800 then
    if le data (ip + 9) 1 = 17 then
      dgram (ip + le data ip 1 % 16 * 4) (List.replicate 10 0#8 ++ [0xFF#8, 0xFF#8] ++ slice data (ip + 12) 4)
    else none
  else if be data e 2 = 0x86DD && le data (ip + 6) 1 = 17 then dgram (ip + 40) (slice data (ip + 8) 16)
  else none

/-- Where a frame goes (Table 3.1). -/
inductive Route where
  | c37
  | config
  | sv
  | hiash
  | other
  deriving DecidableEq, Repr

/-- The Hiash message of a frame: over Ethernet by its EtherType, or over UDP by its port (R302). -/
def hiashOf (s : State) (data : List Byte) : Option RxFrame :=
  let e := etypeAt data
  if be data e 2 = (getReg s Reg.hshEtype).toNat then
    some { addr := List.replicate 10 0#8 ++ slice data 6 6, dport := 0, at_ := e + 2, payload := data.drop (e + 2),
           udp := false }
  else
    match udpOf data with
    | some f => if regFld s Reg.hshUdpPort 15 0 != 0 && f.dport = regFld s Reg.hshUdpPort 15 0 then some f else none
    | none => none

/-- The route of a frame; sv tells that the parser recognises a 90-5 session packet (log entry 13). DESIGN CHOICE (log entry
32): bit 7 of a C37.118 frame's second byte is no part of its type (R78). -/
def routeOf (s : State) (data : List Byte) (sv : Option SvPacket) : Route :=
  if (hiashOf s data).isSome then .hiash
  else
    match udpOf data with
    | none => .other
    | some f =>
      if f.dport = 102 && sv.isSome then .sv
      else if le f.payload 0 1 = 0xAA && !f.payload.isEmpty then
        let ty := le f.payload 1 1 / 16 % 8
        if ty = 0 then .c37 else if ty ≤ 5 then .config else .other
      else .other

/-! ### Copies to the host -/

/-- A copy of a frame to a host queue of the parser, with its count. -/
def parserCopy (s : State) (k : Packet) (cfg : Bool) : State :=
  let q := if cfg then regFld s Reg.ethParseCfg 26 16 else regFld s Reg.ethParseCfg 10 0
  if copyRoom s q k.data.length then bump (commitPacket s q k) (Reg.ethParseCnt (if cfg then 0 else 1))
  else devCopy s q k (Reg.ethParseCnt 3)

/-- The copy of an UNKNOWN_ID frame: counted by QUE only (R113). -/
def unknownCopy (s : State) (k : Packet) : State :=
  let q := regFld s Reg.ethParseCfg 10 0
  if copyRoom s q k.data.length then commitPacket s q { k with source := 0x11 }
  else logEvent (evt (queLast (bump s (Reg.queCnt 3)) q 0x0E41) Reg.queEvents 4) 0x0E41 q []

/-! ### Normalisation (R86, Table 3.2) -/

/-- A float32 magnitude and angle as float32 real and imaginary parts; where the exact product is 0 it is +0, and where
no real product exists the values are free (log entry 14). -/
def polarFloat (s : State) (k mag ang : Nat) (deg : Bool) : Nat × Nat :=
  let m := fUnpack f32 mag
  let a := fUnpack f32 ang
  let part (sine : Bool) : Nat :=
    let v := if deg then mulTrigDeg f32 m a sine else mulTrigRad f32 m a sine
    match m, a with
    | .fin _ mm _, .fin _ am ae =>
      let k90 : Nat := (-ae).toNat
      let d := (if 0 ≤ ae then am <<< ae.toNat else am) % (180 <<< k90)
      let zero := mm = 0 || (sine && am = 0) || (deg && sine && d = 0) || (deg && !sine && d = 90 <<< k90)
      if zero then 0 else v
    | _, _ => Config.freeNat (s.freeCount + 2 * k + b2n sine) % 2 ^ 32
  (part false, part true)

/-- An integer magnitude and an angle of a × 10^−4 rad (Table 3.2). -/
def polarInt (m : Nat) (a : Int) : Nat × Nat :=
  if m = 0 then (0, 0)
  else if a = 0 then (fofInt f32 (m : Int), 0)
  else
    let sc := sinCosFix (a * ((2 ^ 1024 : Nat) : Int) / 10000)
    let v (c : Int) : Nat := fRound f32 (decide (c < 0)) (m * c.natAbs) (-1024) true
    (v sc.2, v sc.1)

/-- n ÷ d as float32, rounded once. -/
def ratio32 (n : Int) (d : Nat) : Nat := vDivRound f32 (vOfInt n 0) (vOfInt (d : Int) 0)

def int16 (l : List Byte) (o : Nat) : Int := toSigned 16 (be l o 2)

/-- Nominal frequency of a record in Hz. -/
def nominalOf (fmt : Word) : Nat := if bit fmt 28 then 60 else 50

def zeroLanding : Landing :=
  { acc := 0, port := 0, arrival := 0, sub := 0, index := 0, offset := 0, status := 0, digs := [], freq := 0, rocof := 0,
    phasors := [], analogs := [], arrived := 0, commit := 0 }

/-- The values of a C37.118 data frame under its accession's format. -/
def c37Values (s : State) (fmt : Word) (l : List Byte) : Landing :=
  let ph := fld fmt 22 16
  let an := fld fmt 15 11
  let dg := fld fmt 10 8
  let pz := if bit fmt 26 then 8 else 4
  let fz := if bit fmt 24 then 4 else 2
  let az := if bit fmt 25 then 4 else 2
  let fo := 16 + ph * pz
  let ao := fo + 2 * fz
  let phasor (k : Nat) : Nat × Nat :=
    let o := 16 + k * pz
    if bit fmt 26 then
      (if bit fmt 27 then polarFloat s k (be l o 4) (be l (o + 4) 4) false else (be l o 4, be l (o + 4) 4))
    else if bit fmt 27 then polarInt (be l o 2) (int16 l (o + 2))
    else (fofInt f32 (int16 l o), fofInt f32 (int16 l (o + 2)))
  { zeroLanding with
    status := be l 14 2,
    phasors := (List.range ph).map phasor,
    freq := if bit fmt 24 then be l fo 4 else ratio32 ((nominalOf fmt : Int) * 1000 + int16 l fo) 1000,
    rocof := if bit fmt 24 then be l (fo + 4) 4 else ratio32 (int16 l (fo + 2)) 100,
    analogs := (List.range an).map (fun k => if bit fmt 25 then be l (ao + 4 * k) 4 else fofInt f32 (int16 l (ao + 2 * k))),
    digs := (List.range dg).map (fun k => be l (ao + an * az + 2 * k) 2) }

/-- R80's FRAMESIZE. -/
def c37Size (fmt : Word) : Nat :=
  18 + fld fmt 22 16 * (if bit fmt 26 then 8 else 4) + 2 * (if bit fmt 24 then 4 else 2) +
    fld fmt 15 11 * (if bit fmt 25 then 4 else 2) + 2 * fld fmt 10 8

/-- The values of a 90-5 dataset: each value big-endian, followed by its quality (R85); a phasor is one value of two
floats. The validity stands in the quality's two lowest bits, 1 invalid and 3 questionable (log entry 13). -/
def svValues (s : State) (fmt : Word) (l : List Byte) : Landing :=
  let ph := fld fmt 22 16
  let an := fld fmt 15 11
  let dg := fld fmt 10 8
  let fo := 12 * ph
  let quals := (List.range ph).map (fun k => be l (12 * k + 8) 4) ++
    (List.range (2 + an + dg)).map (fun k => be l (fo + 8 * k + 4) 4)
  let inv := quals.any (fun q => q % 4 = 1)
  let que := quals.any (fun q => q % 4 = 3)
  { zeroLanding with
    status := if inv then 0xC000 else if que then 0x4000 else 0,
    phasors := (List.range ph).map (fun k => polarFloat s k (be l (12 * k) 4) (be l (12 * k + 4) 4) true),
    freq := be l fo 4, rocof := be l (fo + 8) 4,
    analogs := (List.range an).map (fun k => be l (fo + 16 + 8 * k) 4),
    digs := (List.range dg).map (fun k => be l (fo + 16 + 8 * an + 8 * k) 4 % 65536) }

def svSize (fmt : Word) : Nat := 12 * fld fmt 22 16 + 16 + 8 * fld fmt 15 11 + 8 * fld fmt 10 8

/-- The values of an EXHIBIT or ADDENDUM body (R318, Table 9.6). -/
def bodyValues (fmt : Word) (b : List Byte) : Landing :=
  let ph := le b 0 1
  let an := le b 1 1
  let d1 := le b 0x12 2
  { zeroLanding with
    status := if d1 % 4 = 3 then 0xC000 else if d1 / 4 % 4 != 0 then 0x4000 else 0,
    phasors := (List.range ph).map (fun k => (le b (0x18 + 8 * k) 4, le b (0x1C + 8 * k) 4)),
    freq := le b 8 4, rocof := le b 0xC 4,
    analogs := (List.range an).map (fun j => le b (0x18 + 8 * ph + 4 * j) 4),
    digs := (List.range (fld fmt 10 8)).map (fun k => le b (0x10 + 2 * k) 2) }

/-! ### Times (R104–R106) -/

/-- UTC seconds now (R105). -/
def utcNow (s : State) : Int :=
  let a : Int := (taiNow s / 1000000000 : Nat)
  utcOfTai s a

/-- The second of a 32-bit seconds field in the nearest era (R105). -/
def eraSecond (s : State) (soc : Nat) : Int :=
  let era := (utcNow s - (soc : Int) + 0x80000000) / ((2 ^ 32 : Nat) : Int)
  era * ((2 ^ 32 : Nat) : Int) + (soc : Int)

/-- A fraction num ÷ den of a second in ns, a half rounded up (R104). -/
def fracNs (num den : Nat) : Nat := (2 * num * 1000000000 + den) / (2 * den)

/-- TAI ns of a UTC second and ns; ins reads the second as an inserted leap second (R106). -/
def taiOfUtc (s : State) (u : Int) (ns : Nat) (leap : Bool) : Int :=
  let ins := leap && leapInserted s (u + 1)
  (u + taiMinusUtc s u + (if ins then 1 else 0)) * 1000000000 + (ns : Int)

/-- The time of a C37.118 frame, none when its fraction is out of range (R104). -/
def c37Time (s : State) (acc : Nat) (l : List Byte) : Option Int :=
  let tb := regFld s (accAddr acc + 28) 23 0
  let ns := fracNs (be l 0xB 3) (Nat.max 1 tb)
  if 1000000000 ≤ ns then none else some (taiOfUtc s (eraSecond s (be l 6 4)) ns ((le l 0xA 1).testBit 5))

/-! ### Tests 7 to 13 of Table 3.5 -/

/-- The index of a TAI time, a half rounded up (R108). -/
def indexOf (br : Nat) (t : Int) : Nat := ((2 * t * (br : Int) + 1000000000) / 2000000000).toNat

/-- Tests 8 and 9: 0 or the cause byte; they need a base rate (R110). -/
def rateTests (s : State) (acc : Nat) (t : Int) : Nat × Nat :=
  match ratePlan s with
  | none => (0, 0)
  | some p =>
    let br := p.baseRate
    let e := indexOf br t
    let tol := regFld s Reg.accCfg 9 0
    let dev := (t * (br : Int) - (e : Int) * 1000000000).natAbs
    let lead := regFld s Reg.accCfg 31 16
    (e,
     if accRateDiv s acc = 0 || e % accRateDiv s acc != 0 || tol * 1000 * br < dev then 0x2A
     else if selTime8 s (8 * s.raw) + 8000000 * (lead : Int) < 8 * (exhibitTime br e : Int) then 0x2B else 0)

/-- Tests 10 to 13: 0 or the cause byte. -/
def indexTests (s : State) (acc e : Nat) (noBase : Bool) (isDup : Bool) : Nat :=
  let x := getAcc s acc
  let ex := getEx s e
  let before : Bool := match ex with | some v => v.openSeq < x.commitSeq | none => false
  let retiring : Bool := match governing s e with
    | some k => (planSlot s k).st = .retiring && (planSlot s k).retSeq ≤ x.commitSeq
    | none => false
  if noBase || tooLate s acc e then 0x2C
  else if before || retiring then 0x27
  else if x.st = .retired && !(match ex with | some v => v.openSeq < x.retireSeq | none => false) then 0x28
  else if isDup && duplicate s acc e then 0x2D
  else 0

/-- Tests 7 to 13 and the landing of a frame whose values and time are known. dup false leaves test 13 to the caller
(R320): it answers whether the slot is present. -/
def admitTimed (s : State) (acc port arrival sub : Nat) (t : Int) (v : Landing) (dup : Bool) : Bool × State :=
  if !s.tim.valid then (false, accDiscard s 0x29 port acc 0 arrival sub)
  else
    let s := lapsePast s
    let r := rateTests s acc t
    let e := r.1
    if r.2 != 0 then (false, accDiscard s r.2 port acc e arrival sub)
    else
      let c := indexTests s acc e (ratePlan s).isNone dup
      if c != 0 then (false, accDiscard s c port acc e arrival sub)
      else if duplicate s acc e then (true, s)
      else
        match ratePlan s with
        | none => (false, s)
        | some p =>
          let l := { v with acc := acc, port := port, arrival := arrival, sub := sub, index := e,
                            offset := t - (exhibitTime p.baseRate e : Int),
                            arrived := selTime8 s (8 * arrival + sub), commit := (getAcc s acc).commitSeq }
          (false, reserveLand s l)

/-- Twice the phasors' count of free values has been used by a landing's non-finite polar phasors. -/
def skipFree (s : State) (n : Nat) : State := { s with freeCount := s.freeCount + n }

/-! ### Measurement frames -/

/-- The lookup key of a received frame (R89). -/
def rxKey (f : RxFrame) (stream carriage : Nat) : List Byte :=
  f.addr ++ beBytes 2 f.dport ++ beBytes 2 stream ++ beBytes 1 carriage ++ [0#8, 0#8]

/-- A discard of a frame of no known accession. -/
def discardUnknown (s : State) (k : Packet) (cause : Nat) : State :=
  accDiscard s cause k.port 0xFFFF 0 k.arrival k.sub

/-- UNKNOWN_ID (R113). -/
def unknownId (s : State) (k : Packet) : State :=
  let s := discardUnknown s k 0x26
  if regBit s Reg.accCfg 15 then unknownCopy s k else s

/-- A C37.118 data frame (R79–R81, R104). -/
def admitC37 (s : State) (k : Packet) (f : RxFrame) : State :=
  let l := f.payload
  let n := l.length
  if !enabled s Reg.accBase then discardUnknown s k 0x20
  else if n < 4 || crcCcitt (l.take (n - 2)) != be l (n - 2) 2 then discardUnknown s k 0x21
  else if le l 1 1 % 16 = 0 || 2 < le l 1 1 % 16 then discardUnknown s k 0x23
  else
    match identFind s (rxKey f (be l 4 2) 0) with
    | none => unknownId s k
    | some acc =>
      let fmt := accFmt s acc
      if be l 2 2 != c37Size fmt || be l 2 2 != n then accDiscard s 0x22 k.port acc 0 k.arrival k.sub
      else
        match c37Time s acc l with
        | none => accDiscard s 0x24 k.port acc 0 k.arrival k.sub
        | some t =>
          skipFree (admitTimed s acc k.port k.arrival k.sub t (c37Values s fmt l) true).2 (2 * fld fmt 22 16)

/-- One APDU of a 90-5 packet, its packet's tests 1 to 3 passed (R83–R85). DESIGN CHOICE (log entry 32): each APDU of unknown
identity copies the whole packet to the host (R113). -/
def admitApdu (s : State) (k : Packet) (f : RxFrame) (a : SvApdu) : State :=
  match identFind s (rxKey f (a.appid % 65536) 1) with
  | none => unknownId s k
  | some acc =>
    let fmt := accFmt s acc
    if a.data.length != svSize fmt then accDiscard s 0x22 k.port acc 0 k.arrival k.sub
    else
      match a.refrTm with
      | none => accDiscard s 0x24 k.port acc 0 k.arrival k.sub
      | some (sec, frac) =>
        let t := taiOfUtc s (eraSecond s sec) (fracNs (frac % 2 ^ 24) (2 ^ 24)) false
        skipFree (admitTimed s acc k.port k.arrival k.sub t (svValues s fmt a.data) true).2 (2 * fld fmt 22 16)

/-- A 90-5 session packet (R82, R83); auth tells whether a GMAC signature verifies. DESIGN CHOICE (log entry 32): an unsigned
packet while ALLOW_UNSIGNED is 0 is discarded as AUTH. -/
def admitSv (s : State) (k : Packet) (f : RxFrame) (v : SvPacket) (auth : Bool) : State :=
  if v.encrypted || 3 ≤ v.sig then parserCopy s k false
  else if !enabled s Reg.accBase then discardUnknown s k 0x20
  else if (if v.sig = 0 then !regBit s Reg.accCfg 14 else !(auth && keyUsable s 2)) then discardUnknown s k 0x25
  else if v.version != 1 then discardUnknown s k 0x23
  else v.apdus.foldl (fun s a => admitApdu s k f a) s

/-! ### EXHIBIT and ADDENDUM as a child's frame (R317, R320) -/

/-- Do header, body, tag and CRC fit within the frame (R305)? -/
def hmsgLen (m : HMsg) (len : Nat) : Nat := 36 + len + (if m.flags.testBit 1 then 16 else 0)
def hmsgFits (l : List Byte) : Bool :=
  32 ≤ l.length && hmsgLen (hmsgParse l) (le l 10 2) ≤ l.length

def hmsgCrcBad (l : List Byte) : Bool :=
  hmsgFits l && (let n := hmsgLen (hmsgParse l) (le l 10 2) - 4; crcNat (l.take n) != le l n 4)

/-- Does the tag fail: a tag that does not verify, or none while AUTH_RX_REQ is 1 (R305)? -/
def hmsgAuthBad (s : State) (m : HMsg) (auth : Bool) : Bool :=
  if m.flags.testBit 1 then !(auth && keyUsable s 3) else regBit s Reg.hshCfg 17

/-- A present slot answers true and changes nothing (R320). -/
def admitHiash (s : State) (k : Packet) (f : RxFrame) (auth dup : Bool) : Bool × State :=
  let l := f.payload
  let m := hmsgParse l
  let b := m.body
  if !enabled s Reg.accBase then (false, discardUnknown s k 0x20)
  else if hmsgCrcBad l then (false, discardUnknown s k 0x21)
  else if hmsgAuthBad s m auth then (false, discardUnknown s k 0x25)
  else if le l 0 1 != 1 then (false, discardUnknown s k 0x23)
  else
    match identFind s (rxKey f m.origin (if f.udp then 2 else 3)) with
    | none => (false, unknownId s k)
    | some acc =>
      let fmt := accFmt s acc
      if !hmsgFits l || le b 0 1 != fld fmt 22 16 || le b 1 1 != fld fmt 15 11 ||
          b.length != 24 + 8 * le b 0 1 + 4 * le b 1 1 + 8 * le b 2 1 then
        (false, accDiscard s 0x22 k.port acc 0 k.arrival k.sub)
      else if m.flags.testBit 0 then (false, accDiscard s 0x24 k.port acc 0 k.arrival k.sub)
      else admitTimed s acc k.port k.arrival k.sub (m.time : Int) (bodyValues fmt b) dup

end Sys2Proof.Machine
end

