-- ==== Sys2Proof/Machine/HiashCmds.lean ====
section
/-! DEFINITION. Received Hiash messages, relaying, the absence table's commands and duplicate IDs (09_hiash_link.md);
the ADMISSION command. -/

namespace Sys2Proof.Machine

/-! ### The head of an ingress queue -/

/-- The next frame of a port's stream: none while the parser may not go on (R253). -/
def headOf (s : State) (p : Nat) : Option Packet :=
  if 6 ≤ p || s.dsp.heldLand.any (fun h => h.port = p) then none else (getQ s p).pkts.head?

/-- The head leaves its queue; its cells return unless a landing of the port is held (R253). -/
def takeHead (s : State) (p : Nat) (k : Packet) : State :=
  let x := getQ s p
  let n := cellsFor k.data.length
  let s := bump (setQ s p { x with pkts := x.pkts.tail }) (Reg.queCnt 1)
  if s.dsp.heldLand.any (fun h => h.port = p) then
    let x := getQ s p
    setQ s p { x with txCells := smSet x.txCells parserKey n }
  else releaseCells s p n

/-- Runs the parser on the head frame of a port when a property of it holds. A disabled parser releases the frame
(section 10.9). -/
def withHead (s : State) (p : Nat) (sel : Packet → Bool) (f : Packet → State → State) : State :=
  match headOf s p with
  | none => s
  | some k =>
    if !sel k then s
    else if !enabled s 0xEC000 then takeHead (bump s (Reg.ethParseCnt 2)) p k
    else takeHead (f k s) p k

/-! ### The row of a message (Table 9.2) -/

/-- The command that handles a message of a class and subtype; 0 where they are undefined. -/
def hshRow (cls sub : Nat) : Nat :=
  match cls with
  | 1 => if sub < 3 then 1 + sub else 0
  | 2 => if sub < 2 then 4 + sub else 0
  | 3 => if sub = 0 then 6 else 0
  | 4 => if sub = 0 then 7 else 0
  | 5 => if sub = 0 then 8 else if sub = 1 then 9 else 10
  | 6 => if sub < 7 then 11 + sub else 0
  | _ => 0

def rowOf (s : State) (k : Packet) : Nat :=
  match hiashOf s k.data with
  | some f => let m := hmsgParse f.payload; hshRow m.cls m.sub
  | none => 0

/-! ### Duplicate IDs (R330–R334) -/

/-- A duplicate is seen: recorded once more, and the device goes silent when it is the later joiner (R332). -/
def dupEvent (s : State) (id uid : Nat) (later : Bool) : State :=
  let s := setRegN s Reg.hshDupInfo id
  let s := setReg64 s (Reg.hshDupUid 0) (Reg.hshDupUid 1) uid
  let s := { s with hsh := { s.hsh with dupSeen := s.raw + 1 } }
  let s := logEvent (evt s Reg.hshEvents 4) 0x1040 0xFFFF []
  if later && hshOnline s then
    logEvent (evt { s with hsh := { s.hsh with silent := true } } Reg.hshEvents 8) 0x1041 0xFFFF []
  else s

/-- Is a joiner with a time and UID later than another (R332)? -/
def joinLater (j u j' u' : Nat) : Bool := decide (j' < j) || (j = j' && decide (u' < u))

def ownUid : Nat := Config.uid.toNat

/-- A HELLO is recorded; two neighbours with one ID are told (R331–R333). Section 9.9 has no counter DUP_SEEN: what counts
it is read as HSH_STATUS.DUP_SEEN (DEDUCED, log entry 32). -/
def helloRx (s : State) (k : Packet) (m : HMsg) : State :=
  let uid := le m.body 0 8
  let join := le m.body 8 8
  let r : HelloRec := { id := m.origin, uid := uid, join := join, port := k.port, mac := slice k.data 6 6, heard := s.raw }
  let recent := s.hsh.hellos.filter (fun h => s.raw < h.heard + 3000000000 && !(h.id = m.origin && h.uid = uid))
  let other := recent.find? (fun h => h.id = m.origin)
  let s := { s with hsh := { s.hsh with hellos := r :: recent } }
  if m.origin = hshId s && uid != ownUid then
    dupEvent s m.origin uid (joinLater s.hsh.join ownUid join uid)
  else
    match other with
    | some h =>
      if m.origin != hshId s && hshOnline s then
        let later := joinLater join uid h.join h.uid
        let silenced := if later then uid else h.uid
        let kept := if later then h.uid else uid
        let port := if later then k.port else h.port
        let s := { s with hsh := { s.hsh with dupSeen := s.raw + 1 } }
        hshSendPorts s [port] (newMsg s 5 1 0xFFFF (taiNow s) 1 0 0
          (leBytes 8 silenced ++ leBytes 8 kept ++ leBytes 2 m.origin))
      else s
    | none => s

/-- A DUP_NOTICE (R332, R333). -/
def noticeRx (s : State) (m : HMsg) : State :=
  let silenced := le m.body 0 8
  let kept := le m.body 8 8
  if silenced = ownUid then dupEvent s (le m.body 16 2) kept true
  else if kept = ownUid then dupEvent s (le m.body 16 2) silenced false
  else s

/-- A message with the device's own ORIGIN_ID and another source MAC, in either carriage (R332); a HELLO with another UID
is `helloRx`'s. Its sender's UID is that of a HELLO heard from the ID, else it is not known: free. Who joined later shows in
a HELLO. -/
def originDup (s : State) (k : Packet) (m : HMsg) : State :=
  let mac := slice k.data 6 6
  let hello : Bool := m.cls = 5 && m.sub = 0 && le m.body 0 8 != ownUid
  if m.origin = hshId s && !hello && mac != portMac s (hshPortA s) && mac != portMac s (hshPortB s) then
    match s.hsh.hellos.find? (fun h => h.id = m.origin && h.uid != ownUid) with
    | some h => dupEvent s m.origin h.uid (joinLater s.hsh.join ownUid h.join h.uid)
    | none => dupEvent (nextFree s) m.origin (freeBelow s (2 ^ 64)) false
  else s

/-! ### Relaying (R311, R313, R321, R328) -/

/-- The frame a relay sends (R311): HOPS one less, its own SRC_ID; upstream in a tree RELAYED and the parent's ID and
address too. -/
def relayFrame (s : State) (k : Packet) (f : RxFrame) (m : HMsg) (up : Bool) : List Byte :=
  let o := f.at_
  let d := k.data
  let d := patch d (o + 3) (leBytes 1 (m.hops - 1))
  let d := patch d (o + 4) (leBytes 2 (hshId s))
  let d := if up then patch (patch d (o + 2) (leBytes 1 (m.flags ||| 1))) (o + 6) (leBytes 2 (hshUpId s)) else d
  let n := hmsgLen m m.body.length - 4
  let d := patch d (o + n) (leBytes 4 (crcNat (slice d o n)))
  if up && !f.udp then patch d 0 (beBytes 6 (getReg64 s (Reg.hshUpAddr 0) (Reg.hshUpAddr 1)))
  else if up then
    let e := etypeAt d
    let d := patch d 0 (freeBytes s 6)
    let ip6 := (List.range 4).flatMap (fun k => beBytes 4 (getReg s (Reg.hshUpAddr (3 - k))).toNat)
    fixSums (if be d e 2 = 0x0800 then patch d (e + 18) (ip6.drop 12) else patch d (e + 26) ip6)
  else d

/-- The ports a message is relayed to (Table 9.4). -/
def relayPorts (s : State) (port : Nat) (up : Bool) : List Nat :=
  if up then [hshPortA s] else [hshPortA s, hshPortB s].filter (· != port)

/-- What counts a message that is never forwarded (R311), none where it may be. -/
def relayStop (s : State) (k : Packet) (m : HMsg) : Option Nat :=
  let mac := slice k.data 6 6
  if m.hops = 0 then some 15
  else if m.origin = hshId s && (mac = portMac s (hshPortA s) || mac = portMac s (hshPortB s)) then some 16
  else if s.hsh.relayed.contains (m.origin, m.cls, m.seq) then some 17
  else none

/-- Does the device forward a message now (R311, R45, Table 18.1)? -/
def relayGoes (s : State) (k : Packet) (m : HMsg) : Bool := (relayStop s k m).isNone && twinClass s m.cls

/-- Relays a message under R311 and counts why it does not. -/
def relay (s : State) (k : Packet) (f : RxFrame) (m : HMsg) (up : Bool) : State :=
  let key := (m.origin, m.cls, m.seq)
  match relayStop s k m with
  | some c => bump s (Reg.hshCnt c)
  | none =>
   if !twinClass s m.cls then s
   else
    let ports := relayPorts s k.port up
    let r := if m.cls = 1 && m.sub = 2 then
        digestPorts s (le m.body 2 1 % 4 * 65536 + le m.body 0 2) ports
      else (ports, s)
    let s := r.2
    if r.1.isEmpty then s
    else
      let fr := relayFrame s k f m up
      let s := { s with hsh := { s.hsh with relayed := (key :: s.hsh.relayed).take 256 } }
      let gated := m.cls = 1 || m.cls = 2 || m.cls = 3
      let s := r.1.foldl (fun s p =>
        if gated then outFrame s p (m.cls = 1) 0x10 fr else txQueue s p (m.cls = 1) 0x10 fr) s
      bump (nextFree s) (Reg.hshCnt 7)

/-- Does a tree node relay a message upstream (Table 9.4)? -/
def treeUp (s : State) (m : HMsg) : Bool :=
  hshTopo s = 0 && hshUpId s != 0 && m.cls = 1 && m.sub < 2 && regBit s Reg.hshCfg 20

/-- Relays an ADDENDUM upstream (R321); only what is relayed makes an entry or moves one. -/
def relayAddendum (s : State) (k : Packet) (f : RxFrame) (m : HMsg) : State :=
  if hshTopo s = 0 && regBit s Reg.hshCfg 21 && hshUpId s != 0 then
    match s.hsh.relayTab.find? (fun r => r.1 = m.origin && r.2.1 = m.time) with
    | some r =>
      if m.revision ≤ r.2.2.1 then bump s (Reg.hshCnt 24)
      else if !relayGoes s k m then relay s k f m true
      else
        let s := { s with hsh := { s.hsh with relayTab := s.hsh.relayTab.map (fun x =>
          if x.1 = m.origin && x.2.1 = m.time then (m.origin, m.time, m.revision, s.raw) else x) } }
        relay s k f m true
    | none =>
      let s := if s.hsh.relayTab.length < 64 && relayGoes s k m then
          { s with hsh := { s.hsh with relayTab := s.hsh.relayTab ++ [(m.origin, m.time, m.revision, s.raw)] } }
        else s
      relay s k f m true
  else s

def mine (s : State) (m : HMsg) : Bool := m.dst = hshId s || m.dst = 0xFFFF

/-- Is a message relayed cut-through, before its end has been tested (R313)? -/
def cutThrough (s : State) (m : HMsg) : Bool :=
  m.cls = 1 && m.sub < 2 && m.hops != 0 &&
    (if hshTopo s = 0 then treeUp s m && mine s m else m.dst != hshId s)

/-- A copy that is to end with a bad FCS, queued as every express frame of a relay is. -/
def badCopy (s : State) (p : Nat) (fr : List Byte) : State :=
  if regBit s (0xE0010 + 0x2000 * p) 9 then bump s (0xE0100 + 0x2000 * p + 4 * 21)
  else devPush s (6 + p) { source := 0x10, port := p, arrival := s.raw, sub := 0, data := fr, bad := true }

/-- A cut-through copy of a bad message is ended with a bad FCS (R313), where forwarding had begun: R311 lets the message
through, the device may send (R45), and the hop is not from a slower port to a faster one, which waits for the whole message
(Table 9.5). -/
def badRelay (s : State) (k : Packet) (f : RxFrame) (m : HMsg) : State :=
  let up : Bool := hshTopo s = 0
  let ports := (relayPorts s k.port up).filter (fun p => ethMbps s p ≤ ethMbps s k.port)
  let begun := ports.any (fun p => !regBit s (0xE0010 + 0x2000 * p) 9)
  if cutThrough s m && (relayStop s k m).isNone && twinMay s then
    let fr := relayFrame s k f m up
    let s := ports.foldl (fun s p => badCopy s p fr) s
    if begun then logEvent (evt (bump (nextFree s) (Reg.hshCnt 18)) Reg.hshEvents 0x10) 0x1044 0xFFFF [] else s
  else s

/-! ### Reception (R301, R305, R306) -/

/-- The counter of the first failing test of R305, none when all pass. -/
def hshFail (s : State) (l : List Byte) (m : HMsg) (auth : Bool) : Option Nat :=
  let badId (n : Nat) : Bool := n = 0 || n = 0xFFFF
  if !hshOnline s && !(m.cls = 5 && m.sub = 0) then some 8
  else if hmsgCrcBad l then some 9
  else if le l 0 1 != 1 then some 10
  else if hshRow m.cls m.sub = 0 || badId m.src || badId m.origin then some 11
  else if !hmsgFits l then some 12
  else if hmsgAuthBad s m auth then some 13
  else none

/-- Bytes of a message without the padding behind its CRC. -/
def hmsgRaw (l : List Byte) (m : HMsg) : List Byte := l.take (hmsgLen m m.body.length)

/-- Receives a message: the tests of R305, the duplicate check, delivery by the given action, relaying. -/
def hshReceive (s : State) (k : Packet) (auth : Bool) (deliver : RxFrame → HMsg → State → State) : State :=
  match hiashOf s k.data with
  | none => s
  | some f =>
    let m := hmsgParse f.payload
    match hshFail s f.payload m auth with
    | some c =>
      let s := bump s (Reg.hshCnt c)
      if c = 9 || c = 13 then badRelay s k f m else s
    | none =>
      if !hshOnline s then deliver f m s
      else
        let s := originDup s k m
        if mine s m then
          let s := deliver f m s
          if m.cls = 6 then s
          else if hshTopo s = 0 then (if treeUp s m then relay s k f m true else s)
          else if m.dst = 0xFFFF then relay s k f m false else s
        else if hshTopo s = 0 then bump s (Reg.hshCnt 14)
        else if m.cls = 6 then s else relay s k f m false

/-- "Host and job" of a delivered message. -/
def deliverHost (k : Packet) (f : RxFrame) (m : HMsg) (s : State) : State :=
  hostAndJob (hshDelivered s) m.cls m.origin k.port k.arrival (hmsgRaw f.payload m)

/-- Admission of an EXHIBIT CLOSE or an ADDENDUM without RELAYED (R317, R320). -/
def admitMsg (s : State) (k : Packet) (f : RxFrame) (auth : Bool) : State :=
  let m := hmsgParse f.payload
  if m.cls = 2 then (admitHiash s k f auth true).2
  else
    let r := admitHiash s k f auth false
    if r.1 then deliverHost k f m (bump r.2 (Reg.hshCnt 23)) else r.2

/-! ### Measurement frames and the twin (R523) -/

/-- Admits a frame whose route is admission. -/
def admitFrame (s : State) (k : Packet) (auth : Bool) (sv : Option SvPacket) : State :=
  match routeOf s k.data sv, udpOf k.data, sv with
  | .c37, some f, _ => admitC37 s k f
  | .sv, some f, some v => admitSv s k f v auth
  | .hiash, _, _ => (match hiashOf s k.data with | some f => admitMsg s k f auth | none => s)
  | _, _, _ => s

/-- A frame of the device's own ingress that reaches admission: deferred on a standby, not landed while isolated (Table
18.1). DESIGN CHOICE: what an isolated device does not land moves no counter (log entry 32). -/
def admitOwn (s : State) (k : Packet) (auth : Bool) (sv : Option SvPacket) : State :=
  if twinDrops s then
    { s with twn := { s.twn with deferred := s.twn.deferred ++ [.frame k auth sv], deferAt := s.twn.deferAt ++ [s.raw] } }
  else if s.twn.st = .isolated then s
  else admitFrame s k auth sv

/-- ADMISSION (R111, Table 3.1): the parser takes the head frame of port p's ingress queue, unless a Hiash command takes
it. auth tells whether a signature or tag verifies (log entry 11), sv is the parser's reading of a 90-5 packet. -/
def execAdmission (p : Nat) (auth : Bool) (sv : Option SvPacket) (s : State) : Host.Outcome State Fault Refusal :=
  done (withHead s p (fun k => rowOf s k = 0) (fun k s =>
    match routeOf s k.data sv with
    | .config => parserCopy s k true
    | .other => parserCopy s k false
    | .hiash => hshReceive s k auth (fun _ _ s => s)
    | _ => admitOwn s k auth sv))

/-! ### One command for each kind of message -/

def rxRow (s : State) (p row : Nat) (f : Packet → State → State) : State := withHead s p (fun k => rowOf s k = row) f

/-- URGENT_ALARM_RECEIVED (R307): host and job; relayed upstream in a tree. -/
def execUrgentAlarmReceived (p : Nat) (auth : Bool) (s : State) : Host.Outcome State Fault Refusal :=
  done (rxRow s p 1 (fun k s => hshReceive s k auth (deliverHost k)))

/-- A delivered TRIGGER raises source REMOTE when its lines meet CAP_REMOTE.RX (R478). -/
def triggerRx (m : HMsg) (s : State) : State :=
  if le m.body 0 1 % 16 &&& regFld s Reg.capRemote 27 24 != 0 && enabled s Reg.capBase then
    capTrigger (bump s (Reg.capCnt 6)) 6 (if s.tim.valid then rawOfTai s (le m.body 4 8) else s.raw)
  else s

/-- URGENT_TRIGGER_RECEIVED (R478). -/
def execUrgentTriggerReceived (p : Nat) (auth : Bool) (s : State) : Host.Outcome State Fault Refusal :=
  done (rxRow s p 2 (fun k s => hshReceive s k auth (fun f m s => deliverHost k f m (triggerRx m s))))

/-- A delivered digest (R325, R327). -/
def digestRx (m : HMsg) (s : State) : State :=
  let kind := le m.body 2 1 % 4
  let id := le m.body 0 2
  let first := le m.body 4 4 + le m.body 8 2 * 2 ^ 32
  let rate := le m.body 0xA 1
  let s := hshDelivered s
  if kind < 2 then absReport s kind id first rate m.origin false
  else if kind = 2 then overReport (bump s (Reg.hshCnt 19)) first rate m.origin (le m.body 0xC 2) true
  else s

/-- ABSENCE_DIGEST_RECEIVED (R325). -/
def execAbsenceDigestReceived (p : Nat) (auth : Bool) (s : State) : Host.Outcome State Fault Refusal :=
  done (rxRow s p 3 (fun k s => hshReceive s k auth (fun _ m s => digestRx m s)))

/-- An EXHIBIT CLOSE or ADDENDUM without RELAYED that is delivered here is tested under Table 3.5 only (R305). -/
def exhibitRx (s : State) (k : Packet) (auth : Bool) : State :=
  match hiashOf s k.data with
  | none => s
  | some f =>
    let m := hmsgParse f.payload
    if hshOnline s && mine s m && !m.flags.testBit 0 then
      let s := originDup s k m
      let good := !hmsgCrcBad f.payload && hmsgFits f.payload && !hmsgAuthBad s m auth && le f.payload 0 1 = 1
      let s := admitOwn s k auth none
      if !good then s
      else if hshTopo s = 0 then (if m.cls = 3 then relayAddendum s k f m else s)
      else if m.dst = 0xFFFF then relay s k f m false else s
    else
      hshReceive s k auth (fun f m s =>
        if m.cls = 2 then admitOwn s k auth none
        else relayAddendum (deliverHost k f m s) k f m)

/-- EXHIBIT_CLOSE_RECEIVED (R317). -/
def execExhibitCloseReceived (p : Nat) (auth : Bool) (s : State) : Host.Outcome State Fault Refusal :=
  done (rxRow s p 4 (fun k s => exhibitRx s k auth))

/-- EXHIBIT_SEALED_RECEIVED (R307). -/
def execExhibitSealedReceived (p : Nat) (auth : Bool) (s : State) : Host.Outcome State Fault Refusal :=
  done (rxRow s p 5 (fun k s => hshReceive s k auth (deliverHost k)))

/-- ADDENDUM_RECEIVED (R320, R321). -/
def execAddendumReceived (p : Nat) (auth : Bool) (s : State) : Host.Outcome State Fault Refusal :=
  done (rxRow s p 6 (fun k s => exhibitRx s k auth))

/-- ARCHIVE_MESSAGE_RECEIVED (R307, R308). -/
def execArchiveMessageReceived (p : Nat) (auth : Bool) (s : State) : Host.Outcome State Fault Refusal :=
  done (rxRow s p 7 (fun k s => hshReceive s k auth (deliverHost k)))

/-- HELLO_RECEIVED (R301, R332, R333): recorded also while HSH is disabled or silenced. -/
def execHelloReceived (p : Nat) (auth : Bool) (s : State) : Host.Outcome State Fault Refusal :=
  done (rxRow s p 8 (fun k s => hshReceive s k auth (fun _ m s =>
    helloRx (if hshOnline s then hshDelivered s else s) k m)))

/-- DUP_NOTICE_RECEIVED (R332, R333). -/
def execDupNoticeReceived (p : Nat) (auth : Bool) (s : State) : Host.Outcome State Fault Refusal :=
  done (rxRow s p 9 (fun k s => hshReceive s k auth (fun _ m s => noticeRx (hshDelivered s) m)))

/-- CONTROL_MESSAGE_RECEIVED (R308). -/
def execControlMessageReceived (p : Nat) (auth : Bool) (s : State) : Host.Outcome State Fault Refusal :=
  done (rxRow s p 10 (fun k s => hshReceive s k auth (deliverHost k)))

/-! ### HELLO and the tables' timers -/

/-- HELLO_SEND (R330): to the parent in a tree, to all in a chain or ring. -/
def execHelloSend (s : State) : Host.Outcome State Fault Refusal :=
  done (
    let dst := if hshTopo s = 0 then hshUpId s else 0xFFFF
    let id := match livePlan s with | some p => p.planId | none => 0
    let due := match s.hsh.helloAt with
      | none => true
      | some t => t + 1000000 * regFld s Reg.hshHello 15 0 ≤ s.raw
    if !due then s
    else if dst = 0 then { s with hsh := { s.hsh with helloAt := some s.raw } }
    else hshSend { s with hsh := { s.hsh with helloAt := some s.raw } } 5 0 dst (taiNow s) 1 0 0 (leBytes 8 ownUid ++ leBytes 8 s.hsh.join ++ leBytes 4 id ++ leBytes 4 0))

/-- ABSENCE_ENTRY_FREE (R326): entry n has had no report for a window. -/
def execAbsenceEntryFree (n : Nat) (s : State) : Host.Outcome State Fault Refusal :=
  done (
    match smFind s.hsh.abs n with
    | some e =>
      if e.last + absWindowNs s ≤ s.raw then { s with hsh := { s.hsh with abs := smErase s.hsh.abs n } } else s
    | none => s)

/-- ABSENCE_OVERFLOW_WINDOW (R327): a window of the overflow episode ends. -/
def execAbsenceOverflowWindow (s : State) : Host.Outcome State Fault Refusal :=
  done (
    match s.hsh.overEp with
    | none => s
    | some o =>
      if s.raw < o.windowStart + absWindowNs s then s
      else if 0 < o.taken then
        let s := { s with hsh := { s.hsh with overEp := some { o with windowStart := o.windowStart + absWindowNs s, taken := 0 } } }
        if hshUpId s != 0 then sendDigest s 2 0 o.entry.first o.entry.rate o.taken o.entry.origin else s
      else if (absFree s).isSome then { s with hsh := { s.hsh with overEp := none } }
      else { s with hsh := { s.hsh with overEp := some { o with windowStart := o.windowStart + absWindowNs s } } })

/-- RELAY_ENTRY_FREE (R321): entries whose window has passed leave the relay table. -/
def execRelayEntryFree (s : State) : Host.Outcome State Fault Refusal :=
  done { s with hsh := { s.hsh with relayTab := s.hsh.relayTab.filter (fun r => s.raw < r.2.2.2 + absWindowNs s) } }

/-- HSH_ABS_CLEAR with bit 0. -/
def absClear (s : State) : State := { s with hsh := { s.hsh with abs := [], overEp := none } }

/-- ABSENCE_CLEAR. -/
def execAbsenceClear (s : State) : Host.Outcome State Fault Refusal := done (absClear s)

/-! ### Enable and status -/

/-- The enable check (R300, R312, R331, R335): 0 or the cause. -/
def hshCheck (s : State) : Nat :=
  let car := regFld s Reg.hshCfg 9 8
  let up := regFld s Reg.hshUpCfg 31 24
  let heard := s.hsh.hellos.any (fun h => h.id = hshId s && h.uid != ownUid && s.raw < h.heard + 3000000000)
  let absent (p : Nat) : Bool := !ethOn s p || (s.part = .gld9610 && 4 ≤ p)
  let divBad : Bool := match livePlan s with
    | some p => hshUpId s != 0 && up % p.verdictDiv != 0
    | none => false
  if hshId s = 0 then 0x02
  else if hshId s = hshUpId s then 0x03
  else if heard then 0x04
  else if (hshTopo s != 0 && car != 0) || (car != 0 && regFld s Reg.hshUdpPort 15 0 = 0) ||
      (hshTopo s != 0 && hshPortA s = hshPortB s) then 0x05
  else if absent (hshPortA s) || absent (hshPortB s) then 0x06
  else if up = 0 || 64 < regFld s Reg.hshUpCfg 22 16 || 16 < regFld s Reg.hshUpCfg 12 8 || divBad then 0x07
  else if !isHostQueue s (regFld s Reg.hshRxQueue 10 0) then 0x08
  else 0

/-- HSH has been enabled: JOIN_TIME, and silence ends (R330, R334). -/
def hshEnabledNow (s : State) : State :=
  let j := taiNow s % 2 ^ 64
  setReg64 { s with hsh := { s.hsh with join := j, silent := false, helloAt := none } } (Reg.hshJoin 0) (Reg.hshJoin 1) j

/-- HSH_STATUS. -/
def hshStatus (s : State) : Nat :=
  s.hsh.abs.length * 65536 + b2n s.hsh.overEp.isSome * 8 + b2n s.hsh.silent * 4 +
    b2n (s.hsh.dupSeen != 0 && s.raw < s.hsh.dupSeen - 1 + 3000000000) * 2 + b2n (hshOnline s)

/-- HSH_ABS_ENTRY's six words of the selected entry. -/
def absWords (s : State) : List Word :=
  let n := regFld s Reg.hshAbsSel 10 0
  let e := if n = 1024 then s.hsh.overEp.map (·.entry) else smFind s.hsh.abs n
  match e with
  | none => List.replicate 6 0#32
  | some e =>
    [2 ^ 31 + b2n e.isLocal * 2 ^ 19 + b2n e.forwarded * 2 ^ 18 + e.kind * 65536 + e.id, e.first,
     e.rate * 65536 + e.first / 2 ^ 32 % 65536, e.origin * 65536 + e.repeats, e.last, e.last / 2 ^ 32].map (BitVec.ofNat 32 ·)

end Sys2Proof.Machine
end

