-- ==== Sys2Proof/Machine/PlanCmds.lean ====
section
/-! DEFINITION. Loading, swapping, withdrawing and committing hang plans (05_hang_plan.md, sections 5.4 to 5.9), and the
commands of accession records (03_accessions.md). -/

namespace Sys2Proof.Machine

/-! ### The twin's HELLO (Table 18.3) -/

def twinCode (x : TwinState) : Nat :=
  match x with | .off => 0 | .active => 1 | .standby => 2 | .taking => 3 | .isolated => 4

/-- PLAN_ID of a slot, 0 while it holds no plan. -/
def slotPlanId (s : State) (k : Nat) : Nat := match planAt s k with | some p => p.planId | none => 0

/-- Sends HELLO to the partner. The spec does not say when: at the enable, in answer (see `twinHelloRx`), and when the
ACTIVE device has loaded a plan (log entry 17). -/
def twinHelloSend (s : State) : State :=
  twinMsg s 0 (leBytes 4 (twinCode s.twn.st % 4 + b2n s.twn.synced * 16) ++ leBytes 8 ownUid ++
    leBytes 4 (slotPlanId s 0) ++ leBytes 4 (slotPlanId s 1) ++ leBytes 4 ((nextSeq s 6 + 1) % 2 ^ 32))

/-! ### Accession commands -/

/-- ACCESSION_ENABLE (R88): ACC_CTL of accession n is written with ENABLE 1 and the other bits of v; dropped on a twin
standby (R523). -/
def execAccessionEnable (n : Nat) (v : Word) (s : State) : Host.Outcome State Fault Refusal :=
  done (if twinDrops s then twinRefuse s else accCtlWrite s n (setBit v 31 true))

/-- ACC_CTL writes that waited for a check's end; ENABLE 0 has no effect on an entry the check left VACANT (R93). -/
def heldCtlApply (s : State) (n : Nat) (held : List Word) : State :=
  held.foldl (fun s v => if (getAcc s n).st = .vacant && !bit v 31 then s else accCtlWrite s n v) s

/-- REGISTRATION_CHECK_END (R93–R95): the check first in order ends. -/
def execRegistrationCheckEnd (s : State) : Host.Outcome State Fault Refusal :=
  done (
    match s.acc.checks with
    | [] => s
    | n :: r =>
      let held := (getAcc s n).heldCtl
      heldCtlApply (accCheckEnd { s with acc := { s.acc with checks := r } } n) n held)

/-- ACCESSION_RETIRE (R101): ACC_CTL of accession n is written with ENABLE 0. -/
def execAccessionRetire (n : Nat) (v : Word) (s : State) : Host.Outcome State Fault Refusal :=
  done (if twinDrops s then twinRefuse s else pinEval (accCtlWrite s n (setBit v 31 false)))

/-- ACC_ALLOC as read (R103). -/
def accAllocRead (s : State) : Word × State :=
  match accAlloc s with
  | some n => (BitVec.ofNat 32 (2 ^ 31 + n), s)
  | none => (0#32, refuse s Reg.accBase 0x1101)

/-- ACC_ALLOC_READ (R103). -/
def execAccAllocRead (s : State) : Host.Outcome State Fault Refusal :=
  done (let x := accAllocRead s; respond x.2 [x.1])

/-! ### Select records (section 5.8) -/

/-- The valid select record with the higher generation. -/
def selRec (s : State) : Option SelRec :=
  match s.pln.sel0, s.pln.sel1 with
  | some a, some b => some (if a.gen < b.gen then b else a)
  | some a, none => some a
  | none, b => b

def planArea (s : State) (a : Nat) : List Byte := if a = 0 then s.pln.area0 else s.pln.area1

/-! ### The operation's registers -/

def plnOpShow (s : State) (op slot phase : Nat) : State := setRegN s Reg.plnOp (slot * 256 + phase * 16 + op)

def plnFailRegs (s : State) (f : PlanFail) : State :=
  setRegN (setRegN (setRegN s Reg.plnFailSection f.section_) Reg.plnFailEntry f.entry) Reg.plnFailOffset f.offset

def plnFailed (s : State) (cause : Nat) : State := evt (opEnd s Reg.plnOpstat 3 cause) Reg.plnEvents 2

/-! ### LOAD (R181–R188) -/

/-- A LOAD is started (R188, first point). -/
def plnLoadStart (s : State) (slot source : Nat) : State :=
  if opRunning s Reg.plnOpstat then opRefuseStart s Reg.plnOpstat
  else
    let st := (planSlot s slot).st
    let s := plnFailRegs (plnOpShow (opStart s Reg.plnOpstat) 1 slot 0) ⟨0, 0, 0, 0⟩
    let area : List Byte := match selRec s with
      | some r => planArea s (if source = 1 then r.area else 1 - r.area)
      | none => []
    if st = .live || st = .retiring then plnFailed s 0x18
    else if source = 0 && regFld s Reg.plnSrcLo 5 0 != 0 then plnFailed s 0x1B
    else if (source = 1 || source = 2) && area.isEmpty then plnFailed s 0x1A
    else
      let s := setPlanSlot s slot { PlanSlot.reset with st := .loading }
      { s with pln := { s.pln with op := 1, opSlot := slot, source := source, data := [] } }

/-- PLN_DATA (R187): the bytes it brings; PROGRESS counts the KiB that have arrived (R181). -/
def plnDataStore (s : State) (v : Word) : State :=
  let len := regFld s Reg.plnSrcLen 22 0
  if opRunning s Reg.plnOpstat && s.pln.op = 1 && s.pln.source = 3 && plnPhase s = 0 && s.pln.data.length < len then
    let data : List Byte := s.pln.data ++ (leBytes 4 v.toNat).take (len - s.pln.data.length)
    opProgress { s with pln := { s.pln with data := data } } Reg.plnOpstat (data.length / 1024)
  else refuse s Reg.plnBase 0x0A29

/-- PLN_DATA_WRITE (R187). -/
def execPlnDataWrite (v : Word) (s : State) : Host.Outcome State Fault Refusal := done (plnDataStore s v)

/-- CROSS over the first n records whose ENABLE reads 1 (R102): the place and the failure of the first that fails
conditions 4 to 8. -/
def crossFail (s : State) (p : Plan) (n : Nat) : Option (Nat × PlanFail) :=
  (((readsEnabled s).take n).zipIdx.find? (fun r => recordFail s.part p (accWords s r.1) r.1 4 != 0)).map
    (fun r => (r.2 + 1, ⟨0x16, 0xFFFF, r.1, 0⟩))

/-- The words of a tour's code at their addresses in a docent's IRAM bank. -/
def tourWords (p : Plan) (t : Tour) (slot : Nat) : List (Nat × Word) :=
  (List.range (t.codeLen / 4)).map (fun i =>
    (slot * 4096 + t.iramOff / 4 + i, BitVec.ofNat 32 (le p.code (t.codeSrc + 4 * i) 4)))

/-- PLACE (R201): tour code into the slot's bank on each docent of its affinity, every other byte of the bank and the
DRAM half 0. -/
def placePlan (s : State) (slot : Nat) (p : Plan) : State :=
  let iram := s.doc.iram.filter (fun e => e.1 % 8192 / 4096 != slot)
  let iram := (List.range 64).foldl (fun m d => p.tours.foldl (fun m t =>
    if t.affinity.testBit d then (tourWords p t slot).foldl (fun m w => smPut 0#32 m (d * 8192 + w.1) w.2) m else m) m) iram
  { s with doc := { s.doc with iram := iram, dram := s.doc.dram.filter (fun e => e.1 % 0x18000 / 0xC000 != slot) } }

/-- A LOAD that failed a test in a phase (R186). -/
def plnLoadFail (s : State) (slot phase prog : Nat) (f : PlanFail) : State :=
  let s := plnFailRegs (plnOpShow (setPlanSlot s slot PlanSlot.reset) 1 slot phase) f
  plnFailed (opProgress s Reg.plnOpstat prog) f.cause

/-- The image a LOAD copies: the host's bytes, those of PLN_DATA, or an MRAM area's (Table 5.6). -/
def loadImage (s : State) (data : List Byte) : List Byte :=
  let len := regFld s Reg.plnSrcLen 22 0
  if s.pln.source = 0 then padTo len data
  else if s.pln.source = 3 then s.pln.data
  else match selRec s with
    | some r => planArea s (if s.pln.source = 1 then r.area else 1 - r.area)
    | none => []

/-- The units of work of a phase (R181): whole KiB, rounded down, of the copy, the image or the tour code, and records.
DESIGN CHOICE (log entry 32): the spec does not say how a part of a KiB counts. -/
def phaseUnits (s : State) (slot ph : Nat) : Nat :=
  let x := planSlot s slot
  if ph = 0 then
    (if s.pln.source = 0 || s.pln.source = 3 then regFld s Reg.plnSrcLen 22 0 else (loadImage s []).length) / 1024
  else if ph = 3 then (readsEnabled s).length
  else if ph = 4 then (parsePlan x.image).code.length / 1024
  else x.image.length / 1024

/-- The first failing test of a phase of which n units are done, with PROGRESS there: FRAME and SECTIONS are decided by
their last KiB, CROSS record by record (R188). -/
def phaseFail (s : State) (slot ph n : Nat) : Option (Nat × PlanFail) :=
  let img := (planSlot s slot).image
  let whole := phaseUnits s slot ph
  if ph = 1 then (if n < whole then none else (frameFail img img.length).map (fun f => (whole, f)))
  else if ph = 2 then (if n < whole then none else (sectionsFail s.part img).map (fun f => (whole, f)))
  else if ph = 3 then crossFail s (parsePlan img) n
  else none

/-- A LOAD ends DONE (R178, R185). -/
def plnLoadDone (s : State) (slot : Nat) : State :=
  let img := (planSlot s slot).image
  let p := parsePlan img
  let s := placePlan s slot p
  let s := setPlanSlot s slot { PlanSlot.reset with st := .loaded, image := img, plan := some p }
  let s := if enabled s Reg.accBase then s else setRegN s Reg.accHashSeed p.hashSeed
  let s := lifeBump (evt (opEnd s Reg.plnOpstat 2 0) Reg.plnEvents 1) 11 1
  if s.twn.st = .active then twinHelloSend s else s

/-- A LOAD whose copy stands goes on until n units of phase ph are done; ph 5 is its end. At most k phases. -/
def loadRun (slot ph n : Nat) : Nat → State → State
  | 0, s => s
  | k + 1, s =>
    let q := plnPhase s
    let whole := phaseUnits s slot q
    let m := if q < ph then whole else Nat.max (regFld s Reg.plnOpstat 15 0) (Nat.min n whole)
    if ph < q then s
    else match phaseFail s slot q m with
      | some r => plnLoadFail s slot q r.1 r.2
      | none =>
        let s := opProgress s Reg.plnOpstat m
        if q = ph then s
        else if q = 4 then plnLoadDone s slot
        else loadRun slot ph n k (opProgress (plnOpShow s 1 slot (q + 1)) Reg.plnOpstat 0)

/-- The copy of a LOAD ends: the image stands in the slot's plan store and phase 1 begins. -/
def loadCopied (s : State) (slot : Nat) (img : List Byte) : State :=
  let s := setPlanSlot s slot { planSlot s slot with image := img }
  opProgress (plnOpShow { s with pln := { s.pln with data := [] } } 1 slot 1) Reg.plnOpstat 0

/-- PLN_LOAD_END (R181, R188): the LOAD goes on until so much of a phase is done. data are the bytes of
the whole image as read from host memory, and err whether a read failed. Phase 0 of SOURCE 3 ends once its bytes have
arrived; that of SOURCE 0 waits while the device is no bus master (R582). -/
def execPlnLoadEnd (data : List Byte) (err : Bool) (reach : LoadReach) (s : State) : Host.Outcome State Fault Refusal :=
  done (
    let ph := reach.ph
    let n := reach.n
    let src := s.pln.source
    let k := s.pln.opSlot
    if !opRunning s Reg.plnOpstat || s.pln.op != 1 then s
    else if plnPhase s != 0 then loadRun k ph n 5 s
    else if src = 0 && !s.host.busMaster then s
    else if src = 0 && err then
      plnLoadFail s k 0 (Nat.min n (phaseUnits s k 0)) ⟨0x19, 0, 0, 0⟩
    else if ph = 0 then
      (if src = 3 then s
       else opProgress s Reg.plnOpstat (Nat.max (regFld s Reg.plnOpstat 15 0) (Nat.min n (phaseUnits s k 0))))
    else if src = 3 && s.pln.data.length < regFld s Reg.plnSrcLen 22 0 then s
    else loadRun k ph n 5 (loadCopied s k (loadImage s data)))

/-! ### SWAP (R189–R194) -/

def otherSlot (k : Nat) : Nat := 1 - k

/-- Is a slot LIVE or RETIRING? -/
def slotActive (s : State) (k : Nat) : Bool := (planSlot s k).st = .live || (planSlot s k).st = .retiring

/-- The lowest index whose exhibit time is at least 2 ms ahead. -/
def leadIndex (s : State) (p : Plan) : Nat :=
  let t8 := selTime8 s (8 * s.raw) + 16000000
  indexAtLeast p.baseRate ((t8 + 7) / 8).toNat

/-- The first failing cause of a SWAP, 0 when it is accepted. -/
def swapCause (s : State) (k idx : Nat) : Nat :=
  match planAt s k with
  | none => 0x20
  | some p =>
    let o := otherSlot k
    if (planSlot s k).st != .loaded then 0x20
    else if !slotActive s o then 0
    else if !s.tim.valid || (match s.vlt.newest with | some n => idx ≤ n | none => false) || idx < leadIndex s p then 0x21
    else
      match planAt s o with
      | none => 0
      | some q =>
        if (planSlot s o).st = .live && p.baseRate != q.baseRate then 0x22
        else if 9216 < p.worst + q.worst then 0x23 else 0

/-- What the vault keeps of indices when a plan goes LIVE (R150): the start of the first plan. Once no other plan stands,
another base rate counts other indices, from this plan on (log entry 15). -/
def vaultPlan (s : State) (p : Plan) (start : Nat) (first fixed : Bool) : State :=
  let other := s.vlt.rate != p.baseRate
  let s :=
    if other && first then { s with vlt := { s.vlt with past := [], gone := [], newest := none, waitOpen := [] } } else s
  let s := { s with vlt := { s.vlt with rate := p.baseRate } }
  if (other && first) || s.pln.firstStart.isNone then
    { s with pln := { s.pln with firstStart := some start, firstWaits := !fixed } }
  else s

/-- The acceptance of a SWAP, in one step (R189–R192, R263, R276). -/
def swapAccept (s : State) (k idx : Nat) (p : Plan) (tpl : Bool) : State :=
  let o := otherSlot k
  let first := !slotActive s o
  let fixed := !first || s.tim.valid
  let start := if first && s.tim.valid then Nat.max idx (leadIndex s p) else idx
  let s := if (planSlot s o).st = .live then
      swapDiscard (setPlanSlot s o { planSlot s o with st := .retiring, stop := start, retSeq := s.acc.seq }) o
    else s
  let s := setPlanSlot s k { planSlot s k with st := .live, start := start, startFixed := fixed, closed := 0,
                                               liveAt := selTime8 s (8 * s.raw) }
  let s := { s with pln := { s.pln with applyTpl := tpl } }
  let s := vaultPlan s p start first fixed
  let s := { s with vrd := { s.vrd with lines := s.vrd.lines.filter (fun l => l.1 / 4096 != k) },
                    dsp := { s.dsp with timerNext := [], timerPend := [] } }
  let s := paceRetarget (evt s Reg.plnEvents 4)
  let s := twinSend s 4 (leBytes 4 4 ++ leBytes 4 k ++ leBytes 8 start)
  if tpl then setRegN (setRegN s Reg.plnTplStatus 0) Reg.plnTplFirst 0 else s

/-- SWAP of a slot at an index. -/
def plnSwapStart (s : State) (k idx : Nat) (tpl : Bool) : State :=
  if twinDrops s then twinRefuse s
  else if opRunning s Reg.plnOpstat then opRefuseStart s Reg.plnOpstat
  else
    let s := plnOpShow (opStart s Reg.plnOpstat) 2 k 0
    let s := { s with pln := { s.pln with op := 2, opSlot := k } }
    let c := swapCause s k idx
    if c != 0 then plnFailed s c
    else
      match planAt s k with
      | none => s
      | some p =>
        let s := slotRetire (swapAccept s k idx p tpl)
        if tpl then s else opEnd s Reg.plnOpstat 2 0

/-- S as PLN_SWAP_LO/HI hold it. -/
def swapIndex (s : State) : Nat := (getReg s Reg.plnSwapLo).toNat + regFld s Reg.plnSwapHi 15 0 * 2 ^ 32

def plnSwapWrite (s : State) (v : Word) : State :=
  if bit v 0 then plnSwapStart s (fld v 2 2) (swapIndex s) (bit v 1) else s

/-- PLN_SWAP (R189). -/
def execPlnSwap (v : Word) (s : State) : Host.Outcome State Fault Refusal := done (plnSwapWrite s (setBit v 0 true))

/-- Writes a template into its VACANT record and runs the registration check (R194); of L0–L3 only ACC_BIND is written
(R116). -/
def tplRegister (s : State) (n : Nat) (w : List Word) : State :=
  let put (s : State) (k : Nat) : State :=
    if n < 0x4000 || k = 6 then setReg s (accAddr n + 4 * k) (if k = 7 then wordAt w 7 &&& 0xFFFFFF#32 else wordAt w k) else s
  let s := accCheckEnd ((List.range 8).foldl put s) n
  if (getAcc s n).st = .registered then setRegN s Reg.plnTplStatus ((getReg s Reg.plnTplStatus).toNat + 1)
  else
    let t := (getReg s Reg.plnTplStatus).toNat
    let s := if t < 65536 then setRegN s Reg.plnTplFirst ((getReg s (Reg.accBase + 8)).toNat % 65536 * 65536 + n) else s
    setRegN s Reg.plnTplStatus (t + 65536)

/-- The enabled templates of a plan, in order (R194). -/
def enabledTemplates (p : Plan) : List Nat :=
  (List.range p.templates.length).filter (fun n => match p.templates[n]? with | some w => tplEnabled w | none => false)

/-- Applies a plan's templates from where PROGRESS stands until n of them have been processed (R194). -/
def applyTemplates (s : State) (p : Plan) (n : Nat) : State :=
  let todo := enabledTemplates p
  let from_ := regFld s Reg.plnOpstat 15 0
  let n := Nat.max from_ (Nat.min n todo.length)
  let s := ((todo.take n).drop from_).foldl (fun s n =>
    match p.templates[n]? with
    | some w => if (getAcc s n).st = .vacant then tplRegister s n w else s
    | none => s) s
  opProgress s Reg.plnOpstat n

/-- The running SWAP goes on until n of its templates have been processed; with the last it ends DONE (R194). -/
def swapRun (s : State) (n : Nat) : State :=
  match planAt s s.pln.opSlot with
  | some p =>
    let s := applyTemplates s p n
    if (enabledTemplates p).length ≤ n then opEnd s Reg.plnOpstat 2 0 else s
  | none => opEnd s Reg.plnOpstat 2 0

/-- PLN_SWAP_END (R194): the next of the SWAP's templates has been processed. -/
def execPlnSwapEnd (s : State) : Host.Outcome State Fault Refusal :=
  done (if !opRunning s Reg.plnOpstat || s.pln.op != 2 then s else swapRun s (regFld s Reg.plnOpstat 15 0 + 1))

/-- Valid time is given for the first time after a SWAP made without it: the start index is fixed (R190). -/
def fixStart (s : State) (k : Nat) (p : Plan) : State :=
  let x := planSlot s k
  if x.startFixed then s
  else
    let start := Nat.max x.start (leadIndex s p)
    let s := setPlanSlot s k { x with start := start, startFixed := true, liveAt := selTime8 s (8 * s.raw) }
    if s.pln.firstWaits then { s with pln := { s.pln with firstStart := some start, firstWaits := false } } else s

/-- Valid time is given: the LIVE slot's start is fixed (R190), its timers go on with the instants still to come (R261),
and what passed meanwhile lapses at once (R178). -/
def fixStarts (s : State) : State :=
  let s := match liveSlot s, livePlan s with
    | some k, some p => let s := fixStart s k p; timersFrom s p (selTime8 s (8 * s.raw))
    | _, _ => s
  slotRetire (lapsePast s)

/-! ### WITHDRAW and DISCARD (R195) -/

def plnCmdResult (s : State) (c : Nat) : State :=
  let s := setRegN s Reg.plnCmdResult c
  if c = 0 then s else refuse s Reg.plnBase c

/-- The end index a withdrawn slot takes. -/
def withdrawEnd (s : State) (x : PlanSlot) (p : Plan) : Nat :=
  let opened := match s.vlt.newest with | some n => n + 1 | none => 0
  let own := if opened ≤ x.start || !x.startFixed then x.start else opened
  if s.tim.valid then Nat.max opened (indexOf p.baseRate (taiNow s : Int) + 1) else own

def plnWithdraw (s : State) : State :=
  if accCountWord s / 65536 != 0 then plnCmdResult s 0x0A24
  else
    match liveSlot s with
    | none => plnCmdResult s 0x0A25
    | some k =>
      match planAt s k with
      | none => s
      | some p =>
        let x := planSlot s k
        let stop := withdrawEnd s x p
        let past := if x.startFixed then addPast s.vlt.past (Nat.max x.start stop, x.closed) else s.vlt.past
        let s := setPlanSlot s k { x with st := .retiring, stop := stop, retSeq := s.acc.seq }
        let s := { s with pln := { s.pln with firstWaits := false }, vlt := { s.vlt with past := past } }
        slotRetire (paceRetarget (plnCmdResult s 0))

def plnDiscard (s : State) (k : Nat) : State :=
  if (planSlot s k).st = .loaded then plnCmdResult (setPlanSlot s k PlanSlot.reset) 0 else plnCmdResult s 0x0A26

/-- A write of PLN_SHORT_CMD; dropped on a twin standby (R523). -/
def plnShort (s : State) (v : Word) : State :=
  if !bit v 0 && !bit v 1 then s
  else if twinDrops s then twinRefuse s
  else
    let s := if bit v 0 then plnWithdraw s else s
    if bit v 1 then plnDiscard s (fld v 2 2) else s

/-- WITHDRAW (R195). -/
def execWithdraw (s : State) : Host.Outcome State Fault Refusal := done (plnShort s 1#32)

/-- DISCARD (R195). -/
def execDiscard (slot : Nat) (s : State) : Host.Outcome State Fault Refusal :=
  done (plnShort s (BitVec.ofNat 32 (2 + slot % 2 * 4)))

/-! ### COMMIT (R196, R197) -/

def plnCommitStart (s : State) (k : Nat) (autoboot fallback : Bool) : State :=
  if opRunning s Reg.plnOpstat then opRefuseStart s Reg.plnOpstat
  else
    let s := plnOpShow (opStart s Reg.plnOpstat) 3 k 0
    let s := { s with pln := { s.pln with op := 3, opSlot := k, autoboot := autoboot, fallback := fallback } }
    let st := (planSlot s k).st
    if st = .loaded || st = .live then s else plnFailed s 0x26

def plnCommitWrite (s : State) (v : Word) : State :=
  if bit v 0 then plnCommitStart s (fld v 1 1) (bit v 2) (bit v 3) else s

/-- PLN_COMMIT (R196). -/
def execPlnCommit (v : Word) (s : State) : Host.Outcome State Fault Refusal :=
  done (plnCommitWrite s (setBit v 0 true))

/-- Writes the new select record (R196). -/
def selCommit (s : State) (area : Nat) (p : Plan) (len : Nat) : State :=
  let gen (r : Option SelRec) : Nat := match r with | some x => x.gen | none => 0
  let r : SelRec := { gen := (Nat.max (gen s.pln.sel0) (gen s.pln.sel1) + 1) % 2 ^ 32, area := area, planId := p.planId,
                      len := len, autoboot := s.pln.autoboot, fallback := s.pln.fallback }
  let first : Bool := match s.pln.sel0, s.pln.sel1 with
    | none, _ => true
    | some _, none => false
    | some a, some b => a.gen ≤ b.gen
  { s with pln := if first then { s.pln with sel0 := some r } else { s.pln with sel1 := some r } }

/-- The area COMMIT writes: the one that is not selected. -/
def commitArea (s : State) : Nat := match selRec s with | some r => 1 - r.area | none => 0

def setArea (s : State) (a : Nat) (l : List Byte) : State :=
  { s with pln := if a = 0 then { s.pln with area0 := l } else { s.pln with area1 := l } }

/-- The running COMMIT has written n KiB of the image (R196). -/
def commitCopy (s : State) (n : Nat) : State :=
  let img := (planSlot s s.pln.opSlot).image
  let n := Nat.max (regFld s Reg.plnOpstat 15 0) (Nat.min n (img.length / 1024))
  let a := commitArea s
  opProgress (setArea s a (patch (planArea s a) 0 (img.take (1024 * n)))) Reg.plnOpstat n

/-- PLN_COMMIT_END (R196, R197): n KiB are written. With the last, the image stands in the area that was not selected; ok
tells whether the readback agrees. DESIGN CHOICE (log entry 32): a slot that holds no plan any more ends the COMMIT with
0x0A26. -/
def execPlnCommitEnd (ok : Bool) (n : Nat) (s : State) : Host.Outcome State Fault Refusal :=
  done (
    let x := planSlot s s.pln.opSlot
    if !opRunning s Reg.plnOpstat || s.pln.op != 3 then s
    else
      match x.plan with
      | none => plnFailed s 0x26
      | some p =>
        let t := commitArea s
        let s := commitCopy s n
        if n < x.image.length / 1024 then s
        else if !ok then plnFailed (setArea s t x.image) 0x27
        else evt (opEnd (selCommit (setArea s t x.image) t p x.image.length) Reg.plnOpstat 2 0) Reg.plnEvents 16)

/-! ### STOP (R24, R187) -/

/-- PLN_LOAD.STOP: the operation, which has come to n of its units, ends STOPPED. A LOAD's slot is EMPTY; a COMMIT's KiB
stand in the area; a SWAP's templates are processed. -/
def plnStopOp (s : State) (n : Nat) : State :=
  if !opRunning s Reg.plnOpstat then opRefuseStop s Reg.plnOpstat
  else if s.pln.op = 1 then
    let k := s.pln.opSlot
    let n := Nat.max (regFld s Reg.plnOpstat 15 0) (Nat.min n (phaseUnits s k (plnPhase s)))
    plnFailRegs (setPlanSlot (opEnd (opProgress s Reg.plnOpstat n) Reg.plnOpstat 4 0) k PlanSlot.reset) ⟨0, 0, 0, 0⟩
  else if s.pln.op = 3 then opEnd (commitCopy s n) Reg.plnOpstat 4 0
  else match planAt s s.pln.opSlot with
    | some p => opEnd (applyTemplates s p n) Reg.plnOpstat 4 0
    | none => opEnd s Reg.plnOpstat 4 0

/-- PLN_STOP (R24): n as `plnStopOp` says. -/
def execPlnStop (n : Nat) (s : State) : Host.Outcome State Fault Refusal := done (plnStopOp s n)

/-- A write of PLN_LOAD; STOP acts first (R621). -/
def plnLoadWrite (s : State) (v : Word) : State :=
  let s := if bit v 1 then plnStopOp s 0 else s
  if bit v 0 then plnLoadStart s (fld v 2 2) (fld v 5 4) else s

/-- PLN_LOAD (R181). -/
def execPlnLoad (v : Word) (s : State) : Host.Outcome State Fault Refusal := done (plnLoadWrite s (setBit v 0 true))

/-! ### Registers -/

def slotCode (x : SlotState) : Nat :=
  match x with | .empty => 0 | .loading => 1 | .loaded => 2 | .live => 3 | .retiring => 4

/-- PLN_SLOT_STATE. -/
def plnSlotState (s : State) : Nat :=
  b2n (s.pln.s1.st = .live) * 256 + slotCode s.pln.s1.st * 16 + slotCode s.pln.s0.st

end Sys2Proof.Machine
end

