-- ==== Sys2Proof/Machine/VerdictCmds.lean ====
section
/-! DEFINITION. The commands of the verdict unit: reductions, banks, pins and message retransmission
(08_verdicts_and_alarms.md). -/

namespace Sys2Proof.Machine

/-- REDUCTION_END (R272–R282): the reduction of the close event at the front ends; ns and steps are its duration, as
VRD_REDUCE shows them. -/
def execReductionEnd (ns steps : Nat) (s : State) : Host.Outcome State Fault Refusal :=
  done (
    match s.vrd.queue with
    | [] => s
    | r :: rest =>
      let s := { s with vrd := { s.vrd with queue := rest } }
      match r.bank, planAt s r.slot with
      | some b, some p => slotRetire (revisionDone (reduceBank s p r b ns steps) r.index)
      | _, _ => slotRetire s)

/-- KEEP_SET_COPIED (R268, R295, R296): bank b has copied its keep set; contributions that waited are applied and a
revision that waited for it is evaluated. -/
def execKeepSetCopied (b : Nat) (s : State) : Host.Outcome State Fault Refusal :=
  done (
    let x := getBank s b
    if x.st != .keeping then s else revisionDone (keepCopied s b) x.index)

/-- BANK_CLEARED (R267, R268): bank b is FREE; openings that waited for a bank are tried again (R131). -/
def execBankCleared (b : Nat) (s : State) : Host.Outcome State Fault Refusal :=
  done (if (getBank s b).st = .clearing then retryOpen (bankFreed s b) else s)

/-- PIN_PULSE_END (Table 8.7): the pulse of pin p ends. -/
def execPinPulseEnd (p : Nat) (s : State) : Host.Outcome State Fault Refusal :=
  done (
    match smFind s.vrd.pulses p with
    | some t => if t ≤ s.raw then { s with vrd := { s.vrd with pulses := smErase s.vrd.pulses p } } else s
    | none => s)

/-- Clears the latches of a mask of pins (Table 8.7). -/
def pinClearMask (s : State) (mask : Nat) : State :=
  { s with vrd := { s.vrd with latches := s.vrd.latches - (s.vrd.latches &&& mask) } }

/-- A write of VRD_PIN_CLEAR: dropped on a twin standby (R523), told to the standby (R520). -/
def pinClearWrite (s : State) (v : Word) : State :=
  if twinDrops s then twinRefuse s
  else twinSend (pinClearMask s (fld v 15 0)) 4 (leBytes 4 3 ++ leBytes 4 (fld v 15 0))

/-- PIN_CLEAR (R284). -/
def execPinClear (v : Word) (s : State) : Host.Outcome State Fault Refusal := done (pinClearWrite s v)

/-- A write of VRD_PIN_FORCE (R286): a write with a FORCE_EN bit is counted and recorded. -/
def pinForceWrite (s : State) (v : Word) : State :=
  let s := setReg s Reg.vrdPinForce v
  if fld v 31 16 = 0 then s
  else logEvent (evt (bump s (Reg.vrdCnt 13)) Reg.vrdEvents 0x40) 0x0842 0xFFFF []

/-- PIN_FORCE (R286). -/
def execPinForce (v : Word) (s : State) : Host.Outcome State Fault Refusal := done (pinForceWrite s v)

/-- GOOSE_RETRANSMIT (R289): template t is sent again when its interval ends; the next interval doubles up to T_MAX. -/
def execGooseRetransmit (t : Nat) (s : State) : Host.Outcome State Fault Refusal :=
  done (
    match smFind s.vrd.tpl t with
    | none => s
    | some x =>
      if s.raw < x.nextAt then s
      else
        let tp := templateWith x.elem x.body
        let iv := Nat.min (2 * x.interval) (tMax tp)
        let x := { x with sqNum := next1 x.sqNum, interval := iv, nextAt := x.nextAt + 1000000 * iv }
        tplSend (setTpl s t x) t tp x 10)

/-- The enable check of VRD: 0 or the cause. -/
def vrdCheck (s : State) : Nat :=
  if regBit s Reg.vrdCfg 16 && !isHostQueue s (regFld s Reg.vrdCfg 10 0) then 0x01 else 0

end Sys2Proof.Machine
end

