-- ==== Sys2Proof/Machine/EnergyOps.lean ====
section
/-! DEFINITION. The energy intervals: the interval record, rollover, and what loss and return of valid time do to
them (14_energy.md, section 14.4). -/

namespace Sys2Proof.Machine

def nrgOn (s : State) : Bool := enabled s Reg.nrgBase
def elemOn (s : State) (e : Nat) : Bool := nrgOn s && regBit s Reg.nrgCfg e
def intLen (s : State) : Nat := Nat.max 1 (regFld s Reg.nrgCfg 31 20)

def intAcc (s : State) (e k : Nat) : IntAcc := smGet IntAcc.reset s.nrg.run.accs (32 * e + k)

/-- AUX of an accumulator (Table 14.3). -/
def accAux (a : IntAcc) : Nat := b2n a.wrap * 2 ^ 31 + a.wraps * 65536 + a.revs

/-- Is a voltage channel of the element in ZC_LOST? -/
def zcLostElem (s : State) (e : Nat) : Bool := regFld s Reg.nrgStatus (18 + 3 * e) (16 + 3 * e) != 0

def elemFlags (s : State) (e : Nat) : Nat := smGet 0 s.nrg.run.elemFlags e

/-- Sets flags of one element's interval. -/
def setElemFlags (s : State) (e m : Nat) : State :=
  { s with nrg := { s.nrg with run := { s.nrg.run with elemFlags := smPut 0 s.nrg.run.elemFlags e (elemFlags s e ||| m) } } }

/-- Sets flags of both elements' interval. -/
def setIntFlags (s : State) (m : Nat) : State :=
  { s with nrg := { s.nrg with run := { s.nrg.run with flags := s.nrg.run.flags ||| m } } }

/-- The interval record of an element that covers len seconds (Table 14.3). -/
def intRecord (s : State) (e len leap : Nat) : List Byte :=
  let r := s.nrg.run
  leBytes 4 r.seq ++ leBytes 4 (e * 65536 + len % 65536) ++ leBytes 8 r.start ++
    leBytes 4 (r.flags ||| elemFlags s e ||| leap) ++ leBytes 4 (smGet 0 r.steps e) ++ leBytes 8 0 ++
    (List.range 32).flatMap (fun k =>
      let a := intAcc s e k
      leBytes 4 a.value ++ leBytes 4 (accAux a) ++ leBytes 8 a.firstRev)

/-- A record goes to the host queue; a refusal follows Table 11.2. -/
def nrgPush (s : State) (b : List Byte) : State :=
  let q := regFld s Reg.nrgCfg 18 8
  if copyRoom s q b.length then
    commitPacket s q { source := 0x15, port := 7, arrival := s.raw, sub := 0, data := b }
  else logEvent (evt (queLast (bump s (Reg.queCnt 3)) q 0x0E41) Reg.queEvents 4) 0x0E41 q []

/-- Does an inserted leap second fall in [a, b), in TAI seconds? -/
def leapWithin (s : State) (a b : Int) : Bool :=
  (List.range 32).any (fun k =>
    let old := if k = 0 then leapBase s else leapOff s (k - 1)
    let t := (leapEff s k : Int) + old
    leapValid s k && old < leapOff s k && a ≤ t && t < b)

/-- The running interval closes and the next begins at a UTC second and its TAI second, in one update (R448). -/
def intervalRoll (s : State) (endTai : Int) (startUtc startTai flags : Nat) : State :=
  let r := s.nrg.run
  let len := (endTai - (r.startTai : Int)).toNat
  let leap := if leapWithin s r.startTai endTai then 16 else 0
  let es := (List.range 2).filter (elemOn s)
  let recs := es.map (fun e => (e, intRecord s e len leap))
  let lost := es.filter (zcLostElem s)
  let s := { s with nrg := { s.nrg with
    last := recs.foldl (fun m x => smPut [] m x.1 x.2) s.nrg.last,
    run := { r with accs := [], seq := (r.seq + 1) % 2 ^ 32, start := startUtc, startTai := startTai, opened := true,
                    flags := flags, elemFlags := lost.foldl (fun m e => smPut 0 m e 0x40) [], steps := [] } } }
  let s := evt s Reg.nrgEvents 1
  if regBit s Reg.nrgCfg 19 then recs.foldl (fun s x => nrgPush s x.2) s else s

/-- The first interval begins. -/
def intervalOpen (s : State) (startUtc startTai flags : Nat) : State :=
  { s with nrg := { s.nrg with run := { s.nrg.run with start := startUtc, startTai := startTai, opened := true, flags := flags } } }

/-- The TAI second at which the running interval ends (R448, R450). -/
def intervalEnd (s : State) : Int :=
  let r := s.nrg.run
  if intLen s = 1 then (r.startTai : Int) + 1
  else
    let u : Int := ((r.start / intLen s + 1) * intLen s : Nat)
    u + taiMinusUtc s u

/-- Does a TAI second lie in another interval than the running one? -/
def otherInterval (s : State) (tai : Int) : Bool :=
  let r := s.nrg.run
  let u := (utcOfTai s tai).toNat
  u / intLen s != r.start / intLen s || (intLen s = 1 && tai != (r.startTai : Int))

/-- The rollover at a step end in TAI second tai (R448). -/
def intervalBoundary (s : State) (tai : Int) : State :=
  let u := (utcOfTai s tai).toNat
  let u0 := u / intLen s * intLen s
  let t0 : Int := if intLen s = 1 then tai else (u0 : Int) + taiMinusUtc s u0
  let e := intervalEnd s
  let e := if tai < e then (if tai < (s.nrg.run.startTai : Int) then (s.nrg.run.startTai : Int) else tai) else e
  intervalRoll s e u0 t0.toNat 0

/-- Valid time is lost: the running interval sets TIME_GAP (R449). -/
def nrgTimeLost (s : State) : State := if nrgOn s && s.nrg.run.opened then setIntFlags s 2 else s

/-- Valid time returns: an interval whose end has passed closes, and the next carries PARTIAL (R449, R451). -/
def nrgTimeGiven (s : State) : State :=
  if nrgOn s && s.nrg.run.opened then
    let tai : Int := (taiNow s / 1000000000 : Nat)
    if intervalEnd s ≤ tai then intervalRoll s tai (utcOfTai s tai).toNat tai.toNat 1 else s
  else s

end Sys2Proof.Machine
end

