-- ==== Sys2Proof/Machine/TimeCmds.lean ====
section
/-! DEFINITION. The time base's commands: domain commits, the SOURCE 1 loop, selection, leap table, 1PPS and
timestamp queues (12_time_base.md). -/

namespace Sys2Proof.Machine

def timOn (s : State) : Bool := enabled s Reg.timBase
def domSource (s : State) (d : Nat) : Nat := regFld s (domPage d) 0 0
def switchTol8 (s : State) : Int := ((8 * regFld s Reg.timCfg 7 0 : Nat) : Int)

/-! ### Valid time (R141, R190, R394, R449) -/

/-- PPS_OUT deasserts when valid time is withdrawn, unless OUT_MODE is 1 (R403). -/
def ppsWithdraw (s : State) : State :=
  { s with tim := { s.tim with valid := false, ppsOut := s.tim.ppsOut && regBit s Reg.timPpsCfg 30 } }

/-- Valid time is withdrawn. -/
def timeWithdraw (s : State) : State :=
  if s.tim.valid then pinEval (nrgTimeLost (timeLostClose (ppsWithdraw s))) else s

/-- Valid time is given. -/
def timeGive (s : State) : State :=
  if s.tim.valid then s else pinEval (nrgTimeGiven (fixStarts { s with tim := { s.tim with valid := true } }))

/-! ### Selection (R396–R399) -/

/-- T_B − T_A now, in 1/8 ns. -/
def domDiff8 (s : State) : Int := domNow8 s 1 - domNow8 s 0

def selRefuse (s : State) (code : Nat) (auto : Bool) : State :=
  let s := bump (refuse (setRegN s Reg.timSelectResult code) Reg.timBase code) (Reg.timCnt 1)
  if auto then bump s (Reg.timCnt 11) else s

/-- An accepted SELECT clears TIME_SPLIT (R398). -/
def selAccept (s : State) : State :=
  bump (setRegN { s with tim := { s.tim with split := false } } Reg.timSelectResult 0) (Reg.timCnt 0)

/-- TIME_SPLIT is raised (R398). -/
def timeSplit (s : State) : State :=
  let s' := evt { s with tim := { s.tim with split := true } } Reg.timEvents 4
  if s.tim.split then s' else logEvent s' 0x0440 0xFFFF []

/-- A SELECT of domain d under Table 12.4. -/
def selectDom (s : State) (d : Nat) (auto : Bool) : State :=
  if s.tim.slew.isSome then selRefuse s 0x0406 auto
  else if d = s.tim.sel then selAccept s
  else if (domOf s d).st != .locked then selRefuse s 0x0405 auto
  else if !s.tim.valid then timeGive (selAccept { s with tim := { s.tim with sel := d } })
  else if switchTol8 s < (domDiff8 s).natAbs then selRefuse (timeSplit s) 0x0404 auto
  else
    let sl : Slew := { start := s.raw, fromDom := s.tim.sel, oldVals := none }
    pinEval (selAccept { s with tim := { s.tim with slew := some sl, sel := d } })

/-- The other domain is selected by AUTO_SWITCH while the selected one is not LOCKED and the other is (R399). -/
def autoSwitch (s : State) : State :=
  let o := 1 - s.tim.sel
  if regBit s Reg.timCfg 8 && (domOf s s.tim.sel).st != .locked && (domOf s o).st = .locked then selectDom s o true else s

/-! ### Domain states (Table 12.1, R387) -/

/-- A change of domain d's state, its event and its record (R387). -/
def domChange (s : State) (d : Nat) (new : DomState) : State :=
  let x := domOf s d
  if x.st = new then s
  else
    let s := evt (setDom s d { x with st := new, jumpHold := false }) Reg.timEvents 1
    logEvent s 0x0442 0xFFFF
      ([BitVec.ofNat 8 d, BitVec.ofNat 8 (domStateCode x.st), BitVec.ofNat 8 (domStateCode new), 0#8] ++
        leBytes 4 (errEst s d))

/-- Domain d moves to a state. -/
def setDomState (s : State) (d : Nat) (new : DomState) : State :=
  if (domOf s d).st = new then s
  else
    let s := domChange s d new
    if d = s.tim.sel then
      let s := if new = .locked then timeGive s else if new = .lost || new = .free then timeWithdraw s else s
      let s := pinEval s
      if new = .locked then s else autoSwitch s
    else s

/-- A lock update (R386, R388): ERR_LAST in 1/8 ns, AGE 0. -/
def lockUpdate (s : State) (d err8 : Nat) : State :=
  setDom s d { domOf s d with errLast := err8, lastLock := some s.raw }

/-! ### Commits (R384, R385, R388, R389) -/

/-- New values of a domain in one update. -/
def putVals (s : State) (d : Nat) (v : DomVals) : State :=
  let x := domOf s d
  setDom s d { x with vals := v, gen := (x.gen + 1) % 2 ^ 32 }

/-- The values with a rate whose T at the commit instant continues T_d (Table 12.2, RATE). -/
def rateVals (s : State) (d : Nat) (rate : Int) : DomVals :=
  let o := domNow8 s d - ((8 * s.raw : Nat) : Int)
  { s := ((o / 8000000000) % (2 ^ 48 : Nat)).toNat, ns := (o % 8000000000 / 8).toNat, sub := (o % 8).toNat, rate := rate,
    anchor := s.raw }

/-- The values of a STEP; e_prev is 0 after one (R392). -/
def stepVals (s : State) (d : Nat) (v : DomVals) : State :=
  let s := putVals s d v
  setDom s d { domOf s d with ePrev := 0 }

/-- What a STEP to values v does: 0 or the cause, and the state after it (R389). -/
def stepDom (s : State) (d : Nat) (v : DomVals) (force : Bool) : Nat × State :=
  if s.tim.slew.isSome then (0x0406, s)
  else if d != s.tim.sel || !s.tim.valid then (0, stepVals s d v)
  else
    let old := (domOf s d).vals
    let delta := domTime8 v (8 * s.raw) - domTime8 old (8 * s.raw)
    if (delta.natAbs : Int) ≤ switchTol8 s then
      let sl : Slew := { start := s.raw, fromDom := d, oldVals := some old }
      let s := stepVals s d v
      (0, { s with tim := { s.tim with slew := some sl } })
    else if force then
      let s := timeWithdraw s
      let s := bump (evt (stepVals s d v) Reg.timEvents 8) (Reg.timCnt 10)
      let s := logEvent s 0x0441 d (leBytes 8 (ofSigned 64 (delta / 8)))
      (0, timeGive s)
    else (0x0403, s)

/-- A staged register of a host port. -/
def stg (s : State) (port d o : Nat) : Nat := (getReg s (portReg port (domPage d + o))).toNat

def domResult (s : State) (port d code : Nat) : State := setRegN s (portReg port (domPage d + 0x40)) code

/-- The commit of a command: 0 or the cause, and the state after it, without the lock update (Table 12.2). DEDUCED (log
32): the loop never steps a LOCKED domain (R393), so a REACQUIRE of one leaves no acquisition to be made. -/
def commitDom (s : State) (port d cmd : Nat) (force : Bool) : Nat × State :=
  let src := domSource s d
  let rate := toSigned 32 (stg s port d 0x34)
  if cmd = 0 || 4 < cmd then (0x04F1, s)
  else if (src = 1 && (cmd = 1 || cmd = 3)) || (src = 0 && cmd = 4) then (0x0407, s)
  else if cmd = 1 then (0, putVals s d (rateVals s d rate))
  else if cmd = 2 then
    let ns := stg s port d 0x30
    if 1000000000 ≤ ns then (0x0402, s)
    else
      stepDom s d { s := stg s port d 0x28 + stg s port d 0x2C % 65536 * 2 ^ 32, ns := ns, sub := 0, rate := rate, anchor := s.raw }
        force
  else if cmd = 3 then (0, putVals s d (domOf s d).vals)
  else
    let x := domOf s d
    let again := if x.st = .locked then none else some (b2n force * 2 + port)
    (0, setDom s d { x with sourceJump := false, reacqForce := again, usable := 0, gen := (x.gen + 1) % 2 ^ 32 })

/-- A write of DOM_CMD by a host port (R388, R390, R629). -/
def domCmd (s : State) (port d : Nat) (v : Word) : State :=
  let r := commitDom s port d (fld v 2 0) (bit v 9)
  let s := domResult r.2 port d r.1
  if r.1 != 0 then bump (refuse s Reg.timBase r.1) (Reg.timCnt 3)
  else
    let s := bump s (Reg.timCnt 2)
    if bit v 8 then
      let s := lockUpdate s d (8 * stg s port d 0x38)
      if domSource s d = 0 && timOn s then setDomState s d .locked else pinEval s
    else s

/-- DOMAIN_RATE (R388). -/
def execDomainRate (port d : Nat) (v : Word) (s : State) : Host.Outcome State Fault Refusal :=
  done (domCmd s port (d % 2) (setFld v 2 0 1))

/-- DOMAIN_STEP (R389). -/
def execDomainStep (port d : Nat) (v : Word) (s : State) : Host.Outcome State Fault Refusal :=
  done (domCmd s port (d % 2) (setFld v 2 0 2))

/-- DOMAIN_ERR (R388). -/
def execDomainErr (port d : Nat) (v : Word) (s : State) : Host.Outcome State Fault Refusal :=
  done (domCmd s port (d % 2) (setFld v 2 0 3))

/-- DOMAIN_REACQUIRE (R392, R393). -/
def execDomainReacquire (port d : Nat) (v : Word) (s : State) : Host.Outcome State Fault Refusal :=
  done (domCmd s port (d % 2) (setFld v 2 0 4))

/-- DOMAIN_UPDATE_TIMEOUT (Table 12.1): no commit with LOCK 1 within UPDATE_TIMEOUT s. -/
def execDomainUpdateTimeout (d : Nat) (s : State) : Host.Outcome State Fault Refusal :=
  done (
    let d := d % 2
    let x := domOf s d
    if x.st = .locked && domSource s d = 0 then
      match x.lastLock with
      | some t => if t + 1000000000 * regFld s (domPage d) 10 8 ≤ s.raw then setDomState s d .holdover else s
      | none => s
    else s)

/-- DOMAIN_LOST (Table 12.1): E_d is above HOLD_LIMIT. -/
def execDomainLost (d : Nat) (s : State) : Host.Outcome State Fault Refusal :=
  done (
    let d := d % 2
    let x := domOf s d
    if (x.st = .locked || x.st = .holdover) && errLost s d then setDomState s d .lost else s)

/-! ### The SOURCE 1 loop (R391–R393) -/

/-- The time a usable second's PPS edge stands for, in 1/8 ns. -/
def edgeTime8 (s : State) (label : Nat) : Int :=
  8000000000 * (label : Int) + 8 * toSigned 32 (getReg s Reg.timPpsDelay).toNat

/-- Values whose T_d at an edge is exact; the STEP's rate is not stated and free (R392). -/
def acquireVals (s : State) (edge8 label : Nat) : DomVals :=
  let rate := toSigned 32 (freeBelow s (2 ^ 32))
  let o : Int := edgeTime8 s label - (edge8 : Int) - (rate * ((edge8 : Int) - 8 * (s.raw : Int))) / 2 ^ 40
  { s := ((o / 8000000000) % (2 ^ 48 : Nat)).toNat, ns := (o % 8000000000 / 8).toNat, sub := (o % 8).toNat, rate := rate,
    anchor := s.raw }

/-- A domain that is to acquire: FREE, LOST, or after REACQUIRE. -/
def acqDue (x : Domain) : Bool := x.st = .free || x.st = .lost || x.reacqForce.isSome

/-- Acquisition at the second of two usable seconds (R392, R393). -/
def acquire (s : State) (d edge8 label : Nat) : State :=
  let x := domOf s d
  let force := match x.reacqForce with | some f => 2 ≤ f | none => false
  let r := stepDom (nextFree s) d (acquireVals s edge8 label) force
  if r.1 = 0 then
    let y := domOf r.2 d
    let s := lockUpdate (setDom r.2 d { y with reacqForce := none, ePrev := 0, inLock := 0, jumps := 0 }) d
      (8 * (getReg s Reg.timPpsErr).toNat)
    if x.st = .free || x.st = .lost then setDomState s d .locked else pinEval s
  else
    match x.reacqForce with
    | some f => domResult (setDom s d { x with sourceJump := true, reacqForce := none }) (f % 2) d 0x0403
    | none => s

/-- RATE after a usable second with error e in 1/8 ns (R392); a RATE outside its 32 bits is not stated and free. -/
def loopRate (s : State) (x : Domain) (e : Int) : Int :=
  let ps := regFld s Reg.timPpsLoop 31 28
  let num := ((e - x.ePrev) * (2 ^ ps : Nat) + e) * 2 ^ 37
  let den : Int := ((2 ^ ps * 1000000000 : Nat) : Int)
  let r := x.vals.rate - (2 * num + den) / (2 * den)
  if -2147483648 ≤ r && r ≤ 2147483647 then r else toSigned 32 (freeBelow s (2 ^ 32))

/-- A tracking domain at a usable second (R392, R393). A holdover that began with a source jump does not end by in-lock
seconds (Table 12.1). -/
def track (s : State) (d edge8 label : Nat) : State :=
  let x := domOf s d
  let e := domTime8 x.vals edge8 - edgeTime8 s label
  let within (ns : Nat) : Bool := e.natAbs ≤ 8 * ns
  let inLock := if within (regFld s Reg.timPpsLoop 15 0) then x.inLock + 1 else 0
  let jumps := if within (getReg s Reg.timPpsStep).toNat then 0 else x.jumps + 1
  let s := nextFree (putVals s d (rateVals s d (loopRate s x e)))
  let s := lockUpdate s d (e.natAbs + 8 * (getReg s Reg.timPpsErr).toNat)
  let s := setDom s d { domOf s d with ePrev := e, inLock := inLock, jumps := jumps }
  if 4 ≤ jumps then
    let s := setDom s d { domOf s d with sourceJump := true, inLock := 0, jumps := 0 }
    if x.st = .locked then
      let s := setDomState s d .holdover
      setDom s d { domOf s d with jumpHold := true }
    else s
  else if x.st = .holdover && 8 ≤ inLock && !x.jumpHold then setDomState s d .locked
  else pinEval s

/-- What a usable second does to domain d. -/
def usableSecond (s : State) (d edge edge8 label : Nat) : State :=
  let x := domOf s d
  if domSource s d != 1 || x.sourceJump || !timOn s then s
  else
    let next := 0 < x.usable && edge < x.lastUsable + 1500000000
    let x := if next then { x with usable := x.usable + 1 } else { x with usable := 1, inLock := 0, jumps := 0 }
    let s := setDom s d { x with lastUsable := edge }
    if acqDue x then (if 2 ≤ x.usable then acquire s d edge8 label else s) else track s d edge8 label

/-- A PPS_IN edge and the on-time marker of a usable frame within 2 µs of it make a second (R391). -/
def secondEval (s : State) : State :=
  match s.tim.ppsLast, s.tim.irigLast with
  | some (pr, ps), some (mr, ms, label, inOrder) =>
    if ((8 * pr + ps : Nat) - (8 * mr + ms : Nat) : Int).natAbs ≤ 16000 then
      let s := { s with tim := { s.tim with irigLast := none } }
      if inOrder then usableSecond (usableSecond s 0 pr (8 * pr + ps) label) 1 pr (8 * pr + ps) label else s
    else s
  | _, _ => s

/-- PPS_IN_EDGE (R382, R404): an edge on PPS_IN now, with its SUB; only the polarity of IN_POL counts. -/
def execPpsInEdge (rising : Bool) (sub : Nat) (s : State) : Host.Outcome State Fault Refusal :=
  done (
    if rising = regBit s Reg.timPpsCfg 28 then s
    else
      let glitch : Bool := match s.tim.ppsLast with | some (t, _) => s.raw < t + 500000000 | none => false
      if glitch then bump s (Reg.timCnt 5)
      else
        let s := bump { s with tim := { s.tim with ppsLast := some (s.raw, sub % 8), ppsMiss := s.raw } } (Reg.timCnt 4)
        let s := setReg64 s (Reg.timPpsCap 0) (Reg.timPpsCap 1) s.raw
        secondEval (setRegN s (Reg.timPpsCap 2) (sub % 8)))

/-- Element k of an IRIG-B frame given as 100 base-4 digits, element 0 lowest: 0 and 1 a data bit, 2 a position
identifier, 3 no valid element. -/
def irigEl (f k : Nat) : Nat := f / 4 ^ k % 4

def irigBit (f k : Nat) : Bool := irigEl f k = 1

/-- A number of n data bits from element k on, the least significant first. -/
def irigNum (f k n : Nat) : Nat := sumNat ((List.range n).map (fun j => b2n (irigBit f (k + j)) * 2 ^ j))

/-- The position identifiers are in place: elements 0, 9, 19, …, 99 and no others (R391). -/
def irigFramed (f : Nat) : Bool :=
  (List.range 100).all (fun k => if k = 0 || k % 10 = 9 then irigEl f k = 2 else irigEl f k < 2)

def irigSec (f : Nat) : Nat := irigNum f 1 4 + 10 * irigNum f 6 3
def irigMin (f : Nat) : Nat := irigNum f 10 4 + 10 * irigNum f 15 3
def irigHour (f : Nat) : Nat := irigNum f 20 4 + 10 * irigNum f 25 2
def irigDay (f : Nat) : Nat := irigNum f 30 4 + 10 * irigNum f 35 4 + 100 * irigNum f 40 2
def irigYear (f : Nat) : Nat := irigNum f 50 4 + 10 * irigNum f 55 4

/-- The BCD fields are in range (R391): decimal digits, a second up to 60 (an inserted second), a day of the year. -/
def irigRange (f : Nat) : Bool :=
  [1, 10, 20, 30, 35, 50, 55].all (fun k => irigNum f k 4 ≤ 9) && irigSec f ≤ 60 && irigMin f ≤ 59 && irigHour f ≤ 23 &&
    1 ≤ irigDay f && irigDay f ≤ 365 + b2n (irigYear f % 4 = 0)

/-- The 1344 parity, element 75, is right: even over the data bits up to it. -/
def irigParity (f : Nat) : Bool :=
  ((List.range 76).filter (fun k => irigBit f k)).length % 2 = 0

/-- The 1344 time offset in half hours: a sign, 1 to 8 hours, a half hour. -/
def irigOffset (f : Nat) : Int :=
  let h := 2 * irigNum f 65 4 + b2n (irigBit f 70)
  if irigBit f 64 then -(h : Int) else h

/-- The UTC second of a frame's time: the coded time plus the 1344 offset, years 2000 to 2099; an inserted second 60
counts as the second after 59. -/
def irigUtc (f : Nat) : Int :=
  let y := irigYear f
  let days := 10957 + 365 * y + (y + 3) / 4 + (irigDay f - 1)
  ((86400 * days + 3600 * irigHour f + 60 * irigMin f + irigSec f : Nat) : Int) + 1800 * irigOffset f

/-- The TAI second of a frame's time (R106, R391); an inserted second follows second 59 of the old offset. -/
def irigLabel (s : State) (f : Nat) : Nat :=
  if irigSec f = 60 then (irigUtc f + taiMinusUtc s (irigUtc f - 1)).toNat
  else (irigUtc f + taiMinusUtc s (irigUtc f)).toNat

/-- A frame is usable (R391). -/
def irigUsable (f : Nat) : Bool := irigFramed f && irigRange f && irigParity f

/-- TIM_IRIG_STATUS of a frame: USABLE, leap pending, leap delete, DST, time quality and the offset. -/
def irigStatus (f : Nat) : Word :=
  BitVec.ofNat 32 (b2n (irigUsable f) * 2 ^ 31 + b2n (irigBit f 60) * 2 ^ 18 + b2n (irigBit f 61) * 2 ^ 17 +
    b2n (irigBit f 63) * 2 ^ 16 + irigNum f 71 4 * 2 ^ 12 + ofSigned 8 (irigOffset f))

/-- A frame of its three parts: elements 0–49 (the time of year and the year's first digit), 50–79 (the control functions)
and 80–99 (binary seconds), each given as `irigEl` reads it. -/
def irigElements (time control binary : Nat) : Nat := time % 4 ^ 50 + 4 ^ 50 * (control % 4 ^ 30) + 4 ^ 80 * binary

/-- IRIG_FRAME (R391): a frame whose on-time marker was at a raw time and SUB, with its 100 elements. The elements'
meaning is IEEE 1344's, which the spec names and does not print (PRESUMED, log 35). -/
def execIrigFrame (marker sub time control binary : Nat) (s : State) : Host.Outcome State Fault Refusal :=
  done (
    let f := irigElements time control binary
    let s := setReg s Reg.timIrigStatus (irigStatus f)
    if !irigUsable f then bump s (Reg.timCnt 8)
    else
      let label := irigLabel s f
      let inOrder : Bool := match s.tim.lastLabel with | some l => label = l + 1 | none => false
      let jump := s.tim.lastLabel.isSome && !inOrder
      let s := bump s (Reg.timCnt 7)
      let s := if jump then bump s (Reg.timCnt 9) else s
      let s := setReg64 s (Reg.timIrigTime 0) (Reg.timIrigTime 1) (label % 2 ^ 48)
      secondEval { s with tim := { s.tim with irigLast := some (marker, sub % 8, label, inOrder), lastLabel := some label } })

/-- PPS_SOURCE_TIMEOUT (Table 12.1): 3 s without a usable second. -/
def execPpsSourceTimeout (d : Nat) (s : State) : Host.Outcome State Fault Refusal :=
  done (
    let d := d % 2
    let x := domOf s d
    if x.st = .locked && domSource s d = 1 && x.lastUsable + 3000000000 ≤ s.raw then setDomState s d .holdover else s)

/-- PPS_MISSING (R404): 1.5 s have passed without an edge; each further 1.5 s count again. -/
def execPpsMissing (s : State) : Host.Outcome State Fault Refusal :=
  done (
    if s.tim.ppsLast.isSome && s.tim.ppsMiss + 1500000000 ≤ s.raw then
      let s := bump { s with tim := { s.tim with ppsMiss := s.raw } } (Reg.timCnt 6)
      logEvent (evt s Reg.timEvents 0x20) 0x0445 0xFFFF []
    else s)

/-! ### Selection commands -/

/-- A write of TIM_SELECT. -/
def selectWrite (s : State) (v : Word) : State := if bit v 8 then selectDom s (fld v 0 0) false else s

/-- SELECT (R396). -/
def execSelect (v : Word) (s : State) : Host.Outcome State Fault Refusal := done (selectWrite s (setBit v 8 true))

/-- SLEW_END (R397). -/
def execSlewEnd (s : State) : Host.Outcome State Fault Refusal :=
  done (
    match s.tim.slew with
    | some sl => if sl.start + 1000000000 ≤ s.raw then evt { s with tim := { s.tim with slew := none } } Reg.timEvents 2 else s
    | none => s)

/-- AUTO_SWITCH_RETRY (R399): the second case, once a second. -/
def execAutoSwitchRetry (s : State) : Host.Outcome State Fault Refusal :=
  done (if (domOf s s.tim.sel).st = .free then s else autoSwitch s)

/-- DOMAIN_COMPARE (R398). -/
def execDomainCompare (s : State) : Host.Outcome State Fault Refusal :=
  done (
    if s.tim.domA.st = .free || s.tim.domB.st = .free then s
    else
      let d := domDiff8 s
      let s := setRegN s Reg.timDiff (ofSigned 32 (clampI (-2147483647) 2147483647 (d / 8)))
      if (d.natAbs : Int) ≤ switchTol8 s then { s with tim := { s.tim with split := false } } else s)

/-! ### REFCLK (R383) -/

def refChange (s : State) (lock : Bool) : State :=
  if s.tim.refLock = lock then s
  else pinEval (logEvent (evt { s with tim := { s.tim with refLock := lock } } Reg.timEvents 0x10) 0x0443 0xFFFF [])

/-- REFCLK_LOST. -/
def execRefclkLost (s : State) : Host.Outcome State Fault Refusal := done (refChange s false)

/-- REFCLK_LOCK. -/
def execRefclkLock (s : State) : Host.Outcome State Fault Refusal := done (refChange s true)

/-! ### The leap table (R401) -/

/-- A write of an entry's OFF word. -/
def leapWrite (s : State) (k : Nat) (v : Word) : State :=
  let a := 0x30400 + 16 * k
  let staged := (getReg s a).toNat + regFld s (a + 4) 15 0 * 2 ^ 32
  let off := toSigned 16 (fld v 15 0)
  let bad := refuse s Reg.timBase 0x0401
  let change (m : SMap (Nat × Int)) : State := { s with tim := { s.tim with leap := m } }
  if bit v 31 then
    let prevOff := if k = 0 then leapBase s else leapOff s (k - 1)
    let ok := (List.range k).all (leapValid s) && (k = 0 || leapEff s (k - 1) < staged) &&
      (off = prevOff + 1 || off = prevOff - 1) && (!leapValid s k || !timOn s)
    if ok then pinEval (setReg (change (smSet s.tim.leap k (staged, off))) (a + 8) (v &&& 0x8000FFFF#32)) else bad
  else if !leapValid s k then s
  else if timOn s || (List.range 32).any (fun j => k < j && leapValid s j) then bad
  else pinEval (setReg (change (smErase s.tim.leap k)) (a + 8) (v &&& 0xFFFF#32))

/-- LEAP_ENTRY_WRITE (R401). -/
def execLeapEntryWrite (k : Nat) (v : Word) (s : State) : Host.Outcome State Fault Refusal := done (leapWrite s (k % 32) v)

/-! ### 1PPS (R403) -/

/-- PPS_OUT_EDGE: T_sel crosses a whole second plus PPS_OUT_OFFSET, within 2 ns. -/
def execPpsOutEdge (s : State) : Host.Outcome State Fault Refusal :=
  done (
    let off8 := 8 * toSigned 32 (getReg s Reg.timPpsOutOffset).toNat
    let r := (selTime8 s (8 * s.raw) - off8) % 8000000000
    if regBit s Reg.timPpsCfg 31 && (s.tim.valid || regBit s Reg.timPpsCfg 30) && (r ≤ 16 || 7999999984 ≤ r) then
      { s with tim := { s.tim with ppsOut := true, ppsOutEnd := s.raw + 1000 * regFld s Reg.timPpsCfg 18 0 } }
    else s)

/-- The level PPS_OUT drives (R403, Table 22.11): deasserted in KEEP (R550) and while time is not valid, unless OUT_MODE
is 1. -/
def ppsLevel (s : State) : Option Bool :=
  bankOut s 3 (driveOf (s.tim.ppsOut && (s.tim.valid || regBit s Reg.timPpsCfg 30) && s.pwr.st != .keep)
    (regBit s Reg.timPpsCfg 29) false)

/-- PPS_OUT_END: the pin deasserts after OUT_WIDTH. -/
def execPpsOutEnd (s : State) : Host.Outcome State Fault Refusal :=
  done (if s.tim.ppsOut && s.tim.ppsOutEnd ≤ s.raw then { s with tim := { s.tim with ppsOut := false } } else s)

/-! ### Latches of reads (R385, R406) -/

/-- A read of a port's TXTS_W0 by a host port. -/
def txtsPop (s : State) (port p : Nat) : Word × State :=
  match smGet [] s.tim.txts p with
  | [] => (0#32, s)
  | t :: r =>
    (BitVec.ofNat 32 (2 ^ 31 + t.msgType * 2 ^ 24 + t.domain * 65536 + t.seqId),
     { s with tim := { s.tim with txts := smPut [] s.tim.txts p r, txtsLatch := smPut none s.tim.txtsLatch (port * 8 + p) (some t) } })

/-- TXTS_POP (R406). -/
def execTxtsPop (port p : Nat) (s : State) : Host.Outcome State Fault Refusal :=
  done (let x := txtsPop s (port % 2) (p % 6); respond x.2 [x.1])

/-- The words of a domain's page at offsets 0x08 to 0x24. -/
def domWords (x : Domain) : List Word :=
  [x.vals.s, x.vals.s / 2 ^ 32 % 65536, x.vals.ns, x.vals.sub, ofSigned 32 x.vals.rate, x.vals.anchor, x.vals.anchor / 2 ^ 32, x.gen].map
    (BitVec.ofNat 32 ·)

/-- A read of a domain's OFFSET_S_LO by a host port. -/
def domSetLatch (s : State) (port d : Nat) : Word × State :=
  match domWords (domOf s d) with
  | [] => (0#32, s)
  | w :: r => (w, { s with tim := { s.tim with domLatch := smSet s.tim.domLatch (port * 2 + d) r } })

/-- DOMAIN_SET_LATCH (R385). -/
def execDomainSetLatch (port d : Nat) (s : State) : Host.Outcome State Fault Refusal :=
  done (let x := domSetLatch s (port % 2) (d % 2); respond x.2 [x.1])

/-- TIM is disabled: both domains FREE, each change with its event and record (R387), time not valid, no slew (R629). -/
def timDisabled (s : State) : State :=
  let s := { s with tim := { s.tim with slew := none } }
  pinEval (timeWithdraw (domChange (domChange s 0 .free) 1 .free))

/-- A write of DOM_CFG: dropped while the domain is selected and time is valid. A new SOURCE starts its own
counts; SOURCE_JUMP stays until REACQUIRE (R393). -/
def domCfgWrite (s : State) (d : Nat) (v : Word) : State :=
  if d = s.tim.sel && s.tim.valid then refuse s Reg.timBase 0x0409
  else
    let old := domSource s d
    let s := specWrite s (domPage d) v
    if domSource s d = old then s
    else setDom s d { domOf s d with usable := 0, inLock := 0, jumps := 0, lastUsable := s.raw, reacqForce := none }

end Sys2Proof.Machine
end

