-- ==== Sys2Proof/Machine/AfeOps.lean ====
section
/-! DEFINITION. Channels of the analog front end: signal chain, stamps, zero crossings, calibration sums; the capture
engine's storing of samples and its triggers LEVEL and SLOPE (13_acquisition.md, 15_capture.md). -/

namespace Sys2Proof.Machine

def chan (s : State) (c : Nat) : Chan := smGet Chan.reset s.afe.ch c
def setChan (s : State) (c : Nat) (x : Chan) : State :=
  { s with afe := { s.afe with ch := smPut Chan.reset s.afe.ch c x } }

def afeOn (s : State) : Bool := enabled s Reg.afeBase
def chOn (s : State) (c : Nat) : Bool := afeOn s && regBit s Reg.afeCfg c
def chTaps (s : State) (c : Nat) : Nat := regFld s (Reg.afeChCfg c) 6 0
def chOrder (s : State) (c : Nat) : Nat := regFld s (Reg.afeChCfg c) 26 24
def chRole (s : State) (c : Nat) : Nat := regFld s (Reg.afeChCfg c) 31 28

/-- GD_HALF (R412). -/
def gdHalf (s : State) (c : Nat) : Nat := 8 + chOrder s c * (chRatio s c - 1) + (chTaps s c - 1 + 16) * chRatio s c

/-- A stamp in 1/8 ns from the time a sample leaves, to the nearest 1/8 ns with ties to even (R412). -/
def stampOf (leave8 half : Nat) : Nat :=
  let n := 8 * leave8 - 3125 * half
  let q := n / 8
  let r := n % 8
  if r < 4 then q else if 4 < r then q + 1 else if q % 2 = 0 then q else q + 1

/-! ### The signal chain (R408–R411, R414) -/

/-- num ÷ den, one unit in the last place up or not where it is inexact: the rounding is not stated (log entry 16). -/
def roundBy (num : Int) (den : Nat) (up : Bool) : Int :=
  if num % (den : Int) = 0 || !up then num / (den : Int) else num / (den : Int) + 1

/-- Saturation of a stage: the value and whether it saturated. -/
def sat31 (v : Int) : Int × Bool :=
  let w := clampI (-2147483648) 2147483647 v
  (w, w != v)

/-- A FIR coefficient. -/
def firCoef (s : State) (c b t : Nat) : Int := toSigned 32 (getReg s (0x1D1000 + 0x400 * c + 0x200 * b + 4 * t)).toNat

/-- The exact sum of a bank over the corrected samples, newest first, in units of 2^-61. -/
def firSum (s : State) (c b : Nat) (l : List Int) : Int :=
  (List.range (chTaps s c)).foldl (fun a t => match l[t]? with | some x => a + firCoef s c b t * x | none => a) 0

/-- Staged correction values of a channel (R410). -/
def stagedCorr (s : State) (c : Nat) : Corr :=
  { offset := toSigned 32 (getReg s (Reg.afeOffset c)).toNat, gain := (getReg s (Reg.afeGain c)).toNat,
    trim := (getReg s (Reg.afeTrim c)).toNat, delay := toSigned 16 (regFld s (Reg.afeDelay c) 15 0) }

/-- A swap that may start now starts (R415, R417). -/
def startSwap (s : State) (c : Nat) : State :=
  let x := chan s c
  match x.fade, x.swap with
  | none, some f =>
    let s := setChan s c { x with swap := none, bank := 1 - x.bank, fade := if f = 0 then none else some (0, f) }
    if f = 0 then evt s Reg.fltEvents 2 else s
  | _, _ => s

/-- The FIR's output: the active bank, or the mix of a cross-fade. Where the filter has not seen enough samples, its
output is not stated: v. -/
def firOut (s : State) (c : Nat) (x : Chan) (up : Bool) (v : Int) : Int :=
  if x.corr.length < chTaps s c then v
  else
    match x.fade with
    | none => roundBy (firSum s c x.bank x.corr) (2 ^ 30) up
    | some (i, f) =>
      let new := firSum s c x.bank x.corr
      let old := firSum s c (1 - x.bank) x.corr
      roundBy (((f : Int) - (i : Int)) * old + (i : Int) * new) (2 ^ 30 * Nat.max 1 f) up

/-- The Farrow stage: the input 8 samples back, moved by DELAY. Between samples its value is not stated: v. -/
def farrowOut (x : Chan) (v : Int) : Int :=
  if x.use_.delay % 1024 = 0 then
    match x.fir[(8 - x.use_.delay / 1024).toNat]? with | some y => y | none => v
  else v

/-- Drops what is older than 1.2 s. -/
def recentSamples (l : List Sample) (now8 : Nat) : List Sample := l.takeWhile (fun x => now8 < x.stamp + 9600000000)

/-- Is channel c marked TEST (R421, R422)? -/
def underTest (s : State) (c : Nat) : Bool :=
  (match s.afe.ow with | some r => opRunning s Reg.afeOwOpstat && r.chans.head? = some c | none => false) ||
    (match s.afe.cal with | some r => opRunning s Reg.afeCalOpstat && r.mask.testBit c | none => false)

/-- One output sample: the stages in order, the channel's filter state and fade. x is the CIC output and ovr tells
whether the modulator was over range. -/
def chainStep (s : State) (c : Nat) (x : Int) (ovr : Bool) (leave8 : Nat) : Sample × State :=
  let u := Config.freeNat s.freeCount
  let up (k : Nat) : Bool := u.testBit k
  let open_ (k : Nat) : Int := toSigned 32 ((u >>> (64 + 32 * k)) % 2 ^ 32)
  let s := nextFree s
  let ch := chan s c
  let hasCommit := ch.commit.isSome
  let s := match ch.commit with | some v => setChan s c { ch with use_ := v, commit := none } | none => s
  let s := startSwap s c
  let ch := chan s c
  let ch := match ch.fade with | some (i, f) => { ch with fade := some (i + 1, f) } | none => ch
  let a := sat31 x
  let b := sat31 (roundBy ((a.1 + ch.use_.offset) * (ch.use_.gain : Int)) (2 ^ 30) (up 0))
  let ch := { ch with corr := (b.1 :: ch.corr).take 96 }
  let f := sat31 (firOut s c ch (up 1) (open_ 0))
  let ch := { ch with fir := (f.1 :: ch.fir).take 17 }
  let d := sat31 (farrowOut ch (open_ 1))
  let t := sat31 (roundBy (d.1 * (ch.use_.trim : Int)) (2 ^ 30) (up 2))
  let clip := ovr || a.2 || b.2 || f.2 || d.2 || t.2
  let st := stampOf leave8 (gdHalf s c)
  let smp : Sample := { stamp := st, value := t.1, marks := b2n (underTest s c) + 2 * b2n clip }
  let ended := match ch.fade with | some (i, f) => decide (f ≤ i) | none => false
  let now := hasCommit || ch.fade.isSome
  let ch := { ch with
    fade := if ended then none else ch.fade,
    hist := smp :: recentSamples ch.hist st,
    changed := (if now then [st] else []) ++ ch.changed.takeWhile (fun z => st < z + 9600000000) }
  let s := setChan s c ch
  let s := if ended then evt s Reg.fltEvents 1 else s
  let s := if clip then
      logEvent (evt (bump s (Reg.afeClip c)) Reg.afeEvents 1) 0x1341 c []
    else s
  (smp, s)

/-! ### Zero crossings (14_energy.md, section 14.6) -/

/-- The element and phase of a voltage channel. -/
def voltageOf (s : State) (c : Nat) : Option (Nat × Nat) :=
  let r := chRole s c
  if 1 ≤ r && r ≤ 3 && c < 14 then some (c / 7, r - 1) else none

/-- A crossing is counted at a time in 1/8 ns; the second of two properly spaced ones ends ZC_LOST (R456). -/
def zcCount (s : State) (c t : Nat) : State :=
  let x := chan s c
  let s := setChan s c { x with zcArmed := false, zcBase := t, cross := t :: x.cross.takeWhile (fun z => t < z + 9600000000) }
  match voltageOf s c, x.cross with
  | some (e, p), c0 :: _ =>
    let d := (t - c0) * nominalHz s (7 * e)
    if 4000000000 ≤ d && d ≤ 16000000000 then
      setReg s Reg.nrgStatus (setBit (getReg s Reg.nrgStatus) (16 + 3 * e + p) false)
    else s
  | _, _ => s

/-- Follows a channel's zero crossings with its two newest samples. -/
def zcStep (s : State) (c : Nat) : State :=
  let x := chan s c
  match x.hist with
  | b :: a :: _ =>
    let h : Int := ((regFld s Reg.nrgZcCfg 15 0 * 32768 : Nat) : Int)
    let x := if b.value < -h then { x with zcArmed := true } else x
    let x := if a.value < 0 && 0 ≤ b.value then
        { x with zcCand := ((a.stamp : Int) + (-a.value) * ((b.stamp : Int) - (a.stamp : Int)) / (b.value - a.value)).toNat }
      else x
    let s := setChan s c x
    if x.zcArmed && h < b.value then zcCount s c x.zcCand else s
  | _ => s

/-! ### Calibration sums (R422–R424) -/

def calAdd (a : CalAcc) (y : Int) : CalAcc :=
  { n := a.n + 1, sum := a.sum + y, sq := a.sq + (y * y).toNat, lo := if a.n = 0 || y < a.lo then y else a.lo,
    hi := if a.n = 0 || a.hi < y then y else a.hi }

def calAvg (s : State) : Nat := regFld s Reg.afeCalCfg 15 0

/-- Adds a raw CIC output to its nominal cycle; PROGRESS follows the lowest selected channel. -/
def calStep (s : State) (c : Nat) (x : Int) (stamp : Nat) : State :=
  match s.afe.cal with
  | none => s
  | some r =>
    if !(opRunning s Reg.afeCalOpstat && r.mask.testBit c) || stamp < 8 * r.start then s
    else
      let k := (stamp - 8 * r.start) * nominalHz s c / 8000000000
      let y := if r.full then x + toSigned 32 (getReg s (Reg.afeCalOffset c)).toNat else x
      let l := smGet [] r.acc c
      let l := List.replicate (k + 1 - l.length) (⟨0, 0, 0, 0, 0⟩ : CalAcc) ++ l
      let l := if k < calAvg s then (match l with | a :: t => calAdd a y :: t | [] => []) else l
      let s := { s with afe := { s.afe with cal := some { r with acc := smPut [] r.acc c l } } }
      if (bitList 16 r.mask).head? = some c then opProgress s Reg.afeCalOpstat (Nat.min k (calAvg s)) else s

/-! ### Storing samples (R462, R463, R474) -/

def capOn (s : State) (c : Nat) : Bool := enabled s Reg.capBase && (capChan s).testBit c

/-- Is a block one of the open or held record's own (TARGET 0)? -/
def ownBlock (s : State) (c : Nat) (b : CapBlock) : Bool :=
  match s.cap.held with
  | some l =>
    if s.cap.cur.isSome then l.any (fun i => i.1 = c && i.2 ≤ b.seq) else l.contains (c, b.seq)
  | none => false

/-- A place for a channel's next block: an unused position, or the oldest block that no held record keeps. -/
def ringPlace (s : State) (c : Nat) : Option (Nat × List CapBlock) :=
  let g := capRing s c
  let n := capPartition s
  if g.blocks.length < n then
    ((List.range n).map (fun k => (g.next + k) % n)).find? (fun p => !g.blocks.any (fun b => b.pos = p)) |>.map
      (fun p => (p, g.blocks))
  else
    (g.blocks.find? (fun b => !ownBlock s c b)).map (fun v => (v.pos, g.blocks.filter (fun b => b.seq != v.seq)))

/-- A new block begins with a sample. A record of TARGET 0 ends TRUNCATED rather than lose a block of its own. -/
def newBlock (s : State) (c : Nat) (smp : Sample) (v : Int) : State :=
  let s :=
    if s.cap.cur.isSome && capTarget s = 0 && (ringPlace s c).isNone then capEnd s (smp.stamp / 8) 1 false false else s
  match ringPlace s c with
  | none => s
  | some (p, bs) =>
    let g := capRing s c
    let b : CapBlock := { pos := p, seq := g.seq, stamp := smp.stamp, lastAt := smp.stamp,
                          marks := smp.marks ||| (if owVerdict s c = 2 then 4 else 0), entries := [(0, ofSigned 24 v)],
                          isOpen := true }
    setCapRing s c { g with blocks := bs ++ [b], next := (p + 1) % Nat.max 1 (capPartition s), seq := g.seq + 1, gap := 0,
                            lastVal := v, lastMarks := smp.marks }

/-- A block with 1,020 entries closes and is copied to the target (R462, R474). -/
def fullBlock (s : State) (c : Nat) : State :=
  match (capRing s c).blocks.getLast? with
  | none => s
  | some b =>
    if b.isOpen && 1020 ≤ b.entries.length then
      let x := closeOpen s c
      match x.1 with
      | some b => let y := copyBlock x.2 c b; if y.1 then capFull y.2 else y.2
      | none => s
    else s

/-- Stores a sample of a captured channel when R463 says so. -/
def capStore (s : State) (c : Nat) (smp : Sample) : State :=
  let v := smp.value / 256
  let g := capRing s c
  match g.blocks.getLast? with
  | none => fullBlock (newBlock s c smp v) c
  | some b =>
    if !b.isOpen then fullBlock (newBlock s c smp v) c
    else
      let n := g.gap + 1
      let b := { b with lastAt := smp.stamp, marks := b.marks ||| smp.marks ||| (if owVerdict s c = 2 then 4 else 0) }
      let keep := (regFld s (Reg.capDeadband c) 22 0 : Int) < (v - g.lastVal).natAbs ||
        regFld s (Reg.capChTrg c) 23 16 ≤ n || smp.marks != g.lastMarks
      let g := if keep then
          { g with blocks := g.blocks.dropLast ++ [{ b with entries := (n, ofSigned 24 v) :: b.entries }], gap := 0, lastVal := v,
                   lastMarks := smp.marks }
        else { g with blocks := g.blocks.dropLast ++ [b], gap := n, lastMarks := smp.marks }
      fullBlock (setCapRing s c g) c

/-! ### LEVEL and SLOPE (R467, R468) -/

/-- Evaluates the two sample triggers of a captured channel. -/
def capTests (s : State) (c : Nat) (smp : Sample) (prev : Option Int) : State :=
  let en := getReg s (Reg.capChTrg c)
  let lv := decide (toSigned 32 (getReg s (Reg.capHi c)).toNat < smp.value) || decide (smp.value < toSigned 32 (getReg s (Reg.capLo c)).toNat)
  let sl : Option Bool := prev.map (fun p => decide ((getReg s (Reg.capSlope c)).toNat < (smp.value - p).natAbs))
  let g := capRing s c
  let fireL := bit en 0 && lv && !g.level
  let fireS := bit en 1 && sl = some true && !g.slope
  let s := setCapRing s c { g with level := lv, slope := match sl with | some b => b | none => g.slope }
  let s := if fireL then capTrigger s 0 (smp.stamp / 8) else s
  if fireS then capTrigger s 1 (smp.stamp / 8) else s

/-- CHANNEL_OUTPUT_SAMPLE (R408–R417, R462, R463): channel c emits a sample whose CIC output is x; sub is the 1/8 ns of the
time it leaves. -/
def execChannelOutputSample (c : Nat) (x : Int) (ovr : Bool) (sub : Nat) (s : State) : Host.Outcome State Fault Refusal :=
  done (
    let c := c % 16
    let leave8 := 8 * s.raw + sub % 8
    let prev := (chan s c).hist.head?
    let late := match prev with | some p => decide (p.stamp < stampOf leave8 (gdHalf s c)) | none => true
    if !chOn s c || !late || s.pwr.st = .keep || s.pwr.st = .off then s
    else
      let r := chainStep s c x ovr leave8
      let s := calStep (zcStep r.2 c) c (sat31 x).1 r.1.stamp
      if capOn s c then capTests (capStore s c r.1) c r.1 (prev.map (·.value)) else s)

end Sys2Proof.Machine
end

