-- ==== Sys2Proof/Machine/AfeCmds.lean ====
section
/-! DEFINITION. The commands of the analog front end: commits, filter swaps, open-wire test, calibration and the local
PMU (13_acquisition.md). -/

namespace Sys2Proof.Machine

/-! ### Commits and swaps -/

/-- A write of AFE_COMMIT (R410): the staged values wait for each channel's next boundary. -/
def afeCommitWrite (s : State) (m : Nat) : State :=
  (bitList 16 m).foldl (fun s c => setChan s c { chan s c with commit := some (stagedCorr s c) }) s

/-- AFE_COMMIT (R410). -/
def execAfeCommit (v : Word) (s : State) : Host.Outcome State Fault Refusal :=
  done (if absentAt s Reg.afeBase then s else afeCommitWrite s (fld v 15 0))

def fltResult (s : State) (port code : Nat) : State :=
  let s := setRegN s (portReg port Reg.fltSwapResult) code
  if code = 0 then s else refuse s Reg.fltBase code

/-- A write of FLT_SWAP by a host port (R415). -/
def fltSwapWrite (s : State) (port : Nat) (v : Word) : State :=
  let cs := bitList 16 (fld v 15 0)
  let f := fld v 28 16
  if cs.any (fun c => (chan s c).swap.isSome) then fltResult s port 0x1401
  else if 4096 < f then fltResult s port 0x1402
  else
    fltResult (cs.foldl (fun s c =>
      let x := chan s c
      if chOn s c then setChan s c { x with swap := some f }
      else
        let s := setChan s c { x with bank := 1 - x.bank, fade := none }
        if f = 0 then evt s Reg.fltEvents 2 else s) s) port 0

/-- FLT_SWAP (R415). -/
def execFltSwap (port : Nat) (v : Word) (s : State) : Host.Outcome State Fault Refusal :=
  done (if absentAt s Reg.fltBase then s else fltSwapWrite s port v)

/-- A write in the coefficient window at a BAR0 offset (R416). -/
def coefWrite (s : State) (a : Nat) (v : Word) : State :=
  let o := a - 0x1D1000
  let c := o / 0x400 % 16
  let b := o / 0x200 % 2
  let x := chan s c
  if 0x180 ≤ o % 0x200 then s
  else if b = x.bank || x.fade.isSome || x.swap.isSome then refuse s Reg.fltBase 0x1403
  else setReg s (a / 4 * 4) v

/-- COEFFICIENT_WRITE (R416): coefficient t of bank b of channel c. -/
def execCoefficientWrite (c b t : Nat) (v : Word) (s : State) : Host.Outcome State Fault Refusal :=
  done (if absentAt s Reg.fltBase then s
    else coefWrite s (0x1D1000 + 0x400 * (c % 16) + 0x200 * (b % 2) + 4 * (t % 128)) v)

/-- FLT_STATUS: PENDING while a swap waits for a fade or for its boundary (Table 13.5), FADING during a cross-fade. -/
def fltStatus (s : State) : Nat :=
  sumNat ((List.range 16).map (fun c =>
    b2n (chan s c).swap.isSome * 2 ^ (16 + c) + b2n (chan s c).fade.isSome * 2 ^ c))

/-- FLT_ACTIVE (R417). -/
def fltActive (s : State) : Nat := sumNat ((List.range 16).map (fun c => (chan s c).bank * 2 ^ c))

/-! ### The open-wire test (R418–R421, R426) -/

/-- Is channel c busy in the open-wire test? -/
def owBusy (s : State) (c : Nat) : Bool :=
  match s.afe.ow with | some r => opRunning s Reg.afeOwOpstat && r.chans.contains c | none => false

def calBusy (s : State) (c : Nat) : Bool :=
  match s.afe.cal with | some r => opRunning s Reg.afeCalOpstat && r.mask.testBit c | none => false

def owStart (s : State) (m : Nat) : State :=
  let cs := bitList 16 m
  if opRunning s Reg.afeOwOpstat then opRefuseStart s Reg.afeOwOpstat
  else if cs.any (calBusy s) then refuse s Reg.afeBase 0x130C
  else if cs.isEmpty || cs.any (fun c => !chOn s c) then refuse s Reg.afeBase 0x1307
  else
    let s := opStart s Reg.afeOwOpstat
    { s with afe := { s.afe with ow := some { chans := cs, done := 0, start := s.raw } } }

def owStop (s : State) : State :=
  if opRunning s Reg.afeOwOpstat then evt (opEnd { s with afe := { s.afe with ow := none } } Reg.afeOwOpstat 4 0) Reg.afeEvents 4
  else opRefuseStop s Reg.afeOwOpstat

/-- A write of AFE_OW_CTRL; STOP acts first (R621). -/
def owCtrl (s : State) (v : Word) : State :=
  let s := if bit v 17 then owStop s else s
  if bit v 16 then owStart s (fld v 15 0) else s

/-- OPEN_WIRE_START (R419). -/
def execOpenWireStart (v : Word) (s : State) : Host.Outcome State Fault Refusal :=
  done (if absentAt s Reg.afeBase then s else owCtrl s (setBit v 16 true))

/-- OPEN_WIRE_STOP (R24). -/
def execOpenWireStop (s : State) : Host.Outcome State Fault Refusal :=
  done (if absentAt s Reg.afeBase then s else owStop s)

/-- The two halves of a channel's test, in 1/8 ns from its start: each begins 2 ms after its current. -/
def owHalves (s : State) (c : Nat) : List (Nat × Nat) :=
  let n := 8000000000 * regFld s Reg.afeOwCfg 19 16 / nominalHz s c
  [(16000000, 16000000 + n), (32000000 + n, 32000000 + 2 * n)]

/-- Samples of a channel stamped in (a, b]. -/
def samplesIn (s : State) (c a b : Nat) : List Sample := (chan s c).hist.filter (fun x => a < x.stamp && x.stamp ≤ b)

def sumVal (l : List Sample) : Int := l.foldl (fun a x => a + x.value) 0

/-- ΔV as a fraction of µV: the mean under +I minus the mean under −I (R420). -/
def owDelta (a b : List Sample) : Int × Nat :=
  ((sumVal a * b.length - sumVal b * a.length) * 1200000, Nat.max 1 (a.length * b.length) * 2 ^ 31)

/-- OPEN_WIRE_CHANNEL_END (R419, R420): the current channel's two halves are over; fund tells whether its fundamental
differs between them by more than 5 % of full scale. -/
def execOpenWireChannelEnd (fund : Bool) (s : State) : Host.Outcome State Fault Refusal :=
  done (
    match s.afe.ow with
    | none => s
    | some r =>
      match r.chans, opRunning s Reg.afeOwOpstat with
      | c :: rest, true =>
        let h := owHalves s c
        let at_ (k : Nat) : List Sample := match h[k]? with
          | some w => samplesIn s c (8 * r.start + w.1) (8 * r.start + w.2) | none => []
        let endAt := match h[1]? with | some w => 8 * r.start + w.2 | none => 0
        let ready : Bool := match (chan s c).hist with | x :: _ => decide (endAt ≤ x.stamp) | [] => false
        if !ready then s
        else
          let a := at_ 0
          let b := at_ 1
          let d := owDelta a b
          let up := Config.freeNat s.freeCount % 2 = 1
          let dv := roundBy d.1 d.2 up
          let s := nextFree s
          let incon := fund || (a ++ b).any (fun x => x.marks.testBit 1)
          let opened : Bool := decide (1000 * regFld s Reg.afeOwCfg 15 0 * d.2 ≤ d.1.natAbs)
          let verdict := if incon then 3 else if opened then 2 else 1
          let s := setRegN s (Reg.afeOwDv c) (ofSigned 32 dv)
          let s := setRegFld s Reg.afeOwVerdict (2 * c + 1) (2 * c) verdict
          let s := if verdict = 2 then
              logEvent (evt s Reg.afeEvents 2) 0x1340 0xFFFF (leBytes 4 c ++ leBytes 4 (ofSigned 32 dv))
            else s
          let s := opProgress s Reg.afeOwOpstat (r.done + 1)
          if rest.isEmpty then
            evt (opEnd { s with afe := { s.afe with ow := none } } Reg.afeOwOpstat 2 0) Reg.afeEvents 4
          else { s with afe := { s.afe with ow := some { chans := rest, done := r.done + 1, start := s.raw } } }
      | _, _ => s)

/-! ### Calibration (R422–R427) -/

def calFinish (s : State) (st cause : Nat) : State :=
  evt (opEnd { s with afe := { s.afe with cal := none } } Reg.afeCalOpstat st cause) Reg.afeEvents 8

def calStart (s : State) (v : Word) : State :=
  let m := fld v 15 0
  let cs := bitList 16 m
  if opRunning s Reg.afeCalOpstat then opRefuseStart s Reg.afeCalOpstat
  else if cs.any (owBusy s) then refuse s Reg.afeBase 0x130C
  else if cs.isEmpty || cs.any (fun c => !chOn s c) then refuse s Reg.afeBase 0x1307
  else
    let s := opStart s Reg.afeCalOpstat
    if bit v 18 && cs.any (fun c => !s.afe.zeroed.testBit c) then calFinish s 3 0x08
    else
      { s with afe := { s.afe with
        cal := some { mask := m, full := bit v 18, rms := bit v 19, apply := bit v 20, start := s.raw, acc := [], wrote := 0 } } }

def calStop (s : State) : State :=
  if opRunning s Reg.afeCalOpstat then calFinish s 4 0 else opRefuseStop s Reg.afeCalOpstat

/-- A write of AFE_CAL_CTRL; STOP acts first (R621). -/
def calCtrl (s : State) (v : Word) : State :=
  let s := if bit v 17 then calStop s else s
  if bit v 16 then calStart s v else s

/-- AFE_CAL_START (R422). -/
def execAfeCalStart (v : Word) (s : State) : Host.Outcome State Fault Refusal :=
  done (if absentAt s Reg.afeBase then s else calCtrl s (setBit v 16 true))

/-- AFE_CAL_STOP (R24). -/
def execAfeCalStop (s : State) : Host.Outcome State Fault Refusal :=
  done (if absentAt s Reg.afeBase then s else calStop s)

/-- A channel's calibration cycles added up. -/
def calTotal (l : List CalAcc) : CalAcc :=
  l.foldl (fun a b =>
    { n := a.n + b.n, sum := a.sum + b.sum, sq := a.sq + b.sq, lo := if a.n = 0 || (b.n != 0 && b.lo < a.lo) then b.lo else a.lo,
      hi := if a.n = 0 || (b.n != 0 && a.hi < b.hi) then b.hi else a.hi }) ⟨0, 0, 0, 0, 0⟩

/-- A channel's cycles, once all of them are complete. -/
def calCycles (s : State) (r : CalRun) (c : Nat) : Option (List CalAcc) :=
  let l := (smGet [] r.acc c).reverse
  if calAvg s < l.length then some (l.take (calAvg s)) else none

/-- Is |num ÷ den| below 10 % of full scale; for RMS num and den are of the square. -/
def below10 (rms : Bool) (a : CalAcc) : Bool :=
  if rms then decide (100 * a.sq < a.n * 2 ^ 62) else decide (10 * a.sum.natAbs < a.n * 2 ^ 31)

/-- gain = REF ÷ reading as an exact test against a bound of k ÷ 100: is the gain at least that? The reading is positive
under RMS. -/
def gainAtLeast (rms : Bool) (ref : Int) (a : CalAcc) (k : Nat) : Bool :=
  if rms then decide (0 ≤ ref) && decide (k * k * a.sq ≤ 10000 * ref.natAbs * ref.natAbs * a.n)
  else
    let r := if a.sum < 0 then -ref else ref
    decide ((k : Int) * a.sum.natAbs ≤ 100 * r * a.n)

/-- gain above the bound? -/
def gainAbove (rms : Bool) (ref : Int) (a : CalAcc) (k : Nat) : Bool :=
  if rms then decide (0 ≤ ref) && decide (k * k * a.sq < 10000 * ref.natAbs * ref.natAbs * a.n)
  else
    let r := if a.sum < 0 then -ref else ref
    decide ((k : Int) * a.sum.natAbs < 100 * r * a.n)

/-- The gain in 2.30: a quotient, or for RMS a root; its last place is not stated. -/
def calGain (rms : Bool) (ref : Int) (a : CalAcc) (up : Bool) : Nat :=
  if rms then
    let n := ref.natAbs * ref.natAbs * a.n * 2 ^ 60
    let q := isqrt (n / Nat.max 1 a.sq)
    if q * q * a.sq = n || !up then q else q + 1
  else (roundBy (ref * a.n * 2 ^ 30 * (if a.sum < 0 then -1 else 1)) (Nat.max 1 a.sum.natAbs) up).toNat

/-- Does the spread of the cycles' readings exceed 0.1 % of the reading (R424)? Means for DC, roots for RMS. -/
def calSpread (rms : Bool) (cycles : List CalAcc) (t : CalAcc) : Bool :=
  cycles.any (fun x => cycles.any (fun y =>
    if rms then
      -- √a − √b > √m ÷ 1000 with a = x.sq/x.n, b = y.sq/y.n, m = t.sq/t.n
      let den := Nat.max 1 (x.n * y.n * t.n)
      let a := x.sq * y.n * t.n
      let b := y.sq * x.n * t.n
      let m := t.sq * x.n * y.n
      let l : Int := 1000000 * ((a : Int) + b) - m
      decide (0 < den) && decide (b < a) && decide (0 < l) && decide (4 * 1000000000000 * ((a * b : Nat) : Int) < l * l)
    else
      decide ((t.sum.natAbs : Int) * (x.n * y.n : Nat) < 1000 * (x.sum * y.n - y.sum * x.n) * t.n)))

/-- The calibration's failure, 0 when there is none. -/
def calCause (r : CalRun) (ref : Int) (ts : List (Nat × List CalAcc × CalAcc)) : Nat :=
  if !r.full then
    if ts.any (fun t => decide (t.2.2.n * 2 ^ 31 < 20 * t.2.2.sum.natAbs)) then 0x09
    else if ts.any (fun t => decide (2 ^ 31 < 100 * (t.2.2.hi - t.2.2.lo))) then 0x0A
    else 0
  else if ts.any (fun t => below10 r.rms t.2.2 || !gainAtLeast r.rms ref t.2.2 80 || gainAbove r.rms ref t.2.2 125) then 0x0B
  else if ts.any (fun t => calSpread r.rms t.2.1 t.2.2) then 0x0A
  else 0

/-- The results of the channels that have their AVG cycles: CAL_OFFSET under ZERO, CAL_GAIN under FULL (R25, R423, R424).
DESIGN CHOICE (log entry 32): a channel whose own reading fails keeps the value it had. -/
def calResults (s : State) (r : CalRun) (ref : Int) (ts : List (Nat × List CalAcc × CalAcc)) : State :=
  let up (c : Nat) : Bool := (Config.freeNat s.freeCount).testBit c
  let new := ts.filter (fun t => !r.wrote.testBit t.1)
  let s := new.foldl (fun s t =>
    if calCause r ref [t] != 0 then s
    else if r.full then setRegN s (Reg.afeCalGain t.1) (calGain r.rms ref t.2.2 (up t.1))
    else setRegN s (Reg.afeCalOffset t.1)
      (ofSigned 32 (clampI (-2147483648) 2147483647 (roundBy (-t.2.2.sum) (Nat.max 1 t.2.2.n) (up t.1))))) s
  nextFree { s with afe := { s.afe with
    cal := some { r with wrote := new.foldl (fun m t => m ||| 2 ^ t.1) r.wrote } } }

/-- AFE_CAL_END (R423–R425): every selected channel has its AVG cycles. While some have not, the results of those that
have are readable and the operation goes on. -/
def execAfeCalEnd (s : State) : Host.Outcome State Fault Refusal :=
  done (
    match s.afe.cal with
    | none => s
    | some r =>
      let cs := bitList 16 r.mask
      let ts := cs.filterMap (fun c => (calCycles s r c).map (fun l => (c, l, calTotal l)))
      let ref := toSigned 32 (getReg s Reg.afeCalRef).toNat
      if !opRunning s Reg.afeCalOpstat then s
      else if ts.length < cs.length then calResults s r ref ts
      else
        let s := opProgress (calResults s r ref ts) Reg.afeCalOpstat (calAvg s)
        let c := calCause r ref ts
        if c != 0 then calFinish s 3 c
        else if !r.full then
          calFinish { s with afe := { s.afe with zeroed := s.afe.zeroed ||| r.mask } } 2 0
        else
          let s := if r.apply then
              let s := cs.foldl (fun s c => setReg (setReg s (Reg.afeOffset c) (getReg s (Reg.afeCalOffset c))) (Reg.afeGain c)
                (getReg s (Reg.afeCalGain c))) s
              logEvent (afeCommitWrite s r.mask) 0x1342 0xFFFF []
            else s
          calFinish s 2 0)

/-- AFE_CAL_SAVE (R427): OFFSET and GAIN of all channels become the selected calibration record. -/
def calSave (s : State) : State :=
  { s with afe := { s.afe with
    calRec := some ((List.range 16).map (fun c => (getReg s (Reg.afeOffset c), getReg s (Reg.afeGain c)))) } }

def execAfeCalSave (s : State) : Host.Outcome State Fault Refusal :=
  done (if absentAt s Reg.afeBase then s else calSave s)

/-- The selected record is staged and committed at step 10 of the start-up ladder (R427). -/
def calRestore (s : State) : State :=
  match s.afe.calRec with
  | none => s
  | some l =>
    afeCommitWrite ((List.range 16).foldl (fun s c => match l[c]? with
      | some v => setReg (setReg s (Reg.afeOffset c) v.1) (Reg.afeGain c) v.2
      | none => s) s) 0xFFFF

/-! ### Local accessions (R428–R433) -/

def lMap (s : State) (m : Nat) : Nat := regFld s (Reg.afeLCfg m) 15 0

/-- ACC_FMT that an L_CFG sets (R428). -/
def lFmt (m : Nat) (v : Word) : Nat :=
  b2n (bit v 29) * 2 ^ 28 + 7 * 2 ^ 24 + (if m < 2 then 9 else popCount 16 (fld v 15 0)) * 65536 + 256 + fld v 23 16

/-- A write of L_CFG of Lm (R428). MAP of L0 and L1 is read-only. A RETIRED Lm keeps its ACC_FMT until it is VACANT (R87). -/
def lCfgStore (s : State) (m : Nat) (v : Word) : State :=
  let a := Reg.afeLCfg m
  let v := v &&& 0x6FFFFFFF#32
  let v := if m < 2 then setFld v 15 0 (lMap s m) else v
  let fmtAt := accAddr (0x4000 + m) + 20
  let x := getAcc s (0x4000 + m)
  let fmt (s : State) (f : Nat) : State := if x.st = .retired then refuse s Reg.accBase 0x110C else setRegN s fmtAt f
  if accIsEnabled x || x.st = .checking then refuse s Reg.afeBase 0x1303
  else if fld v 23 16 = 0 || fld v 15 0 = 0 || !(fld v 15 0).testBit (fld v 27 24) then refuse (fmt s 0) Reg.afeBase 0x1304
  else fmt (setReg s a v) (lFmt m v)

/-- L_CFG_WRITE (R428). -/
def execLCfgWrite (m : Nat) (v : Word) (s : State) : Host.Outcome State Fault Refusal :=
  done (if absentAt s Reg.afeBase then s else lCfgStore s (m % 4) v)

/-- Channels of a local accession. -/
def lChans (s : State) (m : Nat) : List Nat := bitList 16 (lMap s m)

def lValid (s : State) (m : Nat) : Bool := getReg s (accAddr (0x4000 + m) + 20) != 0#32

/-- The AFE enable check (R429): 0 or the cause. -/
def afeCheck (s : State) : Nat :=
  let bad (m : Nat) : Bool :=
    let cs := lChans s m
    let same (f : Nat → Nat) : Bool := match cs with | c :: r => r.all (fun x => f x = f c) | [] => true
    let roles := cs.map (chRole s)
    let rolesBad := m < 2 && !((List.range 7).all (fun r => roles.contains (r + 1)))
    lValid s m && (rolesBad || !same (chOrder s) || !same (chRcode s) || !same (chTaps s) || cs.any (fun c => !regBit s Reg.afeCfg c))
  if (List.range 4).any bad then 0x01 else 0

/-- AFE has been enabled: channels start anew; a ZERO result is needed again (R424). -/
def afeEnabledNow (s : State) : State :=
  let s := { s with afe := { s.afe with zeroed := 0 } }
  (List.range 16).foldl (fun s c => setChan s c { chan s c with
    corr := [], fir := [], hist := [], changed := [], cross := [], zcArmed := false, zcBase := 8 * s.raw }) s

/-- Half the estimator's window in 1/8 ns, as a fraction with denominator 2 × nominal frequency (R430). -/
def lWindow (s : State) (m br : Nat) : Nat :=
  let v := getReg s (Reg.afeLCfg m)
  let fnom := if bit v 29 then 60 else 50
  let div := Nat.max 1 (fld v 23 16)
  let cycles := if bit v 30 then Nat.max 4 (Nat.min 48 (ceilDiv (5 * fnom * div) (Nat.max 1 br))) else 2
  8000000000 * cycles / (2 * fnom)

/-- Smallest k from 1 to 6 with TIM_ERR_NOW below 10^(k+1) ns, else 7. -/
def errCode (s : State) : Nat :=
  let e := errEst s s.tim.sel
  match firstBelow 6 (fun k => e < 10 ^ (k + 2)) with | some k => k + 1 | none => 7

/-- STAT of an estimate (R433). -/
def lStat (s : State) (test clip opened refLow changed : Bool) : Nat :=
  let st := (domOf s s.tim.sel).st
  let age := ageMs s s.tim.sel
  let hold := if st = .holdover then (if 1000000 < age then 3 else if 100000 < age then 2 else if 10000 < age then 1 else 0) else 0
  (if test then 2 else if clip || opened || refLow then 1 else 0) * 2 ^ 14 + b2n (st != .locked) * 2 ^ 13 + b2n changed * 2 ^ 9 +
    errCode s * 64 + hold * 16

/-- Does a local landing go on: tests 1 and 7 to 12 of Table 3.5 (R117), then held behind another (R255)? An Lm that is
VACANT or CHECKING lands nothing. -/
def localLand (s : State) (l : Landing) : State :=
  let disc (s : State) (c e : Nat) : State := accDiscard s c 7 l.acc e l.arrival l.sub
  if !enabled s Reg.accBase then disc s 0x20 0
  else if (getAcc s l.acc).st = .vacant || (getAcc s l.acc).st = .checking then s
  else if !s.tim.valid then disc s 0x29 0
  else
    match ratePlan s with
    | none => disc s 0x2C l.index
    | some p =>
      let s := lapsePast s
      let r := rateTests s l.acc (exhibitTime p.baseRate l.index : Int)
      if r.2 != 0 then disc s r.2 r.1
      else
        let c := indexTests s l.acc l.index false false
        if c != 0 then disc s c l.index
        else
          let m := l.acc - 0x4000
          let l := { l with offset := 0, arrived := selTime8 s (8 * l.arrival), commit := (getAcc s l.acc).commitSeq }
          if s.dsp.heldLand.any (fun h => h.acc = l.acc) then
            let b := smGet [] s.dsp.localBuf m
            if b.length < 2 then { s with dsp := { s.dsp with localBuf := smPut [] s.dsp.localBuf m (b ++ [l]) } }
            else logEvent (evt (bump s (Reg.dspCnt 27)) Reg.dspEvents 0x10) 0x0943 l.acc []
          else reserveLand s l

/-- ROCOF of an estimate: the change of FREQ times Fs; before the first change it is not stated (R432). -/
def lRocof (s : State) (m br freq : Nat) : Nat :=
  let div := Nat.max 1 (regFld s (Reg.afeLCfg m) 23 16)
  match smFind s.afe.lastFreq m with
  | some f => fmul f32 (fsub f32 freq f) (ratio32 br div)
  | none => freeBelow s (2 ^ 32)

/-- LOCAL_ESTIMATE (R431–R433): the PMU completes the estimate of Lm for exhibit e; phasors and FREQ are the estimator's
(float32), refLow tells whether the reference magnitude is below 2 % of full scale. -/
def execLocalEstimate (m e : Nat) (phasors : List (Nat × Nat)) (freq : Nat) (refLow : Bool) (s : State) :
    Host.Outcome State Fault Refusal :=
  done (
    let m := m % 4
    match ratePlan s with
    | none => s
    | some p =>
      let fmt := accFmt s (0x4000 + m)
      let div := fld fmt 7 0
      if !afeOn s || !lValid s m || div = 0 || e % div != 0 || !timeReached s (exhibitTime p.baseRate e) then s
      else
        let t := rawOfTai s (exhibitTime p.baseRate e)
        let w := lWindow s m p.baseRate
        let cs := lChans s m
        let inWin (x : Nat) : Bool := 8 * t ≤ x + w && x ≤ 8 * t + w
        let marks := cs.foldl (fun a c => ((chan s c).hist.filter (fun x => inWin x.stamp)).foldl (fun a x => a ||| x.marks) a) 0
        let changed := cs.any (fun c => (chan s c).changed.any inWin)
        let opened : List Bool := cs.map (fun c => decide (owVerdict s c = 2))
        let stat := lStat s (marks.testBit 0) (marks.testBit 1) (opened.any id) refLow changed
        let dig := sumNat ((List.range 7).map (fun k => match opened[k]? with | some true => 2 ^ k | _ => 0)) +
          b2n (marks.testBit 0) * 2 ^ 14 + b2n (marks.testBit 1) * 2 ^ 15
        let fnom := fofInt f32 (nominalOf fmt)
        let f := if refLow then fnom else freq % 2 ^ 32
        let ro := if refLow then 0 else lRocof s m p.baseRate f
        let s := nextFree { s with afe := { s.afe with lastFreq := smSet s.afe.lastFreq m f } }
        let s := setRegN s (Reg.afeLStat m) (stat * 65536 + dig)
        let s := setRegN s (Reg.afeLLat m) (s.raw - t)
        let s := bump s (Reg.afeLEst m)
        let n := fld fmt 22 16
        let ph := (List.range n).map (fun k => match phasors[k]? with | some x => (x.1 % 2 ^ 32, x.2 % 2 ^ 32) | none => (0, 0))
        let l : Landing := { acc := 0x4000 + m, port := 7, arrival := s.raw, sub := 0, index := e, offset := 0, status := stat,
                             digs := [dig], freq := f, rocof := ro, phasors := ph, analogs := [],
                             arrived := 0, commit := 0 }
        let absent := (getAcc s (0x4000 + m)).st = .vacant || (getAcc s (0x4000 + m)).st = .checking
        if absent && enabled s Reg.accBase then s
        else if twinDrops s then
          { s with twn := { s.twn with deferred := s.twn.deferred ++ [.estimate l], deferAt := s.twn.deferAt ++ [s.raw] } }
        else if s.twn.st = .isolated then s
        else localLand s l)

end Sys2Proof.Machine
end

