-- ==== Sys2Proof/Machine/EnergyCmds.lean ====
section
/-! DEFINITION. The commands of the energy engine: power steps, totals, accumulators, pulse outputs, zero crossings and
commits (14_energy.md). -/

namespace Sys2Proof.Machine

/-! ### Values of a step (R437) -/

/-- A binary32 pattern as a rational; none for NaN and ∞. -/
def fltRat (w : Nat) : Option Rat :=
  match fUnpack f32 w with
  | .fin neg m e =>
    let v : Rat := if 0 ≤ e then ((m * 2 ^ e.toNat : Nat) : Rat) else ((m : Nat) : Rat) / ((2 ^ (-e).toNat : Nat) : Rat)
    some (if neg then -v else v)
  | _ => none

/-- A rational as a binary32 pattern, to nearest. -/
def ratFlt (r : Rat) : Nat :=
  vDivRound f32 (vOfInt r.num 0) (vOfInt (r.den : Int) 0)

/-- The square root of a rational as a binary32 pattern. -/
def ratSqrtFlt (r : Rat) : Nat :=
  let k := 64 + bitLen r.den
  let n := (r.num.natAbs <<< (2 * k)) / r.den
  let q := isqrt n
  fRound f32 false q (-(k : Int)) (decide (q * q ≠ n || (r.num.natAbs <<< (2 * k)) % r.den ≠ 0))

/-- The float of a sum of square roots (the total S of R437). -/
def ratSqrtSumFlt (l : List Rat) : Nat :=
  let k := 128 + l.foldl (fun a r => Nat.max a (bitLen r.den)) 0
  let n (r : Rat) : Nat := (r.num.natAbs <<< (2 * k)) / r.den
  let exact (r : Rat) : Bool := isqrt (n r) * isqrt (n r) = n r && (r.num.natAbs <<< (2 * k)) % r.den = 0
  fRound f32 false (sumNat (l.map (fun r => isqrt (n r)))) (-(k : Int)) (!l.all exact)

/-- The channel of an element with a ROLE. -/
def roleChan (s : State) (e role : Nat) : Option Nat :=
  ((List.range 7).map (fun k => 7 * e + k)).find? (fun c => chRole s c = role)

/-- The samples of a channel stamped after a and not after b. -/
def windowSamples (s : State) (oc : Option Nat) (a b : Nat) : List Sample :=
  match oc with | some c => samplesIn s c a b | none => []

/-- Volts per digit of 2^-31 at the input, times SCALE. -/
def digit (s : State) (oc : Option Nat) : Option Rat :=
  match oc with
  | some c => (fltRat (getReg s (Reg.afeScale c)).toNat).map (fun k => k * ((6 : Rat) / 5) / ((2 ^ 31 : Nat) : Rat))
  | none => none

def sumProd (a b : List Sample) : Int := (a.zip b).foldl (fun t x => t + x.1.value * x.2.value) 0

/-- What one phase of a step measures: P, Q in W and var, S² in VA², Vrms², Irms²; none where the spec states no value. -/
structure PhaseVal where
  p : Option Rat
  q : Option Rat
  s2 : Option Rat
  v2 : Option Rat
  i2 : Option Rat
  deriving DecidableEq, Repr

/-- The cycle window of S for a voltage channel at a step end in 1/8 ns: the last whole cycle, or one nominal period
while crossings are lost (R437, R456). -/
def cycleWindow (s : State) (e p c end8 : Nat) : Option (Nat × Nat) :=
  if regBit s Reg.nrgStatus (16 + 3 * e + p) then some (end8 - 8000000000 / nominalHz s (7 * e), end8)
  else
    match ((chan s c).cross.filter (fun t => t ≤ end8)) with
    | b :: a :: _ => some (a, b)
    | _ => none

def meanSq (l : List Sample) (k : Option Rat) : Option Rat :=
  match k with
  | some k => if l.isEmpty then none else some (((sumProd l l : Int) : Rat) * k * k / ((l.length : Nat) : Rat))
  | none => none

/-- Forms a phase's values; qSum is Σ i·H(v) of the phase in units of 2^-62 of full scale squared. -/
def phaseVal (s : State) (e p endAt : Nat) (qSum : Int) : PhaseVal :=
  let vc := roleChan s e (p + 1)
  let ic := roleChan s e (p + 4)
  let a := 8 * (endAt - 250000)
  let b := 8 * endAt
  let v := windowSamples s vc a b
  let i := windowSamples s ic a b
  let kv := digit s vc
  let ki := digit s ic
  let n : Rat := ((Nat.max 1 v.length : Nat) : Rat)
  let w := match vc with | some c => cycleWindow s e p c b | none => none
  let v2 := match w with | some w => meanSq (windowSamples s vc w.1 w.2) kv | none => none
  let i2 := match w with | some w => meanSq (windowSamples s ic w.1 w.2) ki | none => none
  let mul (x : Int) : Option Rat := match kv, ki with | some a, some b => some (((x : Int) : Rat) * a * b / n) | _, _ => none
  { p := mul (sumProd v i), q := mul qSum, v2 := v2, i2 := i2,
    s2 := match v2, i2 with | some x, some y => some (x * y) | _, _ => none }

/-- The energy of 250 µs at a power, in 2^-32 of a mWh, mvarh or mVAh: exact or one unit in the last place up. -/
def stepEnergy (r : Rat) (up : Bool) : Int :=
  let x : Rat := r * ((2 ^ 32 : Nat) : Rat) / 14400
  let m := roundBy (x.num.natAbs : Int) x.den up
  if x.num < 0 then -m else m

/-- The energy of 250 µs at the square root of a power squared. -/
def stepEnergySqrt (r2 : Rat) (up : Bool) : Int :=
  let x : Rat := r2 * ((2 ^ 64 : Nat) : Rat) / 207360000
  let q := isqrt (x.num.natAbs / x.den)
  if ((q * q : Nat) : Rat) = x then (q : Int) else (q : Int) + (if up then 1 else 0)

/-! ### Creep and direction (R438, R439) -/

/-- |x| is at or below k times a binary32 threshold. -/
def atOrBelow (x : Rat) (k : Nat) (w : Nat) : Bool :=
  let a : Rat := if x < 0 then -x else x
  match fUnpack f32 w with
  | .inf neg => !neg
  | .nan => false
  | _ => match fltRat w with | some t => decide (a ≤ (k : Rat) * t) | none => false

/-- x is above k × (creep + hyst). -/
def aboveSum (x : Rat) (k creep hyst : Nat) : Bool :=
  match fltRat creep, fltRat hyst with
  | some c, some h => decide ((k : Rat) * (c + h) < x)
  | _, _ => match vAdd (fUnpack f32 creep) (fUnpack f32 hyst) with | .inf neg => neg | _ => false

/-- The next direction: 0 NONE, 1 IMPORT, 2 EXPORT. -/
def nextDir (old : Nat) (x : Rat) (k creep hyst : Nat) : Nat :=
  if atOrBelow x k creep then 0 else if aboveSum x k creep hyst then 1 else if aboveSum (-x) k creep hyst then 2 else old

def creepOf (s : State) (e : Nat) : Nat := (getReg s (Reg.nrgCreep e)).toNat
def hystOf (s : State) (e : Nat) : Nat := (getReg s (Reg.nrgHyst e)).toNat

/-- KIND of an accumulator. -/
def accKind (w : Word) : Nat := fld w 25 24
def accPhase (w : Word) : Nat := fld w 21 20
def intCfg (s : State) (e k : Nat) : Word := getReg s (0x1E1000 + 0x800 * e + 4 * k)

/-- Counts a reversal of quantity kind (0 active, 1 reactive) of a phase (R440, R453). -/
def countReversal (s : State) (e kind p tai : Nat) : State :=
  let accs := (List.range 32).foldl (fun m k =>
    let w := intCfg s e k
    if bit w 31 && accKind w = kind && accPhase w = p then
      let a := smGet IntAcc.reset m (32 * e + k)
      smPut IntAcc.reset m (32 * e + k)
        { a with revs := Nat.min 65535 (a.revs + 1), firstRev := if a.revs = 0 then tai else a.firstRev }
    else m) s.nrg.run.accs
  evt { s with nrg := { s.nrg with run := { s.nrg.run with accs := accs } } } Reg.nrgEvents 2

/-- Follows one direction with a step's value. -/
def dirStep (s : State) (e m tai : Nat) (x : Rat) : State :=
  let key := 16 * e + m
  let old := smGet 0 s.nrg.dir key
  let new := nextDir old x (if m % 4 = 3 then 3 else 1) (creepOf s e) (hystOf s e)
  let last := smGet 0 s.nrg.lastDir key
  let rev := new != old && new != 0 && last != 0 && last != new
  let s := { s with nrg := { s.nrg with dir := smPut 0 s.nrg.dir key new,
                                        lastDir := if new = 0 then s.nrg.lastDir else smPut 0 s.nrg.lastDir key new } }
  if rev then countReversal s e (m / 4) (m % 4) tai else s

/-! ### Feeding totals, accumulators and pulses -/

/-- The seven quantities of Table 14.1 from a phase's contributions P, Q (powers, for the signs) and their energies. -/
def billing (p q : Rat) (ep eq es : Int) : List Nat :=
  let a (c : Bool) (x : Int) : Nat := if c then x.natAbs else 0
  [a (decide (0 < p)) ep, a (decide (p < 0)) ep, a (decide (0 ≤ p ∧ 0 ≤ q)) eq, a (decide (p < 0 ∧ 0 ≤ q)) eq,
   a (decide (p < 0 ∧ q < 0)) eq, a (decide (0 ≤ p ∧ q < 0)) eq, es.natAbs]

/-- Adds to a billing total (R442, R443). -/
def addTotal (s : State) (e p q x : Nat) : State :=
  let key := 28 * e + 7 * p + q
  let t := smGet 0 s.nrg.run.totals key
  let full := 2 ^ 96 ≤ t + x
  let t' := if full then (2 ^ 64 - 1) * 2 ^ 32 + (t % 2 ^ 32) else t + x
  let was : Bool := (getReg64 s (Reg.nrgTotFull 0) (Reg.nrgTotFull 1)).testBit key
  let s := { s with nrg := { s.nrg with run := { s.nrg.run with totals := smPut 0 s.nrg.run.totals key t' } } }
  if full && !was then
    let s := setReg64 s (Reg.nrgTotFull 0) (Reg.nrgTotFull 1) (getReg64 s (Reg.nrgTotFull 0) (Reg.nrgTotFull 1) ||| 2 ^ key)
    logEvent (evt s Reg.nrgEvents 8) 0x1540 0xFFFF []
  else s

/-- What an accumulator's mode adds of a step (Table 14.2), in 2^-32 units. -/
def accAdds (w : Word) (p q : Rat) (ep eq es : Int) : Int :=
  let x : Int := match accKind w with | 0 => ep | 1 => eq | 2 => es | _ => 0
  let b := billing p q ep eq es
  match fld w 30 28 with
  | 0 => x
  | 1 => if 0 < x then x else 0
  | 2 => if x < 0 then -x else 0
  | 7 => 0
  | m => match b[m - 1]? with | some v => (v : Int) | none => 0

/-- Adds to an accumulator (R452): its new value and how often it wrapped. -/
def accStep (w : Word) (a : IntAcc) (x : Int) : IntAcc :=
  let u : Int := ((2 ^ (32 + fld w 4 0) : Nat) : Int)
  let sum : Int := (a.frac : Int) + x
  let n : Int := sum / u
  let signed := fld w 30 28 = 0
  let v : Int := (if signed then toSigned 32 a.value else (a.value : Int)) + n
  let wraps : Nat := (if signed then (v + 2 ^ 31) / 2 ^ 32 else v / 2 ^ 32).natAbs
  { a with value := ofSigned 32 v, frac := (sum % u).toNat, wrap := a.wrap || wraps != 0, wraps := Nat.min 255 (a.wraps + wraps) }

def pulseUnit : Nat := 1000000 * 2 ^ 48

/-- Feeds a pulse stage (R457, R458): n more pulses fall due. -/
def pulseFeed (s : State) (n x : Nat) : State :=
  let fr := smGet 0 s.nrg.run.fracs n + x * (getReg s (Reg.nrgPulseConst n)).toNat
  let due := fr / pulseUnit
  let p := smGet Pulse.reset s.nrg.pulses n
  let took := Nat.min due (65535 - p.backlog)
  let drop := due - took
  let s := { s with nrg := { s.nrg with
    run := { s.nrg.run with fracs := smPut 0 s.nrg.run.fracs n (fr % pulseUnit) },
    pulses := smPut Pulse.reset s.nrg.pulses n { p with backlog := p.backlog + took } } }
  if drop = 0 then s
  else (List.range drop).foldl (fun s _ => logEvent (evt (bump s (Reg.nrgCnt 4)) Reg.nrgEvents 0x10) 0x1542 0xFFFF []) s

/-- One phase (3 the total) of an applied step feeds everything set on it. -/
def feedPhase (s : State) (e p : Nat) (pw qw : Rat) (ep eq es : Int) : State :=
  let b := billing pw qw ep eq es
  let at_ (q : Nat) : Nat := match b[q]? with | some v => v | none => 0
  let s := (List.range 7).foldl (fun s q => if at_ q = 0 then s else addTotal s e p q (at_ q)) s
  let x := (List.range 32).foldl (fun (x : SMap IntAcc × Bool) k =>
    let w := intCfg s e k
    if bit w 31 && accPhase w = p then
      let a := smGet IntAcc.reset x.1 (32 * e + k)
      let a' := accStep w { a with wrap := false } (accAdds w pw qw ep eq es)
      (smPut IntAcc.reset x.1 (32 * e + k) { a' with wrap := a.wrap || a'.wrap }, x.2 || a'.wrap)
    else x) (s.nrg.run.accs, false)
  let s := { s with nrg := { s.nrg with run := { s.nrg.run with accs := x.1 } } }
  let s := if x.2 then evt s Reg.nrgEvents 0x20 else s
  (List.range 4).foldl (fun s n =>
    let c := getReg s (Reg.nrgPulseCfg n)
    if bit c 31 && fld c 28 28 = e && fld c 17 16 = p then pulseFeed s n (at_ (fld c 23 20)) else s) s

/-- Starts a pulse from the backlog at a step end (R458). -/
def pulseStart (s : State) (n : Nat) : State :=
  let p := smGet Pulse.reset s.nrg.pulses n
  let w := regFld s (Reg.nrgPulseWidth n) 15 0
  let free : Bool := match p.lastStart with
    | some t => decide (t + 1000 * Nat.max 1000 (2 * w) ≤ s.raw)
    | none => true
  if regBit s (Reg.nrgPulseCfg n) 31 && p.backlog != 0 && free then
    let p := { p with backlog := p.backlog - 1, lastStart := some s.raw, endAt := some (s.raw + 1000 * w), sent := (p.sent + 1) % 65536 }
    let s := { s with nrg := { s.nrg with pulses := smPut Pulse.reset s.nrg.pulses n p } }
    bump s (Reg.nrgPulseCount n)
  else s

def putLive (s : State) (e m p v : Nat) : State :=
  { s with nrg := { s.nrg with live := smPut 0#32 s.nrg.live (128 * e + 16 * m + 4 * p) (BitVec.ofNat 32 v) } }

/-- An applied step of an element (R437–R440, R457). Where the spec states no value, a free one stands. -/
def elementStep (s : State) (e endAt tai : Nat) (q : List Int) : State :=
  let f (k : Nat) : Rat := ((Config.freeNat (s.freeCount + k) : Nat) : Rat)
  let up (k : Nat) : Bool := Config.freeNat (s.freeCount + 16) |>.testBit k
  let vals := (List.range 3).map (fun p =>
    phaseVal s e p endAt (match q[3 * e + p]? with | some x => x | none => 0))
  let pick (o : Option Rat) (k : Nat) : Rat := match o with | some v => v | none => f k
  let P (p : Nat) : Rat := match vals[p]? with | some v => pick v.p p | none => 0
  let Q (p : Nat) : Rat := match vals[p]? with | some v => pick v.q (3 + p) | none => 0
  let S2 (p : Nat) : Rat := match vals[p]? with | some v => pick v.s2 (6 + p) | none => 0
  let V2 (p : Nat) : Rat := match vals[p]? with | some v => pick v.v2 (9 + p) | none => 0
  let I2 (p : Nat) : Rat := match vals[p]? with | some v => pick v.i2 (12 + p) | none => 0
  let inFree := Config.freeNat (s.freeCount + 15) % 2 ^ 32
  let s := { s with freeCount := s.freeCount + 17 }
  let pT := P 0 + P 1 + P 2
  let qT := Q 0 + Q 1 + Q 2
  let s := (List.range 4).foldl (fun s m => dirStep s e m tai (if m = 3 then pT else P m)) s
  let s := (List.range 4).foldl (fun s m => dirStep s e (4 + m) tai (if m = 3 then qT else Q m)) s
  let pc (p : Nat) : Rat := if atOrBelow (P p) 1 (creepOf s e) then 0 else P p
  let qc (p : Nat) : Rat := if atOrBelow (Q p) 1 (creepOf s e) then 0 else Q p
  let pOn (p : Nat) : Bool := !atOrBelow (P p) 1 (creepOf s e)
  let qOn (p : Nat) : Bool := !atOrBelow (Q p) 1 (creepOf s e)
  let ep (p : Nat) : Int := stepEnergy (pc p) (up p)
  let eq (p : Nat) : Int := stepEnergy (qc p) (up (3 + p))
  let es (p : Nat) : Int := if pOn p || qOn p then stepEnergySqrt (S2 p) (up (6 + p)) else 0
  let s := (List.range 3).foldl (fun s p => feedPhase s e p (pc p) (qc p) (ep p) (eq p) (es p)) s
  let s := feedPhase s e 3 (pc 0 + pc 1 + pc 2) (qc 0 + qc 1 + qc 2) (ep 0 + ep 1 + ep 2) (eq 0 + eq 1 + eq 2)
    (es 0 + es 1 + es 2)
  let s := bump s (Reg.nrgCnt 0)
  let s := if (List.range 3).any (fun p => !pOn p || !qOn p) then bump s (Reg.nrgCnt 2) else s
  let s := { s with nrg := { s.nrg with run := { s.nrg.run with
    steps := smPut 0 s.nrg.run.steps e ((smGet 0 s.nrg.run.steps e + 1) % 2 ^ 32) } } }
  let s := (List.range 3).foldl (fun s p =>
    putLive (putLive (putLive (putLive (putLive s e 0 p (ratFlt (P p))) e 1 p (ratFlt (Q p))) e 2 p (ratSqrtFlt (S2 p)))
      e 3 p (ratSqrtFlt (V2 p))) e 4 p (ratSqrtFlt (I2 p))) s
  let s := putLive (putLive (putLive s e 0 3 (ratFlt pT)) e 1 3 (ratFlt qT)) e 2 3 (ratSqrtSumFlt [S2 0, S2 1, S2 2])
  if (roleChan s e 7).isSome then putLive s e 4 3 inFree else s

/-- The interval a step end falls in becomes the running one; while time is not valid the open one goes on with TIME_GAP
(R448, R449). -/
def stepInterval (s : State) (endAt : Nat) : State :=
  let tns := (selTime8 s (8 * endAt) / 8).toNat
  let tai : Int := (tns / 1000000000 : Nat)
  if !s.nrg.run.opened then
    let u := (utcOfTai s tai).toNat
    let u0 := u / intLen s * intLen s
    let t0 : Int := if intLen s = 1 then tai else (u0 : Int) + taiMinusUtc s u0
    let full := decide ((tns : Int) < t0 * 1000000000 + 250000)
    if !s.tim.valid then intervalOpen s u tai.toNat 3
    else if full then intervalOpen s u0 t0.toNat 0
    else intervalOpen s u tai.toNat 1
  else if !s.tim.valid then setIntFlags s 2
  else if otherInterval s tai then intervalBoundary s tai
  else s

/-- The marks of an element's channels over a step. -/
def stepMarks (s : State) (e endAt : Nat) : Nat :=
  (List.range 7).foldl (fun a k =>
    (samplesIn s (7 * e + k) (8 * (endAt - 250000)) (8 * endAt)).foldl (fun a x => a ||| x.marks) a) 0

/-- Has the front end given every sample of the step? -/
def stepComplete (s : State) (e endAt : Nat) : Bool :=
  (List.range 6).all (fun r =>
    match roleChan s e (r + 1) with
    | some c => chOn s c && (samplesIn s c (8 * (endAt - 250000)) (8 * endAt)).length == 2560 / chRatio s c
    | none => false)

/-- Is a sample of the step still to come from a running channel: none stamped at the step's end or later has arrived, and
the step is short of samples (R437)? -/
def stepWaits (s : State) (endAt : Nat) : Bool :=
  (List.range 2).any (fun e => elemOn s e && (List.range 6).any (fun r =>
    match roleChan s e (r + 1) with
    | some c => chOn s c && !(chan s c).hist.any (fun x => 8 * endAt ≤ x.stamp) &&
        (samplesIn s c (8 * (endAt - 250000)) (8 * endAt)).length < 2560 / chRatio s c
    | none => false))

/-- POWER_STEP (R437–R441, R448, R457, R458): the step that ends at raw time endAt; it waits while samples of it are still
to come. q holds Σ i·H(v) of phases A to C of both elements over the step, in units of 2^-62 of full scale squared. -/
def execPowerStep (endAt : Nat) (q : List Int) (s : State) : Host.Outcome State Fault Refusal :=
  done (
    if !nrgOn s || endAt % 250000 != 0 || endAt ≤ s.nrg.lastStep || s.raw < endAt || stepWaits s endAt then s
    else
      let missed := s.nrg.lastStep + 250000 < endAt
      let s := stepInterval s endAt
      let tai := taiOfRaw s endAt
      let s := { s with nrg := { s.nrg with lastStep := endAt } }
      let es := (List.range 2).filter (elemOn s)
      let s := es.foldl (fun s e =>
        let s := if missed then setElemFlags s e 8 else s
        let m := stepMarks s e endAt
        if !stepComplete s e endAt then setElemFlags s e 8
        else if m.testBit 0 then setElemFlags (bump s (Reg.nrgCnt 1)) e 8
        else elementStep (if m.testBit 1 then setElemFlags s e 0x20 else s) e endAt tai q) s
      (List.range 4).foldl pulseStart s)

/-! ### Pulse outputs (R458, R459) -/

/-- PULSE_END (R458). -/
def execPulseEnd (n : Nat) (s : State) : Host.Outcome State Fault Refusal :=
  done (
    let n := n % 4
    let p := smGet Pulse.reset s.nrg.pulses n
    match p.endAt with
    | some t => if t ≤ s.raw then { s with nrg := { s.nrg with pulses := smPut Pulse.reset s.nrg.pulses n { p with endAt := none } } } else s
    | none => s)

/-- A pulse pin is asserted (R458, R459). -/
def pulseAsserted (s : State) (n : Nat) : Bool :=
  nrgOn s && regBit s (Reg.nrgPulseCfg n) 31 && (smGet Pulse.reset s.nrg.pulses n).endAt.isSome

/-- What a pulse pin drives (ACTIVE_LOW and OPEN_DRAIN, section 14.9; Table 22.11): deasserted in KEEP (R550). -/
def pulseLevel (s : State) (n : Nat) : Option Bool :=
  bankOut s 1 (driveOf (pulseAsserted s n && s.pwr.st != .keep) (regBit s (Reg.nrgPulseCfg n) 30)
    (regBit s (Reg.nrgPulseCfg n) 29))

/-- A write of PULSE_CFG (R459): EN sets where the stage is in range; an undefined QUANT keeps its value (R16). -/
def pulseCfgWrite (s : State) (n : Nat) (v : Word) : State :=
  let a := Reg.nrgPulseCfg n
  let old := getReg s a
  let undef : Bool := 7 ≤ fld v 23 20
  let v := v &&& 0xF0F30000#32
  let v := if undef then setFld v 23 20 (fld old 23 20) else v
  let s := if undef then refuseC s Reg.nrgBase 0xF1 else s
  let w := regFld s (Reg.nrgPulseWidth n) 15 0
  if bit v 31 && !bit old 31 &&
      (getReg s (Reg.nrgPulseConst n) = 0#32 || w < 10 || 60000 < w || !elemOn s (fld v 28 28)) then
    refuse s Reg.nrgBase 0x1504
  else
    let s := setReg s a v
    if bit old 31 && !bit v 31 then
      let p := smGet Pulse.reset s.nrg.pulses n
      { s with nrg := { s.nrg with pulses := smPut Pulse.reset s.nrg.pulses n { p with backlog := 0, endAt := none } } }
    else s

/-- A write of PULSE_CONST or PULSE_WIDTH: dropped while EN is 1. -/
def pulseSetWrite (s : State) (n a : Nat) (v : Word) : State :=
  if regBit s (Reg.nrgPulseCfg n) 31 then refuse s Reg.nrgBase 0x1504
  else setReg s a (if a = Reg.nrgPulseWidth n then v &&& 0xFFFF#32 else v)

/-- PULSE_ENABLE (R459): a write of PULSE_CFG with EN 1. -/
def execPulseEnable (n : Nat) (v : Word) (s : State) : Host.Outcome State Fault Refusal :=
  done (if absentAt s Reg.nrgBase then s else pulseCfgWrite s (n % 4) (setBit v 31 true))

/-- PULSE_DISABLE (R459): a write of PULSE_CFG with EN 0. -/
def execPulseDisable (n : Nat) (v : Word) (s : State) : Host.Outcome State Fault Refusal :=
  done (if absentAt s Reg.nrgBase then s else pulseCfgWrite s (n % 4) (setBit v 31 false))

/-! ### Commits (R444–R447) -/

/-- The position the next commit writes: the failed one again, the invalid record, or the lower generation. -/
def commitPos (s : State) : Nat :=
  match s.nrg.repeatPos with
  | some p => p
  | none =>
    match s.nrg.rec0, s.nrg.rec1 with
    | none, _ => 0
    | some _, none => 1
    | some a, some b => if a.1 < b.1 then 0 else 1

def recGen (o : Option (Nat × EnergySnap)) : Nat := match o with | some r => r.1 | none => 0

/-- A commit starts: it snapshots the state and begins to overwrite its position. -/
def commitStart (s : State) : State :=
  let p := commitPos s
  let top := Nat.max (recGen s.nrg.rec0) (recGen s.nrg.rec1)
  { s with nrg := { s.nrg with
    commit := some s.nrg.run, commitAt := p, commitGen := (top + 1) % 2 ^ 32,
    rec0 := if p = 0 then none else s.nrg.rec0, rec1 := if p = 1 then none else s.nrg.rec1 } }

/-- The commit of a power warning: at once, or right after the commit that is running (R445). -/
def warnCommit (s : State) : State :=
  if !nrgOn s then s
  else if s.nrg.commit.isSome then { s with nrg := { s.nrg with again := true } }
  else commitStart s

/-- ENERGY_COMMIT (R444): the periodic commit of this second of raw time. -/
def execEnergyCommit (s : State) : Host.Outcome State Fault Refusal :=
  done (
    if !nrgOn s then s
    else if s.nrg.commit.isSome || s.nrg.commitSec = some (s.raw / 1000000000) then s
    else
      let s := commitStart s
      { s with nrg := { s.nrg with commitSec := some (s.raw / 1000000000) } })

/-- ENERGY_COMMIT_END (R444, R447): ok tells whether the record read back equals the snapshot. -/
def execEnergyCommitEnd (ok : Bool) (s : State) : Host.Outcome State Fault Refusal :=
  done (
    match s.nrg.commit with
    | none => s
    | some snap =>
      let p := s.nrg.commitAt
      let g := s.nrg.commitGen
      let again := s.nrg.again
      let s := { s with nrg := { s.nrg with commit := none, again := false } }
      let s :=
        if ok then
          let s := { s with nrg := { s.nrg with
            repeatPos := none, rec0 := if p = 0 then some (g, snap) else s.nrg.rec0,
            rec1 := if p = 1 then some (g, snap) else s.nrg.rec1 } }
          bump (setRegN s Reg.nrgCommit (g % 2 ^ 31)) (Reg.nrgCnt 3)
        else logEvent (evt { s with nrg := { s.nrg with repeatPos := some p } } Reg.nrgEvents 0x40) 0x1543 0xFFFF []
      if again then commitStart s else s)

/-- The energy record at start-up (R446, R451). -/
def energyLoad (s : State) : State :=
  let best := match s.nrg.rec0, s.nrg.rec1 with
    | none, none => none
    | some a, none => some a
    | none, some b => some b
    | some a, some b => if a.1 < b.1 then some b else some a
  match best with
  | some r =>
    let run := if r.2.opened then { r.2 with flags := r.2.flags ||| 4 } else r.2
    setRegN { s with nrg := { s.nrg with run := run } } Reg.nrgCommit (r.1 % 2 ^ 31)
  | none =>
    logEvent (setRegN { s with nrg := { s.nrg with run := EnergySnap.reset } } Reg.nrgCommit (2 ^ 31)) 0x1544 0xFFFF []

/-! ### Zero crossings and reads -/

/-- ZC_LOST (R456): voltage channel c has had no crossing for ZC_TIMEOUT. -/
def execZcLost (c : Nat) (s : State) : Host.Outcome State Fault Refusal :=
  done (
    match voltageOf s c with
    | none => s
    | some (e, p) =>
      if elemOn s e && !regBit s Reg.nrgStatus (16 + 3 * e + p) &&
          (chan s c).zcBase + 8000000 * regFld s Reg.nrgZcCfg 31 16 ≤ 8 * s.raw then
        let s := setReg s Reg.nrgStatus (setBit (getReg s Reg.nrgStatus) (16 + 3 * e + p) true)
        logEvent (evt (setElemFlags s e 0x40) Reg.nrgEvents 4) 0x1541 0xFFFF []
      else s)

/-- A read of INT_VAL (R454): the value, with AUX and NRG_INT_SEQ latched for the port. -/
def intValRead (s : State) (port e k : Nat) : Word × State :=
  let a := intAcc s e k
  (BitVec.ofNat 32 a.value,
   { s with nrg := { s.nrg with
      auxLatch := smPut 0#32 s.nrg.auxLatch (64 * port + 32 * e + k) (BitVec.ofNat 32 (accAux a)),
      seqLatch := smPut 0 s.nrg.seqLatch port s.nrg.run.seq } })

/-- INT_VAL_READ (R454). -/
def execIntValRead (port e k : Nat) (s : State) : Host.Outcome State Fault Refusal :=
  done (
    let r := if absentAt s Reg.nrgBase then (0#32, s) else intValRead s (port % 2) (e % 2) (k % 32)
    { r.2 with host := { r.2.host with resp := [r.1] } })

/-! ### Enable and register writes (R436, R455, section 14.9) -/

/-- Does an element's set break R436? -/
def elemBad (s : State) (e : Nat) : Bool :=
  let cs := (List.range 7).map (fun k => 7 * e + k)
  let one (r : Nat) : Bool := (cs.filter (fun c => chRole s c = r)).length = 1
  let use := cs.filter (fun c => 1 ≤ chRole s c && chRole s c ≤ 7)
  let same (f : Nat → Nat) : Bool := match use with | c :: r => r.all (fun x => f x = f c) | [] => true
  !afeOn s || !((List.range 6).all (fun r => one (r + 1))) || (use.any (fun c => chRole s c ≤ 6 && !chOn s c)) ||
    !same (chOrder s) || !same (chRcode s) || !same (chTaps s) || use.any (fun c => 5 < chRcode s c)

/-- The NRG enable check: 0 or the cause. -/
def nrgCheck (s : State) : Nat :=
  let len := regFld s Reg.nrgCfg 31 20
  if (List.range 2).any (fun e => regBit s Reg.nrgCfg e && elemBad s e) then 0x01
  else if len = 0 || 3600 % len != 0 then 0x03
  else if regBit s Reg.nrgCfg 19 && !isHostQueue s (regFld s Reg.nrgCfg 18 8) then 0x05
  else 0

/-- NRG has been enabled: metering starts with the next whole step; the wait for crossings starts. -/
def nrgEnabledNow (s : State) : State :=
  let s := { s with nrg := { s.nrg with lastStep := ceilDiv s.raw 250000 * 250000 } }
  let s := (List.range 14).foldl (fun s c => setChan s c { chan s c with zcBase := Nat.max (chan s c).zcBase (8 * s.raw) }) s
  if s.tim.valid then nrgTimeGiven s else s

/-- May MODE take KIND (Table 14.2)? -/
def modeTakes (mode kind : Nat) : Bool :=
  match mode with
  | 0 => kind ≤ 1
  | 1 => kind ≤ 2
  | 2 => kind ≤ 1
  | 7 => false
  | _ => kind = 1

/-- A write of INT_CFG[k] of element e (R455). -/
def intCfgWrite (s : State) (e k : Nat) (v : Word) : State :=
  let a := 0x1E1000 + 0x800 * e + 4 * k
  let v := v &&& 0xF330001F#32
  if nrgOn s then (if v = getReg s a then s else refuseC s Reg.nrgBase 0xF0)
  else if modeTakes (fld v 30 28) (fld v 25 24) then setReg s a v
  else
    let v := setFld (setFld v 30 28 (regFld s a 30 28)) 25 24 (regFld s a 25 24)
    refuse (setReg s a v) Reg.nrgBase 0x1502

end Sys2Proof.Machine
end

