-- ==== Sys2Proof/Machine/CaptureCmds.lean ====
section
/-! DEFINITION. The commands of the capture engine: ROC and mask evaluation, the trigger bus, records and their store
(15_capture.md). -/

namespace Sys2Proof.Machine

/-! ### ROC and masks (R467, R468, R472, R473) -/

/-- One nominal cycle of a channel in 1/8 ns, as a numerator over its nominal frequency: the window of an evaluation
holds the samples stamped in (end − cycle, end]. -/
def cycleSamples (s : State) (c end8 back : Nat) : List Sample :=
  let f := nominalHz s c
  (chan s c).hist.filter (fun x => x.stamp * f ≤ end8 * f - back * 8000000000 &&
    end8 * f - (back + 1) * 8000000000 < x.stamp * f)

/-- Mean of the squares over a window, in units of 2^-62. -/
def windowMs (l : List Sample) : Rat := ((sumProd l l : Int) : Rat) / ((Nat.max 1 l.length : Nat) : Rat)

/-- |√a − √b| > r. -/
def rmsApart (a b r : Rat) : Bool :=
  let hi := if a < b then b else a
  let lo := if a < b then a else b
  let d := hi - lo - r * r
  decide (0 < d ∧ 4 * r * r * lo < d * d)

/-- Does the channel's history cover n nominal cycles that end at a stamp? -/
def cyclesHeld (s : State) (c end8 n : Nat) : Bool :=
  let f := nominalHz s c
  let per := chRatio s c * 3125 / 4
  match (chan s c).hist with
  | x :: _ => decide (end8 < x.stamp + Nat.max 1 per) &&
      (chan s c).hist.any (fun y => y.stamp * f + n * 8000000000 < end8 * f + per * f)
  | [] => false

/-- The ROC test of a channel at an evaluation instant; none while the history is too short. -/
def rocTest (s : State) (c t : Nat) : Option Bool :=
  let e := 8 * t
  if cyclesHeld s c e 2 then
    some (rmsApart (windowMs (cycleSamples s c e 0)) (windowMs (cycleSamples s c e 1)) (((getReg s (Reg.capRoc c)).toNat : Nat) : Rat))
  else none

/-- The raw instant of a window's last sample. -/
def lastStamp (s : State) (c t : Nat) : Nat :=
  match cycleSamples s c (8 * t) 0 with | x :: _ => x.stamp / 8 | [] => t

def rocStep (s : State) (t c : Nat) : State :=
  if !bit (getReg s (Reg.capChTrg c)) 2 then s
  else
    match rocTest s c t with
    | none => s
    | some r =>
      let g := capRing s c
      let fire := r && !g.roc
      let s := setCapRing s c { g with roc := r }
      if fire then capTrigger s 2 (lastStamp s c t) else s

def maskReg (s : State) (m seg k : Nat) : Nat := (getReg s (0xC0404 + 0x100 * m + 12 * seg + 4 * k)).toNat

/-- The segment of a mask that applies el ns after the first trigger instant. -/
def maskSeg (s : State) (m el : Nat) : Nat :=
  let n := fld (getReg s (Reg.capMaskCfg m)) 19 16 + 1
  ((List.range n).filter (fun k => maskReg s m k 0 * 1000 ≤ el)).length - 1

/-- Is the channel's RMS outside the bounds of the segment that applies? -/
def maskBroken (s : State) (m first t : Nat) : Bool :=
  let c := fld (getReg s (Reg.capMaskCfg m)) 23 20
  let k := maskSeg s m (t - first)
  let ms := windowMs (cycleSamples s c (8 * t) 0)
  let lo : Rat := ((maskReg s m k 1 : Nat) : Rat)
  let hi : Rat := ((maskReg s m k 2 : Nat) : Rat)
  cyclesHeld s c (8 * t) 1 && decide (ms < lo * lo ∨ hi * hi < ms)

/-- Evaluates a mask of the open record; a violation counts once in a record. -/
def maskStep (s : State) (t m : Nat) : State :=
  match s.cap.cur with
  | none => s
  | some r =>
    let cfg := getReg s (Reg.capMaskCfg m)
    if bit cfg 31 && !r.maskFail.testBit m && r.first ≤ t && maskBroken s m r.first t then
      let stop := bit cfg 25
      let r' := { r with
        maskFail := r.maskFail ||| 2 ^ m,
        flags := if stop then r.flags ||| 8 else r.flags,
        stopAt := if stop && r.stopAt.isNone then some t else r.stopAt }
      let s := { s with cap := { s.cap with cur := some r' } }
      let s := logEvent (evt (bump s (Reg.capCnt 5)) Reg.capEvents 8) 0x0D41 0xFFFF []
      capTrigger s 3 t
    else s

/-- ROC_EVALUATION (R467, R468, R472): the evaluation instant t, a multiple of 250 µs of raw time. -/
def execRocEvaluation (t : Nat) (s : State) : Host.Outcome State Fault Refusal :=
  done (
    if !enabled s Reg.capBase || t % 250000 != 0 || t ≤ s.cap.rocAt || s.raw < t then s
    else
      let s := { s with cap := { s.cap with rocAt := t } }
      let s := (bitList 16 (capChan s)).foldl (fun s c => rocStep s t c) s
      (List.range 8).foldl (fun s m => maskStep s t m) s)

/-! ### The trigger bus (R477, R479) -/

/-- TRIGGER_BUS_EDGE (R467, R477): TRGn is asserted, or released, by another device; sub is the 1/8 ns of the edge. -/
def execTriggerBusEdge (n sub : Nat) (rising : Bool) (s : State) : Host.Outcome State Fault Refusal :=
  done (
    let n := n % 4
    let was := s.cap.hostTx.testBit n
    let s := if absentAt s Reg.capBase then s else { s with cap := { s.cap with
      hostTx := if rising then s.cap.hostTx ||| 2 ^ n else s.cap.hostTx &&& (15 - 2 ^ n) } }
    let driven := (smFind s.cap.driving n).isSome
    if !rising || was || driven || !(regFld s Reg.capBus 27 24).testBit n then s
    else
      let e : Int := ((8 * s.raw + sub % 8 : Nat) : Int) - ((8000 * (getReg s Reg.capBusLat).toNat : Nat) : Int) -
        toSigned 32 (getReg s Reg.capBusDelay).toNat
      capTrigger s 5 (e / 8).toNat)

/-- What a TRG driver drives: an asserted line; an idle one is released, as every one is in KEEP and until the ladder has
ended (R550, R609, Table 22.11). -/
def trgLevel (s : State) (n : Nat) : Option Bool :=
  if (smFind s.cap.driving n).isSome && s.pwr.st != .keep && s.pwr.st != .off && !inLadder s then some true else none

/-- BUS_DRIVE (R477): a planned assertion falls due; in a takeover gap it waits (R529). -/
def execBusDrive (s : State) : Host.Outcome State Fault Refusal :=
  done (
    match s.cap.drives with
    | [] => s
    | d :: l =>
      if s.raw < d.1 || s.twn.st = .taking then s
      else
        let end_ := s.raw + 1000 * regFld s Reg.capBus 15 0
        { s with cap := { s.cap with
          drives := l,
          driving := (bitList 4 d.2).foldl (fun m n => smSet m n (Nat.max end_ (smGet 0 m n))) s.cap.driving } })

/-- BUS_PULSE_END (R477): the pulse on TRGn ends. -/
def execBusPulseEnd (n : Nat) (s : State) : Host.Outcome State Fault Refusal :=
  done (
    match smFind s.cap.driving (n % 4) with
    | some t => if t ≤ s.raw then { s with cap := { s.cap with driving := smErase s.cap.driving (n % 4) } } else s
    | none => s)

/-! ### CAP_CTRL (R466, R467, R474) -/

/-- CAP_FORCE (R467): a host trigger at the raw time of the write. -/
def execCapForce (s : State) : Host.Outcome State Fault Refusal := done (capTrigger s 7 s.raw)

def capRearm (s : State) : State :=
  if s.cap.st = .halted then { s with cap := { s.cap with st := .armed } } else s

/-- CAP_REARM (R466). -/
def execCapRearm (s : State) : Host.Outcome State Fault Refusal := done (capRearm s)

def capReleaseRec (s : State) : State :=
  if capTarget s = 0 && s.cap.cur.isNone then { s with cap := { s.cap with held := none, store := [] } } else s

/-- CAP_RELEASE (R474): releases the record that TARGET 0 keeps in the rings. -/
def execCapRelease (s : State) : Host.Outcome State Fault Refusal := done (capReleaseRec s)

/-- A write of CAP_CTRL: its bits act in ascending order (R621). -/
def capCtrlWrite (s : State) (v : Word) : State :=
  let s := if bit v 0 then capTrigger s 7 s.raw else s
  let s := if bit v 1 then capRearm s else s
  if bit v 2 then capReleaseRec s else s

/-! ### Records (R469, R475) -/

/-- RECORD_END (R469, R473): the open record's end has come. -/
def execRecordEnd (s : State) : Host.Outcome State Fault Refusal :=
  done (
    match s.cap.cur with
    | none => s
    | some r => let e := capEndAt s r; if e ≤ s.raw then capEnd s e 0 r.stopAt.isSome false else s)

/-- RECORD_STORED (R475): the CRC word of the oldest ended record lands. -/
def execRecordStored (s : State) : Host.Outcome State Fault Refusal :=
  done (
    match s.cap.storing with
    | [] => s
    | d :: l =>
      let crc := leBytes 4 (crc32c (d.header ++ d.blocks.flatten))
      let bytes := d.header ++ crc
      let s := { s with cap := { s.cap with
        storing := l,
        store := (if capTarget s = 0 then [] else s.cap.store) ++ [(d.num, d.off, 64 + 4096 * d.blocks.length)] } }
      let s := if capTarget s = 0 then s else capWrite s (d.off + 60) crc
      let s := if capTarget s = 2 then
          let g := match s.cap.anchor with | some a => (a.1 + 1) % 2 ^ 32 | none => 1
          { s with cap := { s.cap with anchor := some (g, s.cap.store) } }
        else s
      let s := (List.range 16).foldl (fun s k => setRegN s (Reg.capLast k) (le bytes (4 * k) 4)) s
      logEvent (evt (bump s (Reg.capCnt 0)) Reg.capEvents 2) 0x0D40 0xFFFF [])

/-- A word of the capture SRAM: each captured channel's partition is a ring of blocks (R461, R462). -/
def capSramWord (s : State) (a : Nat) : Nat :=
  let part := capPartition s * 4096
  let chans := bitList 16 (capChan s)
  match chans[a / Nat.max 1 part]? with
  | none => 0
  | some c =>
    let o := a % Nat.max 1 part
    match (capRing s c).blocks.find? (fun b => b.pos = o / 4096) with
    | some b => le (blockBytes s c b) (o % 4096) 4
    | none => 0

/-- A read of CAP_RD_DATA (R474). -/
def capRdData (s : State) : Word × State :=
  let a := regFld s Reg.capRdAddr 21 0
  if a % 4 != 0 then (0#32, refuse s Reg.capBase 0x0D06)
  else (BitVec.ofNat 32 (capSramWord s a), setRegN s Reg.capRdAddr ((a + 4) % 2 ^ 22))

/-- CAP_RD_DATA_READ (R474). -/
def execCapRdDataRead (s : State) : Host.Outcome State Fault Refusal :=
  done (let x := if absentAt s Reg.capBase then (0#32, s) else capRdData s; { x.2 with host := { x.2.host with resp := [x.1] } })

/-! ### Enable (R461, R466, R477, section 15.6) -/

/-- Are a mask's segments in order? -/
def maskOrdered (s : State) (m : Nat) : Bool :=
  let n := fld (getReg s (Reg.capMaskCfg m)) 19 16 + 1
  maskReg s m 0 0 = 0 && (List.range (n - 1)).all (fun k => maskReg s m k 0 < maskReg s m (k + 1) 0)

/-- The LPDDR5X region of TARGET 1 is missing or outside the fitted memory. -/
def capLpBad (s : State) : Bool :=
  let b := getReg64 s (Reg.capLpBase 0) (Reg.capLpBase 1)
  let l := (getReg s Reg.capLpLen).toNat * 1024
  capTarget s = 1 && (l = 0 || ddrFitted s < b + l)

/-- The CAP enable check: 0 or the cause. -/
def capCheck (s : State) : Nat :=
  let cs := bitList 16 (capChan s)
  let masks := (List.range 8).filter (fun m => bit (getReg s (Reg.capMaskCfg m)) 31)
  if cs.isEmpty || !afeOn s || cs.any (fun c => !regBit s Reg.afeCfg c) then 0x01
  else if cs.any (fun c => bit (getReg s (Reg.capChTrg c)) 2 && 5 < chRcode s c) ||
      masks.any (fun m => 5 < chRcode s (fld (getReg s (Reg.capMaskCfg m)) 23 20)) then 0x02
  else if capLpBad s then 0x03
  else if regBit s Reg.capBus 21 then 0x04
  else if masks.any (fun m => !maskOrdered s m) then 0x07
  else 0

/-- CAP has been enabled: the rings start empty and the engine is ARMED. A result of a test must not meet its condition
before one that does fires (R468). -/
def capEnabledNow (s : State) : State :=
  let s := (List.range 16).foldl (fun s c => setCapRing s c CapRing.reset) s
  let s := (bitList 16 (capChan s)).foldl (fun s c => setCapRing s c { CapRing.reset with level := true, slope := true, roc := true }) s
  let store := if capTarget s = 2 then (match s.cap.anchor with | some a => a.2 | none => []) else
    if capTarget s = 1 then s.cap.store else []
  let wr := match store.getLast? with | some r => (r.2.1 + r.2.2) % Nat.max 1 (capRegion s).2 | none => 0
  { s with cap := { s.cap with st := .armed, cur := none, held := none, store := store, wr := wr } }

/-- CAP is disabled: an open record ends. -/
def capDisabled (s : State) : State :=
  let s := capEnd s s.raw 0 false false
  { s with cap := { s.cap with st := .idle, drives := [], driving := [] } }

/-- Free space of the target in 64 KiB units, saturating at 10 bits (CAP_STATE). -/
def capFree (s : State) : Nat :=
  if capTarget s = 0 then 0 else Nat.min 1023 (((capRegion s).2 - capUsed s) / 65536)

def capStateWord (s : State) : Nat :=
  capFree s * 65536 + (match s.cap.st with | .idle => 0 | .armed => 1 | .recording => 2 | .halted => 3)

def capStoreWord (s : State) : Nat :=
  (match s.cap.store.getLast? with | some r => r.1 % 65536 | none => 0) * 65536 + s.cap.store.length % 65536

end Sys2Proof.Machine
end

