-- ==== Sys2Proof/Machine/Inflate.lean ====
section
/-! DEFINITION. DEFLATE decompression (RFC 1951) with the zlib wrapper (RFC 1950), resumable, with the errors of
Table 16.4 and the expansion guard (16_archive_compression.md, sections 16.2 to 16.5). -/

namespace Sys2Proof.Machine

/-- Bits of bytes in DEFLATE's order, the least significant bit of each byte first. -/
def bitsOfBytes (l : List Byte) : List Bool := l.flatMap (fun b => (List.range 8).map (fun i => b.toNat.testBit i))

/-- The number that bits spell, least significant first. -/
def bitsVal : List Bool → Nat
  | [] => 0
  | b :: r => b2n b + 2 * bitsVal r

/-- Bytes of bits; a final partial byte is padded with 0. -/
def bytesOfBits : Nat → List Bool → List Byte
  | 0, _ => []
  | _ + 1, [] => []
  | n + 1, l => BitVec.ofNat 8 (bitsVal (l.take 8)) :: bytesOfBits n (l.drop 8)

/-- n bits from the front. -/
def takeBits (n : Nat) (l : List Bool) : Option (Nat × List Bool) :=
  if l.length < n then none else some (bitsVal (l.take n), l.drop n)

/-! ### Huffman trees -/

def lenCount (lens : List Nat) (n : Nat) : Nat := (lens.filter (· = n)).length

/-- The k-th symbol with a code of length n. -/
def nthOfLen (lens : List Nat) (n k : Nat) : Nat :=
  match ((List.range lens.length).filter (fun i => lens[i]? = some n))[k]? with | some i => i | none => 0

/-- What reading a symbol finds. -/
inductive SymRes where
  | need
  | bad
  | sym (v : Nat) (rest : List Bool)
  deriving DecidableEq, Repr

/-- Reads a canonical code bit by bit: code and first are those of length len. -/
def symGo (lens : List Nat) : Nat → Nat → Nat → Nat → List Bool → SymRes
  | 0, _, _, _, _ => .bad
  | _ + 1, _, _, _, [] => .need
  | f + 1, len, code, first, b :: r =>
    let code := code + b2n b
    let n := lenCount lens len
    if code < first + n then .sym (nthOfLen lens len (code - first)) r
    else symGo lens f (len + 1) (2 * code) (2 * (first + n)) r

def readSym (lens : List Nat) (bits : List Bool) : SymRes := symGo lens 15 1 0 0 bits

/-- Codes left over by a tree's lengths: negative when over-subscribed, 0 when complete. -/
def treeLeft (lens : List Nat) : Int :=
  ((List.range 15).foldl (fun (x : Int × Bool) i =>
    let l := 2 * x.1 - (lenCount lens (i + 1) : Int)
    if x.2 then x else (l, decide (l < 0))) (1, false)).1

/-- Checks a tree: the cause of Table 16.4, 0 when it is accepted. -/
def treeFail (lens : List Nat) : Nat :=
  if treeLeft lens < 0 then 0x14 else if treeLeft lens = 0 then 0 else 0x15

/-- A distance tree may have one code of length 1, or none. -/
def distFail (lens : List Nat) : Nat :=
  let used := lens.filter (· != 0)
  if used.isEmpty || used = [1] then 0 else treeFail lens

def fixedLit : List Nat :=
  List.replicate 144 8 ++ List.replicate 112 9 ++ List.replicate 24 7 ++ List.replicate 8 8

def fixedDist : List Nat := List.replicate 32 5

def clOrder : List Nat := [16, 17, 18, 0, 8, 7, 9, 6, 10, 5, 11, 4, 12, 3, 13, 2, 14, 1, 15]

/-- Base and extra bits of a length symbol from 257. -/
def lenBase (k : Nat) : Nat × Nat :=
  if k < 8 then (3 + k, 0)
  else if k = 28 then (258, 0)
  else let e := k / 4 - 1; ((4 + k % 4) * 2 ^ e + 3, e)

/-- Base and extra bits of a distance symbol. -/
def distBase (k : Nat) : Nat × Nat :=
  if k < 4 then (1 + k, 0) else let e := k / 2 - 1; ((2 + k % 2) * 2 ^ e + 1, e)

/-- What a unit of the stream answers: more input is needed, an error, or its value. -/
inductive PartRes (α : Type) where
  | need
  | err (cause : Nat)
  | ok (v : α) (rest : List Bool)
  deriving DecidableEq, Repr

/-- The code lengths of a dynamic block, newest first in acc. -/
def codeLens (cl : List Nat) (total : Nat) : Nat → List Nat → List Bool → PartRes (List Nat)
  | 0, _, _ => .err 0x13
  | f + 1, acc, bits =>
    if total ≤ acc.length then .ok acc.reverse bits
    else
      match readSym cl bits with
      | .need => .need
      | .bad => .err 0x15
      | .sym v r =>
        if v < 16 then codeLens cl total f (v :: acc) r
        else
          let x : Nat × Nat := if v = 16 then (2, 3) else if v = 17 then (3, 3) else (7, 11)
          match takeBits x.1 r with
          | none => .need
          | some (n, r) =>
            let rep := n + x.2
            match acc with
            | [] => if v = 16 then .err 0x13 else if total < rep then .err 0x13 else codeLens cl total f (List.replicate rep 0) r
            | p :: _ =>
              if total < acc.length + rep then .err 0x13
              else codeLens cl total f (List.replicate rep (if v = 16 then p else 0) ++ acc) r

/-- The trees of a dynamic block. -/
def dynTrees (bits : List Bool) : PartRes (List Nat × List Nat) :=
  match takeBits 14 bits with
  | none => .need
  | some (h, r) =>
    let hlit := h % 32 + 257
    let hdist := h / 32 % 32 + 1
    let hclen := h / 1024 + 4
    match takeBits (3 * hclen) r with
    | none => .need
    | some (v, r) =>
      let raw := (List.range hclen).map (fun i => v / 8 ^ i % 8)
      let cl := (List.range 19).map (fun sym =>
        match (clOrder.zip raw).find? (fun x => x.1 = sym) with | some x => x.2 | none => 0)
      if treeFail cl != 0 then .err (treeFail cl)
      else
        match codeLens cl (hlit + hdist) 330 [] r with
        | .need => .need
        | .err c => .err c
        | .ok l r =>
          let lit := l.take hlit
          let dist := l.drop hlit
          if treeFail lit != 0 then .err (treeFail lit)
          else if lit[256]? = some 0 then .err 0x16
          else if distFail dist != 0 then .err (distFail dist)
          else .ok (lit, dist) r

/-- A literal or length code with its distance: a literal byte, the end of the block, or a match. -/
inductive LitRes where
  | byte (b : Nat)
  | stop
  | copy (len dist : Nat)
  deriving DecidableEq, Repr

def readLit (lit dist : List Nat) (bits : List Bool) : PartRes LitRes :=
  match readSym lit bits with
  | .need => .need
  | .bad => .err 0x15
  | .sym v r =>
    if v < 256 then .ok (.byte v) r
    else if v = 256 then .ok .stop r
    else if 286 ≤ v then .err 0x16
    else
      let lb := lenBase (v - 257)
      match takeBits lb.2 r with
      | none => .need
      | some (le, r) =>
        match readSym dist r with
        | .need => if dist.all (· = 0) then .err 0x15 else .need
        | .bad => .err 0x15
        | .sym d r =>
          if 30 ≤ d then .err 0x17
          else
            let db := distBase d
            match takeBits db.2 r with
            | none => .need
            | some (de, r) => .ok (.copy (lb.1 + le) (db.1 + de)) r

/-! ### The decompressor -/

/-- A decompression in progress: input bits not used, history and output newest first, output space left, input bytes
and output bytes of earlier jobs, bits of this job's input, the guard's ratio while it applies. -/
structure Inf where
  bits : List Bool
  hist : List Byte
  st : InfState
  zlib : Bool
  final : Bool
  copy : Nat × Nat
  adler : Nat
  out : List Byte
  room : Nat
  inPrev : Nat
  outPrev : Nat
  total : Nat
  skew : Nat                         -- bits by which the end of bits stands before a byte boundary
  guard : Option Nat
  deriving DecidableEq, Repr

/-- What one step answers. -/
inductive InfRes where
  | go (x : Inf)
  | need
  | full
  | err (cause : Nat)
  | stop
  deriving DecidableEq, Repr

def adlerAdd (a : Nat) (b : Byte) : Nat :=
  let lo := (a % 65536 + b.toNat) % 65521
  (a / 65536 + lo) % 65521 * 65536 + lo

/-- Input bytes of this job consumed. -/
def infUsed (x : Inf) : Nat := ceilDiv (x.total - x.bits.length) 8

/-- One output byte: not with the output full, nor past the guard (R492, R497). -/
def infPut (x : Inf) (b : Byte) (next : Inf) : InfRes :=
  if x.room = 0 then .full
  else
    let ovr : Bool := match x.guard with
      | some r => decide (r * (x.inPrev + infUsed next) + 1024 < x.outPrev + x.out.length + 1)
      | none => false
    if ovr then .err 0x1B
    else .go { next with
      hist := (b :: x.hist).take 32768, adler := adlerAdd x.adler b, out := b :: x.out, room := x.room - 1 }

/-- Drops the rest of the current byte. -/
def alignBits (skew : Nat) (l : List Bool) : List Bool := l.drop ((l.length + skew) % 8)

/-- The state after a block's end. -/
def afterBlock (x : Inf) : InfState := if x.final then (if x.zlib then .trailer else .ended) else .block

def infStep (x : Inf) : InfRes :=
  match x.st with
  | .ended => .stop
  | .header =>
    if !x.zlib then .go { x with st := .block }
    else
      match takeBits 16 x.bits with
      | none => .need
      | some (v, r) =>
        let cmf := v % 256
        let flg := v / 256
        if cmf % 16 != 8 || 7 < cmf / 16 || (cmf * 256 + flg) % 31 != 0 || flg / 32 % 2 = 1 then .err 0x10
        else .go { x with st := .block, bits := r }
  | .block =>
    match takeBits 3 x.bits with
    | none => .need
    | some (v, r) =>
      let x' := { x with final := v % 2 = 1 }
      match v / 2 with
      | 0 =>
        match takeBits 32 (alignBits x.skew r) with
        | none => .need
        | some (n, r) => if n % 65536 + n / 65536 != 65535 then .err 0x12 else .go { x' with st := .stored (n % 65536), bits := r }
      | 1 => .go { x' with st := .huff fixedLit fixedDist, bits := r }
      | 2 =>
        match dynTrees r with
        | .need => .need
        | .err c => .err c
        | .ok t r => .go { x' with st := .huff t.1 t.2, bits := r }
      | _ => .err 0x11
  | .stored 0 => .go { x with st := afterBlock x }
  | .stored (n + 1) =>
    match takeBits 8 x.bits with
    | none => if x.room = 0 then .full else .need
    | some (v, r) => infPut x (BitVec.ofNat 8 v) { x with st := .stored n, bits := r }
  | .huff lit dist =>
    if x.copy.1 != 0 then
      let b := match x.hist[x.copy.2 - 1]? with | some b => b | none => 0
      infPut x b { x with copy := (x.copy.1 - 1, x.copy.2) }
    else
      match readLit lit dist x.bits with
      | .need => .need
      | .err c => .err c
      | .ok (.byte b) r => infPut x (BitVec.ofNat 8 b) { x with bits := r }
      | .ok .stop r => .go { x with st := afterBlock x, bits := r }
      | .ok (.copy len d) r => if x.hist.length < d then .err 0x19 else .go { x with copy := (len, d), bits := r }
  | .trailer =>
    match takeBits 32 (alignBits x.skew x.bits) with
    | none => .need
    | some (v, r) =>
      if beNat (leBytes 4 v) = x.adler then .go { x with st := .ended, bits := r } else .err 0x1A

/-- Runs until input or output ends, the stream ends, or an error. -/
def infRun : Nat → Inf → InfRes × Inf
  | 0, x => (.need, x)
  | f + 1, x =>
    match infStep x with
    | .go y => infRun f y
    | r => (r, x)

/-- Steps that always suffice: each takes a bit, gives a byte, or ends a stored block. -/
def infFuel (x : Inf) : Nat := 300 * (x.bits.length + 4) + 300

/-- Continues a slot's stream with more input and output space. -/
def infLoad (sl : ArcSlot) (src : List Byte) (room : Nat) (guard : Option Nat) : Inf :=
  let new := bitsOfBytes src
  { bits := sl.bits ++ new, hist := sl.hist.reverse, st := sl.inf, zlib := sl.zlib, final := sl.final, copy := sl.copy,
    adler := sl.adler, out := [], room := room, inPrev := sl.inTotal, outPrev := sl.outTotal, total := new.length,
    skew := 0,
    guard := guard }

/-- The slot after a run. -/
def infSave (sl : ArcSlot) (x : Inf) : ArcSlot :=
  { sl with bits := x.bits, hist := x.hist.reverse, inf := x.st, final := x.final, copy := x.copy, adler := x.adler,
            inTotal := sl.inTotal + infUsed x, outTotal := sl.outTotal + x.out.length }

/-- Input offset of an error: the byte that holds the first bit of the faulty element. -/
def infErrPos (x : Inf) : Nat := (x.total - x.bits.length) / 8

end Sys2Proof.Machine
end

