-- ==== Sys2Proof/Machine/Archive.lean ====
section
/-! DEFINITION. The seal event and its outflow, the archive stream and the host jobs of the archive engine
(04_vault_and_exhibits.md, section 4.9; 16_archive_compression.md). -/

namespace Sys2Proof.Machine

/-! ### Serialisation (R481, R482) -/

/-- MASK_BYTES of a plan (Table 16.1). -/
def maskLen (p : Plan) : Nat :=
  match ((List.range 16384).filter (fun n => (mapSlot p n).isSome)).getLast? with
  | some n => 8 * ceilDiv (n + 1) 64
  | none => 0

/-- The slots that follow, present accessions ascending, then L0 to L3. -/
def serialSlots (x : Exhibit) : List (List Byte) := (x.slots.filter (fun sl => landed x sl.1)).map (·.2)

/-- One slot under the delta prefilter: its value area XOR the original area of the last slot of its length, byte
planes in order. -/
def prefilterSlot (prev : Option (List Byte)) (sl : List Byte) : List Byte :=
  let v := sl.drop 0x20
  let w := match prev with | some p => v.zipWith (· ^^^ ·) p | none => v
  let m := v.length / 4
  sl.take 0x20 ++ (List.range 4).flatMap (fun b => (List.range m).filterMap (fun k => w[4 * k + b]?))

/-- Applies the prefilter to slots in order; seen holds the last original value area of each length. -/
def prefilterSlots (seen : List (Nat × List Byte)) : List (List Byte) → List (List Byte)
  | [] => []
  | sl :: r =>
    prefilterSlot ((seen.find? (fun p => p.1 = sl.length)).map (·.2)) sl ::
      prefilterSlots ((sl.length, sl.drop 0x20) :: seen.filter (fun p => p.1 != sl.length)) r

/-- The serialisation of a sealed exhibit (Table 16.1). -/
def serialise (p : Plan) (x : Exhibit) (pre : Bool) : List Byte :=
  let slots := serialSlots x
  let mb := maskLen p
  let body := slots.flatten
  let len := 0xA0 + mb + body.length
  leBytes 4 0x53455231 ++ leBytes 4 (mb * 65536 + slots.length) ++ leBytes 4 len ++ leBytes 4 (256 + b2n pre) ++
    leBytes 4 p.planId ++ List.replicate 12 0 ++ (headerWords x).flatMap (fun w => leBytes 4 w.toNat) ++
    leBytes mb (x.presMask % 2 ^ (8 * mb)) ++ (if pre then (prefilterSlots [] slots).flatten else body)

/-! ### The seal event (R148, R149, R322) -/

def arcOn (s : State) : Bool := enabled s Reg.arcBase
def arcTarget (s : State) : Nat := regFld s Reg.arcCfg 30 29
def arcStreamOn (s : State) : Bool := arcOn s && regBit s Reg.arcCfg 31

/-- Is an exhibit at its seal event to go up as EXHIBIT SEALED (R322): its CLOSE was sent, and messages can be? -/
def sealsUp (s : State) (x : Exhibit) : Bool :=
  regBit s Reg.hshCfg 19 && hshUpId s != 0 && (smFind s.hsh.up x.index).isSome && hshSends s 2

/-- The next segment of EXHIBIT SEALED (R322). With the last one, or where it can no longer be sent, HSH has finished
reading. -/
def sealUp (s : State) (e : Nat) : State :=
  match getEx s e with
  | none => s
  | some x =>
    if !x.outflow.testBit 1 then s
    else
      let ended := { x with outflow := x.outflow &&& 1 }
      match planAt s x.slot with
      | none => setEx s ended
      | some p =>
        if !hshSends s 2 then setEx s ended
        else
          let b := serialise p x false
          let n := ceilDiv b.length 1400
          let k := x.sealSeg
          let s := setEx s (if n ≤ k + 1 then ended else { x with sealSeg := k + 1 })
          hshSend s 2 1 (hshUpId s) (exhibitTime p.baseRate e) n k x.revision (slice b (1400 * k) 1400)

/-- SEAL_EVENT of exhibit e (R148): every job raised for it has retired. -/
def execSealEvent (e : Nat) (s : State) : Host.Outcome State Fault Refusal :=
  done (
    match getEx s e with
    | none => s
    | some x =>
      match planAt s x.slot with
      | none => s
      | some p =>
        if x.st != .sealing || jobsOf s e (fun _ => true) then s
        else
          let s := revisionDone s e
          match getEx s e with
          | none => s
          | some x =>
            let arc := arcStreamOn s
            let x := { x with st := .sealed, sealTime := s.raw, outflow := b2n arc + 2 * b2n (sealsUp s x), sealSeg := 0 }
            let s := bump (setEx s x) (Reg.vltCnt (if x.sealCause = 1 then 6 else if x.sealCause = 2 then 7 else 8))
            let s := if p.sealTour = 0xFF then s
              else raiseEvent s (makeJob s x.slot p.sealTour 2 0 0xFFFF e
                (x.revision * 2 ^ 24 + x.sealCause * 65536 + exPresent x))
            let s := sealUp s e
            let s := { s with
              vrd := { s.vrd with rev := smErase s.vrd.rev e },
              hsh := { s.hsh with up := smErase s.hsh.up e },
              arc := if arc then { s.arc with waiting := s.arc.waiting ++ [e] } else s.arc }
            reclaimStep (retireScan s))

/-- EXHIBIT_RELEASE (R149): HSH, while it is an outflow consumer of the exhibit, sends its next segment (R322); once every
consumer has finished, the exhibit is released. -/
def execExhibitRelease (e : Nat) (s : State) : Host.Outcome State Fault Refusal :=
  done (
    let s := sealUp s e
    match getEx s e with
    | none => s
    | some x => if x.st = .sealed && x.outflow = 0 then releaseEx s e else s)

/-! ### The archive stream (R483–R487, R495) -/

def arcSlot (s : State) (k : Nat) : ArcSlot := smGet ArcSlot.reset s.arc.slots k
def setArcSlot (s : State) (k : Nat) (x : ArcSlot) : State :=
  { s with arc := { s.arc with slots := smPut ArcSlot.reset s.arc.slots k x } }

/-- ARCHIVE_BLOCK_START (R481, R484): the next sealed exhibit is serialised. -/
def execArchiveBlockStart (s : State) : Host.Outcome State Fault Refusal :=
  done (
    match s.arc.cur, s.arc.waiting with
    | none, e :: rest =>
      match getEx s e with
      | none => { s with arc := { s.arc with waiting := rest } }
      | some x =>
        match planAt s x.slot with
        | none => s
        | some p =>
          if !arcStreamOn s then s
          else
            let first := s.arc.runLeft = 0
            let s := if first then
                setArcSlot s 0 { ArcSlot.reset with op := 1, zlib := regBit s Reg.arcCfg 28 }
              else s
            { s with arc := { s.arc with
              waiting := rest, cur := some e, curReset := first, serial := serialise p x (regBit s Reg.arcCfg 27),
              runLeft := if first then regFld s Reg.arcCfg 15 0 else s.arc.runLeft } }
    | _, _ => s)

/-- The verifier over bits the compressor emits for input, resuming a slot; k bits of the current byte stand before
them. -/
def arcVerify (sl : ArcSlot) (k : Nat) (emit : List Bool) (room : Nat) : InfRes × Inf :=
  let x : Inf :=
    { bits := emit, hist := sl.hist.reverse, st := sl.inf, zlib := sl.zlib, final := sl.final, copy := sl.copy, adler := sl.adler,
      out := [], room := room, inPrev := 0, outPrev := 0, total := emit.length, skew := (8 - (k + emit.length) % 8) % 8,
      guard := none }
  infRun (infFuel x) x

/-- Does a block's payload decompress to the serialisation and end as R484 says? Answers the slot after it. -/
def streamCheck (s : State) (pay : List Byte) (last : Bool) : Bool × ArcSlot :=
  let sl := arcSlot s 0
  let r := arcVerify { sl with bits := [] } 0 (bitsOfBytes pay) (s.arc.serial.length + 1)
  let x := r.2
  let ended : Bool := if last then decide (x.st = .ended) else decide (x.st = .block) && !x.final
  (ended && x.bits.isEmpty && x.out.reverse == s.arc.serial, infSave sl x)

/-- The 32-byte header of a block without its CRC (Table 16.2). -/
def arcHeader (flags revision index inLen outLen seq : Nat) : List Byte :=
  leBytes 4 0x41524B31 ++ leBytes 4 (flags * 256 + revision) ++ leBytes 4 index ++ leBytes 4 (index / 2 ^ 32 % 65536) ++
    leBytes 4 inLen ++ leBytes 4 outLen ++ leBytes 4 seq

def arcRingLen (s : State) : Nat := Nat.max 1 (getReg s Reg.arcRingLen).toNat

/-- Where a block of n bytes starts in the ring, and the bytes skipped before the ring's end (R486). -/
def arcPlace (s : State) (n : Nat) : Nat × Nat :=
  let wp := (getReg s Reg.arcRingWp).toNat
  if wp + n ≤ arcRingLen s then (wp, 0) else (0, arcRingLen s - wp)

/-- Would a block of n bytes pass ARC_RING_RP? A block that would reach it waits too, since a full ring would read as
an empty one (DEDUCED). -/
def arcBlocked (s : State) (n : Nat) : Bool :=
  let len := arcRingLen s
  let wp := (getReg s Reg.arcRingWp).toNat
  let used := (wp + len - (getReg s Reg.arcRingRp).toNat % len) % len
  len ≤ used + n + (arcPlace s n).2

/-- Writes a block into the ring of TARGET 0 or 1, zeros in the space it skips. -/
def arcRingWrite (s : State) (bs : List Byte) : State :=
  let base := getReg64 s (Reg.arcRingBase 0) (Reg.arcRingBase 1)
  let len := arcRingLen s
  let p := arcPlace s bs.length
  let wp := (getReg s Reg.arcRingWp).toNat
  let put (m : SMap Byte) : SMap Byte := ringWrite (ringWrite m base len wp (List.replicate p.2 0)) base len p.1 bs
  let s := if arcTarget s = 1 then { s with host := { s.host with ddr := put s.host.ddr } }
    else { s with host := { s.host with hostMem := put s.host.hostMem } }
  let hit (b : Nat × Nat) : Bool := (b.1 < p.1 + bs.length && p.1 < b.1 + b.2) || (p.2 != 0 && wp ≤ b.1)
  let lost := s.arc.ring.filter hit
  let s := if arcTarget s = 1 then
      bumpBy { s with arc := { s.arc with ring := (s.arc.ring.filter (fun b => !hit b)) ++ [(p.1, bs.length)] } }
        (Reg.arcCnt 3) lost.length
    else s
  let s := setRegN s Reg.arcRingWp ((p.1 + bs.length) % len)
  if arcTarget s = 1 then setRegN s Reg.arcRingOldest (match s.arc.ring with | b :: _ => b.1 | [] => 0) else s

/-- Sends a block upstream as an ARCHIVE message (R486). -/
def arcSendUp (s : State) (x : Exhibit) (br : Nat) (bs : List Byte) : State :=
  let n := ceilDiv bs.length 1400
  (List.range n).foldl (fun s k =>
    hshSend s 4 0 (hshUpId s) (exhibitTime br x.index) n k x.revision (slice bs (1400 * k) 1400)) s

/-- ARCHIVE_BLOCK_COMMIT (R485, R486, R495): pay is the payload the compressor gave; one that the verifier does not find
equal to the input makes the block BAD. -/
def execArchiveBlockCommit (pay : List Byte) (s : State) : Host.Outcome State Fault Refusal :=
  done (
    match s.arc.cur with
    | none => s
    | some e =>
      match getEx s e with
      | none => s
      | some x =>
        let br := match planAt s x.slot with | some p => p.baseRate | none => 1
        let auth := regBit s Reg.arcCfg 26
        let n := 32 + pay.length + (if auth then 16 else 0)
        if (auth && !keyUsable s 4) || (arcTarget s = 0 && !s.host.busMaster) || (arcTarget s < 2 && arcRingLen s < n) then s
        else if arcTarget s = 0 && arcBlocked s n then
          if s.arc.ringWait then s else bump { s with arc := { s.arc with ringWait := true } } (Reg.arcCnt 4)
        else
          let last := s.arc.runLeft = 1
          let chk := streamCheck s pay last
          let bad := !chk.1
          let seq := if s.arc.started then ((getReg s Reg.arcBlockSeq).toNat + 1) % 2 ^ 32 else 0
          let flags := b2n s.arc.curReset + 2 * b2n (regBit s Reg.arcCfg 28) + 4 * b2n (regBit s Reg.arcCfg 27) + 8 * b2n bad +
            16 * b2n last + 32 * b2n auth
          let h := arcHeader flags x.revision e s.arc.serial.length pay.length seq
          let tag := if auth then freeBytes s 16 else []
          let bs := h ++ leBytes 4 (crc32c (h ++ pay ++ tag)) ++ pay ++ tag
          let inLen := s.arc.serial.length
          let s := nextFree s
          let s := if arcTarget s < 2 then arcRingWrite s bs else arcSendUp s x br bs
          let s := setArcSlot s 0 chk.2
          let s := { s with arc := { s.arc with
            cur := none, serial := [], ringWait := false, started := true, runLeft := if bad then 0 else s.arc.runLeft - 1,
            blocks := if s.arc.curReset then 1 else s.arc.blocks + 1 } }
          let s := bump (setRegN s Reg.arcBlockSeq seq) (Reg.arcCnt 0)
          let s := setReg64 s (Reg.arcInBytes 0) (Reg.arcInBytes 1) (getReg64 s (Reg.arcInBytes 0) (Reg.arcInBytes 1) + inLen)
          let s := setReg64 s (Reg.arcOutBytes 0) (Reg.arcOutBytes 1) (getReg64 s (Reg.arcOutBytes 0) (Reg.arcOutBytes 1) + pay.length)
          let s := if bad then logEvent (evt (bump s (Reg.arcCnt 1)) Reg.arcEvents 2) 0x0C40 0xFFFF [] else s
          match getEx s e with
          | some x => setEx s { x with outflow := x.outflow &&& 2 }
          | none => s)

/-! ### Host jobs (R488–R497) -/

def jobW (s : State) (k : Nat) : Word := match s.arc.job[k]? with | some w => w | none => 0#32
def jobOf64 (s : State) (k : Nat) : Nat := (jobW s k).toNat + (jobW s (k + 1)).toNat * 2 ^ 32

/-- A memory range of a space is outside the fitted memory. -/
def arcOutside (s : State) (ddr : Bool) (a n : Nat) : Bool := ddr && ddrFitted s < a + n

/-- The descriptor's check (R490): 0 or the cause. -/
def arcJobCheck (s : State) : Nat :=
  let w := jobW s 0
  let op := fld w 31 28
  let sl := arcSlot s (fld w 25 24)
  let src := (jobW s 3).toNat
  let dst := (jobW s 6).toNat
  let useSrc := op != 3
  let useDst := op != 4
  if op = 0 || 4 < op || fld w 27 26 != 0 || bit w 18 || fld w 15 0 != 0 || jobW s 7 != 0#32 then 0xF1
  else if fld w 25 24 = 0 then 0x05
  else if bit w 23 && (sl.op = 0 || sl.op != op || sl.zlib != bit w 21) then 0x06
  else if (useSrc && (src = 0 || arcOutside s (bit w 17) (jobOf64 s 1) src)) ||
      (useDst && (dst = 0 || arcOutside s (bit w 16) (jobOf64 s 4) dst)) then 0x04
  else if (op = 3 && dst < 36864) || (op = 4 && src < 36864) then 0x04
  else if bit w 20 && op = 2 then 0x08
  else 0

/-- GO by a host port (R488, R490). -/
def arcGo (s : State) (port : Nat) : State :=
  if opRunning s Reg.arcJobOpstat then opRefuseStart s Reg.arcJobOpstat
  else
    let ws := (List.range 8).map (fun k => getReg s (portReg port (0xB0040 + 4 * k)))
    let s := { s with arc := { s.arc with job := ws, jobPort := port } }
    let w := jobW s 0
    let s := { s with arc := { s.arc with jobOp := fld w 31 28, jobSlot := fld w 25 24 } }
    let s := bump (opStart s Reg.arcJobOpstat) (Reg.arcCnt 5)
    let s := setRegN (setRegN (setRegN s Reg.arcJobRes (fld w 25 24)) Reg.arcInDone 0) Reg.arcOutDone 0
    let c := arcJobCheck s
    if c = 0 then s else opEnd s Reg.arcJobOpstat 3 c

/-- OP of the descriptor a port has written. -/
def portJobOp (s : State) (port : Nat) : Nat := regFld s (portReg port 0xB0040) 31 28

/-- ARC_COMPRESS (R488): GO with OP COMPRESS. -/
def execArcCompress (port : Nat) (s : State) : Host.Outcome State Fault Refusal :=
  done (if portJobOp s (port % 2) = 1 then arcGo s (port % 2) else s)

/-- ARC_DECOMPRESS (R488, R496): GO with OP DECOMPRESS. -/
def execArcDecompress (port : Nat) (s : State) : Host.Outcome State Fault Refusal :=
  done (if portJobOp s (port % 2) = 2 then arcGo s (port % 2) else s)

/-- ARC_SAVE (R489): GO with OP SAVE. -/
def execArcSave (port : Nat) (s : State) : Host.Outcome State Fault Refusal :=
  done (if portJobOp s (port % 2) = 3 then arcGo s (port % 2) else s)

/-- ARC_RESTORE (R489): GO with OP RESTORE. -/
def execArcRestore (port : Nat) (s : State) : Host.Outcome State Fault Refusal :=
  done (if portJobOp s (port % 2) = 4 then arcGo s (port % 2) else s)

/-- ARC_JOB_STOP (R24). -/
def execArcJobStop (s : State) : Host.Outcome State Fault Refusal := done (opStop s Reg.arcJobOpstat)

/-- A write of ARC_JOB_CTRL: STOP first, GO last (R621). -/
def arcCtrl (s : State) (port : Nat) (v : Word) : State :=
  let s := if bit v 1 then opStop s Reg.arcJobOpstat else s
  if bit v 0 then arcGo s port else s

/-- The source bytes of the job: LPDDR5X, or what host memory holds. -/
def jobSrc (s : State) (hostBytes : List Byte) (n : Nat) : List Byte :=
  if bit (jobW s 0) 17 then (List.range n).map (fun i => smGet 0#8 s.host.ddr (jobOf64 s 1 + i)) else padTo n hostBytes

/-- Writes output bytes to DST. -/
def jobDst (s : State) (bs : List Byte) : State :=
  let a := jobOf64 s 4
  let put (m : SMap Byte) : SMap Byte := (bs.foldl (fun (x : SMap Byte × Nat) b => (smPut 0#8 x.1 x.2 b, x.2 + 1)) (m, a)).1
  if bit (jobW s 0) 16 then { s with host := { s.host with ddr := put s.host.ddr } }
  else { s with host := { s.host with hostMem := put s.host.hostMem } }

/-- Ends the job DONE with an outcome. -/
def jobDone (s : State) (outcome inDone outDone pend : Nat) : State :=
  let s := opProgress s Reg.arcJobOpstat (Nat.min 65535 (inDone / 1024))
  let s := setRegN s Reg.arcJobRes (outcome * 2 ^ 28 + s.arc.jobSlot)
  let s := setRegN (setRegN (setRegN s Reg.arcInDone inDone) Reg.arcOutDone outDone) Reg.arcPend (pend % 2048)
  evt (opEnd s Reg.arcJobOpstat 2 0) Reg.arcEvents 1

/-- Ends the job FAILED; its slot becomes EMPTY (R489). -/
def jobFailed (s : State) (cause : Nat) (keepSlot : Bool) : State :=
  let s := if keepSlot then s else setArcSlot s s.arc.jobSlot ArcSlot.reset
  evt (opEnd s Reg.arcJobOpstat 3 cause) Reg.arcEvents 1

/-- The slots of a serialisation's bytes after its mask, by LENGTH from the plan: their lengths are not in the stream, so
a host's input is cut by the slots' own length where all are equal. -/
def jobSlots (n : Nat) (b : List Byte) : List (List Byte) :=
  let k := if n = 0 then 0 else b.length / n
  (List.range n).map (fun i => slice b (i * k) k)

/-- Does input consist of whole serialisations (R490)? Answers them. -/
def serialParts : Nat → List Byte → Option (List (List Byte))
  | 0, _ => none
  | _ + 1, [] => some []
  | f + 1, b =>
    let len := le b 8 4
    if le b 0 4 = 0x53455231 && 0xA0 ≤ len && len ≤ b.length then (serialParts f (b.drop len)).map (b.take len :: ·) else none

/-- Applies R482 to one serialisation; the lengths of its slots come from the vault map of a plan slot that holds its
PLAN_ID, else the slots are taken as equal. -/
def prefilterSerial (s : State) (b : List Byte) : List Byte :=
  let mb := le b 6 2
  let n := le b 4 2
  let mask := leNat (slice b 0xA0 mb)
  let loc := le b (0x20 + 0x10) 4 / 65536 % 16
  let accs := bitList (8 * mb) mask ++ (bitList 4 loc).map (0x4000 + ·)
  let plan := ([0, 1].filterMap (planAt s)).find? (fun p => p.planId = le b 0x10 4)
  let body := b.drop (0xA0 + mb)
  let slots := match plan with
    | some p => (accs.foldl (fun (x : List (List Byte) × List Byte) a =>
        let k := match mapSlot p a with | some (_, n) => 64 * n | none => 0
        (x.1 ++ [x.2.take k], x.2.drop k)) ([], body)).1
    | none => jobSlots n body
  let flat := (prefilterSlots [] slots).flatten
  patch (b.take (0xA0 + mb)) 0x0C [BitVec.ofNat 8 (le b 0x0C 1 ||| 1)] ++ flat ++ body.drop flat.length

/-- A compression ends: emit is what the compressor emitted in this job, checked against the input by the verifier
(R483, R492, R494, R495). An emission that no job could end with changes nothing. -/
def compressEnd (s : State) (src : List Byte) (emit : List Bool) : State :=
  let w := jobW s 0
  let k := s.arc.jobSlot
  let fresh := !bit w 23
  let sl := if fresh then { ArcSlot.reset with op := 1, zlib := bit w 21 } else arcSlot s k
  let parts := if bit w 20 then serialParts (src.length + 1) src else some [src]
  match parts with
  | none => jobFailed s 0x08 true
  | some ps =>
    let input := if bit w 20 then ps.flatMap (prefilterSerial s) else src
    let pend := sl.bits
    let r := arcVerify { sl with bits := [] } pend.length emit (input.length + 1)
    let x := r.2
    let out := x.out.reverse
    let badHead := fresh && bit w 21 && 16 ≤ emit.length && bitsVal (emit.take 16) != 0x5E78
    let isErr : Bool := match r.1 with | .err _ => true | _ => false
    let all := pend ++ emit
    let cap := (jobW s 6).toNat
    let final := bit w 22
    let finished := out.length = input.length && (!final || x.st = .ended)
    if badHead then s
    else if isErr || !(input.take out.length == out) then jobFailed s 0x20 false
    else if !x.bits.isEmpty then s
    else
      let sl' := { sl with hist := x.hist.reverse, inf := x.st, final := x.final, copy := x.copy, adler := x.adler,
                           inTotal := sl.inTotal + out.length }
      let bytes := if finished && final then ceilDiv all.length 8 else all.length / 8
      let fits := bytes ≤ cap
      let count (s : State) (n : Nat) : State :=
        setReg64 (setReg64 s (Reg.arcInBytes 0) (Reg.arcInBytes 1) (getReg64 s (Reg.arcInBytes 0) (Reg.arcInBytes 1) + out.length))
          (Reg.arcOutBytes 0) (Reg.arcOutBytes 1) (getReg64 s (Reg.arcOutBytes 0) (Reg.arcOutBytes 1) + n)
      if finished && fits then
        let left := if final then [] else all.drop (8 * bytes)
        let s := jobDst s (bytesOfBits bytes all)
        jobDone (count (setArcSlot s k { sl' with bits := left, outTotal := sl.outTotal + bytes }) bytes) 1 out.length bytes left.length
      else if 8 * cap ≤ all.length && all.length ≤ 8 * cap + 1024 then
        let left := all.drop (8 * cap)
        let s := jobDst s (bytesOfBits cap all)
        jobDone (count (setArcSlot s k { sl' with bits := left, outTotal := sl.outTotal + cap }) cap) 2 out.length cap left.length
      else s

/-- Does the expansion guard apply (R497)? The ladder has completed its enables when it has ended DONE. -/
def guardOn (s : State) : Bool := opState s Reg.pwrStartOpstat != 2 || regBit s Reg.arcCfg 25 || bit (jobW s 0) 19

/-- A decompression ends (R492, R493, R496, R497). -/
def decompressEnd (s : State) (src : List Byte) : State :=
  let w := jobW s 0
  let k := s.arc.jobSlot
  let sl := if bit w 23 then arcSlot s k else { ArcSlot.reset with op := 2, zlib := bit w 21 }
  let x0 := infLoad sl src (jobW s 6).toNat (if guardOn s then some (regFld s Reg.arcGuard 10 0) else none)
  let r := infRun (infFuel x0) x0
  let x := r.2
  let out := x.out.reverse
  let s := jobDst s out
  let spare := Nat.min src.length (x.bits.length / 8)
  let save (inDone keep : Nat) : ArcSlot :=
    { infSave sl x with bits := x.bits.take keep, inTotal := sl.inTotal + inDone }
  let failed (c : Nat) : State :=
    let s := setRegN (setRegN s Reg.arcErrPos (infErrPos x)) Reg.arcOutDone out.length
    let s := evt (bump s (Reg.arcCnt 6)) Reg.arcEvents 4
    let s := if c = 0x1B then logEvent (evt (bump s (Reg.arcCnt 7)) Reg.arcEvents 8) 0x0C41 0xFFFF [] else s
    jobFailed s c false
  let full : State := jobDone (setArcSlot s k (save (src.length - spare) (x.bits.length - 8 * spare))) 2 (src.length - spare) out.length 0
  match r.1 with
  | .err c => failed c
  | .full => full
  | .stop => jobDone (setArcSlot s k (save (src.length - spare) (x.bits.length - 8 * spare))) 1 (src.length - spare) out.length 0
  | _ =>
    if x.room = 0 then full
    else if bit w 22 then failed 0x18
    else jobDone (setArcSlot s k (save src.length x.bits.length)) 3 src.length out.length 0

/-! ### The image of SAVE and RESTORE: a layout only the engine interprets (R489) -/

def infCode (x : InfState) : Nat × Nat × List Nat × List Nat :=
  match x with
  | .header => (0, 0, [], [])
  | .block => (1, 0, [], [])
  | .stored n => (2, n, [], [])
  | .huff l d => (3, 0, l, d)
  | .trailer => (4, 0, [], [])
  | .ended => (5, 0, [], [])

def slotImage (x : ArcSlot) : List Byte :=
  let c := infCode x.inf
  let body := leBytes 4 (x.op + 4 * b2n x.zlib + 8 * b2n x.final + 16 * c.1) ++ leBytes 4 c.2.1 ++ leBytes 4 c.2.2.1.length ++
    leBytes 4 c.2.2.2.length ++ leBytes 4 x.copy.1 ++ leBytes 4 x.copy.2 ++ leBytes 4 x.adler ++ leBytes 8 x.inTotal ++
    leBytes 8 x.outTotal ++ leBytes 4 x.bits.length ++ leBytes 4 x.hist.length ++
    padTo 320 ((c.2.2.1 ++ c.2.2.2).map (BitVec.ofNat 8 ·)) ++ padTo 3000 (bytesOfBits 3000 x.bits) ++ x.hist
  let b := padTo 36860 body
  b ++ leBytes 4 (crc32c b)

def imageSlot (b : List Byte) : ArcSlot :=
  let w := le b 0 4
  let nl := le b 8 4
  let nd := le b 12 4
  let lens := (slice b 52 320).map (·.toNat)
  let inf : InfState :=
    match w / 16 with
    | 0 => .header
    | 1 => .block
    | 2 => .stored (le b 4 4)
    | 3 => .huff (lens.take nl) ((lens.drop nl).take nd)
    | 4 => .trailer
    | _ => .ended
  { op := w % 4, zlib := w / 4 % 2 = 1, final := w / 8 % 2 = 1, inf := inf, copy := (le b 16 4, le b 20 4), adler := le b 24 4,
    inTotal := le b 28 8, outTotal := le b 36 8, bits := (bitsOfBytes (slice b 372 3000)).take (le b 44 4),
    hist := slice b 3372 (Nat.min 32768 (le b 48 4)) }

/-- ARC_JOB_END (R489, R492–R497): the job ends; src is what host memory holds at SRC, emit what the compressor emitted,
busErr a bus-master read that failed (R582). Host memory waits for Bus Master Enable. -/
def execArcJobEnd (src : List Byte) (emit : List Bool) (busErr : Bool) (s : State) : Host.Outcome State Fault Refusal :=
  done (
    let w := jobW s 0
    let op := s.arc.jobOp
    let hostSrc := op != 3 && !bit w 17
    let hostDst := op != 4 && !bit w 16
    if !opRunning s Reg.arcJobOpstat || ((hostSrc || hostDst) && !s.host.busMaster) then s
    else if busErr && hostSrc then jobFailed s 0x04 false
    else
      let n := (jobW s 3).toNat
      match op with
      | 1 => compressEnd s (jobSrc s src n) emit
      | 2 => decompressEnd s (jobSrc s src n)
      | 3 => jobDone (jobDst s (slotImage (arcSlot s s.arc.jobSlot))) 0 0 36864 0
      | _ =>
        let b := jobSrc s src 36864
        if crc32c (b.take 36860) = le b 36860 4 then jobDone (setArcSlot s s.arc.jobSlot (imageSlot b)) 0 36864 0 0
        else jobFailed s 0x07 false)

/-! ### Enable and status -/

/-- The ARC enable check: 0 or the cause. -/
def arcCheck (s : State) : Nat :=
  let len := (getReg s Reg.arcRingLen).toNat
  let base := getReg64 s (Reg.arcRingBase 0) (Reg.arcRingBase 1)
  if arcTarget s < 2 && (len < 65536 || len % 4096 != 0 || base % 4096 != 0 || (arcTarget s = 1 && ddrFitted s < base + len)) then 0x02
  else if regFld s Reg.arcCfg 15 0 = 0 then 0x03
  else 0

/-- ARC is disabled: the stream drops what it was to read, and the archive is no outflow consumer. -/
def arcDisabled (s : State) : State :=
  let s := { s with arc := { s.arc with waiting := [], cur := none, serial := [], runLeft := 0, ringWait := false } }
  { s with vlt := { s.vlt with ex := s.vlt.ex.map (fun x => (x.1, { x.2 with outflow := x.2.outflow &&& 2 })) } }

/-- ARC_STREAM. -/
def arcStreamWord (s : State) : Nat :=
  let wait := s.arc.ringWait || (regBit s Reg.arcCfg 26 && !keyUsable s 4) || (arcTarget s = 0 && !s.host.busMaster)
  s.arc.blocks % 65536 * 65536 +
    (if !arcStreamOn s then 0 else if s.arc.cur.isNone then 1 else if wait then 3 else 2)

end Sys2Proof.Machine
end

