-- ==== Sys2Proof/Machine/Log.lean ====
section
/-! DEFINITION. The logbook ring and the lifetime store (20_logbook.md). -/

namespace Sys2Proof.Machine

/-! ### Records (R560–R566) -/

/-- A record's 64 bytes (Table 20.1). -/
def logBytes (r : LogRec) : List Byte :=
  let b := leBytes 4 r.recnum ++ leBytes 4 r.opSeconds ++ leBytes 4 r.powerCycles ++ leBytes 4 (r.event * 65536 + r.source) ++
    leBytes 8 r.tai ++ padTo 32 r.data ++ leBytes 4 (r.rep * 65536 + b2n r.keep * 512 + b2n r.brace * 256 + 0xA5)
  b ++ leBytes 4 (crc32c b)

def logHead (s : State) : Nat := (s.log.next + 2 ^ 32 - 1) % 2 ^ 32

def logAt (s : State) (n : Nat) : Option LogRec := smFind s.log.ring (n % 65536)

/-- The causes their chapters mark "repeat counted", the job faults of R237 among them. -/
def repeatCounted (code : Nat) : Bool :=
  [0x0445, 0x0543, 0x0641, 0x0744, 0x0840, 0x0841, 0x0843, 0x0942, 0x0943, 0x0D40, 0x0E41, 0x0F40, 0x0F41, 0x1044, 0x1341, 0x1541,
   0x1542].contains code || (0x1201 ≤ code && code ≤ 0x120C)

/-- The newest record, when an event folds into it (R564). -/
def foldTarget (s : State) (e : LogEvent) : Option LogRec :=
  match logAt s (logHead s) with
  | some r =>
    if s.log.foldable && repeatCounted e.event && r.recnum = logHead s && r.event = e.event && r.source = e.source &&
        e.grant ≤ s.log.newestGrant + 1000000 * regFld s Reg.logCfg 15 0 && r.rep < 65535 then some r
    else none
  | none => none

/-- Writes the event at the head of the staging FIFO: a fold or a new record (R562, R564). -/
def logWrite (s : State) (e : LogEvent) : State :=
  match foldTarget s e with
  | some r =>
    bump { s with log := { s.log with
      ring := smSet s.log.ring (r.recnum % 65536) { r with rep := r.rep + 1 }, newestGrant := e.grant } } (Reg.logCnt 1)
  | none =>
    let r : LogRec :=
      { recnum := s.log.next, opSeconds := (getReg s (Reg.logLife 0)).toNat, powerCycles := (getReg s (Reg.logLife 1)).toNat,
        event := e.event, source := e.source, tai := e.tai, data := e.data, rep := 0, keep := e.keep, brace := s.log.brace }
    let s := { s with log := { s.log with
      ring := smSet s.log.ring (r.recnum % 65536) r, next := (r.recnum + 1) % 2 ^ 32, newestGrant := e.grant, foldable := true } }
    evt (bump s (Reg.logCnt 0)) Reg.logEvents 1

/-- The FIFO has room again: lost events are told in record 0x0641 (R563). -/
def logLost (s : State) : State :=
  if s.log.lost = 0 then s
  else
    let d := leBytes 4 s.log.lost ++ leBytes 2 s.log.lostFirst
    logPush { s with log := { s.log with lost := 0, lostFirst := 0 } } 0x0641 0xFFFF d

/-- Takes the entry at the head of the FIFO. -/
def logPop (s : State) : State :=
  match s.log.fifo with
  | [] => s
  | e :: l => logLost (logWrite { s with log := { s.log with fifo := l } } e)

/-- LOG_RECORD_WRITE (R562). -/
def execLogRecordWrite (s : State) : Host.Outcome State Fault Refusal := done (logPop s)

/-- Writes out every entry (R565). -/
def logFlush : Nat → State → State
  | 0, s => s
  | n + 1, s => if s.log.fifo.isEmpty then s else logFlush n (logPop s)

/-! ### Reading (R567) -/

/-- How many records before the next one a number lies. -/
def logAge (s : State) (n : Nat) : Nat := (s.log.next + 2 ^ 32 - n % 2 ^ 32) % 2 ^ 32

/-- A record number lies below LOG_FLOOR. -/
def belowFloor (s : State) (n : Nat) : Bool := logAge s s.log.floor < logAge s n

/-- Status of a cursor: 0 VALID, 1 NOT_YET, 2 GONE, 3 INVALID. -/
def logStatus (s : State) (c : Nat) : Nat :=
  let after := (c + 2 ^ 32 - logHead s) % 2 ^ 32
  if s.log.ring.isEmpty || (1 ≤ after && after ≤ 2 ^ 31) then 1
  else if belowFloor s c || 65536 < logAge s c then 2
  else
    match logAt s c with
    | none => 3
    | some r => if r.recnum = c then 0 else 2

/-- A read of LOG_WINDOW word 0 by a port. -/
def logLatch (s : State) (port : Nat) : Word × State :=
  let c := (getReg s (portReg port Reg.logCursor)).toNat
  let st := logStatus s c
  let b := if st = 0 then (match logAt s c with | some r => logBytes r | none => []) else []
  (BitVec.ofNat 32 (le b 0 4), { s with log := { s.log with window := smSet s.log.window port (st, b) } })

/-- A read of LOG_WINDOW word w from 1: the latched bytes; word 15 after VALID advances the cursor with AUTO_ADVANCE. -/
def logWord (s : State) (port w : Nat) : Word × State :=
  match smFind s.log.window port with
  | none => (0#32, s)
  | some (st, b) =>
    let v := BitVec.ofNat 32 (le b (4 * w) 4)
    if w = 15 && st = 0 && regBit s Reg.logCfg 16 then
      let a := portReg port Reg.logCursor
      (v, setRegN s a ((getReg s a).toNat + 1))
    else (v, s)

/-- LOG_WINDOW_LATCH (R567). -/
def execLogWindowLatch (port : Nat) (s : State) : Host.Outcome State Fault Refusal :=
  done (let x := logLatch s (port % 2); respond x.2 [x.1])

/-- LOG_AUTO_ADVANCE (R567): a read of word 15. -/
def execLogAutoAdvance (port : Nat) (s : State) : Host.Outcome State Fault Refusal :=
  done (let x := logWord s (port % 2) 15; respond x.2 [x.1])

def logWinStatus (s : State) (port : Nat) : Nat := match smFind s.log.window port with | some x => x.1 | none => 0

/-- LOG_OLDEST (R566). -/
def logOldest (s : State) : Nat :=
  if s.log.ring.isEmpty then s.log.next
  else if logAge s s.log.floor ≤ 65536 then s.log.floor
  else (logHead s + 2 ^ 32 - 65535) % 2 ^ 32

/-! ### The lifetime store (R571–R573) -/

/-- Weight of a second at a junction temperature, 8.8 °C (Table 20.2). -/
def wearWeight (s : State) : Nat :=
  let t := toSigned 16 (getReg s Reg.pceTj).toNat
  if t ≤ 85 * 256 then 1 else if t ≤ 105 * 256 then 2 else 8

/-- LOG_WEAR in ppm. -/
def logWear (s : State) : Nat := 1000000 * (getReg s (Reg.logLife 12)).toNat / 788940000

def wearReached (s : State) : Nat := if 1000000 ≤ logWear s then 2 else if 800000 ≤ logWear s then 1 else 0

/-- Each threshold of R573 first reached. -/
def wearEval (s : State) : State :=
  (List.range (wearReached s - s.log.wearSteps)).foldl (fun s _ =>
    logEvent (evt { s with log := { s.log with wearSteps := s.log.wearSteps + 1 } } Reg.logEvents 8) 0x0643 0xFFFF []) s

/-- Counts the seconds of raw time that have passed, and follows the calendar. -/
def lifeTick (s : State) : State :=
  let sec := s.raw / 1000000000
  let n := sec - s.log.lifeAt
  let s := { s with log := { s.log with lifeAt := sec } }
  let s := if n = 0 then s
    else
      let s := lifeBump s 0 n
      let s := if s.pwr.onBackup then lifeBump s 3 n else s
      let s := if 105 * 256 ≤ toSigned 16 (getReg s Reg.pceTj).toNat then lifeBump s 9 n else s
      wearEval (lifeBump s 12 (n * wearWeight s))
  if s.tim.valid && s.pwr.st != .keep then
    let t := taiNow s / 1000000000 % 2 ^ 48
    { s with log := { s.log with firstTai := if s.log.firstTai = 0 then t else s.log.firstTai,
                                 lastTai := Nat.max s.log.lastTai t } }
  else s

/-- What a commit writes. -/
def lifeSlotNow (s : State) (gen : Nat) : LifeSlot :=
  { gen := gen, counters := (List.range 13).map (fun k => (getReg s (Reg.logLife k)).toNat), firstTai := s.log.firstTai,
    lastTai := s.log.lastTai, tjMax := (getReg s Reg.logTjMax).toNat, floor := s.log.floor, pend := s.log.pendFloor }

def lifeGen (o : Option LifeSlot) : Nat := match o with | some x => x.gen | none => 0

/-- The slot a commit writes: the invalid one or the lower generation. -/
def lifePos (s : State) : Nat :=
  match s.log.slot0, s.log.slot1 with
  | none, _ => 0
  | some _, none => 1
  | some a, some b => if a.gen < b.gen then 0 else 1

/-- Has step 4 of the start-up ladder read the store (R571)? Before it there is nothing to commit. -/
def lifeUp (s : State) : Bool :=
  opState s Reg.pwrStartOpstat != 0 && !(opRunning s Reg.pwrStartOpstat && s.pwr.ladder ≤ 4)

/-- A commit (R571). -/
def lifeCommit (s : State) (ok : Bool) : State :=
  if !lifeUp s then s
  else
  let p := lifePos s
  let x := lifeSlotNow s ((Nat.max (lifeGen s.log.slot0) (lifeGen s.log.slot1) + 1) % 2 ^ 32)
  let v := if ok then some x else none
  let s := { s with log := { s.log with slot0 := if p = 0 then v else s.log.slot0, slot1 := if p = 1 then v else s.log.slot1 } }
  if ok then s else logEvent s 0x0642 0xFFFF []

/-- LIFETIME_COMMIT (R571): once in each second of raw time; ok tells whether the readback equals what was written. -/
def execLifetimeCommit (ok : Bool) (s : State) : Host.Outcome State Fault Refusal :=
  done (
    let s := lifeTick s
    if s.log.lifeSec = some (s.raw / 1000000000) then s
    else lifeCommit { s with log := { s.log with lifeSec := some (s.raw / 1000000000) } } ok)

/-- The lifetime store at start-up (R570, R571): the valid slot with the higher generation. -/
def lifeLoad (s : State) : State :=
  let best := match s.log.slot0, s.log.slot1 with
    | none, none => none
    | some a, none => some a
    | none, some b => some b
    | some a, some b => if a.gen < b.gen then some b else some a
  match best with
  | none => logEvent s 0x0642 0xFFFF []
  | some x =>
    let s := (List.range 13).foldl (fun s k => setRegN s (Reg.logLife k) (match x.counters[k]? with | some v => v | none => 0)) s
    let s := setRegN s Reg.logTjMax x.tjMax
    let s := { s with log := { s.log with
      firstTai := x.firstTai, lastTai := x.lastTai, floor := x.floor, pendFloor := x.pend,
      lifeSat := (List.range 13).foldl (fun m k => if x.counters[k]? = some 0xFFFFFFFF then m ||| 2 ^ k else m) 0 } }
    { s with log := { s.log with wearSteps := wearReached s } }

/-! ### Clearing (R569, R570) -/

/-- The pending floor of a LOG_CLEAR message: one above the head, with the message's counter. -/
def logClearPend (s : State) (counter : Nat) : State :=
  lifeCommit { s with log := { s.log with pendFloor := some (s.log.next, counter) } } true

/-- The floor takes a value; the background pass starts. -/
def logFloorTake (s : State) (f : Nat) : State :=
  { s with log := { s.log with floor := f, pendFloor := none, foldable := false, clearPos := some (f % 65536, 65536) } }

/-- The clear takes effect (R569). -/
def logClearApply (s : State) : State :=
  match s.log.pendFloor with
  | none => s
  | some (f, c) =>
    let head := logHead s
    evt (logEvent (logFloorTake s f) 0x0640 0xFFFF (leBytes 4 head ++ leBytes 4 c)) Reg.logEvents 4

/-- At start-up a pending floor takes effect or is discarded by its counter (R570). -/
def logClearRestart (s : State) : State :=
  match s.log.pendFloor with
  | none => s
  | some (f, c) =>
    if c ≤ (getReg s Reg.keyCounter).toNat then logFloorTake s f else { s with log := { s.log with pendFloor := none } }

/-- LOG_CLEAR_PASS (R569): the background pass overwrites 64 positions below the floor. -/
def execLogClearPass (s : State) : Host.Outcome State Fault Refusal :=
  done (
    match s.log.clearPos with
    | none => s
    | some (p, left) =>
      let n := Nat.min 64 left
      let ring := (List.range n).foldl (fun m i =>
        let k := (p + i) % 65536
        match smFind m k with
        | some r => if belowFloor s r.recnum then smErase m k else m
        | none => m) s.log.ring
      { s with log := { s.log with ring := ring, clearPos := if left ≤ 64 then none else some ((p + n) % 65536, left - n) } })

/-- LOG after a reset: the ring stands, the staging FIFO is lost; with no valid record the next takes RECNUM 0 (R566). -/
def logRestart (s : State) : State :=
  { s with log := { LogSt.reset with
    ring := s.log.ring, next := if s.log.ring.isEmpty then 0 else s.log.next, slot0 := s.log.slot0, slot1 := s.log.slot1 } }

/-- LOG_STAT_CLR sets the FIFO's peak to its depth (R622). -/
def logStatClr (s : State) : State := { s with log := { s.log with fifoPeak := s.log.fifo.length } }

/-- LOG_FIFO. -/
def logFifoWord (s : State) : Nat := s.log.fifoPeak * 65536 + s.log.fifo.length

end Sys2Proof.Machine
end

