-- ==== Sys2Proof/Machine/Keys.lean ====
section
/-! DEFINITION. The key block: roots, life cycle, update messages and their commit (17_keys.md). -/

namespace Sys2Proof.Machine

/-! ### Roots and wrapped secrets (R500, R501) -/

def deviceKey : List Byte := secretBytes Config.deviceSecret

/-- The root of the working key in a life-cycle state (Table 17.1). -/
def rootOf (lc epoch : Nat) : List Byte :=
  if lc = 1 then kdf deviceKey (ascii "ROOT-ISSUED") []
  else if lc = 2 then kdf deviceKey (ascii "ROOT-OWNED") (toNats (leBytes 4 epoch))
  else kdf deviceKey (ascii "ROOT-RETURNED") []

def rootIssuer : List Byte := kdf deviceKey (ascii "ROOT-ISSUER") []

/-- The KEK of a slot's state: the owner secret in OWNED, the issuer secret in ISSUED and RETURNED. -/
def kekOf (x : KeySlot) : Option (List Byte) :=
  if x.lc = 2 then kwUnwrap (rootOf 2 x.epoch) x.ownerW
  else if x.lc = 1 || x.lc = 3 then
    (if x.issuerW.isEmpty then some (secretBytes Config.issuerSecret) else kwUnwrap rootIssuer x.issuerW)
  else none

def wkOf (x : KeySlot) : Option (List Byte) :=
  match x.wkW with | some w => kwUnwrap (rootOf x.lc x.epoch) w | none => none

/-! ### The store (R509) -/

/-- The valid select word with the higher generation: generation and slot. -/
def keySelect (s : State) : Option (Nat × Nat) :=
  match s.key.sel0, s.key.sel1 with
  | none, none => none
  | some a, none => some a
  | none, some b => some b
  | some a, some b => if a.1 < b.1 then some b else some a

def keySlotAt (s : State) (k : Nat) : Option KeySlot := if k = 0 then s.key.slot0 else s.key.slot1

/-- Shows a slot's content in the registers. -/
def keyShow (s : State) (gen slot : Nat) (x : KeySlot) : State :=
  let held := s.key.wk.isSome
  let s := setRegN s Reg.keyCounter x.counter
  let s := setRegN s Reg.keyLabel (if held then x.label else 0)
  let s := setRegN s Reg.keyPermit (if held then x.permit else 0)
  let s := setRegN s Reg.keyEpoch x.epoch
  setRegN s Reg.keyGen (gen * 2 + slot)

/-- Step 3 of the start-up ladder (R509): the selected slot is read, its secrets unwrapped while a root is held. -/
def keyLoad (s : State) : State :=
  let bad (s : State) : State :=
    logEvent { s with key := { s.key with lc := 4, storeBad := true, wk := none, kek := none } } 0x0544 0xFFFF []
  match keySelect s with
  | none => bad s
  | some (g, k) =>
    match keySlotAt s k with
    | none => bad s
    | some x =>
      if !x.crcOk then bad s
      else
        let wk := if s.key.rootOk then wkOf x else none
        let kek := if s.key.rootOk then kekOf x else none
        keyShow { s with key := { s.key with lc := x.lc, storeBad := false, wk := wk, kek := kek } } g k x

/-- Regeneration of the device secret (R499): ok tells whether the errors lie within the code's capacity, bits how many
were corrected. -/
def pufRegen (s : State) (ok : Bool) (bits : Nat) : State :=
  let s := bump s (Reg.keyCnt 2)
  if ok && (s.key.helper0 || s.key.helper1) then
    setRegN { s with key := { s.key with rootOk := true, helperCopy := if s.key.helper0 then 0 else 1 } } Reg.keyPuf (bits % 65536)
  else
    logEvent (evt { s with key := { s.key with rootOk := false, wk := none, kek := none } } Reg.keyEvents 0x10) 0x0540 0xFFFF []

/-- KEY_STATE. -/
def keyStateWord (s : State) : Nat :=
  s.key.lc * 256 + b2n s.key.storeBad * 16 + b2n s.key.wk.isSome * 8 + b2n s.key.kek.isSome * 4 + s.key.helperCopy * 2 +
    b2n s.key.rootOk

/-! ### Update tests (R504–R506) -/

/-- The message in a port's buffer. -/
def keyMsgBytes (s : State) (port : Nat) : List Byte :=
  (List.range 24).flatMap (fun w => leBytes 4 (getReg s (portReg port (0x40040 + 4 * w))).toNat)

/-- Is a usage accepted in a state (Table 17.1)? -/
def usageTaken (lc u : Nat) : Bool :=
  match lc with
  | 1 => u = 1 || u = 2 || u = 3 || u = 5
  | 2 => u = 1 || u = 2 || u = 4 || u = 5 || u = 6
  | 3 => u = 1 || u = 2 || u = 3 || u = 5
  | _ => false

/-- The decrypted payload. -/
def keyPayload (kek m : List Byte) : List Byte := gcmCrypt kek (slice m 0x20 12) (slice m 0x30 32)

/-- Tests 1 to 4 (Table 17.3): 0 or the cause. -/
def keyFormat (s : State) (m : List Byte) : Nat :=
  if !enabled s Reg.keyBase then 0x0A
  else if le m 0 4 != 0x4B555044 || le m 7 1 != 1 || le m 0x18 8 != 0 || le m 0x2C 4 != 0 then 0x01
  else if le m 8 8 != Config.uid.toNat then 0x02
  else if le m 6 1 = 0 || 8 ≤ le m 6 1 then 0x04
  else 0

/-- Tests 5 to 9: 0 or the cause. -/
def keyTests (s : State) (m : List Byte) : Nat :=
  let u := le m 6 1
  match s.key.kek with
  | none => 0x06
  | some kek =>
    if !s.key.rootOk || s.key.lc = 0 || s.key.lc = 4 then 0x06
    else if !usageTaken s.key.lc u then 0xF2
    else if le m 0x10 4 ≤ (getReg s Reg.keyCounter).toNat then 0x03
    else if gcmTag kek (slice m 0x20 12) (m.take 32) (slice m 0x30 32) != slice m 0x50 16 then 0x05
    else
      let p := keyPayload kek m
      if u = 1 then (if le m 4 2 = 0 then 0x08 else 0)
      else if u = 3 then 0
      else if p = List.replicate 32 0 then 0 else 0x08

/-- A refusal (R506). -/
def keyRefuse (s : State) (cause : Nat) : State :=
  let s := opEnd (opStart s Reg.keyOpstat) Reg.keyOpstat 3 cause
  logEvent (evt (bump s (Reg.keyCnt 1)) Reg.keyEvents 9) 0x0543 0xFFFF []

/-- The slot in force. -/
def keyCur (s : State) : KeySlot :=
  match keySelect s with
  | some (_, k) => (match keySlotAt s k with | some x => x | none => ⟨0, 0, 0, 0, 0, none, [], [], true⟩)
  | none => ⟨0, 0, 0, 0, 0, none, [], [], true⟩

/-- What an accepted message commits (R502, R506). -/
def keyBuild (s : State) (kek m : List Byte) : KeyUpdate :=
  let u := le m 6 1
  let c := le m 0x10 4
  let p := keyPayload kek m
  let old := keyCur s
  let bare : KeySlot := { old with counter := c, permit := 0, label := 0, wkW := none }
  match u with
  | 1 => { usage := 1, slot := { old with counter := c, permit := le m 4 2, label := le m 0x14 4,
                                           wkW := some (kwWrap (rootOf old.lc old.epoch) p) }, wk := some p }
  | 3 =>
    let e := (old.epoch + 1) % 2 ^ 32
    { usage := 3, slot := { bare with lc := 2, epoch := e, ownerW := kwWrap (rootOf 2 e) p }, wk := none }
  | 4 => { usage := 4, slot := { bare with lc := 3 }, wk := none }
  | 5 => { usage := 5, slot := { bare with lc := 4 }, wk := none }
  | 6 => { usage := 6, slot := { old with counter := c }, wk := s.key.wk }
  | n => { usage := n, slot := bare, wk := none }

/-- SUBMIT by a port (R505–R507, R510, R511): refused, or the commit is in phase 1. -/
def keySubmit (s : State) (port : Nat) : State :=
  if opRunning s Reg.keyOpstat then opRefuseStart s Reg.keyOpstat
  else if s.pwr.warn then keyRefuse s 0x0B
  else
    let m := keyMsgBytes s port
    let c := keyFormat s m
    if c != 0 then keyRefuse s c
    else
      let c := keyTests s m
      if c != 0 then keyRefuse s c
      else
        match s.key.kek with
        | none => s
        | some kek =>
          let u := keyBuild s kek m
          let s := { opProgress (opStart s Reg.keyOpstat) Reg.keyOpstat 1 with key := { s.key with update := some u } }
          if u.usage = 6 then logClearPend s u.slot.counter else s

/-- USAGE of the message a port has written. -/
def portUsage (s : State) (port : Nat) : Nat := le (keyMsgBytes s port) 6 1

/-- KEY_WORKING_KEY (R506): a SUBMIT of a message with USAGE WORKING_KEY. -/
def execKeyWorkingKey (port : Nat) (s : State) : Host.Outcome State Fault Refusal :=
  done (if portUsage s (port % 2) = 1 then keySubmit s (port % 2) else s)

/-- KEY_ERASE (R506). -/
def execKeyErase (port : Nat) (s : State) : Host.Outcome State Fault Refusal :=
  done (if portUsage s (port % 2) = 2 then keySubmit s (port % 2) else s)

/-- KEY_TAKE (R502). -/
def execKeyTake (port : Nat) (s : State) : Host.Outcome State Fault Refusal :=
  done (if portUsage s (port % 2) = 3 then keySubmit s (port % 2) else s)

/-- KEY_RETURN (R502). -/
def execKeyReturn (port : Nat) (s : State) : Host.Outcome State Fault Refusal :=
  done (if portUsage s (port % 2) = 4 then keySubmit s (port % 2) else s)

/-- KEY_VOID (R503). -/
def execKeyVoid (port : Nat) (s : State) : Host.Outcome State Fault Refusal :=
  done (if portUsage s (port % 2) = 5 then keySubmit s (port % 2) else s)

/-- KEY_LOG_CLEAR (R569). -/
def execKeyLogClear (port : Nat) (s : State) : Host.Outcome State Fault Refusal :=
  done (if portUsage s (port % 2) = 6 then keySubmit s (port % 2) else s)

/-- ENROLL (R504): only in BLANK and only from SPI; the payload is the issuer secret in clear. -/
def keyEnroll (s : State) (port : Nat) : State :=
  if opRunning s Reg.keyOpstat then opRefuseStart s Reg.keyOpstat
  else if s.pwr.warn then keyRefuse s 0x0B
  else if s.key.lc != 0 then keyRefuse s 0xF2
  else if port = 0 then keyRefuse s 0x09
  else
    let m := keyMsgBytes s port
    let c := keyFormat s m
    if c != 0 then keyRefuse s c
    else if le m 6 1 != 7 then keyRefuse s 0x04
    else if slice m 0x50 16 != List.replicate 16 0 then keyRefuse s 0x05
    else
      let x : KeySlot := { lc := 1, counter := le m 0x10 4, epoch := 0, permit := 0, label := 0, wkW := none,
                           issuerW := kwWrap rootIssuer (slice m 0x30 32), ownerW := [], crcOk := true }
      { opProgress (opStart s Reg.keyOpstat) Reg.keyOpstat 1 with
        key := { s.key with update := some { usage := 7, slot := x, wk := none } } }

/-- KEY_ENROLL (R504). -/
def execKeyEnroll (port : Nat) (s : State) : Host.Outcome State Fault Refusal := done (keyEnroll s (port % 2))

/-! ### Stop and commit (R507–R511, R515) -/

/-- An update in phase 1 or 2 ends STOPPED with nothing changed. -/
def keyStopped (s : State) : State :=
  evt (opEnd { s with key := { s.key with update := none }, log := { s.log with pendFloor := none } } Reg.keyOpstat 4 0) Reg.keyEvents 1

/-- The phase a running update has reached: 1 to 4, never falling (R507). -/
def keyPhase (s : State) (n : Nat) : State :=
  if opRunning s Reg.keyOpstat then
    opProgress s Reg.keyOpstat (Nat.max (regFld s Reg.keyOpstat 15 0) (Nat.min 4 (Nat.max 1 n)))
  else s

/-- Ends an update in phase 1 or 2; one in phase 3 or 4 completes (R510, section 17.7). -/
def keyHalt (s : State) : State := if regFld s Reg.keyOpstat 15 0 ≤ 2 then keyStopped s else s

/-- STOP of KEY_CMD. -/
def keyStop (s : State) : State := if opRunning s Reg.keyOpstat then keyHalt s else opRefuseStop s Reg.keyOpstat

/-- KEY_STOP (R510, section 17.7) with the phase the update has reached. -/
def execKeyStop (phase : Nat) (s : State) : Host.Outcome State Fault Refusal := done (keyStop (keyPhase s phase))

/-- A write of KEY_CMD: STOP first, SUBMIT last (R621). -/
def keyCmdWrite (s : State) (port : Nat) (v : Word) : State :=
  let s := if bit v 2 then keyStop s else s
  let s := if bit v 1 then keyEnroll s port else s
  if bit v 0 then keySubmit s port else s

/-- Requests for subkeys by the enabled blocks that use them (R514). -/
def subkeyRequests (s : State) : Nat :=
  2 * ((List.range 4).filter (fun p => enabled s (0xE0000 + 0x2000 * p) && regBit s (0xE0030 + 0x2000 * p) 0)).length +
    b2n (enabled s Reg.vrdBase) + b2n (enabled s Reg.accBase) + b2n (enabled s Reg.hshBase) + b2n (enabled s Reg.arcBase)

/-- The working key has changed: MACsec ports get associations of the new key for the next AN (R515). -/
def keyChanged (s : State) (old : Option (List Byte)) : State :=
  let s := bumpBy s (Reg.keyCnt 3) (subkeyRequests s)
  let s := (List.range 4).foldl (fun s p =>
    if regBit s (0xE0030 + 0x2000 * p) 0 then
      let x := getPort s p
      setPort s p { x with rxWk := if s.key.wk.isNone then none else if x.rxWk.isNone then old else x.rxWk,
                           txAdvance := s.key.wk.isSome }
    else s) s
  evt s Reg.keyEvents 2

/-- The helper data copies at a commit: VOID overwrites both with zeros (R503), ENROLL writes both (R504). -/
def helperCommit (usage : Nat) (k : KeySt) : KeySt :=
  if usage = 5 then { k with helper0 := false, helper1 := false }
  else if usage = 7 then { k with helper0 := true, helper1 := true, rootOk := true }
  else k

/-- The select word lands: the update takes effect (R502, R503, R507, R510). -/
def keyCommit (s : State) (u : KeyUpdate) : State :=
  let old := keyCur s
  let oldWk := s.key.wk
  let sel := keySelect s
  let g := (match sel with | some x => x.1 + 1 | none => 1) % 2 ^ 31
  let k := match sel with | some x => 1 - x.2 | none => 0
  let into0 := match s.key.sel0, s.key.sel1 with
    | none, _ => true
    | some _, none => false
    | some a, some b => a.1 < b.1
  let s := { s with key := { s.key with
    slot0 := if k = 0 then some u.slot else s.key.slot0, slot1 := if k = 0 then s.key.slot1 else some u.slot,
    sel0 := if into0 then some (g, k) else s.key.sel0, sel1 := if into0 then s.key.sel1 else some (g, k),
    update := none, lc := u.slot.lc, storeBad := false, wk := u.wk, kek := kekOf u.slot } }
  let s := keyShow s g k u.slot
  let s := lifeBump (logEvent (bump s (Reg.keyCnt 0)) 0x0541 0xFFFF []) 10 1
  let lcMoved := u.slot.lc != old.lc || u.usage = 3 || u.usage = 7
  let s := if lcMoved then
      logEvent (evt s Reg.keyEvents 4) 0x0542 0xFFFF [BitVec.ofNat 8 old.lc, BitVec.ofNat 8 u.slot.lc, 0, 0,
        BitVec.ofNat 8 u.slot.counter, BitVec.ofNat 8 (u.slot.counter / 256), BitVec.ofNat 8 (u.slot.counter / 65536),
        BitVec.ofNat 8 (u.slot.counter / 16777216)]
    else s
  let s := if u.usage = 1 || (oldWk.isSome && u.wk.isNone) then keyChanged s oldWk else s
  let s := { s with key := helperCommit u.usage s.key }
  if u.usage = 6 then logClearApply s else s

/-- KEY_COMMIT_END (R507): ok tells whether the slot reads back as written. -/
def execKeyCommitEnd (ok : Bool) (s : State) : Host.Outcome State Fault Refusal :=
  done (
    match s.key.update, opRunning s Reg.keyOpstat with
    | some u, true =>
      if ok then evt (opEnd (opProgress (keyCommit s u) Reg.keyOpstat 4) Reg.keyOpstat 2 0) Reg.keyEvents 1
      else
        let s := { s with key := { s.key with update := none }, log := { s.log with pendFloor := none } }
        logEvent (evt (opEnd (opProgress s Reg.keyOpstat 2) Reg.keyOpstat 3 0x07) Reg.keyEvents 1) 0x0544 0xFFFF []
    | _, _ => s)

end Sys2Proof.Machine
end

