-- ==== Sys2Proof/Machine/Twin.lean ====
section
/-! DEFINITION. Twin pairs: roles, the replay stream as the standby applies it, and takeover (18_twin.md). -/

namespace Sys2Proof.Machine

def twnOn (s : State) : Bool := enabled s Reg.twnBase
def setTwn (s : State) (x : TwnSt) : State := { s with twn := x }

/-! ### Leaving a role (R517, R522, R530) -/

/-- ISOLATED: TWIN_ROLE low, nothing deferred, held or expected. -/
def twinIsolate (s : State) : State :=
  setTwn s { s.twn with st := .isolated, synced := false, role := false, seqRx := none, deferred := [], deferAt := [],
                        held := [] }

/-- Releases every held exhibit without outflow (R522): their waiting jobs, banks, reductions and revision entries go
with them, held frames leave their ingress queues (R253), VLDs that waited for their close go on (R219), and levels with no
source held back stop being FULL (R258). -/
def twinReleaseAll (s : State) : State :=
  let ports := s.dsp.heldLand.map (·.port)
  let s := (List.range 8).foldl (fun s l => setLevel s l ((level s l).filter (fun j => 3 ≤ j.kind))) s
  let s := { s with dsp := { s.dsp with heldAdd := [], evFifo := [], heldLand := [], localBuf := [] },
                    vrd := { s.vrd with queue := [], rev := [], waitLga := [], pendRaise := [] } }
  let es := s.vlt.ex.map (·.1)
  let s := (List.range 16).foldl (fun s b =>
    let x := getBank s b
    if x.st = .free then s else setBank s b { x with st := .clearing }) s
  let s := es.foldl docResume (es.foldl releaseRaw s)
  slotRetire (ports.foldl heldCells ((List.range 8).foldl levelEval s))

/-- Loss of sync (R522). A standby that is not SYNCED has none to lose; it needs another HELLO exchange. -/
def twinLoseSync (s : State) : State :=
  if s.twn.st = .standby && s.twn.synced then
    let s := bump (evt (twinIsolate s) Reg.twnEvents 4) (Reg.twnCnt 5)
    twinReleaseAll (logEvent s 0x0741 0xFFFF [])
  else setTwn s { s.twn with plansEqual := false }

/-- An ACTIVE device enters ISOLATED (R530). -/
def twinDemote (s : State) : State := logEvent (evt (twinIsolate s) Reg.twnEvents 0x10) 0x0743 0xFFFF []

/-! ### Receiving from the partner (R520–R522, R528) -/

/-- Is a message the partner's, TWN being enabled? -/
def fromPartner (s : State) (m : HMsg) : Bool := twnOn s && m.origin = regFld s Reg.twnPartnerId 15 0

/-- The next SEQ is noted; a gap loses sync (R522). -/
def twinSeq (s : State) (m : HMsg) : State :=
  let gap : Bool := match s.twn.seqRx with | some n => n != m.seq | none => false
  let s := if gap && s.twn.st != .taking then twinLoseSync s else s
  if s.twn.st = .isolated then s else setTwn s { s.twn with seqRx := some ((m.seq + 1) % 2 ^ 32) }

/-- Applies a message of the replay stream in SEQ order (R521); in TAKING those that had arrived by the acceptance, later
ones count LATE_REPLAY (R528). -/
def twinApply (k : Packet) (act : State → State) (m : HMsg) (s : State) : State :=
  let s := hshDelivered s
  if !fromPartner s m then s
  else if s.twn.st = .standby || (s.twn.st = .taking && k.arrival ≤ s.twn.gapStart) then
    let s := twinSeq s m
    if s.twn.st = .isolated then s else act (setRegN (bump s (Reg.twnCnt 1)) Reg.twnSeq m.seq)
  else if s.twn.st = .taking || s.twn.st = .active then bump s (Reg.twnCnt 8)
  else s

/-- Receives a TWIN message of a row; one that fails the tests of R305 loses sync (R522). -/
def twinRx (s : State) (p row : Nat) (auth : Bool) (act : Packet → HMsg → State → State) : State :=
  rxRow s p row (fun k s =>
    let bad : Bool := match hiashOf s k.data with
      | some f => (hshFail s f.payload (hmsgParse f.payload) auth).isSome
      | none => false
    let s := hshReceive s k auth (fun _ m s => act k m s)
    if bad && twnOn s && s.twn.st = .standby then twinLoseSync s else s)

/-! ### The subtypes (Table 18.3) -/

/-- The job of a replayed landing, which the partner has committed (R521): with no room on its level (R245, R251) it
waits in the event FIFO (log entry 33). -/
def replayJob (s : State) (x : Exhibit) (acc rev seq : Nat) : State :=
  let j := makeJob s x.slot (bindTour s acc) 0 rev acc x.index seq
  if levelOpen s j.priority then landJob s x acc rev seq
  else markFull { s with dsp := { s.dsp with evFifo := s.dsp.evFifo ++ [j],
                                             evPeak := Nat.max s.dsp.evPeak (s.dsp.evFifo.length + 1) } } j.priority

/-- LAND: the slot image is written as received (R521). -/
def landReplay (m : HMsg) (s : State) : State :=
  let b := m.body
  let e := le b 0 4 + le b 4 2 * 2 ^ 32
  let img := b.drop 8
  let acc := le img 12 2
  let rev := le img 19 1
  let seq := le img 20 4
  match getEx s e with
  | none => s
  | some x =>
    match planAt s x.slot with
    | none => s
    | some p =>
      match mapSlot p acc with
      | none => s
      | some (o, n) =>
        let pg := newPages x o n
        if s.vlt.general + s.vlt.reserve < pg.length || landed x acc then s
        else
          let s := takePages s pg.length
          let s := landWrite { s with vlt := { s.vlt with landSeq := (seq + 1) % 2 ^ 32 } } x acc rev (padTo (64 * n) img) pg
          let l : Landing := { zeroLanding with acc := acc, index := e,
                                                arrived := selTime8 s (8 * le img 0 8 + le img 18 1 / 4 % 8) }
          let s := lateClass (accLanded s acc) l p.baseRate
          pinEval (checkEarly (replayJob s x acc rev seq) e)

/-- MARK (R521, R522). -/
def markReplay (m : HMsg) (s : State) : State :=
  let e := le m.body 0 8
  let what := le m.body 8 1 % 8
  let cause := le m.body 9 1 % 8
  if what = 0 then
    match getEx s e, governing s e with
    | none, some k =>
      (match planAt s k with
       | none => s
       | some p =>
         if (openLack s (e % p.verdictDiv = 0)).isSome then s
         else
           let s := openExhibit s k p e
           if s.twn.plansEqual && !s.twn.synced && s.twn.st = .standby then
             evt (setReg64 (setTwn s { s.twn with synced := true }) (Reg.twnStart 0) (Reg.twnStart 1) e) Reg.twnEvents 1
           else s)
    | _, _ => s
  else if what = 1 then closeCond s e cause
  else if what = 2 then sealCond s e cause
  else s

/-- JOB of kinds 3–5 (R521): it enters its level, or is held until there is room (R245, log entry 33). -/
def jobReplay (m : HMsg) (s : State) : State :=
  let w := le m.body 0 4
  let arg := le m.body 4 4
  let kind := w / 2 ^ 21 % 8
  let s := if kind = 3 then bump s (Reg.dspTimerFired (arg / 2 ^ 28)) else s
  if 3 ≤ kind && kind ≤ 5 then raiseHiash s (makeJob s (w / 2 ^ 20 % 2) (w / 2 ^ 24) kind 0 0xFFFF 0 arg) else s

/-- An accepted SWAP with start index S (R521, R522). -/
def swapReplay (s : State) (k st : Nat) : State :=
  let id := if k = 0 then s.twn.partnerPlans.1 else s.twn.partnerPlans.2
  match planAt s k with
  | none => twinLoseSync s
  | some p =>
    if (planSlot s k).st = .loaded && p.planId = id then
      let t := swapAccept s k st p false
      let t := if t.pln.firstStart = s.pln.firstStart then t
        else { t with pln := { t.pln with firstStart := some st, firstWaits := false } }
      slotRetire (setPlanSlot t k { planSlot t k with start := st, startFixed := true })
    else twinLoseSync s

/-- CTRL (R521, R522). -/
def ctrlReplay (m : HMsg) (s : State) : State :=
  let op := le m.body 0 1 % 16
  let n := le m.body 4 4
  if op = 1 then
    if recordCrc s n != le m.body 8 4 then twinLoseSync s
    else if (getAcc s n).st = .vacant then accCommit s n else s
  else if op = 2 then (if accIsEnabled (getAcc s n) then pinEval (accRetire s n) else s)
  else if op = 3 then pinClearMask s (n % 65536)
  else if op = 4 then swapReplay s (n % 2) (le m.body 8 8)
  else s

/-- DIGEST (R525): kept and compared for a held exhibit, in every role. -/
def digestReplay (k : Packet) (m : HMsg) (s : State) : State :=
  let e := le m.body 0 8
  let put (s : State) : State := if (getEx s e).isSome then digestPartner s e (le m.body 8 1) (le m.body 12 8) else s
  if s.twn.st = .standby || (s.twn.st = .taking && k.arrival ≤ s.twn.gapStart) then twinApply k put m s
  else
    let s := hshDelivered s
    if fromPartner s m && (s.twn.st = .active || s.twn.st = .taking) then put s else s

/-- HELLO (R522): the partner's UID and PLAN_IDs; the next SEQ it will send. The ACTIVE device answers, and a device that
had not heard its partner. -/
def twinHelloRx (m : HMsg) (s : State) : State :=
  let s := hshDelivered s
  if !fromPartner s m then s
  else
    let b := m.body
    let id0 := le b 12 4
    let id1 := le b 16 4
    let answer := s.twn.st = .active || s.twn.partnerUid.isNone
    let s := if s.twn.st = .standby then twinSeq s m else s
    let s := setTwn s { s.twn with
      partnerUid := some (le b 4 8), partnerPlans := (id0, id1),
      plansEqual := decide (id0 = slotPlanId s 0 ∧ id1 = slotPlanId s 1),
      seqRx := if s.twn.st = .standby then some (le b 20 4) else s.twn.seqRx }
    if answer then twinHelloSend s else s

/-- TAKEN (R530). -/
def takenRx (m : HMsg) (s : State) : State :=
  let s := hshDelivered s
  if fromPartner s m && s.twn.st = .active && s.twn.partnerUid = some (le m.body 0 8) then twinDemote s else s

/-- TWIN_LAND (R521). -/
def execTwinLand (p : Nat) (auth : Bool) (s : State) : Host.Outcome State Fault Refusal :=
  done (twinRx s p 12 auth (fun k m s => twinApply k (landReplay m) m s))

/-- TWIN_MARK (R521, R522). -/
def execTwinMark (p : Nat) (auth : Bool) (s : State) : Host.Outcome State Fault Refusal :=
  done (twinRx s p 13 auth (fun k m s => twinApply k (markReplay m) m s))

/-- TWIN_JOB (R521). -/
def execTwinJob (p : Nat) (auth : Bool) (s : State) : Host.Outcome State Fault Refusal :=
  done (twinRx s p 14 auth (fun k m s => twinApply k (jobReplay m) m s))

/-- TWIN_CTRL (R521, R522). -/
def execTwinCtrl (p : Nat) (auth : Bool) (s : State) : Host.Outcome State Fault Refusal :=
  done (twinRx s p 15 auth (fun k m s => twinApply k (ctrlReplay m) m s))

/-- TWIN_DIGEST (R525). -/
def execTwinDigest (p : Nat) (auth : Bool) (s : State) : Host.Outcome State Fault Refusal :=
  done (twinRx s p 16 auth digestReplay)

/-- TWIN_TAKEN (R530). -/
def execTwinTaken (p : Nat) (auth : Bool) (s : State) : Host.Outcome State Fault Refusal :=
  done (twinRx s p 17 auth (fun _ m s => takenRx m s))

/-- TWIN_HELLO (R522). -/
def execTwinHello (p : Nat) (auth : Bool) (s : State) : Host.Outcome State Fault Refusal :=
  done (twinRx s p 11 auth (fun _ m s => twinHelloRx m s))

/-! ### Takeover (R526–R529) -/

/-- TWIN_TAKE (R526, R527): the input has been at a level for 10 µs; a standby accepts the high level. -/
def execTwinTake (level : Bool) (s : State) : Host.Outcome State Fault Refusal :=
  done (
    let s := setTwn s { s.twn with takeLevel := level }
    if level && s.twn.st = .standby then
      let s := setTwn s { s.twn with st := .taking, takeUnsynced := !s.twn.synced, role := true, gapStart := s.raw,
                                     lineHold := pinStates s, held := [] }
      twinMsg s 6 (leBytes 8 ownUid)
    else s)

/-- Close and seal conditions whose time has passed (R528, second step). -/
def takeConds (s : State) : State :=
  if !s.tim.valid then s
  else (s.vlt.ex.map (·.1)).foldl (fun s e =>
    match getEx s e with
    | none => s
    | some x =>
      match planAt s x.slot with
      | none => s
      | some p =>
        let s := if timeReached s (closingTime p e) then closeCond s e 1 else s
        if timeReached s (sealTimeOf p e) then sealCond s e 1 else s) s

/-- One deferred entry is tested under Table 3.5 (R528, third step). -/
def takeDeferred (s : State) (d : Deferred) : State :=
  let before := s.vlt.landSeq
  let s := match d with
    | .frame k auth sv => admitFrame s k auth sv
    | .estimate l => localLand s l
  bumpBy s (Reg.twnCnt 6) ((s.vlt.landSeq + 2 ^ 32 - before) % 2 ^ 32)

/-- Timer entries go on with the first instant after now; those that passed on the standby fired on its partner. -/
def takeTimers (s : State) : State :=
  match liveSlot s, livePlan s with
  | some _, some p =>
    timersFrom s p (selTime8 s (8 * s.raw) + 1)
  | _, _ => s

/-- TAKEOVER_GAP_END (R528, R529). -/
def execTakeoverGapEnd (s : State) : Host.Outcome State Fault Refusal :=
  done (
    if s.twn.st != .taking || !intakeClosed s then s
    else
      let s := takeConds s
      let ds := s.twn.deferred
      let s := ds.foldl takeDeferred (setTwn s { s.twn with deferred := [], deferAt := [] })
      let us := (s.raw - s.twn.gapStart) / 1000
      let outs := s.twn.held
      let s := setTwn s { s.twn with st := .active, held := [] }
      let s := outs.foldl (fun s o => expressOr s o.port o.express 0x10 o.data) s
      let s := setRegN (takeTimers s) Reg.twnGapUs us
      let s := bump (evt s Reg.twnEvents 8) (Reg.twnCnt 9)
      pinEval (logEvent s 0x0742 0xFFFF (leBytes 4 us ++ leBytes 4 (getReg s Reg.twnSeq).toNat)))

/-- DEFERRED_EXPIRE (R523): in STANDBY entries older than REPLAY_WINDOW are discarded. -/
def execDeferredExpire (s : State) : Host.Outcome State Fault Refusal :=
  done (
    if s.twn.st != .standby then s
    else
      let w := 1000 * regFld s Reg.twnTiming 15 0
      let keep := (s.twn.deferred.zip s.twn.deferAt).filter (fun d => s.raw < d.2 + w)
      let n := s.twn.deferred.length - keep.length
      bumpBy (setTwn s { s.twn with deferred := keep.map (·.1), deferAt := keep.map (·.2) }) (Reg.twnCnt 7) n)

/-! ### TWIN_HB and DEMOTE (R518, R530) -/

/-- Is the device fit (R518)? -/
def twinFit (s : State) : Bool :=
  (s.twn.st = .active && twnOn s && hshEnabled s && enabled s Reg.dspBase && (liveSlot s).isSome && s.tim.valid) ||
    (s.twn.st = .standby && s.twn.synced)

/-- The levels TWIN_HB and TWIN_ROLE drive (Table 22.11). -/
def twinHbLevel (s : State) : Option Bool := bankOut s 0 (some s.twn.hb)
def twinRoleLevel (s : State) : Option Bool := bankOut s 0 (some s.twn.role)

/-- TWIN_HB_TOGGLE (R518). -/
def execTwinHbToggle (s : State) : Host.Outcome State Fault Refusal :=
  done (
    if twinFit s && s.twn.hbAt + 1000 * regFld s Reg.twnTiming 31 16 ≤ s.raw then
      setTwn s { s.twn with hb := !s.twn.hb, hbAt := s.raw }
    else s)

/-- A write of TWN_CTRL. -/
def twnCtrlWrite (s : State) (v : Word) : State :=
  if !bit v 0 then s else if s.twn.st = .active then twinDemote s else refuse s Reg.twnBase 0x0706

/-- DEMOTE (R530). -/
def execDemote (s : State) : Host.Outcome State Fault Refusal := done (twnCtrlWrite s 1#32)

/-! ### Enable and registers (R517, R519) -/

/-- The enable check: 0 or the cause byte. -/
def twnCheck (s : State) : Nat :=
  let r := regFld s Reg.twnCfg 1 0
  let p := regFld s Reg.twnCfg 17 16
  let id := regFld s Reg.twnPartnerId 15 0
  if r = 0 || r = 3 then 0xF1
  else if !ethOn s p || ethMode s p != 1 then 0x02
  else if !hshEnabled s || id = 0 || id = 0xFFFF || id = hshId s then 0x03
  else 0

/-- TWN has been enabled: the role of ROLE_INIT (Table 18.1). -/
def twnEnabledNow (s : State) : State :=
  let act := regFld s Reg.twnCfg 1 0 = 1
  twinHelloSend (setTwn s { TwnSt.reset with st := if act then .active else .standby, takeLevel := s.twn.takeLevel, role := act,
                                             hb := s.twn.hb, hbAt := s.raw })

/-- TWN has been disabled: OFF. -/
def twnDisabled (s : State) : State :=
  setTwn s { TwnSt.reset with takeLevel := s.twn.takeLevel, hb := s.twn.hb, hbAt := s.twn.hbAt }

/-- TWN_STATE as read. When PARTNER_SEEN is set is not stated: it is free (log entry 3). -/
def twnStateRead (s : State) : Word × State :=
  (BitVec.ofNat 32 (b2n s.twn.takeUnsynced * 256 + b2n s.twn.takeLevel * 64 + freeBelow s 2 * 32 + b2n s.twn.synced * 16 +
    twinCode s.twn.st), nextFree s)

end Sys2Proof.Machine
end

