-- ==== Sys2Proof/Machine/PowerOps.lean ====
section
/-! DEFINITION. Supplies, resets and power states: the operations (19_power_and_start.md). -/

namespace Sys2Proof.Machine

def setPwr (s : State) (x : PwrSt) : State := { s with pwr := x }
def pwrEvt (s : State) (mask : Nat) : State := evt s Reg.pwrEvents mask

/-! ### Supplies (R532–R536) -/

/-- V_WARN in mV. -/
def vWarn (s : State) : Nat := regFld s Reg.pwrWarn 13 0

def vmainOk (s : State) : Bool := vWarn s + 400 ≤ s.pwr.vmain
def vbackOk (s : State) : Bool := vWarn s + 400 ≤ s.pwr.vback

/-- The supplies as measured, in mV; the GLD-9610 has no VBACK (R7). A fall of VBACK below V_WARN + 0.4 V counts
VBACK_LOSSES (Table 20.2); the time of good VMAIN runs or restarts (R534). -/
def setSupplies (s : State) (vmain vback vsys : Nat) : State :=
  let vback := if s.part = .gld9610 then 0 else vback
  let was := vbackOk s
  let good := if vWarn s + 800 ≤ vmain then (match s.pwr.mainGood with | some t => some t | none => some s.raw) else none
  let s := setPwr s { s.pwr with vmain := vmain, vback := vback, vsys := vsys, mainGood := good }
  if was && !vbackOk s then lifeBump s 5 1 else s

/-- VSYS is fed from VBACK (R532). -/
def switchToBack (s : State) : State :=
  if s.pwr.onBackup || vmainOk s || !vbackOk s then s
  else
    let s := bump (pwrEvt (setPwr s { s.pwr with onBackup := true }) 1) (Reg.pwrCnt 0)
    logEvent (lifeBump s 4 1) 0x0240 0xFFFF []

/-! ### Dips (R536, R538) -/

/-- The open dip record as record 0x0242, and in PWR_DIP. -/
def dipData (d : Dip) : List Byte :=
  leBytes 8 d.start ++ leBytes 2 d.repeats ++ leBytes 2 0 ++ leBytes 4 (d.total / 1000) ++ leBytes 4 (d.longest / 1000) ++
    leBytes 2 d.lowest

def dipShow (s : State) (d : Dip) : State :=
  setRegN (setRegN (setRegN (setRegN s (Reg.pwrDip 0) d.repeats) (Reg.pwrDip 1) (d.total / 1000)) (Reg.pwrDip 2) (d.longest / 1000))
    (Reg.pwrDip 3) (d.lowest % 65536)

/-- Writes the open dip record; it stays open when keepOpen (log entry 18). -/
def dipWrite (s : State) (keepOpen : Bool) : State :=
  match s.pwr.dip with
  | none => s
  | some d =>
    let s := dipShow s d
    logEvent (setPwr s { s.pwr with dip := if keepOpen then some d else none }) 0x0242 0xFFFF (dipData d)

/-- A warning of a start, an end and a lowest VSYS joins the open dip record, or opens one (R538). -/
def dipAdd (s : State) (start stop low : Nat) : State :=
  let len := stop - start
  let fresh : Dip := { start := start, repeats := 0, total := len, longest := len, lowest := low, lastEnd := stop }
  match s.pwr.dip with
  | some d =>
    if start ≤ d.lastEnd + 100000000 then
      setPwr s { s.pwr with dip := some { d with
        repeats := Nat.min 65535 (d.repeats + 1), total := d.total + len, longest := Nat.max d.longest len,
        lowest := Nat.min d.lowest low, lastEnd := stop } }
    else
      let s := dipWrite s false
      setPwr s { s.pwr with dip := some fresh }
  | none => setPwr s { s.pwr with dip := some fresh }

/-! ### Resets (R539, R616) -/

/-- A record written at the reset itself: the open dip record (R538). -/
def dipAtReset (s : State) : State :=
  match s.pwr.dip with
  | none => s
  | some d =>
    logWrite s { event := 0x0242, source := 0xFFFF, tai := taiLog s, data := padTo 32 (dipData d), grant := s.raw,
                 keep := s.pwr.st == .keep }

/-- A reset with a cause. MRAM contents stay; RAW and the supply switch stay while the keeper island is powered (R381,
R616); an MRAM commit whose last word has not landed never happened. -/
def deviceReset (s : State) (cause : Nat) (keeper : Bool) : State :=
  let s := logRestart (dipAtReset s)
  { State.reset with
    raw := if keeper then s.raw else 0
    part := s.part
    freeCount := s.freeCount
    host := { HostSt.reset with vio := s.host.vio, mram := s.host.mram, hostMem := s.host.hostMem }
    log := { s.log with lifeAt := (if keeper then s.raw else 0) / 1000000000 }
    tim := { TimSt.reset with refSel := s.tim.refSel }
    pwr := { PwrSt.reset with
      vmain := s.pwr.vmain, vback := s.pwr.vback, vsys := s.pwr.vsys, onBackup := keeper && s.pwr.onBackup,
      cause := cause, boot0 := s.pwr.boot0, boot1 := s.pwr.boot1, st := if cause = 2 then .off else .run }
    pln := { PlnSt.reset with sel0 := s.pln.sel0, sel1 := s.pln.sel1, area0 := s.pln.area0, area1 := s.pln.area1 }
    key := { KeySt.reset with
      helper0 := s.key.helper0, helper1 := s.key.helper1, slot0 := s.key.slot0, slot1 := s.key.slot1,
      sel0 := s.key.sel0, sel1 := s.key.sel1 }
    nrg := { NrgSt.reset with rec0 := s.nrg.rec0, rec1 := s.nrg.rec1 }
    cap := { CapSt.reset with anchor := s.cap.anchor, hostTx := s.cap.hostTx }
    afe := { AfeSt.reset with calRec := s.afe.calRec }
    twn := { TwnSt.reset with takeLevel := s.twn.takeLevel }
    pending := s.pending }

/-! ### The keeper estimate and the blockers of KEEP (R545, R548) -/

/-- Banks retained in native mode (R546). -/
def retainMask (s : State) : Nat := getReg64 s (Reg.pwrRetain 0) (Reg.pwrRetain 1)

def compatMode (s : State) : Bool := regBit s Reg.pwrCfg 28

/-- The keeper load of Table 19.5 in 0.1 mA. Above 110 °C the last row is used (log entry 19). -/
def keepEstimate (s : State) : Nat :=
  let t := toSigned 16 (getReg s Reg.pceTj).toNat
  let row : Nat × Nat × Nat :=
    if t ≤ 25 * 256 then (4, 32, 60) else if t ≤ 60 * 256 then (7, 56, 100) else if t ≤ 85 * 256 then (11, 88, 160)
    else (19, 150, 280)
  if compatMode s then 180 + 64 * row.1 + row.2.1 + row.2.2
  else 180 + popCount 64 (retainMask s) * row.1 + (if regBit s Reg.pwrCfg 27 then row.2.1 else 0)

/-- Is a long operation of any block RUNNING? -/
def anyRunning (s : State) : Bool :=
  [Reg.hstDdrOpstat, Reg.pwrStartOpstat, Reg.pwrBootrecOpstat, Reg.pceCalOpstat, Reg.keyOpstat, Reg.plnOpstat,
   Reg.arcJobOpstat, Reg.afeOwOpstat, Reg.afeCalOpstat].any (opRunning s)

/-- PWR_KEEP_BLOCK (Table 19.4). -/
def keepBlock (s : State) : Nat :=
  let b (i : Nat) (c : Bool) : Nat := if c then 2 ^ i else 0
  b 0 (!s.pwr.onBackup && !regBit s Reg.pwrCfg 31) +
  b 1 (planActive s) +
  b 2 (!s.vlt.ex.isEmpty) +
  b 3 (enabled s Reg.nrgBase) +
  b 4 (s.cap.st != .idle) +
  b 5 (s.twn.st != .off) +
  b 6 (arcStreamOn s || opRunning s Reg.arcJobOpstat) +
  b 7 (anyRunning s) +
  b 8 ((List.range 6).any (fun p => ethOn s p && (getPort s p).link)) +
  b 9 (1400 < (getReg s Reg.pwrKeepEst).toNat)

/-- The estimate made before each entry to KEEP (R548). -/
def keepEvaluate (s : State) : State := setRegN s Reg.pwrKeepEst (keepEstimate s)

/-- The code of a state in PWR_STATUS. -/
def pstateCode (x : PState) : Nat := match x with | .run => 0 | .trim => 1 | .nap => 2 | .keep => 3 | .off => 4

/-- PWR_STATUS as read. The read itself wakes a device in NAP (R544). -/
def pwrStatus (s : State) : Nat :=
  let pend : Nat × Nat := match s.pwr.pendReq with
    | none => (0, 0)
    | some .nap => (1, 2)
    | some (.keep _) => (1, 3)
    | some .wake => (1, if regBit s Reg.pwrCfg 29 then 1 else 0)
  let st := if s.pwr.st = .nap then (if regBit s Reg.pwrCfg 29 then 1 else 0) else pstateCode s.pwr.st
  st * 2 ^ 29 + pend.1 * 2 ^ 28 + pend.2 * 2 ^ 25 + b2n s.pwr.warn * 256 + b2n s.pwr.onBackup * 128 + b2n (vmainOk s) * 64 +
    b2n (vbackOk s) * 32 + b2n (keepBlock s = 0) * 16 + b2n s.pwr.dip.isSome * 8

/-! ### States and requests (R540–R553) -/

/-- RUN, or TRIM while TRIM_EN is 1 (section 19.3). -/
def awakeState (s : State) : PState := if regBit s Reg.pwrCfg 29 then .trim else .run

def isAwake (s : State) : Bool := s.pwr.st = .run || s.pwr.st = .trim
def isAsleep (s : State) : Bool := s.pwr.st = .nap || s.pwr.st = .keep

/-- Follows TRIM_EN while awake. -/
def trimFollow (s : State) : State := if isAwake s then paceEdgeEval (setPwr s { s.pwr with st := awakeState s }) else s

/-- The result of a host port's request (R553). -/
def reqResult (s : State) (port code : Nat) : State :=
  if 2 ≤ port then s else setRegN s (portReg port Reg.pwrReqResult) code

/-- A refused KEEP request: 0x0203 while the estimate blocks, else 0x0202 (R548, R553). The controller's own evaluation
is no refusal. -/
def keepRefused (s : State) (port : Nat) : State :=
  if 2 ≤ port then s
  else
    let c := if (keepBlock s).testBit 9 then 0x0203 else 0x0202
    bump (pwrEvt (reqResult (refuse s Reg.pwrBase c) port c) 0x80) (Reg.pwrCnt 6)

/-- Begins a transition. -/
def transTo (s : State) (t : PState) : State := setPwr s { s.pwr with trans := some t }

/-- A request evaluated with no transition in progress. No sleep request is entered while the warning is asserted
(R537). -/
def evalReq (s : State) (r : PReq) : State :=
  match r with
  | .wake => if isAsleep s then transTo s (awakeState s) else s
  | .nap => if s.pwr.warn || !isAwake s then s else transTo s .nap
  | .keep port =>
    if !isAwake s then s
    else
      let s := keepEvaluate s
      if keepBlock s != 0 then keepRefused s port else if s.pwr.warn then s else transTo s .keep

/-- A request (R552): held while a transition runs, a newer one replacing it; a KEEP request that is not allowed is
refused at once and nothing is held. -/
def powerRequest (s : State) (r : PReq) : State :=
  if s.pwr.trans.isNone then evalReq s r
  else
    match r with
    | .keep port =>
      let s := keepEvaluate s
      if keepBlock s != 0 then keepRefused s port
      else if s.pwr.warn then s
      else setPwr s { s.pwr with pendReq := some r }
    | .nap => if s.pwr.warn then s else setPwr s { s.pwr with pendReq := some r }
    | .wake => setPwr s { s.pwr with pendReq := some r }

/-- A wake event (R552): a pending sleep request is cancelled; an entry in progress completes and the wake follows. -/
def wakeEvent (s : State) : State :=
  let s := match s.pwr.pendReq with
    | some .wake => s
    | _ => setPwr s { s.pwr with pendReq := none }
  match s.pwr.trans with
  | some .nap => setPwr s { s.pwr with wakeAfter := true }
  | some .keep => setPwr s { s.pwr with wakeAfter := true }
  | some _ => s
  | none => if isAsleep s then transTo s (awakeState s) else s

/-- All of the banks a to b are retained. -/
def banksKept (m a b : Nat) : Bool := (List.range (b - a + 1)).all (fun i => m.testBit (a + i))
def banksLost (m a b : Nat) : Bool := (List.range (b - a + 1)).all (fun i => !m.testBit (a + i))

/-- The waiting packets of a queue lose their bytes: zeros, or free where only part of the cell pool is retained. -/
def cellsLost (s : State) (all : Bool) (x : Queue) : Queue :=
  let wipe (k : Packet) : Packet :=
    { k with data := if all then List.replicate k.data.length 0 else freeBytes s k.data.length }
  { x with pkts := x.pkts.map wipe }

/-- The cell pool's banks 40 to 47 (R546). -/
def keepCells (s : State) : State :=
  if banksKept (retainMask s) 40 47 then s
  else nextFree { s with que := { s.que with
    q := s.que.q.map (fun x => (x.1, cellsLost s (banksLost (retainMask s) 40 47) x.2)) } }

/-- The capture SRAM's banks 48 to 51. -/
def keepRings (s : State) : State :=
  if banksKept (retainMask s) 48 51 then s else { s with cap := { s.cap with rings := [] } }

/-- The ledger's banks 52 to 55. -/
def keepLedger (s : State) : State :=
  if banksKept (retainMask s) 52 55 then s
  else { s with vrd := { s.vrd with banks := [], rev := [] }, hsh := { s.hsh with up := [] }, arc := { s.arc with slots := [] } }

/-- The docent arrays, retained while PWR_CFG bit 27 is set. -/
def keepDocents (s : State) : State :=
  if regBit s Reg.pwrCfg 27 then s else { s with doc := { s.doc with iram := [], dram := [] } }

/-- A plan slot whose banks a to a + 3 or whose docent arrays are lost is EMPTY. -/
def keepSlot (s : State) (k a : Nat) : State :=
  if banksKept (retainMask s) a (a + 3) && regBit s Reg.pwrCfg 27 then s else setPlanSlot s k PlanSlot.reset

/-- What KEEP does not retain (R546, R547, R551): banks read 0, a plan slot whose store or docent banks are lost is EMPTY,
the ARC history is lost. -/
def keepLose (s : State) : State :=
  let s := { s with arc := { s.arc with runLeft := 0 } }
  if compatMode s then s else keepSlot (keepSlot (keepDocents (keepLedger (keepRings (keepCells s)))) 0 56) 1 60

/-- The rings stop in NAP and KEEP (R57). -/
def ringsStop (s : State) : State := pinEval (setStatusBit { s with pce := { s.pce with stale := true } } 0 false)

/-- Pins in KEEP (R550): PULSE and PPS_OUT deasserted, TRG released. -/
def keepPins (s : State) : State :=
  { s with nrg := { s.nrg with pulses := s.nrg.pulses.map (fun x => (x.1, { x.2 with endAt := none })) }
           tim := { s.tim with ppsOut := false }
           cap := { s.cap with drives := [], driving := [] } }

/-- KEEP is reached: the PCIe link goes to L2 (R551), unretained state is lost. -/
def enterKeep (s : State) : State :=
  let s := keepLose (keepPins (ringsStop s))
  let s := { s with host := { s.host with linkSpeed := 0, linkWidth := 0 } }
  bump (setPwr s { s.pwr with st := .keep, keepBackup := s.pwr.onBackup }) (Reg.pwrCnt 5)

def enterNap (s : State) : State :=
  bump (setPwr (ringsStop s) { s.pwr with st := .nap }) (Reg.pwrCnt 4)

/-- A wake ends. From KEEP it includes the PUF regeneration and the PCIe link's training (R551). -/
def enterAwake (s : State) (pufOk : Bool) (bits speed width : Nat) : State :=
  let was := s.pwr.st
  let s := trimFollow (setPwr s { s.pwr with st := awakeState s })
  if was = .keep then
    let s := bump (pwrEvt s 0x40) (Reg.pwrCnt 7)
    let s := keyLoad (pufRegen s pufOk bits)
    { s with host := { s.host with linkSpeed := speed % 16, linkWidth := width % 16 } }
  else s

/-- What follows the end of a transition (R552). -/
def afterTransition (s : State) : State :=
  if s.pwr.wakeAfter then transTo (setPwr s { s.pwr with wakeAfter := false }) (awakeState s)
  else
    match s.pwr.pendReq with
    | none => s
    | some r => evalReq (setPwr s { s.pwr with pendReq := none }) r

/-- A host access reaches the device (R543, R544): in NAP it wakes the device and is answered after the wake. -/
def hostWake (s : State) : State :=
  if s.pwr.st = .nap then
    let s := wakeEvent s
    afterTransition (enterAwake (setPwr s { s.pwr with trans := none }) true 0 0 0)
  else if s.pwr.trans = some .nap then wakeEvent s
  else s

/-! ### Deadlines (R541, R542) -/

/-- The core is idle (R541). -/
def coreIdle (s : State) : Bool :=
  let jobs := s.dsp.levels.any (fun l => !l.2.isEmpty) || s.doc.d.any (fun d => d.2.s0.isSome || d.2.s1.isSome) ||
    !s.dsp.evFifo.isEmpty || !s.dsp.heldHsh.isEmpty
  let landing := !s.dsp.heldLand.isEmpty || s.dsp.localBuf.any (fun l => !l.2.isEmpty)
  let packets := !s.que.waiting.isEmpty || s.que.q.any (fun x => !isHostQueue s x.1 && (!x.2.pkts.isEmpty || !x.2.txCells.isEmpty))
  let bus := (opRunning s Reg.plnOpstat && s.pln.op = 1 && s.pln.source = 0) || opRunning s Reg.pwrBootrecOpstat ||
    opRunning s Reg.arcJobOpstat || (s.arc.cur.isSome && arcTarget s = 0)
  !jobs && !landing && !packets && !bus

/-- Exhibit, closing and seal times ahead, as TAI ns. -/
def exhibitDeadlines (s : State) : List Nat :=
  let held := s.vlt.ex.flatMap (fun x =>
    match planAt s x.2.slot with
    | some p =>
      (match x.2.st with
       | .opened => [closingTime p x.1]
       | .closed => [sealTimeOf p x.1]
       | _ => [])
    | none => [])
  match liveSlot s with
  | none => held
  | some k =>
    match planAt s k with
    | none => held
    | some p =>
      exhibitTime p.baseRate (Nat.max (planSlot s k).start (indexAtLeast p.baseRate (taiNow s + 1))) ::
        ((List.range p.timers.length).flatMap (fun t => match p.timers[t]? with
          | some x => [1000 * (x.phase + x.period * nextFiring s k t x)]
          | none => []) ++ held)

/-- Reporting instants of the local PMU ahead, as TAI ns. -/
def localDeadlines (s : State) : List Nat :=
  match livePlan s with
  | none => []
  | some p =>
    if !afeOn s then []
    else ((List.range 4).filter (lValid s)).map (fun m =>
      let d := Nat.max 1 (fld (accFmt s (0x4000 + m)) 7 0)
      exhibitTime p.baseRate (ceilDiv (indexAtLeast p.baseRate (taiNow s + 1)) d * d))

/-- Deadlines kept as raw times. -/
def rawDeadlines (s : State) : List Nat :=
  let hello := if hshOnline s then [match s.hsh.helloAt with | some t => t + 1000000 * regFld s Reg.hshHello 15 0 | none => s.raw] else []
  let hb := if twinFit s then [s.twn.hbAt + 1000 * regFld s Reg.twnTiming 31 16] else []
  let goose := s.vrd.tpl.map (fun x => x.2.nextAt)
  let off8 := 8 * toSigned 32 (getReg s Reg.timPpsOutOffset).toNat
  let pps := if regBit s Reg.timPpsCfg 31 && (s.tim.valid || regBit s Reg.timPpsCfg 30) then
      [s.raw + ((8000000000 - (selTime8 s (8 * s.raw) - off8) % 8000000000) / 8).toNat] else []
  let ppsEnd := if s.tim.ppsOut then [s.tim.ppsOutEnd] else []
  let step := if nrgOn s || enabled s Reg.capBase then [(s.raw / 250000 + 1) * 250000] else []
  let next := getReg64 s (Reg.pwrHostNext 0) (Reg.pwrHostNext 1)
  hello ++ hb ++ goose ++ pps ++ ppsEnd ++ step ++ (if next != 0 && s.raw ≤ next then [next] else [])

/-- Δ: ns to the earliest registered deadline; none when no deadline is registered. -/
def nextDelta (s : State) : Option Nat :=
  let tai := if s.tim.valid then (exhibitDeadlines s ++ localDeadlines s).map (fun t => t - taiNow s) else []
  let raw := (rawDeadlines s).map (fun t => t - s.raw)
  (tai ++ raw).foldl (fun m d => match m with | none => some d | some x => some (Nat.min x d)) none

/-! ### Boot records (R557) -/

/-- The selected boot record: the valid slot with the higher generation. -/
def bootSelected (s : State) : Option BootRec :=
  match s.pwr.boot0, s.pwr.boot1 with
  | some a, some b => some (if a.gen < b.gen then b else a)
  | some a, none => some a
  | none, b => b

/-- A boot record of LEN bytes in host memory: generation, count, ENABLE mask, entries of two words, CRC-32C (log entry
20). -/
def bootParse (l : List Byte) : Option BootRec :=
  let n := le l 4 4
  if l.length < 16 || 16384 < l.length || 2044 < n || l.length != 16 + 8 * n then none
  else if crc32c (l.take (12 + 8 * n)) != le l (12 + 8 * n) 4 then none
  else if (List.range n).any (fun i => le l (12 + 8 * i) 4 ≥ 2 ^ 24) then none
  else some { gen := le l 0 4, enables := le l 8 4,
              entries := (List.range n).map (fun i => (le l (12 + 8 * i) 4, BitVec.ofNat 32 (le l (16 + 8 * i) 4))) }

/-- The bytes of a boot slot as the MRAM window shows them. -/
def bootBytes (r : BootRec) : List Byte :=
  let b := leBytes 4 r.gen ++ leBytes 4 r.entries.length ++ leBytes 4 r.enables ++
    r.entries.flatMap (fun e => leBytes 4 e.1 ++ leBytes 4 e.2.toNat)
  padTo 16384 (b ++ leBytes 4 (crc32c b))

/-- Stores a record in the slot that is not selected, with a generation one above the selected one's. -/
def bootStore (s : State) (r : BootRec) (ok : Bool) : State :=
  let g := match bootSelected s with | some x => (x.gen + 1) % 2 ^ 32 | none => 1
  let v := if ok then some { r with gen := g } else none
  let first : Bool := match s.pwr.boot0, s.pwr.boot1 with
    | some a, some b => a.gen < b.gen
    | some _, none => false
    | none, _ => true
  setPwr s (if first then { s.pwr with boot0 := v } else { s.pwr with boot1 := v })

end Sys2Proof.Machine
end

