-- ==== Sys2Proof/Machine/PowerCmds.lean ====
section
/-! DEFINITION. The commands of the power block (19_power_and_start.md). Supply commands carry VMAIN, VBACK and VSYS in
mV as measured at that moment (log entry 2). -/

namespace Sys2Proof.Machine

/-! ### Supplies -/

/-- VMAIN_LOSS (R532): VMAIN has fallen; VSYS is fed from VBACK when VMAIN lies below V_WARN + 0.4 V and VBACK does not. -/
def execVmainLoss (vmain vback vsys : Nat) (s : State) : Host.Outcome State Fault Refusal :=
  done (switchToBack (setSupplies s vmain vback vsys))

/-- VMAIN_RETURN (R534, R551): VMAIN as measured; once it has stayed at or above V_WARN + 0.8 V for RETURN_MS the device
returns to it. -/
def execVmainReturn (vmain vback vsys : Nat) (s : State) : Host.Outcome State Fault Refusal :=
  done (
    let s := setSupplies s vmain vback vsys
    match s.pwr.mainGood with
    | none => s
    | some t =>
      if !s.pwr.onBackup || s.raw < t + 1000000 * regFld s Reg.pwrCfg 13 0 then s
      else
        let s := bump (pwrEvt (setPwr s { s.pwr with onBackup := false }) 2) (Reg.pwrCnt 1)
        let s := logEvent s 0x0241 0xFFFF []
        if s.pwr.st = .keep && s.pwr.keepBackup then wakeEvent s else s)

/-- VBACK_LOSS (R572): VBACK falls below V_WARN + 0.4 V. -/
def execVbackLoss (vback vsys : Nat) (s : State) : Host.Outcome State Fault Refusal :=
  done (setSupplies s s.pwr.vmain vback vsys)

/-- VIO_LOSS (R613): the bank's outputs go to high impedance; nothing inside changes. -/
def execVioLoss (b : Nat) (s : State) : Host.Outcome State Fault Refusal :=
  done { s with host := { s.host with vio := s.host.vio &&& (15 ^^^ 2 ^ (b % 4)) } }

/-- VIO_RETURN (R613): the bank's outputs drive their current internal state. -/
def execVioReturn (b : Nat) (s : State) : Host.Outcome State Fault Refusal :=
  done { s with host := { s.host with vio := s.host.vio ||| 2 ^ (b % 4) } }

/-! ### Warning, brace, dips -/

/-- What the brace starts at the assertion of the warning (Table 19.2): a pending sleep request is dropped, a pending wake
stays; in KEEP it is the logbook flush alone (R551). -/
def braceStart (s : State) : State :=
  let s := { s with log := { s.log with brace := true } }
  let s := setPwr s { s.pwr with brace := true, pendReq := if s.pwr.pendReq = some .wake then some .wake else none }
  if s.pwr.st = .keep then s
  else
    let s := warnCommit s
    let s := if opRunning s Reg.keyOpstat then keyHalt s else s
    capEnd s s.raw 0x10 false false

/-- POWER_WARNING (R536, R537): VSYS has fallen below V_WARN; phase is the phase a running key update has reached. -/
def execPowerWarning (vmain vback vsys phase : Nat) (s : State) : Host.Outcome State Fault Refusal :=
  done (
    let s := setSupplies s vmain vback vsys
    if vWarn s ≤ vsys then s
    else if s.pwr.warn then setPwr s { s.pwr with warnLow := Nat.min s.pwr.warnLow vsys }
    else
      let s := setPwr s { s.pwr with warn := true, warnStart := s.raw, warnLow := vsys }
      braceStart (keyPhase (lifeBump (bump (pwrEvt s 4) (Reg.pwrCnt 2)) 6 1) phase))

/-- BRACE_END (R537, R565): the open dip record and every pending record are written, record 0x0243, the lifetime store is
committed; ok tells whether its readback equals what was written. -/
def execBraceEnd (ok : Bool) (s : State) : Host.Outcome State Fault Refusal :=
  done (
    if !s.pwr.brace then s
    else
      let s := logFlush 128 s
      let s := logFlush 8 (logEvent (pwrEvt (dipWrite s true) 0x20) 0x0243 0xFFFF [])
      let s := if s.pwr.st = .keep then s else lifeCommit (lifeTick s) ok
      let s := logFlush 8 s
      setPwr { s with log := { s.log with brace := false } } { s.pwr with brace := false })

/-- WARNING_END (R536, R538): VSYS has risen above V_WARN + 0.2 V; low is the lowest VSYS of the warning. -/
def execWarningEnd (vmain vback vsys low : Nat) (s : State) : Host.Outcome State Fault Refusal :=
  done (
    let s := setSupplies s vmain vback vsys
    if !s.pwr.warn || vsys ≤ vWarn s + 200 then s
    else
      let s := dipAdd s s.pwr.warnStart s.raw (Nat.min s.pwr.warnLow low)
      bump (pwrEvt (setPwr s { s.pwr with warn := false }) 0x18) (Reg.pwrCnt 3))

/-- DIP_RECORD_WRITE (R538): 100 ms after the end of the last dip. -/
def execDipRecordWrite (s : State) : Host.Outcome State Fault Refusal :=
  done (
    match s.pwr.dip with
    | none => s
    | some d =>
      if s.raw < d.lastEnd + 100000000 || (s.pwr.warn && s.pwr.warnStart ≤ d.lastEnd + 100000000) then s else dipWrite s false)

/-! ### Resets -/

/-- BROWN_OUT (R539): VSYS below 8.4 V; the keeper island is off. -/
def execBrownOut (vmain vback vsys : Nat) (s : State) : Host.Outcome State Fault Refusal :=
  done (if 8400 ≤ vsys then s else deviceReset (setSupplies s vmain vback vsys) 2 false)

/-- THERMAL_RESET (R539): Tj, signed 8.8 °C, has reached 125 °C. -/
def execThermalReset (tj : Nat) (s : State) : Host.Outcome State Fault Refusal :=
  done (if toSigned 16 tj < 125 * 256 || s.pwr.st = .off then s else deviceReset s 4 true)

/-- PWR_CTRL.SOFT_RESET. -/
def softReset (s : State) : State := deviceReset s 5 true

/-- SOFT_RESET (R539). -/
def execSoftReset (s : State) : Host.Outcome State Fault Refusal := done (if s.pwr.st = .off then s else softReset s)

/-- KEEP_OVERCURRENT (R549): the keeper browns out in KEEP; nothing retained survives. -/
def execKeepOvercurrent (s : State) : Host.Outcome State Fault Refusal :=
  done (if s.pwr.st = .keep then deviceReset s 3 false else s)

/-- RESET_N (R616): a low pulse; without VIO_C the pin reads high (R613). -/
def execResetN (s : State) : Host.Outcome State Fault Refusal :=
  done (if s.host.vio.testBit 2 && s.pwr.st != .off then deviceReset s 1 true else s)

/-! ### Power states -/

/-- IDLE_EVALUATION (R541). NAP_EN has no effect at the first evaluation after a PWR_REQ 3 (R553, log entry 21). -/
def execIdleEvaluation (s : State) : Host.Outcome State Fault Refusal :=
  done (
    if !isAwake s || !coreIdle s then s
    else
      let d := nextDelta s
      let us := match d with | some x => Nat.min 0xFFFFFFFF (x / 1000) | none => 0xFFFFFFFF
      let nap := regBit s Reg.pwrCfg 30 && !s.pwr.napOff
      let s := setRegN (setPwr s { s.pwr with napOff := false }) Reg.pwrNextUs us
      let short : Bool := match d with | some x => x < 20000 | none => false
      let mid : Bool := match d with | some x => x ≤ 2000000 | none => false
      let doNap (s : State) : State := if nap then powerRequest s .nap else s
      if short then s
      else if mid then doNap s
      else
        let s := keepEvaluate s
        if keepBlock s = 0 then powerRequest s (.keep 2) else doNap s)

/-- A write of PWR_REQ by a port (R551, R553). In KEEP an SPI write is a wake event. -/
def pwrReqWrite (s : State) (port : Nat) (v : Word) : State :=
  let s := if s.pwr.st = .keep && port = 1 then wakeEvent s else s
  let r := fld v 1 0
  if r = 0 then s
  else
    let s := reqResult s port 0
    if r = 1 then powerRequest s .nap
    else if r = 2 then powerRequest s (.keep port)
    else powerRequest (setPwr s { s.pwr with napOff := true }) .wake

/-- NAP_REQUEST (R553). -/
def execNapRequest (port : Nat) (s : State) : Host.Outcome State Fault Refusal := done (pwrReqWrite (hostWake s) (port % 2) 1#32)

/-- KEEP_REQUEST (R553, R545, R548). -/
def execKeepRequest (port : Nat) (s : State) : Host.Outcome State Fault Refusal := done (pwrReqWrite (hostWake s) (port % 2) 2#32)

/-- WAKE_REQUEST (R553). -/
def execWakeRequest (port : Nat) (s : State) : Host.Outcome State Fault Refusal := done (pwrReqWrite (hostWake s) (port % 2) 3#32)

/-- WAKE_EVENT (R543, R551, R552): kind 0 a start-of-frame delimiter on port p, 1 a host access, 2 a TRG or PPS_IN edge,
3 TWIN_TAKE, each in NAP; 4 PWR_KEEP_WAKE is reached, in KEEP. An entry in progress counts as the state it leads to. -/
def execWakeEvent (kind p : Nat) (s : State) : Host.Outcome State Fault Refusal :=
  done (
    let nap := s.pwr.st = .nap || s.pwr.trans = some .nap
    let keep := s.pwr.st = .keep || s.pwr.trans = some .keep
    let at_ := getReg64 s (Reg.pwrKeepWake 0) (Reg.pwrKeepWake 1)
    if nap && (kind = 1 || kind = 2 || kind = 3 || (kind = 0 && ethOn s p)) then wakeEvent s
    else if keep && kind = 4 && at_ != 0 && at_ ≤ s.raw then wakeEvent s
    else s)

/-- DEADLINE_WAKE (R542): the wake starts 2 µs and the wake time (8 µs from NAP, 600 µs from KEEP) before a deadline. -/
def execDeadlineWake (s : State) : Host.Outcome State Fault Refusal :=
  done (
    let lead := if s.pwr.st = .keep then 602000 else 10000
    match nextDelta s with
    | some d => if isAsleep s && s.pwr.trans.isNone && d ≤ lead then wakeEvent s else s
    | none => s)

/-- POWER_TRANSITION_END (R540, R551, R552): the transition in progress completes. For a wake from KEEP: whether the PUF
regenerated, the bits it corrected, and the PCIe link's speed and width. -/
def execPowerTransitionEnd (pufOk : Bool) (bits speed width : Nat) (s : State) : Host.Outcome State Fault Refusal :=
  done (
    match s.pwr.trans with
    | none => s
    | some t =>
      let s := setPwr s { s.pwr with trans := none }
      let s := match t with
        | .nap => enterNap s
        | .keep => enterKeep s
        | _ => enterAwake s pufOk bits speed width
      afterTransition s)

/-! ### Gated blocks (R554) -/

/-- The address ranges of each bit of PWR_GATE. -/
def gateRanges (i : Nat) : List (Nat × Nat) :=
  if i = 0 then [(0x1C0000, 0x1E0000)] else if i = 1 then [(0x1E0000, 0x1F0000)] else if i = 2 then [(0xC0000, 0xD0000)]
  else if i = 3 then [(0xB0000, 0xC0000)]
  else if 8 ≤ i && i < 14 then [(0xE0000 + 0x2000 * (i - 8), 0xE0000 + 0x2000 * (i - 7))] else []

/-- The pages whose ENABLE forbids a bit. -/
def gatePages (i : Nat) : List Nat :=
  if i = 0 then [0x1C0000, 0x1D0000] else if i = 1 then [0x1E0000] else if i = 2 then [0xC0000] else if i = 3 then [0xB0000]
  else if 8 ≤ i && i < 14 then [0xE0000 + 0x2000 * (i - 8)] else []

/-- Bits of PWR_GATE the part has. -/
def gateBits (s : State) : Nat := if s.part = .gld9610 then 0x0F18 else 0x3F1F

/-- A block without power loses its register contents and what it holds. -/
def gateOff (s : State) (i : Nat) : State :=
  let gone (a : Nat) : Bool := (gateRanges i).any (fun r => r.1 ≤ a % 0x1000000 && a % 0x1000000 < r.2)
  let s := { s with regs := s.regs.filter (fun x => !gone x.1) }
  if i = 0 then { s with afe := { AfeSt.reset with calRec := s.afe.calRec } }
  else if i = 1 then { s with nrg := { NrgSt.reset with rec0 := s.nrg.rec0, rec1 := s.nrg.rec1 } }
  else if i = 2 then { s with cap := { CapSt.reset with anchor := s.cap.anchor, hostTx := s.cap.hostTx } }
  else if i = 3 then { s with arc := ArcSt.reset }
  else if i = 4 then { s with host := { s.host with ddr := [], ddrTrained := false } }
  else if 8 ≤ i then portReset s (i - 8)
  else s

/-- A write of PWR_GATE. -/
def gateWrite (s : State) (v : Word) : State :=
  let want := v.toNat &&& gateBits s
  let old := (getReg s Reg.pwrGate).toNat
  if (bitList 14 want).any (fun i => (gatePages i).any (enabled s)) then refuse s Reg.pwrBase 0x0204
  else (bitList 14 (want &&& (old ^^^ 0x3FFF))).foldl gateOff (setRegN s Reg.pwrGate want)

/-- BLOCK_GATE (R554). -/
def execBlockGate (v : Word) (s : State) : Host.Outcome State Fault Refusal := done (gateWrite (hostWake s) v)

/-! ### Boot records (R557) -/

def bootStart (s : State) : State :=
  if opRunning s Reg.pwrBootrecOpstat then opRefuseStart s Reg.pwrBootrecOpstat else opStart s Reg.pwrBootrecOpstat

/-- ERASE writes an invalid record to both slots. -/
def bootErase (s : State) : State :=
  if opRunning s Reg.pwrBootrecOpstat then opRefuseStart s Reg.pwrBootrecOpstat
  else opEnd (setPwr (opStart s Reg.pwrBootrecOpstat) { s.pwr with boot0 := none, boot1 := none }) Reg.pwrBootrecOpstat 2 0

/-- A write of PWR_BOOTREC_CTRL (R621). -/
def bootCtrl (s : State) (v : Word) : State :=
  let s := if bit v 1 then bootErase s else s
  if bit v 0 then bootStart s else s

/-- BOOTREC_START (R557). -/
def execBootrecStart (s : State) : Host.Outcome State Fault Refusal := done (bootStart (hostWake s))

/-- BOOTREC_ERASE (R557). -/
def execBootrecErase (s : State) : Host.Outcome State Fault Refusal := done (bootErase (hostWake s))

/-- BOOTREC_END (R557, R582): the LEN bytes read from host memory, whether a read failed, whether the slot read back
equal. The copy waits while the device is no bus master. -/
def execBootrecEnd (data : List Byte) (err ok : Bool) (s : State) : Host.Outcome State Fault Refusal :=
  done (
    let len := regFld s Reg.pwrBootrecLen 14 0
    if !opRunning s Reg.pwrBootrecOpstat || !s.host.busMaster then s
    else if err then opEnd s Reg.pwrBootrecOpstat 3 5
    else
      match bootParse (padTo len data) with
      | none => opEnd s Reg.pwrBootrecOpstat 3 5
      | some r =>
        let s := opProgress (bootStore s r ok) Reg.pwrBootrecOpstat (ceilDiv len 1024)
        if ok then opEnd s Reg.pwrBootrecOpstat 2 0 else opEnd s Reg.pwrBootrecOpstat 3 5)

end Sys2Proof.Machine
end

