-- ==== Sys2Proof/Machine/BlockCheck.lean ====
section
/-! DEFINITION. The enable-and-check registers every block carries (section 21.2). -/

namespace Sys2Proof.Machine

/-- The pages that carry BLK_CTRL (R583). -/
def blkPages : List Nat :=
  [0, 0x10000, 0x20000, 0x30000, 0x40000, 0x50000, 0x60000, 0x70000, 0x80000, 0x88000, 0x90000, 0xA0000, 0xA8000, 0xB0000,
   0xC0000, 0xD0000, 0xE0000, 0xE2000, 0xE4000, 0xE6000, 0xE8000, 0xEA000, 0xEC000, 0xF0000, 0x1C0000, 0x1D0000, 0x1E0000]

/-- The port of an ETH page. -/
def ethPage (base : Nat) : Option Nat :=
  if 0xE0000 ≤ base && base < 0xEC000 then some ((base - 0xE0000) / 0x2000) else none

def dspCheck (s : State) : Nat :=
  if 1024 < sumNat ((List.range 8).map (fun l => regFld s (Reg.dspQuota l) 10 0)) then 0x02 else 0

/-- A block's enable check: 0 or the first failing cause (R584). A block whose chapter gives no condition passes. -/
def blkCheck (s : State) (base : Nat) : Nat :=
  match ethPage base with
  | some p => ethCheck s p
  | none =>
    if base = 0x60000 then twnCheck s
    else if base = 0x70000 then vrdCheck s
    else if base = 0x80000 then dspCheck s
    else if base = 0xA8000 then (if (reseed s).1.isSome then 0x02 else 0)
    else if base = 0xB0000 then arcCheck s
    else if base = 0xC0000 then capCheck s
    else if base = 0xEC000 then parserCheck s
    else if base = 0xF0000 then hshCheck s
    else if base = 0x1C0000 then afeCheck s
    else if base = 0x1E0000 then nrgCheck s
    else 0

/-- The subkeys a block asks for at its enable (R514). -/
def blkSubkeys (s : State) (base : Nat) : Nat :=
  match ethPage base with
  | some p => if p < 4 && regBit s (base + 0x30) 0 then 2 else 0
  | none => if base = 0x70000 || base = 0xA8000 || base = 0xB0000 || base = 0xF0000 then 1 else 0

/-- What a block does once it is enabled. -/
def blkEnabledNow (s : State) (base : Nat) : State :=
  let s := if s.key.wk.isSome then bumpBy s (Reg.keyCnt 3) (blkSubkeys s base) else s
  if base = 0x60000 then twnEnabledNow s
  else if base = 0xA8000 then (reseed s).2
  else if base = 0xC0000 then capEnabledNow s
  else if base = 0xF0000 then hshEnabledNow s
  else if base = 0x1C0000 then afeEnabledNow s
  else if base = 0x1E0000 then nrgEnabledNow s
  else s

/-- What a block does once it is disabled. -/
def blkDisabledNow (s : State) (base : Nat) : State :=
  match ethPage base with
  | some p => ethDisabled s p
  | none =>
    if base = 0x30000 then timDisabled s
    else if base = 0x60000 then twnDisabled s
    else if base = 0xB0000 then arcDisabled s
    else if base = 0xC0000 then capDisabled s
    else s

/-- BLK_STATUS.CHECK of a page. -/
def blkChecking (s : State) (base : Nat) : Bool := regFld s (base + 4) 1 0 == 1
def setCheck (s : State) (base n : Nat) : State := setRegFld s (base + 4) 1 0 n

/-- ENABLE 0: the block is disabled at once (R584). -/
def blkOff (s : State) (base : Nat) : State :=
  let was := enabled s base
  let s := setCheck (setReg s base (setBit (getReg s base) 0 false)) base 0
  if was then blkDisabledNow s base else s

/-- A write of BLK_CTRL (R584). One that arrives while the check runs waits. HST has no enable of its own: writes to it are
dropped (section 21.9). -/
def blkCtrlWrite (s : State) (base : Nat) (v : Word) : State :=
  if base = 0 || !blkPages.contains base then s
  else if blkChecking s base then
    { s with host := { s.host with heldCtrl := smSet s.host.heldCtrl base (smGet [] s.host.heldCtrl base ++ [bit v 0]) } }
  else if bit v 0 then (if enabled s base then s else setCheck s base 1)
  else blkOff s base

/-- The check ends (R585): ENABLE 1, or REFUSED with the first failing cause; an internal failure of the check is cause
0xFF, and the block is left disabled (Table 0.7). -/
def blkDecide (s : State) (base : Nat) (internal : Bool) : State :=
  let c := if internal then 0xFF else blkCheck s base
  if c = 0 then blkEnabledNow (setCheck (setReg s base (setBit (getReg s base) 0 true)) base 2) base
  else
    let s := if base = 0xA8000 && c = 2 then (match (reseed s).1 with | some n => setRegN s Reg.accRefuseEntry n | none => s) else s
    refuseC (setCheck s base 3) base c

/-- The check's end and the writes held during it, in order. -/
def blkCheckEnd (s : State) (base : Nat) (internal : Bool) : State :=
  if !blkChecking s base then s
  else
    let held := smGet [] s.host.heldCtrl base
    let s := blkDecide { s with host := { s.host with heldCtrl := smErase s.host.heldCtrl base } } base internal
    held.foldl (fun s b => blkCtrlWrite s base (if b then 1#32 else 0#32)) s

/-- BLOCK_CHECK_END (R585). -/
def execBlockCheckEnd (check : CheckEnd) (s : State) : Host.Outcome State Fault Refusal :=
  done (blkCheckEnd s check.base check.internal)

end Sys2Proof.Machine
end

