-- ==== Sys2Proof/Machine/HostRead.lean ====
section
/-! DEFINITION. Reads of BAR0: the current word of every register, what a read does beside answering (RC fields, pops,
latches), and the per-port latch of multi-word values (R12, R14, R17, R587). -/

namespace Sys2Proof.Machine

def rdN (s : State) (n : Nat) : Word × State := (BitVec.ofNat 32 n, s)

/-- Low words of the values wider than 32 bits, as base, stride and count; the high word is 4 above (R17, log entry 22). -/
def pairLows : List (Nat × Nat × Nat) :=
  [(0x30, 4, 1), (0x38, 4, 1), (0x1002C, 8, 3), (0x100A8, 4, 1), (0x30028, 8, 2), (0x30058, 4, 1), (0x30074, 4, 1),
   (0x30128, 0x80, 2), (0x30154, 0x80, 2), (0x30400, 0x10, 32), (0x50240, 8, 2), (0x60018, 4, 1), (0x60038, 8, 4),
   (0x7002C, 4, 1), (0x70058, 4, 1), (0x70074, 4, 1), (0x88014, 4, 1), (0x8804C, 4, 1), (0x90014, 4, 1),
   (0x90030, 4, 1), (0x90060, 8, 4), (0xA0024, 8, 2), (0xA0044, 4, 1), (0xA0084, 4, 1), (0xA00C0, 0x10, 2),
   (0xA8048, 4, 1), (0xB0018, 4, 1), (0xB0140, 8, 2), (0xC0038, 4, 1)] ++
  [(0xE0014, 0x2000, 6), (0xE0038, 0x2000, 6), (0xE0200, 0x2000, 6), (0xE0208, 0x2000, 6),
   (0xE0060, 8, 16), (0xE2060, 8, 16), (0xE4060, 8, 16), (0xE6060, 8, 16), (0xE8060, 8, 16), (0xEA060, 8, 16),
   (0xF0018, 4, 1), (0xF0040, 4, 1), (0xF0090, 8, 2), (0xF00A8, 4, 1), (0xF00B4, 4, 1),
   (0x180018, 0x1000, 64), (0x180038, 0x1000, 64), (0x18006C, 0x1000, 64), (0x180088, 0x1000, 64),
   (0x1E003C, 4, 1), (0x1E0048, 4, 1)] ++
  [(0x1E1600, 8, 7), (0x1E1640, 8, 7), (0x1E1680, 8, 7), (0x1E16C0, 8, 7),
   (0x1E1E00, 8, 7), (0x1E1E40, 8, 7), (0x1E1E80, 8, 7), (0x1E1EC0, 8, 7)] ++
  [(0x9000, 4, 1), (0xC0070, 8, 4), (0x1E1208, 4, 1), (0x1E1228, 16, 32), (0x1E1A08, 4, 1), (0x1E1A28, 16, 32)]

def isPairLow (a : Nat) : Bool := pairLows.any (fun r => inArr a r.1 r.2.1 r.2.2)

/-- The words a read of a low word latches together: PPS_CAP and ACC_LAST_DISCARD latch two (R587). -/
def highsOf (a : Nat) : List Nat :=
  if !isPairLow a then [] else if a = 0x30058 || a = 0xA8048 then [a + 4, a + 8] else [a + 4]

/-- The low word that names the value a high word belongs to. DOC_DRAM_DATA_HI is latched by the window's own read
(R239). -/
def lowOf (a : Nat) : Option Nat :=
  if a < 8 then none
  else if isPairLow (a - 4) || inArr a 0x1800C8 0x1000 64 then some (a - 4)
  else if a = 0x30060 || a = 0xA8050 then some (a - 8)
  else none

/-! ### Current words, block by block -/

/-- HST (section 21.9); the identity words follow the part (R5). -/
def curHst (s : State) (a : Nat) : Word × State :=
  let big : Bool := s.part = .gld9600
  if a = Reg.hstId then rdN s (if big then 0x96000000 else 0x96100000)
  else if a = Reg.hstRev then rdN s (if big then 0x00010101 else 0x00010001)
  else if a = Reg.hstPresent then rdN s (if big then 0x3F3FFFFE else 0x0F07DFFE)
  else if a = Reg.hstPciId then rdN s (if big then 0x96001D7C else 0x96101D7C)
  else if a = Reg.hstStatus then
    rdN s (if s.host.linkSpeed = 0 then 0
      else b2n s.host.msixEn * 512 + b2n s.host.busMaster * 256 + s.host.linkWidth * 16 + s.host.linkSpeed)
  else if a = Reg.hstPending 0 then rdN s (pendingSources s)
  else if a = Reg.hstPending 1 then rdN s (pendingSources s / 2 ^ 32)
  else if a = Reg.hstMsixPba 0 then rdN s s.host.msixPba
  else if a = Reg.hstMsixPba 1 then rdN s (s.host.msixPba / 2 ^ 32)
  else (getReg s a, s)

/-- PWR (section 19.9). -/
def curPwr (s : State) (port a : Nat) : Word × State :=
  if a = Reg.pwrStatus then rdN s (pwrStatus s)
  else if a = Reg.pwrKeepBlock then rdN s (keepBlock s)
  else if a = Reg.pwrVmain then rdN s s.pwr.vmain
  else if a = Reg.pwrVback then rdN s s.pwr.vback
  else if a = Reg.pwrVsys then rdN s s.pwr.vsys
  else if a = Reg.pwrReqResult then (getReg s (portReg port a), s)
  else if a = Reg.pwrBootrecGen then rdN s (match bootSelected s with | some r => r.gen | none => 0)
  else (getReg s a, s)

/-- PCE: the seconds of PACE_SHORT are counted up to the read (R68). -/
def curPce (s : State) (a : Nat) : Word × State :=
  if a = Reg.pceShortSeconds then let s := shortTick s; (getReg s a, s) else (getReg s a, s)

/-- A domain page (R385, section 12.10): a word at 0x0C to 0x24 is the port's latched one once there is a latch. -/
def curDom (s : State) (port d o a : Nat) : Word × State :=
  let x := domOf s d
  if o = 0x04 then rdN s (b2n x.sourceJump * 256 + domStateCode x.st)
  else if o = 0x08 then domSetLatch s port d
  else if 0x0C ≤ o && o ≤ 0x24 then
    let ws := match smFind s.tim.domLatch (port * 2 + d) with | some ws => ws | none => (domWords x).drop 1
    (match ws[(o - 0x0C) / 4]? with | some w => w | none => 0#32, s)
  else if 0x28 ≤ o && o < 0x38 then (getReg s (portReg port a), s)
  else if o = 0x38 || o = 0x40 then (getReg s (portReg port a), s)
  else if o = 0x4C then rdN s (errEst s d)
  else if o = 0x50 then rdN s (ageMs s d)
  else if o = 0x54 then rdN s (domNow8 s d / 8).toNat
  else if o = 0x58 then rdN s ((domNow8 s d / 8).toNat / 2 ^ 32)
  else (getReg s a, s)

/-- A transmit timestamp queue (R405, R406). -/
def curTxts (s : State) (port p o a : Nat) : Word × State :=
  let l : Option TxStamp := smGet none s.tim.txtsLatch (port * 8 + p)
  let raw := match l with | some t => t.raw | none => 0
  if o = 0 then txtsPop s port p
  else if o = 4 then rdN s raw
  else if o = 8 then rdN s (raw / 2 ^ 32)
  else if o = 0xC then rdN s (match l with | some t => t.sub | none => 0)
  else if o = 0x10 then (setFld (getReg s a) 4 0 (smGet [] s.tim.txts p).length, s)
  else (getReg s a, s)

/-- TIM (section 12.10). -/
def curTim (s : State) (port a : Nat) : Word × State :=
  let o := a - 0x30000
  if o = 0x14 then rdN s (timStatus s)
  else if o = 0x28 then rdN s s.raw
  else if o = 0x2C then rdN s (s.raw / 2 ^ 32)
  else if o = 0x30 then rdN s (taiNow s)
  else if o = 0x34 then rdN s (taiNow s / 2 ^ 32)
  else if o = 0x3C then rdN s (timQuality s)
  else if o = 0x40 then rdN s (errEst s s.tim.sel)
  else if o = 0x44 then
    (if s.tim.domA.st = .free || s.tim.domB.st = .free then 0x80000000#32 else getReg s a, s)
  else if 0x100 ≤ o && o < 0x200 then curDom s port ((o - 0x100) / 0x80) (o % 0x80) a
  else if 0x800 ≤ o && o < 0x8C0 then curTxts s port ((o - 0x800) / 0x20) (o % 0x20) a
  else (getReg s a, s)

/-- KEY (section 17.7): message words read 0. -/
def curKey (s : State) (a : Nat) : Word × State :=
  if a = Reg.keyState then rdN s (keyStateWord s)
  else if 0x40040 ≤ a && a < 0x400A4 then rdN s 0
  else (getReg s a, s)

/-- LOG (section 20.5): word 0 of the window latches; the lifetime counters count
and the calendar follows up to the read. -/
def curLog (s : State) (port a : Nat) : Word × State :=
  let o := a - 0x50000
  if o = 0x14 then rdN s (logHead s)
  else if o = 0x18 then rdN s (logOldest s)
  else if o = 0x1C then rdN s s.log.floor
  else if o = 0x20 then (getReg s (portReg port a), s)
  else if o = 0x24 then rdN s (logWinStatus s port)
  else if o = 0x28 then rdN s (logFifoWord s)
  else if o = 0x38 then let s := lifeTick s; rdN s (logWear s)
  else if o = 0x40 then logLatch s port
  else if 0x40 ≤ o && o < 0x80 then logWord s port ((o - 0x40) / 4)
  else if 0x200 ≤ o && o < 0x234 then let s := lifeTick s; (getReg s a, s)
  else if 0x240 ≤ o && o < 0x250 then
    let s := lifeTick s
    let t := if o < 0x248 then s.log.firstTai else s.log.lastTai
    rdN s (if o % 8 = 0 then t else t / 2 ^ 32)
  else (getReg s a, s)

/-- The verdict line VRD_LINE_SEL selects, and whether the slot's plan has it. -/
def selLine (s : State) : LineState := getLine s (regFld s Reg.vrdLineSel 16 16) (regFld s Reg.vrdLineSel 11 0)

def selLineValid (s : State) : Bool :=
  match planAt s (regFld s Reg.vrdLineSel 16 16) with
  | some p => regFld s Reg.vrdLineSel 11 0 < p.lines.length
  | none => false

/-- VRD (section 8.10). -/
def curVrd (s : State) (a : Nat) : Word × State :=
  let o := a - 0x70000
  let line := selLine s
  let cell := (cellOf (getBank s (regFld s Reg.vrdCellSel 19 16)).cells (regFld s Reg.vrdCellSel 11 0)).toNat
  let t := regFld s Reg.vrdTplSel 7 0
  let tpl := smGet TplState.reset s.vrd.tpl t
  if o = 0x18 then rdN s (alarmLines s * 65536 + pinsShown s)
  else if o = 0x24 then rdN s (s.vrd.tourSrc * 65536 + s.vrd.verdictSrc)
  else if o = 0x28 then rdN s (vrdBanksWord s)
  else if o = 0x48 then
    (match livePlan s with
     | some p => rdN s (p.lines.length * 65536 + reduceCost p)
     | none => rdN s 0)
  else if o = 0x54 then
    rdN s (if selLineValid s then
        2 ^ 31 + b2n line.active * 2 ^ 30 + b2n line.inst * 2 ^ 29 + b2n line.unknown * 2 ^ 28 + line.history
      else 0)
  else if o = 0x58 then rdN s line.value
  else if o = 0x5C then rdN s (line.value / 2 ^ 32)
  else if o = 0x60 then rdN s line.changes
  else if o = 0x74 then rdN s cell
  else if o = 0x78 then rdN s (cell / 2 ^ 32)
  else if o = 0x84 then rdN s tpl.stNum
  else if o = 0x88 then
    (match (livePlan s).bind (fun p => templateOf p t) with
     | some x => rdN s (if x.kind = 1 then tpl.spdu else tpl.sqNum)
     | none => rdN s tpl.sqNum)
  else (getReg s a, s)

/-- Jobs that run: the active local slot's job, when it waits for nothing. -/
def docRuns (x : Docent) : Bool := ctxRuns (slotCtx x x.active)

def docHolds (x : Docent) : Nat := b2n x.s0.isSome + b2n x.s1.isSome

/-- DSP (section 7.9). -/
def curDsp (s : State) (port a : Nat) : Word × State :=
  let o := a - 0x80000
  let ds := (List.range 64).map (docentOf s)
  let running := sumNat (ds.map (fun x => b2n (docRuns x)))
  if 0x30 ≤ o && o < 0x50 then
    let l := (o - 0x30) / 4
    rdN s (smGet 0 s.dsp.peaks l * 65536 + b2n (levelFull s l) * 2 ^ 15 + levelDepth s l)
  else if o = 0x50 then rdN s ((sumNat (ds.map docHolds) - running) * 256 + running)
  else if o = 0x54 then rdN s (s.dsp.evPeak * 65536 + s.dsp.evFifo.length)
  else if o = 0x60 then rdN s (sumNat ((List.range 8).map (fun l => b2n (levelFull s l) * 2 ^ l)))
  else if o = 0x70 || o = 0x78 then (getReg s (portReg port a), s)
  else if 0x140 ≤ o && o < 0x160 then let s := holdTick s ((o - 0x140) / 4); (getReg s a, s)
  else (getReg s a, s)

def ctxFences (c : Option JobCtx) : Bool := match c with | some c => c.wait = .fence | none => false

/-- DOC_STATE.STATE: 3 the active slot's job waits at a fence, 1 a job runs, 2 every held job waits. -/
def docStateCode (x : Docent) : Nat :=
  if x.s0.isNone && x.s1.isNone then 0
  else if ctxFences (slotCtx x x.active) then 3
  else if docRuns x then 1
  else 2

/-- A word of DOC_SLOT. -/
def docSlotWord (s : State) (c : Option JobCtx) (k : Nat) : Nat :=
  match c with
  | none => 0
  | some c =>
    if k = 0 then jobWord0 c.job
    else if k = 1 then c.job.acc
    else if k = 2 then c.job.index
    else if k = 3 then c.job.index / 2 ^ 32 % 65536
    else if k = 4 then c.pc
    else if k = 5 then c.steps % 2 ^ 24
    else if k = 6 then stepBudget s c.job
    else 0

/-- DOC: the control page and the docent pages (section 6.12). -/
def curDoc (s : State) (port a : Nat) : Word × State :=
  if a < 0x180000 then
    (if a = Reg.docBusy 0 then
      rdN s (sumNat ((List.range 32).map (fun d => b2n (docHolds (docentOf s d) != 0) * 2 ^ d)))
     else if a = Reg.docBusy 1 then
      rdN s (sumNat ((List.range 32).map (fun d => b2n (docHolds (docentOf s (d + 32)) != 0) * 2 ^ d)))
     else (getReg s a, s))
  else
    let d := (a - 0x180000) / 0x1000
    let o := a % 0x1000
    let x := docentOf s d
    if o = 0 then
      rdN s (b2n x.s1.isSome * 64 + b2n x.s0.isSome * 32 + x.active * 16 + docStateCode x)
    else if 0x10 ≤ o && o < 0x2C then rdN s (docSlotWord s x.s0 ((o - 0x10) / 4))
    else if 0x30 ≤ o && o < 0x4C then rdN s (docSlotWord s x.s1 ((o - 0x30) / 4))
    else if o = 0x88 then rdN s x.steps
    else if o = 0x8C then rdN s (x.steps / 2 ^ 32)
    else if o = 0xC4 then dramWinRead s port d 0
    else if o = 0xD4 then iramWinRead s d 0
    else (getReg s a, s)

/-- The start and end index a slot shows: those of a LIVE or RETIRING plan. -/
def slotStart (x : PlanSlot) : Nat := if x.st = .live || x.st = .retiring then x.start else 0
def slotEnd (x : PlanSlot) : Nat := if x.st = .retiring then x.stop else 0

/-- PLN (section 5.10). -/
def curPln (s : State) (a : Nat) : Word × State :=
  let o := a - 0x90000
  if o = 0x2C then rdN s (plnSlotState s)
  else if o = 0x54 then rdN s (slotPlanId s 0)
  else if o = 0x58 then rdN s (slotPlanId s 1)
  else if o = 0x60 then rdN s (slotStart s.pln.s0)
  else if o = 0x64 then rdN s (slotStart s.pln.s0 / 2 ^ 32)
  else if o = 0x68 then rdN s (slotEnd s.pln.s0)
  else if o = 0x6C then rdN s (slotEnd s.pln.s0 / 2 ^ 32)
  else if o = 0x70 then rdN s (slotStart s.pln.s1)
  else if o = 0x74 then rdN s (slotStart s.pln.s1 / 2 ^ 32)
  else if o = 0x78 then rdN s (slotEnd s.pln.s1)
  else if o = 0x7C then rdN s (slotEnd s.pln.s1 / 2 ^ 32)
  else (getReg s a, s)

/-- The first index from e that is neither released nor lapsed, in at most n runs of such indices. -/
def floorWalk (s : State) : Nat → Nat → Nat
  | 0, e => e
  | n + 1, e =>
    if (getEx s e).isSome then e
    else match (pastRanges s).find? (inRange · e) with
      | some r => floorWalk s n (s.vlt.ex.foldl (fun m x => if e ≤ x.1 then Nat.min m x.1 else m) r.2)
      | none => if (smFind s.vlt.gone e).isSome then floorWalk s n (e + 1) else e

/-- VLT_FLOOR (R150): the highest index such that it and every lower one is released, lapsed or below the start of the
first plan that went LIVE. -/
def vltFloor (s : State) : Nat :=
  match s.pln.firstStart with
  | none => 0
  | some a => floorWalk s (s.vlt.gone.length + (pastRanges s).length + 1) a - 1

/-- VLT (section 4.11). -/
def curVlt (s : State) (a : Nat) : Word × State :=
  let o := a - 0xA0000
  let v := (o - 0xC0) / 0x10
  let newest := match s.vlt.newest with | some n => n | none => 0
  if o = 0x14 then
    rdN s (b2n (256 ≤ s.vlt.ex.length) * 16 + b2n (s.vlt.reserve = 0) * 8 + b2n (s.vlt.reserve < 128) * 4 +
      b2n (s.vlt.general = 0) * 2 + b2n s.vlt.reclaim)
  else if o = 0x18 then rdN s (s.vlt.reserve * 65536 + s.vlt.general)
  else if o = 0x20 then rdN s (s.vlt.recPeak * 65536 + s.vlt.ex.length)
  else if o = 0x24 then rdN s newest
  else if o = 0x28 then rdN s (newest / 2 ^ 32)
  else if o = 0x2C then rdN s (vltFloor s)
  else if o = 0x30 then rdN s (vltFloor s / 2 ^ 32)
  else if o = 0x3C then
    (match livePlan s with
     | some p => rdN s (planExtent p * 65536 + planHeld p)
     | none => rdN s 0)
  else if o = 0x40 then
    rdN s (sumNat ([s.pln.s0, s.pln.s1].map (fun x =>
      if x.st = .live || x.st = .retiring then (match x.plan with | some p => planWorst p | none => 0) else 0)))
  else if o = 0x74 then
    (match (planAt s (regFld s Reg.vltSlotQ 16 16)).bind (fun p => mapSlot p (regFld s Reg.vltSlotQ 14 0)) with
     | some (g, n) => rdN s (2 ^ 31 + n * 65536 + g)
     | none => rdN s 0)
  else if o = 0xC8 || o = 0xD8 then
    let w := getView s v
    (match (if w.status = 1 then getEx s w.index else none) with
     | some x => rdN s (x.revision * 256 + exCode x.st * 16 + w.status)
     | none => rdN s w.status)
  else (getReg s a, s)

/-- ACC: the control page, the local records and the accession records (section 3.11). -/
def curAcc (s : State) (a : Nat) : Word × State :=
  if a < 0x100000 then
    let o := a - 0xA8000
    if o = 0x18 then accAllocRead s
    else if o = 0x1C then rdN s (accCountWord s)
    else if o = 0x20 then rdN s (phasorSum s)
    else if o = 0x24 then rdN s (ingressSum s)
    else if 0x400 ≤ o && o < 0x480 && o % 32 = 28 then (accCtl s (0x4000 + (o - 0x400) / 32), s)
    else (getReg s a, s)
  else if a % 32 = 28 then (accCtl s ((a - 0x100000) / 32), s)
  else (getReg s a, s)

/-- ARC (section 16.7). -/
def curArc (s : State) (port a : Nat) : Word × State :=
  if a = Reg.arcStream then rdN s (arcStreamWord s)
  else if a = Reg.arcRingOldest then rdN s (match s.arc.ring with | x :: _ => x.1 | [] => 0)
  else if 0xB0040 ≤ a && a < 0xB0060 then (getReg s (portReg port a), s)
  else (getReg s a, s)

/-- CAP (section 15.8). -/
def curCap (s : State) (a : Nat) : Word × State :=
  if a = Reg.capState then rdN s (capStateWord s)
  else if a = Reg.capStore then rdN s (capStoreWord s)
  else if a = Reg.capRdData then capRdData s
  else (getReg s a, s)

/-- QUE (section 11.8): the words at 0x44 to 0x58 are those of the queue QUE_SEL names. -/
def curQue (s : State) (a : Nat) : Word × State :=
  let o := a - 0xD0000
  let q := regFld s Reg.queSel 10 0
  let x := getQ s q
  if o = 0x10 then rdN s (poolFree s)
  else if o = 0x20 then rdN s (xoffPins s)
  else if o = 0x28 then rdN s (minSum s)
  else if o = 0x44 then (setBit x.cfg 31 (qEnabled s q), s)
  else if o = 0x48 then (x.lim, s)
  else if o = 0x4C then (x.wm, s)
  else if o = 0x50 then rdN s x.pkts.length
  else if o = 0x54 then rdN s (b2n x.above * 2 ^ 31 + x.held)
  else if o = 0x58 then rdN s x.peak
  else if 0x100 ≤ o && o < 0x200 then
    rdN s (sumNat ((List.range 32).map (fun b => b2n (!(getQ s (8 * (o - 0x100) + b)).pkts.isEmpty) * 2 ^ b)))
  else if 0x200 ≤ o && o < 0x300 then
    rdN s (sumNat ((List.range 32).map (fun b => b2n (getQ s (8 * (o - 0x200) + b)).above * 2 ^ b)))
  else (getReg s a, s)

/-- ETH: port pages and the parser page (section 10.9). The PLCA registers of P0–P3 read 0. -/
def curEth (s : State) (a : Nat) : Word × State :=
  if 0xEC000 ≤ a then (getReg s a, s)
  else
    let p := (a - 0xE0000) / 0x2000
    let o := (a - 0xE0000) % 0x2000
    if o = 0x50 then rdN s (ethStatus s p)
    else if (o = 0x40 || o = 0x44) && p < 4 then rdN s 0
    else (getReg s a, s)

/-- HSH (section 9.9). -/
def curHsh (s : State) (a : Nat) : Word × State :=
  let o := a - 0xF0000
  if o = 0x18 then rdN s ownUid
  else if o = 0x1C then rdN s (ownUid / 2 ^ 32)
  else if o = 0x80 then rdN s (hshStatus s)
  else if o = 0x98 then rdN s s.hsh.join
  else if o = 0x9C then rdN s (s.hsh.join / 2 ^ 32)
  else if 0xA4 ≤ o && o < 0xBC then
    (match (absWords s)[(o - 0xA4) / 4]? with | some w => w | none => 0#32, s)
  else (getReg s a, s)

/-- AFE (section 13.8): GD_HALF, and IN_USE with bit 0 set while a staged value is not the one in use. -/
def curAfe (s : State) (a : Nat) : Word × State :=
  let c := (a - 0x1C0100) / 0x40
  if inArr a 0x1C0118 0x40 16 then rdN s (gdHalf s c)
  else if inArr a 0x1C011C 0x40 16 then
    let u := (chan s c).use_
    rdN s (ofSigned 16 u.delay * 65536 + b2n (decide (stagedCorr s c ≠ u)))
  else (getReg s a, s)

/-- FLT (section 13.8). -/
def curFlt (s : State) (port a : Nat) : Word × State :=
  if a = Reg.fltSwapResult then (getReg s (portReg port a), s)
  else if a = Reg.fltStatus then rdN s (fltStatus s)
  else if a = Reg.fltActive then rdN s (fltActive s)
  else (getReg s a, s)

/-- A word of an element page of NRG (section 14.9). -/
def curElem (s : State) (port e o a : Nat) : Word × State :=
  if 0x80 ≤ o && o < 0x100 then intValRead s port e ((o - 0x80) / 4)
  else if 0x100 ≤ o && o < 0x180 then
    (smGet 0#32 s.nrg.auxLatch (64 * port + 32 * e + (o - 0x100) / 4), s)
  else if 0x200 ≤ o && o < 0x420 then rdN s (le (smGet [] s.nrg.last e) (o - 0x200) 4)
  else if 0x600 ≤ o && o < 0x700 then
    let q := (o - 0x600) % 0x40 / 8
    let t := if q < 7 then smGet 0 s.nrg.run.totals (28 * e + 7 * ((o - 0x600) / 0x40) + q) / 2 ^ 32 else 0
    rdN s (if o % 8 = 0 then t else t / 2 ^ 32)
  else if 0x700 ≤ o && o < 0x750 then (smGet 0#32 s.nrg.live (128 * e + (o - 0x700)), s)
  else (getReg s a, s)

/-- NRG (section 14.9). -/
def curNrg (s : State) (port a : Nat) : Word × State :=
  let o := a - 0x1E0000
  if o = 0x28 then
    (setBit (setBit (getReg s a) 0 (elemOn s 0)) 1 (elemOn s 1), s)
  else if o = 0x2C then
    rdN s (sumNat ((List.range 16).map (fun j => smGet 0 s.nrg.dir (16 * (j / 8) + j % 8) * 4 ^ j)))
  else if o = 0x38 then rdN s (smGet 0 s.nrg.seqLatch port)
  else if o = 0x3C then rdN s s.nrg.run.start
  else if o = 0x40 then rdN s (s.nrg.run.start / 2 ^ 32)
  else if 0x200 ≤ o && o < 0x240 && o % 16 = 12 then
    let x := smGet Pulse.reset s.nrg.pulses ((o - 0x200) / 16)
    rdN s (x.backlog * 65536 + x.sent % 65536)
  else if 0x1000 ≤ o && o < 0x2000 then curElem s port ((o - 0x1000) / 0x800) (o % 0x800) a
  else (getReg s a, s)

/-- The current word of a register and what its read does (R12, R14). An RC field reads and clears; PCE_PACE_MIN,
VLT_PAGES_MIN and QUE_POOL_MIN take the value their chapters give. -/
def curWord (s : State) (port a : Nat) : Word × State :=
  let x : Word × State :=
    if a % 4 != 0 then (0#32, s)
    else if a < 0x10000 then curHst s a
    else if a < 0x20000 then curPwr s port a
    else if a < 0x30000 then curPce s a
    else if a < 0x40000 then curTim s port a
    else if a < 0x50000 then curKey s a
    else if a < 0x60000 then curLog s port a
    else if a < 0x70000 then (if a = Reg.twnState then twnStateRead s else (getReg s a, s))
    else if a < 0x80000 then curVrd s a
    else if a < 0x88000 then curDsp s port a
    else if a < 0x90000 then curDoc s port a
    else if a < 0xA0000 then curPln s a
    else if a < 0xA8000 then curVlt s a
    else if a < 0xB0000 then curAcc s a
    else if a < 0xC0000 then curArc s port a
    else if a < 0xD0000 then curCap s a
    else if a < 0xE0000 then curQue s a
    else if a < 0xF0000 then curEth s a
    else if a < 0x100000 then curHsh s a
    else if a < 0x180000 then curAcc s a
    else if a < 0x1C0000 then curDoc s port a
    else if a < 0x1D0000 then curAfe s a
    else if a < 0x1E0000 then curFlt s port a
    else curNrg s port a
  match findSpec (regSpecsAt a) a with
  | none => x
  | some r =>
    if r.rc = 0 then x
    else
      let new : Word :=
        if a = Reg.pcePaceMin then 0xFFFFFFFF#32
        else if a = Reg.vltPagesMin then BitVec.ofNat 32 s.vlt.general
        else if a = Reg.quePoolMin then BitVec.ofNat 32 (poolFree s)
        else x.1 &&& ~~~(BitVec.ofNat 32 r.rc)
      (x.1, setReg x.2 a new)

/-- A register read by a host port, through its latch (R17, R587). -/
def readReg (s : State) (port a : Nat) : Word × State :=
  match lowOf a with
  | some t =>
    let x := curWord s port a
    let miss : Word × State := (x.1, evt (bump x.2 (Reg.hstCnt 4)) Reg.hstEvents 8)
    (match smFind s.host.latch port with
     | some l => if l.tag = t then (smGet 0#32 l.words a, s) else miss
     | none => miss)
  | none =>
    let x := curWord s port a
    (match highsOf a with
     | [] => x
     | hs => (x.1, latchWords x.2 port a (hs.map (fun h => (h, (curWord s port h).1)))))

end Sys2Proof.Machine
end

