-- ==== Sys2Proof/Machine/HostWrite.lean ====
section
/-! DEFINITION. Writes of BAR0: each register to the operation its chapter gives it, every other one by its access codes
(R12, R13, R16), and the clearing of statistics counters (R26, R622). -/

namespace Sys2Proof.Machine

/-! ### Statistics (R26) -/

/-- Sets registers back to their reset values. -/
def clearRegs (s : State) (l : List Nat) : State := l.foldl (fun s a => setReg s a (regReset a)) s

def arr (base stride n : Nat) : List Nat := (List.range n).map (fun k => base + stride * k)

/-- The statistics counters a page's STAT_CLR clears. -/
def statRegs (base : Nat) : List Nat :=
  match ethPage base with
  | some _ => arr (base + 0x100) 4 30
  | none =>
    if base = 0 then arr 0x300 4 6 else if base = 0x10000 then arr 0x10100 4 8 else if base = 0x20000 then [0x20038, 0x2003C]
    else if base = 0x30000 then arr 0x30200 4 12 ++ arr 0x30814 0x20 6
    else if base = 0x40000 then arr 0x40100 4 4 else if base = 0x50000 then arr 0x50100 4 3
    else if base = 0x60000 then arr 0x60100 4 10 else if base = 0x70000 then arr 0x70100 4 14
    else if base = 0x80000 then arr 0x80100 4 29 ++ arr 0x80240 4 16
    else if base = 0x88000 then arr 0x88100 4 21 ++ arr 0x180080 0x1000 64 ++ arr 0x180084 0x1000 64
    else if base = 0xA0000 then arr 0xA0100 4 15 else if base = 0xA8000 then arr 0xA8100 4 14 ++ arr 0xA8140 4 4
    else if base = 0xB0000 then arr 0xB0100 4 8 else if base = 0xC0000 then arr 0xC0100 4 7
    else if base = 0xD0000 then arr 0xD0300 4 8 else if base = 0xEC000 then arr 0xEC100 4 4
    else if base = 0xF0000 then arr 0xF0100 4 28
    else if base = 0x1C0000 then arr 0x1C012C 0x40 16 ++ arr 0x1C060C 0x20 4
    else if base = 0x1E0000 then arr 0x1E0100 4 5 ++ arr 0x1E0240 4 4
    else []

/-- The offset of a page's STAT_CLR register; PLN and FLT have none. -/
def statClrOff (base : Nat) : Option Nat :=
  match ethPage base with
  | some _ => some 0x5C
  | none =>
    if base = 0 || base = 0x60000 then some 0x64 else if base = 0x10000 then some 0xC0
    else if base = 0x20000 || base = 0x30000 then some 0x4C else if base = 0x40000 then some 0xB4
    else if base = 0x50000 then some 0x34 else if base = 0x70000 || base = 0x1C0000 then some 0x44
    else if base = 0x80000 then some 0x7C else if base = 0x88000 || base = 0xA0000 || base = 0xA8000 then some 0x60
    else if base = 0xB0000 then some 0x84 else if base = 0xC0000 then some 0xA0 else if base = 0xD0000 then some 0x30
    else if base = 0xEC000 then some 0x20 else if base = 0xF0000 then some 0xC4 else if base = 0x1E0000 then some 0x50
    else none

/-- What a page's STAT_CLR does beside clearing counters: peaks take their present values (R622), the changes of verdict
lines clear. -/
def statPeaks (s : State) (base : Nat) : State :=
  if base = 0x50000 then logStatClr s
  else if base = 0x70000 then
    { s with vrd := { s.vrd with lines :=
      (s.vrd.lines.map (fun x => (x.1, { x.2 with changes := 0 }))).filter (fun x => decide (x.2 ≠ LineState.reset)) } }
  else if base = 0x80000 then
    { s with dsp := { s.dsp with
      peaks := (List.range 8).foldl (fun m l => smPut 0 m l (levelDepth s l)) s.dsp.peaks
      evPeak := s.dsp.evFifo.length } }
  else if base = 0xA0000 then vltStatClr s
  else if base = 0xD0000 then
    s.que.q.foldl (fun s x => setQ s x.1 { getQ s x.1 with peak := (getQ s x.1).held }) s
  else s

/-- STAT_CLR of a page: counters that follow time are first counted up to now. -/
def statClr (s : State) (base : Nat) : State :=
  let s := if base = 0x20000 then shortTick s
    else if base = 0x80000 then (List.range 8).foldl holdTick s else s
  let s := clearRegs (statPeaks s base) (statRegs base)
  setReg s (base + 4) (setBit (getReg s (base + 4)) 8 false)

/-! ### HST -/

/-- Sends what the vectors owe once they are not masked (R590). -/
def msixRelease (s : State) : State :=
  ((List.range 64).filter (fun v => s.host.msixPba.testBit v && !vecMasked s v)).foldl (fun s v =>
    if s.host.msixEn && s.host.busMaster then
      sendMsi { s with host := { s.host with msixPba := s.host.msixPba ^^^ 2 ^ v } } v
    else s) s

/-- A write of vector v to HST_VEC_ACK (R590). -/
def vectorAck (s : State) (v : Nat) : State := if (pendingVectors s).testBit v then sendMsi s v else s

/-- A write of HST_DDR_CFG: locked from START until the next reset (R594). -/
def ddrCfgWrite (s : State) (v : Word) : State :=
  let a := Reg.hstDdrCfg
  let old := getReg s a
  if s.host.ddrLocked then (if v &&& 0x77#32 = old then s else refuseC s Reg.hstBase 0xF0)
  else
    let rate := fld v 6 4
    let dens := fld v 2 0
    let new := setFld (setFld old 6 4 (if rate ≤ 3 then rate else fld old 6 4)) 2 0 (if dens ≤ 4 then dens else fld old 2 0)
    let s := setReg s a new
    if rate ≤ 3 && dens ≤ 4 then s else refuseC s Reg.hstBase 0xF1

/-- HST_DDR_CTRL.START: training starts only with DENSITY nonzero; the memory is not usable until it ends DONE (R594). -/
def ddrStart (s : State) : State :=
  if opRunning s Reg.hstDdrOpstat then opRefuseStart s Reg.hstDdrOpstat
  else if regFld s Reg.hstDdrCfg 2 0 = 0 then s
  else
    let s := opStart s Reg.hstDdrOpstat
    { s with host := { s.host with ddrLocked := true, ddrTrained := false } }

/-- HST_DDR_CTRL.STOP (R24). -/
def ddrStop (s : State) : State :=
  if opRunning s Reg.hstDdrOpstat then evt (opStop s Reg.hstDdrOpstat) Reg.hstEvents 0x20
  else opStop s Reg.hstDdrOpstat

/-- Bytes of the memory HST_DDR_CFG names. -/
def ddrSize (s : State) : Nat :=
  let d := regFld s Reg.hstDdrCfg 2 0
  if d = 0 then 0 else 2 ^ (29 + d)

/-- A register of HST (section 21.9). -/
def writeHst (s : State) (a : Nat) (v : Word) : State :=
  if a < 0x10 then s
  else if a = Reg.hstVecAck then vectorAck s (fld v 5 0)
  else if a = Reg.hstDdrCfg then ddrCfgWrite s v
  else if a = Reg.hstDdrCtrl then
    let s := if bit v 1 then ddrStop s else s
    if bit v 0 then ddrStart s else s
  else if a = Reg.hstDdrWin then
    (if ddrSize s ≤ 0x800000 * fld v 9 0 then refuse s Reg.hstBase 0x0107 else setReg s a (v &&& 0x3FF#32))
  else if inArr a 0x200 4 32 then
    (if bit v 31 && !isHostQueue s (fld v 10 0) then refuse s Reg.hstBase 0x0108
     else irqEval (setReg s a (v &&& 0xC00007FF#32)))
  else if inArr a 0x8000 4 256 then msixRelease (specWrite s a v)
  else irqEval (specWrite s a v)

/-! ### The other blocks -/

def writePwr (s : State) (port a : Nat) (v : Word) : State :=
  if a = Reg.pwrCfg then trimFollow (specWrite s a v)
  else if a = Reg.pwrReq then pwrReqWrite s port v
  else if a = Reg.pwrGate then gateWrite s v
  else if a = Reg.pwrTrim then paceEdgeEval (specWrite s a v)
  else if a = Reg.pwrCtrl then (if bit v 0 then softReset s else s)
  else if a = Reg.pwrBootrecCtrl then bootCtrl s v
  else irqEval (specWrite s a v)

/-- PCE: a STOP in CAL_CTRL acts before a START (R621); the points completed before it are those of earlier PCE_CAL_END
commands. -/
def writePce (s : State) (a : Nat) (v : Word) : State :=
  if a = Reg.pceCfg then pceCfgStore s v
  else if a = Reg.pceVcoreCap then pceCapStore s v
  else if a = Reg.pceCalCtrl then
    let s := if bit v 1 then pceCalStop s [] else s
    if bit v 0 then pceCalStart s else s
  else irqEval (specWrite s a v)

/-- TIM: the staged words are the port's own; a leap entry's OFF word runs its check (R401). -/
def writeTim (s : State) (port a : Nat) (v : Word) : State :=
  let o := a - 0x30000
  let d := (o - 0x100) / 0x80
  let k := (o - 0x400) / 0x10
  if o = 0x20 then selectWrite s v
  else if 0x100 ≤ o && o < 0x200 then
    let p := o % 0x80
    if p = 0 then domCfgWrite s d v
    else if 0x28 ≤ p && p ≤ 0x38 then setReg s (portReg port a) v
    else if p = 0x3C then domCmd s port d v
    else pinEval (specWrite s a v)
  else if 0x400 ≤ o && o < 0x600 then
    (if o % 16 = 0 then setReg s a v
     else if o % 16 = 4 then setReg s a (v &&& 0xFFFF#32)
     else if o % 16 = 8 then leapWrite s k v
     else s)
  else if inArr a 0x30810 0x20 6 then (if bit v 8 then setReg s a (setBit (getReg s a) 8 false) else s)
  else irqEval (specWrite s a v)

def writeKey (s : State) (port a : Nat) (v : Word) : State :=
  if inArr a 0x40040 4 24 then setReg s (portReg port a) v
  else if a = Reg.keyCmd then keyCmdWrite s port v
  else irqEval (specWrite s a v)

def writeVrd (s : State) (a : Nat) (v : Word) : State :=
  if a = Reg.vrdPinClear then pinClearWrite s v
  else if a = Reg.vrdPinForce then pinForceWrite s v
  else irqEval (specWrite s a v)

def writeDsp (s : State) (port a : Nat) (v : Word) : State :=
  if a = Reg.dspDoorbellArg then setReg s (portReg port a) v
  else if a = Reg.dspDoorbell then (if bit v 8 then doorbellRing s port (fld v 7 0) else s)
  else irqEval (specWrite s a v)

def writePln (s : State) (a : Nat) (v : Word) : State :=
  if a = Reg.plnLoad then plnLoadWrite s v
  else if a = Reg.plnData then plnDataStore s v
  else if a = Reg.plnSwap then plnSwapWrite s v
  else if a = Reg.plnShortCmd then plnShort s v
  else if a = Reg.plnCommit then plnCommitWrite s v
  else irqEval (specWrite s a v)

def writeVlt (s : State) (a : Nat) (v : Word) : State :=
  if a = Reg.vltForceCmd then forceCmd s (fld v 1 0)
  else if a = Reg.vltViewIndexHi 0 then viewIndexHi s 0 v
  else if a = Reg.vltViewIndexHi 1 then viewIndexHi s 1 v
  else irqEval (specWrite s a v)

/-- ACC: word 7 of a record is ACC_CTL (R93), the other words its body (R87). -/
def writeAcc (s : State) (a : Nat) (v : Word) : State :=
  let rec_ (n o : Nat) : State := if o = 28 then pinEval (accCtlWrite s n v) else accBodyWrite s n (o / 4) v
  if 0x100000 ≤ a then rec_ ((a - 0x100000) / 32) (a % 32)
  else if 0xA8400 ≤ a && a < 0xA8480 then rec_ (0x4000 + (a - 0xA8400) / 32) (a % 32)
  else irqEval (specWrite s a v)

def writeArc (s : State) (port a : Nat) (v : Word) : State :=
  if inArr a 0xB0040 4 8 then setReg s (portReg port a) v
  else if a = Reg.arcJobCtrl then arcCtrl s port v
  else irqEval (specWrite s a v)

def writeQue (s : State) (a : Nat) (v : Word) : State :=
  if a = Reg.queQcfg then qcfgWrite s v
  else if a = Reg.queQlim then qlimWrite s false v
  else if a = Reg.queQwm then qlimWrite s true v
  else irqEval (specWrite s a v)

/-- ETH: the PLCA registers of P0–P3 are ignored. -/
def writeEth (s : State) (a : Nat) (v : Word) : State :=
  let o := (a - 0xE0000) % 0x2000
  if a < 0xE8000 && (o = 0x40 || o = 0x44) then s else irqEval (specWrite s a v)

/-- AFE: CH_CFG with ORDER or TAPS out of range is refused whole (R413); staged values outside the ranges of R411 are
left. -/
def writeAfe (s : State) (a : Nat) (v : Word) : State :=
  if a = Reg.afeCommit then afeCommitWrite s (fld v 15 0)
  else if a = Reg.afeOwCtrl then owCtrl s v
  else if a = Reg.afeCalCtrl then calCtrl s v
  else if a = Reg.afeCalSave then (if bit v 0 then calSave s else s)
  else if inArr a 0x1C0100 0x40 16 then
    (if !enabled s Reg.afeBase && (fld v 26 24 < 3 || 5 < fld v 26 24 || fld v 6 0 = 0 || 96 < fld v 6 0) then
       refuse s Reg.afeBase 0x1302
     else specWrite s a v)
  else if inArr a 0x1C0108 0x40 16 || inArr a 0x1C010C 0x40 16 then
    (if v.toNat < 0x20000000 || 0x80000000 < v.toNat then refuse s Reg.afeBase 0x1306 else setReg s a v)
  else if inArr a 0x1C0110 0x40 16 then
    (if toSigned 16 (fld v 15 0) < -8192 || 8192 < toSigned 16 (fld v 15 0) then refuse s Reg.afeBase 0x1305
     else setReg s a (v &&& 0xFFFF#32))
  else if inArr a 0x1C0600 0x20 4 then lCfgStore s ((a - 0x1C0600) / 0x20) v
  else irqEval (specWrite s a v)

def writeFlt (s : State) (port a : Nat) (v : Word) : State :=
  if a = Reg.fltSwap then fltSwapWrite s port v
  else if 0x1D1000 ≤ a && a < 0x1D5000 then coefWrite s a v
  else irqEval (specWrite s a v)

/-- NRG_ZC_CFG takes effect whole or not at all. -/
def writeNrg (s : State) (a : Nat) (v : Word) : State :=
  let o := a - 0x1E0000
  if a = Reg.nrgZcCfg && (fld v 31 16 < 10 || 1000 < fld v 31 16) then refuseC s Reg.nrgBase 0xF1
  else if inArr a 0x1E0200 0x10 4 then pulseCfgWrite s ((o - 0x200) / 0x10) v
  else if inArr a 0x1E0204 0x10 4 || inArr a 0x1E0208 0x10 4 then pulseSetWrite s ((o - 0x200) / 0x10) a v
  else if inArr a 0x1E1000 4 32 then intCfgWrite s 0 ((o - 0x1000) / 4) v
  else if inArr a 0x1E1800 4 32 then intCfgWrite s 1 ((o - 0x1800) / 4) v
  else irqEval (specWrite s a v)

/-- A whole-register write by a host port (R12). -/
def writeReg (s : State) (port a : Nat) (v : Word) : State :=
  let base := blkBase a
  if a = base then blkCtrlWrite s base v
  else if statClrOff base = some (a - base) then (if bit v 0 then statClr s base else s)
  else if a < 0x10000 then writeHst s a v
  else if a < 0x20000 then writePwr s port a v
  else if a < 0x30000 then writePce s a v
  else if a < 0x40000 then writeTim s port a v
  else if a < 0x50000 then writeKey s port a v
  else if a < 0x60000 then (if a = Reg.logCursor then setReg s (portReg port a) v else irqEval (specWrite s a v))
  else if a < 0x70000 then (if a = Reg.twnCtrl then twnCtrlWrite s v else irqEval (specWrite s a v))
  else if a < 0x80000 then writeVrd s a v
  else if a < 0x88000 then writeDsp s port a v
  else if a < 0x90000 then irqEval (specWrite s a v)
  else if a < 0xA0000 then writePln s a v
  else if a < 0xA8000 then writeVlt s a v
  else if a < 0xB0000 then writeAcc s a v
  else if a < 0xC0000 then writeArc s port a v
  else if a < 0xD0000 then (if a = Reg.capCtrl then capCtrlWrite s v else irqEval (specWrite s a v))
  else if a < 0xE0000 then writeQue s a v
  else if a < 0xF0000 then writeEth s a v
  else if a < 0x100000 then (if a = Reg.hshAbsClear then (if bit v 0 then absClear s else s) else irqEval (specWrite s a v))
  else if a < 0x180000 then writeAcc s a v
  else if a < 0x1C0000 then
    (if inArr a 0x1800C4 0x1000 64 then dramWinWrite s ((a - 0x180000) / 0x1000) v else specWrite s a v)
  else if a < 0x1D0000 then writeAfe s a v
  else if a < 0x1E0000 then writeFlt s port a v
  else writeNrg s a v

end Sys2Proof.Machine
end

