-- ==== Sys2Proof/Machine/HostBus.lean ====
section
/-! DEFINITION. Host accesses as they arrive: the decoding of BAR0 and BAR2, blocks that are absent, off or asleep, the
windows, and the framing of the management SPI (R4, R555, R558, R576–R579, R592–R600). -/

namespace Sys2Proof.Machine

/-! ### Where an access goes -/

/-- Ranges of BAR0 that are not decoded (Table 21.2). -/
def undecoded (a : Nat) : Bool :=
  (0x89000 ≤ a && a < 0x90000) || (0xEE000 ≤ a && a < 0xF0000) || 0x1F0000 ≤ a

/-- The block that owns an offset is gated (R554). -/
def gatedAt (s : State) (a : Nat) : Bool :=
  (bitList 14 (getReg s Reg.pwrGate).toNat).any (fun i => (gateRanges i).any (fun r => r.1 ≤ a && a < r.2))

/-- HST registers that the keeper island holds (section 21.9). -/
def keeperHst (a : Nat) : Bool := a = 0x10 || a = 0x14 || a = 0x18 || (0x28 ≤ a && a < 0x40)

/-- Is the register's block off (R555, R599): gated, or on the core die during KEEP? -/
def offlineAt (s : State) (a : Nat) : Bool :=
  if s.pwr.st = .keep then !(0x10000 ≤ a && a < 0x20000) && !keeperHst a else gatedAt s a

/-- HST_OFFLINE (R600). -/
def offlineRecord (s : State) (port : Nat) (isWrite : Bool) (code off : Nat) : State :=
  let n := Nat.min 65535 (regFld s Reg.hstOffline1 31 16 + 1)
  let s := setRegN s Reg.hstOffline0 (b2n (port = 1) * 2 ^ 25 + b2n isWrite * 2 ^ 24 + off % 2 ^ 24)
  let s := setRegN s Reg.hstOffline1 (n * 65536 + code)
  evt (bump s (Reg.hstCnt 1)) Reg.hstEvents 4

/-- UNDECODED (R578). -/
def undecodedRecord (s : State) : State :=
  refuse (evt (bump s (Reg.hstCnt 0)) Reg.hstEvents 2) Reg.hstBase 0x0101

/-- A read of a low word of a block that is off latches all ones (R555). -/
def offlineLatch (s : State) (port a : Nat) : State :=
  if inArr a 0x30108 0x80 2 then
    let k := port * 2 + (a - 0x30108) / 0x80
    { s with tim := { s.tim with domLatch := smSet s.tim.domLatch k (List.replicate 7 0xFFFFFFFF#32) } }
  else
    match highsOf a with
    | [] => s
    | hs => latchWords s port a (hs.map (fun h => (h, 0xFFFFFFFF#32)))

/-- A 32-bit read of BAR0; every host access wakes the device from NAP (R543). -/
def bar0Read (s : State) (port a : Nat) : Word × State :=
  let s := hostWake s
  if undecoded a then (0#32, undecodedRecord s)
  else if absentAt s a then (0#32, s)
  else if offlineAt s a then
    (0xFFFFFFFF#32, offlineLatch (offlineRecord s port false (blkCode (blkBase a)) a) port a)
  else readReg s port a

/-- From step 5 of the ladder to its end: BLK_CTRL of any block but PWR, and the registers that step 9 or 10 is about to
write, are held (R558). -/
def ladderHolds (s : State) (a : Nat) : Bool :=
  opRunning s Reg.pwrStartOpstat && 5 ≤ s.pwr.ladder &&
    ((a = blkBase a && a != Reg.pwrBase) ||
     (s.pwr.ladder ≤ 9 && (match bootSelected s with | some r => r.entries.any (fun e => e.1 = a) | none => false)) ||
     (s.afe.calRec.isSome && (inArr a 0x1C0104 0x40 16 || inArr a 0x1C0108 0x40 16)))

/-- A 32-bit write of BAR0. -/
def bar0Write (s : State) (port a : Nat) (v : Word) : State :=
  let s := hostWake s
  if undecoded a then undecodedRecord s
  else if absentAt s a then s
  else if offlineAt s a then offlineRecord s port true (blkCode (blkBase a)) a
  else if ladderHolds s a then refuse s Reg.pwrBase 0x0220
  else writeReg s port a v

/-- A write whose byte enables do not cover an aligned register: dropped with cause 0x0102 (R579), or as any write where
nothing decodes, is present or is on. -/
def bar0Partial (s : State) (port a : Nat) (v : Word) : State :=
  if undecoded a || absentAt s a || offlineAt s a then bar0Write s port a v
  else refuse (hostWake s) Reg.hstBase 0x0102

/-! ### The queue window (section 11.5) -/

/-- The state a meaning answers. -/
def nextOf (s : State) (o : Host.Outcome State Fault Refusal) : State :=
  match o with | .next t => t | _ => s

/-- The word a meaning answered to the host. -/
def firstResp (s : State) : Word := match s.host.resp with | w :: _ => w | [] => 0#32

/-- PUSH_STATUS of a host port. -/
def pushStatus (s : State) (q port : Nat) : Nat :=
  let x := getQ s q
  smGet 0 x.reason port * 65536 + (match smFind x.push port with | some p => if p.isOpen then 2 else 1 | none => 0)

/-- A 32-bit read at offset o of page q. -/
def queueWinRead (s : State) (port q o : Nat) : Word × State :=
  if o = 0 then let t := queuePop s q port; (firstResp t, t)
  else if (o = 4 || o = 0x18) && !isHostQueue s q then (0#32, queRefuse s q 0x0E07)
  else if o = 4 then (smGet 0#32 (getQ s q).popHi port, s)
  else if o = 0x18 then rdN s (pushStatus s q port)
  else if 0x100 ≤ o then let t := nextOf s (execPopDataRead port q s); (firstResp t, t)
  else (0#32, s)

/-- A 32-bit write at offset o of page q. -/
def queueWinWrite (s : State) (port q o : Nat) (v : Word) : State :=
  if o = 8 then nextOf s (execQueueDone port q s)
  else if o = 0x10 then nextOf s (execPushStart port q (fld v 15 0) s)
  else if o = 0x14 then nextOf s (execPushEnd port q s)
  else if 0x100 ≤ o then nextOf s (execPushDataWrite port q v s)
  else s

/-! ### The MRAM window (R592, R593) -/

/-- The areas of Table 21.4. -/
inductive MramArea where
  | user
  | ring
  | plans
  | keys
  | boot
  | capture
  | records
  | reserved
  deriving DecidableEq, Repr

def mramArea (m : Nat) : MramArea :=
  if m < 0x01000000 then .user
  else if m < 0x01400000 then .ring
  else if 0x02000000 ≤ m && m < 0x02800000 then .plans
  else if 0x02820000 ≤ m && m < 0x02822000 then .keys
  else if 0x02830000 ≤ m && m < 0x02838000 then .boot
  else if 0x03000000 ≤ m && m < 0x04000000 then .capture
  else if (0x02800000 ≤ m && m < 0x02800080) || (0x02810000 ≤ m && m < 0x02811000) || (0x02840000 ≤ m && m < 0x02840800) ||
      (0x02850000 ≤ m && m < 0x02851000) || (0x02860000 ≤ m && m < 0x02860080) then .records
  else .reserved

/-- The MRAM offset of a window offset. -/
def mramAt (s : State) (w : Nat) : Nat := 0x01000000 * regFld s Reg.hstMramWin 1 0 + w % 0x02000000

/-- Stores a word's four bytes, the lowest first (R9). -/
def putWord (t : SMap Byte) (m : Nat) (v : Word) : SMap Byte :=
  (List.range 4).foldl (fun t i => smPut 0#8 t (m + i) (BitVec.ofNat 8 (v.toNat / 2 ^ (8 * i)))) t

def wordOf (l : List Byte) : Word := BitVec.ofNat 32 (leNat (padTo 4 l))

/-- A free word (log entry 3). -/
def freeWord (s : State) : Word × State := (BitVec.ofNat 32 (freeBelow s (2 ^ 32)), nextFree s)

/-- The plan image word at byte o of the plan areas. -/
def mramPlanWord (s : State) (o : Nat) : Word :=
  wordOf (((planArea s (o / 0x400000)).drop (o % 0x400000)).take 4)

/-- The boot record word at byte o of the boot areas; a slot without a valid record holds free values (log entry 27). -/
def mramBootWord (s : State) (o : Nat) : Word × State :=
  match (if o < 0x4000 then s.pwr.boot0 else s.pwr.boot1) with
  | some r => (wordOf (((bootBytes r).drop (o % 0x4000)).take 4), s)
  | none => freeWord s

/-- A 32-bit read of the MRAM window. The byte layout of the select, energy, calibration, lifetime and anchor records is
not stated: their words are free values, as are those of an invalid boot slot (log entry 27). -/
def mramRead (s : State) (w : Nat) : Word × State :=
  let m := mramAt s w
  match mramArea m with
  | .user | .capture => rdN s (leNat ((List.range 4).map (fun i => smGet 0#8 s.host.mram (m + i))))
  | .ring => (0#32, refuse s Reg.logBase 0x0601)
  | .plans => (mramPlanWord s (m - 0x02000000), s)
  | .keys => (0#32, refuse s Reg.keyBase 0x050C)
  | .boot => mramBootWord s (m - 0x02830000)
  | .records => freeWord s
  | .reserved => (0#32, s)

/-- A 32-bit write of the MRAM window. -/
def mramWrite (s : State) (w : Nat) (v : Word) : State :=
  let m := mramAt s w
  match mramArea m with
  | .user =>
    { s with host := { s.host with mram := putWord s.host.mram m v } }
  | .ring => refuse s Reg.logBase 0x0601
  | .plans => refuse s Reg.plnBase 0x0A28
  | .keys => refuse s Reg.keyBase 0x050C
  | _ => refuse s Reg.hstBase 0x0104

/-! ### The LPDDR5X window (R595) -/

def ddrAt (s : State) (w : Nat) : Nat := 0x800000 * regFld s Reg.hstDdrWin 9 0 + w % 0x800000

def ddrRead (s : State) (w : Nat) : Word × State :=
  if !s.host.ddrTrained then (0#32, refuse s Reg.hstBase 0x0105)
  else rdN s (leNat ((List.range 4).map (fun i => smGet 0#8 s.host.ddr (ddrAt s w + i))))

def ddrWrite (s : State) (w : Nat) (v : Word) : State :=
  if !s.host.ddrTrained then refuse s Reg.hstBase 0x0105
  else
    { s with host := { s.host with ddr := putWord s.host.ddr (ddrAt s w) v } }

/-! ### BAR2 (R576, R579) -/

/-- The block code of a BAR2 window (Table 21.1). -/
def bar2Code (o : Nat) : Nat := if o < 0x1000000 then 0xB else if o < 0x1800000 then 0xE else 1

/-- Is a window off: every one during KEEP, the LPDDR5X window while its controller is gated (R555)? -/
def bar2Offline (s : State) (o : Nat) : Bool :=
  s.pwr.st = .keep || (0x1800000 ≤ o && o < 0x2000000 && regBit s Reg.pwrGate 4)

/-- A 32-bit read of BAR2; beyond 64 MiB nothing decodes. -/
def bar2Read (s : State) (port o : Nat) : Word × State :=
  let s := hostWake s
  if 0x4000000 ≤ o then (0#32, s)
  else if bar2Offline s o then (0xFFFFFFFF#32, offlineRecord s port false (bar2Code o) o)
  else if o < 0x1000000 then vaultRead s port o
  else if o < 0x1800000 then queueWinRead s port ((o - 0x1000000) / 0x1000) (o % 0x1000)
  else if o < 0x2000000 then ddrRead s (o - 0x1800000)
  else mramRead s (o - 0x2000000)

/-- A 32-bit write of BAR2. -/
def bar2Write (s : State) (port o : Nat) (v : Word) : State :=
  let s := hostWake s
  if 0x4000000 ≤ o then s
  else if bar2Offline s o then offlineRecord s port true (bar2Code o) o
  else if o < 0x1000000 then refuse s Reg.vltBase 0x0B05
  else if o < 0x1800000 then queueWinWrite s port ((o - 0x1000000) / 0x1000) (o % 0x1000) v
  else if o < 0x2000000 then ddrWrite s (o - 0x1800000) v
  else mramWrite s (o - 0x2000000) v

/-- The size and alignment the windows accept (R579). -/
def bar2Fits (o len : Nat) : Bool := o % 4 = 0 && len % 4 = 0 && 4 ≤ len

/-- Reads at offsets in order. -/
def readWords (rd : State → Nat → Word × State) (s : State) : List Nat → List Word × State
  | [] => ([], s)
  | o :: r =>
    let x := rd s o
    let y := readWords rd x.2 r
    (x.1 :: y.1, y.2)

/-- Writes of words at offsets in order. -/
def writeWords (wr : State → Nat → Word → State) (s : State) : List (Nat × Word) → State
  | [] => s
  | (o, v) :: r => writeWords wr (wr s o v) r

/-- Offsets of n words from o, a step apart. -/
def wordOffs (o step n : Nat) : List Nat := (List.range n).map (fun k => o + step * k)

/-- The 32-bit words of a byte string. -/
def wordsOf (l : List Byte) : List Word := (List.range (l.length / 4)).map (fun k => wordOf ((l.drop (4 * k)).take 4))

/-- A read of len bytes at a BAR2 offset: 32-bit accesses in ascending order, or dropped with cause 0x0102 (R579). -/
def bar2ReadLen (s : State) (port o len : Nat) : List Word × State :=
  if bar2Fits o len then readWords (fun s o => bar2Read s port o) s (wordOffs o 4 (len / 4))
  else (List.replicate ((len + 3) / 4) 0#32, refuse s Reg.hstBase 0x0102)

/-- A write of bytes at a BAR2 offset. -/
def bar2WriteLen (s : State) (port o : Nat) (l : List Byte) : State :=
  if bar2Fits o l.length then
    writeWords (fun s o v => bar2Write s port o v) s ((wordOffs o 4 (l.length / 4)).zip (wordsOf l))
  else refuse s Reg.hstBase 0x0102

/-! ### SPI (R596–R599) -/

/-- The status byte the device shifts out (R596). -/
def spiStatusByte (s : State) : Nat :=
  0xA0 + b2n s.pwr.warn * 16 + b2n (opRunning s Reg.pwrStartOpstat) * 8 + b2n (s.pwr.st = .keep) * 4 +
    b2n s.host.spiDropped * 2

/-- Does the port answer: the device is not OFF, and bank C is supplied (R613). -/
def spiLive (s : State) : Bool := s.pwr.st != .off && s.host.vio.testBit 2

/-- Begins a transaction: it is counted and its status byte shown. -/
def spiBegin (s : State) : State :=
  bump { s with host := { s.host with spiStatus := spiStatusByte s } } (Reg.hstCnt 2)

def spiStep (cmd : Nat) : Nat := if cmd.testBit 6 then 4 else 0

/-- The read of a space: 0 BAR0, 1 BAR2; another space answers free words. -/
def spaceRead (cmd : Nat) (s : State) (o : Nat) : Word × State :=
  let sp := cmd / 16 % 4
  if sp = 0 then bar0Read s 1 o else if sp = 1 then bar2Read s 1 o else freeWord s

def spaceWrite (cmd : Nat) (s : State) (o : Nat) (v : Word) : State :=
  if cmd / 16 % 4 = 0 then bar0Write s 1 o v else bar2Write s 1 o v

/-- An SPI write transaction of these bytes, applied at chip-select rise or dropped with cause 0x0103 (R598). -/
def spiWrite (s : State) (l : List Byte) : State :=
  let n := l.length - 6
  let cmd := (le l 0 1)
  let ok := 6 < l.length && n % 4 = 0 && n ≤ 64 && cmd / 16 % 4 < 2 && crc8 (l.take (l.length - 1)) = le l (l.length - 1) 1
  let s := spiBegin s
  if ok then
    let s := { s with host := { s.host with spiDropped := false } }
    writeWords (spaceWrite cmd) s ((wordOffs (le l 1 4 / 4 * 4) (spiStep cmd) (n / 4)).zip (wordsOf ((l.drop 5).take n)))
  else
    let s := { s with host := { s.host with spiDropped := true } }
    refuse (evt (bump s (Reg.hstCnt 3)) Reg.hstEvents 0x10) Reg.hstBase 0x0103

/-! ### The endpoint (R581, R582) -/

/-- The PCIe copies of per-port registers (R581). -/
def pcieCopies : List Nat :=
  [Reg.dspDoorbellArg, Reg.dspDoorbellResult, Reg.logCursor, Reg.fltSwapResult, Reg.pwrReqResult] ++
    [0, 1].flatMap (fun d => arr (Reg.timStgOffsetSLo d) 4 5 ++ [Reg.timDomResult d]) ++
    arr 0x40040 4 24 ++ arr 0xB0040 4 8

/-- A PCIe reset: the endpoint with its configuration and MSI-X table, the PCIe latches, the PCIe copies. -/
def pcieReset (s : State) (speed width : Nat) : State :=
  let s := clearRegs s (pcieCopies ++ arr 0x8000 4 256)
  { s with
    host := { s.host with
      latch := smErase s.host.latch 0, busMaster := false, msixEn := false, funcMask := false, msixPba := 0
      linkSpeed := speed, linkWidth := if speed = 0 then 0 else width }
    tim := { s.tim with domLatch := smErase (smErase s.tim.domLatch 0) 1 }
    que := { s.que with popWait := [] } }

end Sys2Proof.Machine
end

