-- ==== Sys2Proof/Machine/HostCmds.lean ====
section
/-! DEFINITION. The commands of the host interface (00_scope.md, 21_host_interface.md). A port is 0 for PCIe, 1 for SPI;
in OFF nothing answers. -/

namespace Sys2Proof.Machine

/-- A command the device answers only while it is not OFF. -/
def whenOn (s : State) (f : State → State) : State := if s.pwr.st = .off then s else f s

/-- A register read that answers the host. -/
def hostRead (s : State) (port a : Nat) : State :=
  whenOn s (fun s => let x := bar0Read s (port % 2) (a / 4 * 4 % 2 ^ 24); respond x.2 [x.1])

/-- REGISTER_WRITE (R12, R13, R16, R579): a write of v at a with these byte enables. -/
def execRegisterWrite (port a be : Nat) (v : Word) (s : State) : Host.Outcome State Fault Refusal :=
  done (whenOn s (fun s =>
    if be % 16 = 15 && a % 4 = 0 then bar0Write s (port % 2) (a % 2 ^ 24) v
    else bar0Partial s (port % 2) (a / 4 * 4 % 2 ^ 24) v))

/-- RC_FIELD_READ (R14). -/
def execRcFieldRead (port a : Nat) (s : State) : Host.Outcome State Fault Refusal := done (hostRead s port a)

/-- LATCHED_LOW_WORD_READ (R17, R587). -/
def execLatchedLowWordRead (port a : Nat) (s : State) : Host.Outcome State Fault Refusal := done (hostRead s port a)

/-- HIGH_WORD_READ (R587). -/
def execHighWordRead (port a : Nat) (s : State) : Host.Outcome State Fault Refusal := done (hostRead s port a)

/-- STAT_CLR of a page (R26, R622): a write of its STAT_CLR register. -/
def execStatClr (port base : Nat) (s : State) : Host.Outcome State Fault Refusal :=
  done (whenOn s (fun s =>
    match statClrOff base with
    | some o => if blkPages.contains base then bar0Write s (port % 2) (base + o) 1#32 else s
    | none => s))

/-- BLOCK_ENABLE of a page (R584). -/
def execBlockEnable (port base : Nat) (s : State) : Host.Outcome State Fault Refusal :=
  done (whenOn s (fun s => if blkPages.contains base then bar0Write s (port % 2) base 1#32 else s))

/-- BLOCK_DISABLE of a page (R584). -/
def execBlockDisable (port base : Nat) (s : State) : Host.Outcome State Fault Refusal :=
  done (whenOn s (fun s => if blkPages.contains base then bar0Write s (port % 2) base 0#32 else s))

/-- OFFLINE_ACCESS (R555, R600): an access to a register of a block that is off. -/
def execOfflineAccess (port a : Nat) (isWrite : Bool) (s : State) : Host.Outcome State Fault Refusal :=
  done (whenOn s (fun s =>
    let a := a / 4 * 4 % 2 ^ 24
    if undecoded a || absentAt s a || !offlineAt s a then s
    else if isWrite then bar0Write s (port % 2) a 0#32
    else let x := bar0Read s (port % 2) a; respond x.2 [x.1]))

/-- UNDECODED_ACCESS (R578). -/
def execUndecodedAccess (port a : Nat) (isWrite : Bool) (s : State) : Host.Outcome State Fault Refusal :=
  done (whenOn s (fun s =>
    let a := a / 4 * 4 % 2 ^ 24
    if !undecoded a then s
    else if isWrite then bar0Write s (port % 2) a 0#32
    else let x := bar0Read s (port % 2) a; respond x.2 [x.1]))

/-- VECTOR_ACK: a write of v to HST_VEC_ACK (R590). -/
def execVectorAck (port v : Nat) (s : State) : Host.Outcome State Fault Refusal :=
  done (whenOn s (fun s => bar0Write s (port % 2) Reg.hstVecAck (BitVec.ofNat 32 (v % 64))))

/-- PCIE_RESET (R581): the link's speed and width after it, 0 while it is down. -/
def execPcieReset (speed width : Nat) (s : State) : Host.Outcome State Fault Refusal :=
  done (whenOn s (fun s => pcieReset s speed width))

/-- BUS_MASTER_ENABLE (R582): the bit is written; once it is set, what stalled goes on. -/
def execBusMasterEnable (on : Bool) (s : State) : Host.Outcome State Fault Refusal :=
  done (whenOn s (fun s =>
    let s := { s with host := { s.host with busMaster := on } }
    if on then msixRelease s else s))

/-- SPI_READ (R596, R597): a read transaction in which n words were sent. -/
def execSpiRead (cmd addr n : Nat) (s : State) : Host.Outcome State Fault Refusal :=
  done (
    if !spiLive s || !cmd.testBit 7 then s
    else
      let x := readWords (spaceRead cmd) (spiBegin s) (wordOffs (addr / 4 * 4) (spiStep cmd) n)
      respond x.2 x.1)

/-- SPI_WRITE (R596, R598): the bytes of a write transaction. -/
def execSpiWrite (bytes : List Byte) (s : State) : Host.Outcome State Fault Refusal :=
  done (if !spiLive s || (le bytes 0 1).testBit 7 then s else spiWrite s bytes)

/-- DDR_TRAINING_START (R594). -/
def execDdrTrainingStart (port : Nat) (s : State) : Host.Outcome State Fault Refusal :=
  done (whenOn s (fun s => bar0Write s (port % 2) Reg.hstDdrCtrl 1#32))

/-- DDR_TRAINING_STOP (R24). -/
def execDdrTrainingStop (port : Nat) (s : State) : Host.Outcome State Fault Refusal :=
  done (whenOn s (fun s => bar0Write s (port % 2) Reg.hstDdrCtrl 2#32))

/-- DDR_TRAINING_END (R594): ok tells whether the memory answered and a timing setting passed; prog is the percentage
reached. -/
def execDdrTrainingEnd (ok : Bool) (prog : Nat) (s : State) : Host.Outcome State Fault Refusal :=
  done (
    if !opRunning s Reg.hstDdrOpstat then s
    else
      let s := opProgress s Reg.hstDdrOpstat (if ok then 100 else prog % 101)
      let s := if ok then { s with host := { s.host with ddrTrained := true } } else s
      let s := if ok then opEnd s Reg.hstDdrOpstat 2 0 else opEnd s Reg.hstDdrOpstat 3 0x06
      evt s Reg.hstEvents 0x20)

/-- MRAM_WINDOW_WRITE (R592, R593): bytes at window offset w. -/
def execMramWindowWrite (port w : Nat) (data : List Byte) (s : State) : Host.Outcome State Fault Refusal :=
  done (whenOn s (fun s => bar2WriteLen s (port % 2) (0x2000000 + w % 0x2000000) data))

/-- MRAM_WINDOW_READ (R592). -/
def execMramWindowRead (port w len : Nat) (s : State) : Host.Outcome State Fault Refusal :=
  done (whenOn s (fun s =>
    let x := bar2ReadLen s (port % 2) (0x2000000 + w % 0x2000000) len
    respond x.2 x.1))

/-- DDR_WINDOW_ACCESS (R595): a read of len bytes, or a write of bytes, at window offset w. -/
def execDdrWindowAccess (port w len : Nat) (isWrite : Bool) (data : List Byte) (s : State) :
    Host.Outcome State Fault Refusal :=
  done (whenOn s (fun s =>
    let o := 0x1800000 + w % 0x800000
    if isWrite then bar2WriteLen s (port % 2) o data
    else let x := bar2ReadLen s (port % 2) o len; respond x.2 x.1))

/-- MSIX_UNMASK (R590): the endpoint's MSI-X Enable and function mask take these values, and the mask bit of a vector is
cleared. -/
def execMsixUnmask (en fm : Bool) (v : Option Nat) (s : State) : Host.Outcome State Fault Refusal :=
  done (whenOn s (fun s =>
    let was := s.host.msixEn
    let s := { s with host := { s.host with msixEn := en, funcMask := fm } }
    let s := match v with
      | some v => setReg s (0x8000 + 16 * (v % 64) + 12) (setBit (getReg s (0x8000 + 16 * (v % 64) + 12)) 0 false)
      | none => s
    let now := pendingVectors s
    let s := if en && !was then ((List.range 64).filter (fun v => now.testBit v)).foldl sendMsi s else s
    msixRelease s))

end Sys2Proof.Machine
end

