-- ==== Sys2Proof/Machine/StartUp.lean ====
section
/-! DEFINITION. The start-up ladder (R556–R558, R198): the ten steps of Table 19.6, each a function that answers the
machine after it and its reason code, 0 when it passed. -/

namespace Sys2Proof.Machine

/-! ### Steps 1 to 7 -/

/-- Step 1: the reset cause and REF_SEL are latched (R539, R603). -/
def startStep1 (i : StartInputs) (s : State) : State × Nat :=
  ({ setRegN s Reg.pwrResetCause s.pwr.cause with tim := { s.tim with refSel := i.refSel } }, 0)

/-- Step 2: PUF regeneration (R499). -/
def startStep2 (i : StartInputs) (s : State) : State × Nat :=
  let t := pufRegen s i.pufOk i.pufBits
  (t, if t.key.rootOk then 0 else 0x0212)

/-- Step 3: the life-cycle read (R509). -/
def startStep3 (s : State) : State × Nat :=
  let t := keyLoad s
  (t, if t.key.storeBad then 0x0213 else 0)

/-- The starts and resets the lifetime store counts (Table 20.2). -/
def startCounts (s : State) : State :=
  let c := s.pwr.cause
  let s := if c = 0 || c = 2 then lifeBump s 1 1 else s
  let s := if c = 2 then lifeBump s 7 1 else s
  let s := if c = 3 then lifeBump s 8 1 else s
  lifeBump s 2 1

/-- Step 4: the MRAM scan: lifetime store (R571), a pending floor (R570), the capture anchor (R475), and record 0x0244 with
the cause (R539). -/
def startStep4 (i : StartInputs) (s : State) : State × Nat :=
  if !i.mramOk then (s, 0x0214)
  else
    let s := logClearRestart (lifeLoad s)
    let s := startCounts { s with log := { s.log with lifeAt := s.raw / 1000000000 } }
    let store := match s.cap.anchor with | some a => a.2 | none => []
    let s := { s with cap := { s.cap with store := store } }
    (logEvent s 0x0244 0xFFFF (leBytes 1 s.pwr.cause), if i.crcBad then 0x0215 else 0)

/-- Step 5: VCORE to 0.85 V, rails up, the PCIe link may train. -/
def startStep5 (i : StartInputs) (s : State) : State × Nat :=
  if !i.railOk then (s, 0x0216)
  else
    let s := showVcore { s with pce := { s.pce with vcore := 1700 } }
    ({ s with host := { s.host with linkSpeed := i.speed % 16, linkWidth := i.width % 16 } }, 0)

/-- Step 6: pace calibration (R74). A point the inputs do not give counts no step. -/
def startStep6 (i : StartInputs) (s : State) : State × Nat :=
  let t := nextOf s (execPceCalEnd (i.calPts ++ List.replicate 11 []) (pceCalStart s))
  (t, if opState t Reg.pceCalOpstat = 2 then 0 else 0x0217)

/-- Step 7: REF_LOCK (R383). -/
def startStep7 (i : StartInputs) (s : State) : State × Nat :=
  if i.refLock then (refChange s true, 0) else (s, 0x0218)

/-! ### Step 8: autoboot (R198) -/

/-- A LOAD of an MRAM area into slot 0 (source 1 the selected area, 2 the other one), run to its end. -/
def bootLoad (s : State) (source : Nat) : State :=
  let t := plnLoadStart s 0 source
  if opRunning t Reg.plnOpstat then loadRun 0 5 0 5 (loadCopied t 0 (loadImage t [])) else t

/-- The SWAP with S = 0 and APPLY_TEMPLATES, run to its end. -/
def bootSwap (s : State) : State :=
  let t := plnSwapStart s 0 0 true
  match opRunning t Reg.plnOpstat, planAt t 0 with
  | true, some p => swapRun t (enabledTemplates p).length
  | _, _ => t

/-- A LOAD and, if its image stands, the SWAP. -/
def bootImage (s : State) (source : Nat) : State :=
  let t := bootLoad s source
  if (planSlot t 0).st = .loaded then bootSwap t else t

/-- PLN_BOOT with an outcome. -/
def bootShow (s : State) (r : Option SelRec) (result : Nat) : State :=
  match r with
  | none => setRegN s Reg.plnBoot (result * 16)
  | some r =>
    let s := setRegN s Reg.plnBoot (result * 16 + b2n r.fallback * 8 + b2n r.autoboot * 4 + r.area * 2 + 1)
    setRegN (setRegN s Reg.plnBootId r.planId) Reg.plnBootGen r.gen

/-- The outcome of an autoboot: its logbook record and PLN_BOOT. -/
def bootOutcome (s : State) (r : Option SelRec) (result event : Nat) : State :=
  let s := bootShow s r result
  let s := if result = 2 || result = 3 then evt s Reg.plnEvents 0x20 else s
  if event = 0 then s else logEvent s event 0xFFFF []

def autoboot (s : State) : State :=
  let r := selRec s
  match r with
  | none => bootOutcome s r 0 0x0A30
  | some x =>
    if !x.autoboot then bootOutcome s r 4 0x0A30
    else
      let t := bootImage s 1
      if (liveSlot t).isSome then bootOutcome t r 1 0
      else if !x.fallback then bootOutcome t r 3 0x0A32
      else
        let t := bootImage t 2
        if (liveSlot t).isSome then bootOutcome t r 2 0x0A31 else bootOutcome t r 3 0x0A32

def startStep8 (s : State) : State × Nat :=
  let t := autoboot s
  (t, if (liveSlot t).isSome then 0 else 0x0219)

/-! ### Step 9: the boot record (R557) -/

/-- Does an entry name an RW or RWL field outside the KEY block and the ACC records of a register this part has? -/
def bootNames (s : State) (a : Nat) : Bool :=
  let accRec := (0x100000 ≤ a && a < 0x180000) || (0xA8400 ≤ a && a < 0xA8480)
  let key := 0x40000 ≤ a && a < 0x50000
  !accRec && !key && !undecoded a && !absentAt s a &&
    (match findSpec (regSpecsAt a) a with | some r => (r.rw ||| r.rwl) != 0 | none => false)

/-- Writes the entries in order; none where one names no such field or its value fails a range check, which shows as a
refusal in its page. -/
def bootEntries : List (Nat × Word) → State → Option State
  | [], s => some s
  | e :: l, s =>
    let s0 := setReg s (blkBase e.1 + 8) 0#32
    let t := writeReg s0 0 e.1 e.2
    if bootNames s e.1 && getReg t (blkBase e.1 + 8) = 0#32 then
      bootEntries l (setReg t (blkBase e.1 + 8) (getReg s (blkBase e.1 + 8)))
    else none

def startStep9 (s : State) : State × Nat :=
  match bootSelected s with
  | none => (s, 0x021A)
  | some r =>
    match bootEntries r.entries s with
    | some t => (t, 0)
    | none => (s, 0x021A)

/-! ### Step 10: enables -/

/-- The pages of step 10 in order, each with its block code. -/
def startOrder : List Nat :=
  [0x30000, 0xD0000, 0xE0000, 0xE2000, 0xE4000, 0xE6000, 0xE8000, 0xEA000, 0xEC000, 0x50000, 0x40000, 0xF0000, 0x60000, 0xA8000,
   0x80000, 0x88000, 0xA0000, 0x70000, 0xB0000, 0x1C0000, 0x1D0000, 0x1E0000, 0xC0000]

/-- Enables the pages of a list that the mask names; whether one was refused. -/
def startEnables (mask : Nat) : List Nat → State × Bool → State × Bool
  | [], x => x
  | p :: l, (s, bad) =>
    if !mask.testBit (blkCode p) || absentAt s p || gatedAt s p || enabled s p then startEnables mask l (s, bad)
    else
      let t := blkDecide s p false
      startEnables mask l (t, bad || !enabled t p)

/-- Step 10: calibration record (R427), energy record (R446), enables. The mask is a valid record's: one that step 9
skipped sets none. -/
def startStep10 (s : State) : State × Nat :=
  let step9 := regFld s (Reg.pwrStartStep 8) 31 16
  let s := if s.part = .gld9610 then s else energyLoad (calRestore s)
  let mask := if step9 != 0 then 0 else (match bootSelected s with | some r => r.enables | none => 0)
  let x := startEnables mask startOrder (s, false)
  (x.1, if x.2 then 0x021B else 0)

/-! ### The ladder -/

def startStep (i : StartInputs) (n : Nat) (s : State) : State × Nat :=
  if n = 1 then startStep1 i s else if n = 2 then startStep2 i s else if n = 3 then startStep3 s
  else if n = 4 then startStep4 i s else if n = 5 then startStep5 i s else if n = 6 then startStep6 i s
  else if n = 7 then startStep7 i s else if n = 8 then startStep8 s else if n = 9 then startStep9 s
  else startStep10 s

/-- The steps whose failure stops the ladder. -/
def startStops (code : Nat) : Bool := code = 0x0214 || code = 0x0216 || code = 0x0217

/-- Runs up to k steps from s.pwr.ladder to the last one asked for; step 10 waits while the warning is asserted. -/
def ladderRun (i : StartInputs) : Nat → State → State
  | 0, s => s
  | k + 1, s =>
    let n := s.pwr.ladder
    if n = 0 || i.last < n || (n = 10 && s.pwr.warn) then s
    else
      let s := opProgress s Reg.pwrStartOpstat n
      let x := startStep i n s
      let dur := Nat.min 65535 (match i.durs[n - 1]? with | some d => d | none => 0)
      let s := setRegN x.1 (Reg.pwrStartStep (n - 1)) (x.2 * 65536 + dur)
      if startStops x.2 then opEnd (setPwr s { s.pwr with ladder := 0 }) Reg.pwrStartOpstat 3 (x.2 % 256)
      else if n = 10 then opEnd (setPwr s { s.pwr with ladder := 0 }) Reg.pwrStartOpstat 2 0
      else ladderRun i k (setPwr s { s.pwr with ladder := n + 1 })

/-- The start condition (R539): VSYS at or above 9.2 V. Powers the device up; a start on VBACK alone is on backup. -/
def ladderBegin (i : StartInputs) (s : State) : State :=
  let s := setSupplies s i.vmain i.vback i.vsys
  let back := s.pwr.onBackup || (!vmainOk s && vbackOk s)
  let s := setPwr s { s.pwr with onBackup := back, ladder := 1, st := .run }
  opStart s Reg.pwrStartOpstat

/-- START_UP_LADDER (R556): begins the ladder after a reset, or continues one that has begun, up to the last step asked
for. -/
def execStartUpLadder (i : StartInputs) (s : State) : Host.Outcome State Fault Refusal :=
  done (
    if opRunning s Reg.pwrStartOpstat then ladderRun i 10 s
    else if opState s Reg.pwrStartOpstat != 0 || i.vsys < 9200 then s
    else ladderRun i 10 (ladderBegin i s))

end Sys2Proof.Machine
end

