-- ==== Sys2Proof/Machine/Dispatch.lean ====
section
/-! DEFINITION. The dispatch of a command to its meaning. -/

namespace Sys2Proof.Machine

def exec (i : Instr) (s : State) : Host.Outcome State Fault Refusal :=
  match i with
  | .registerWrite port a be v => Sys2Proof.Machine.execRegisterWrite port a be v s
  | .rcFieldRead port a => Sys2Proof.Machine.execRcFieldRead port a s
  | .latchedLowWordRead port a => Sys2Proof.Machine.execLatchedLowWordRead port a s
  | .highWordRead port a => Sys2Proof.Machine.execHighWordRead port a s
  | .statClr port base => Sys2Proof.Machine.execStatClr port base s
  | .blockEnable port base => Sys2Proof.Machine.execBlockEnable port base s
  | .blockCheckEnd check => Sys2Proof.Machine.execBlockCheckEnd check s
  | .blockDisable port base => Sys2Proof.Machine.execBlockDisable port base s
  | .paceWindowEnd counts tj => Sys2Proof.Machine.execPaceWindowEnd counts tj s
  | .pceCfgWrite v => Sys2Proof.Machine.execPceCfgWrite v s
  | .pceCalStart => Sys2Proof.Machine.execPceCalStart s
  | .pceCalStop pts => Sys2Proof.Machine.execPceCalStop pts s
  | .pceCalEnd pts => Sys2Proof.Machine.execPceCalEnd pts s
  | .frameReceive p len flags kind marks arrival sub data => Sys2Proof.Machine.execFrameReceive p len flags kind marks arrival sub data s
  | .admission p auth sv => Sys2Proof.Machine.execAdmission p auth sv s
  | .accessionEnable n v => Sys2Proof.Machine.execAccessionEnable n v s
  | .registrationCheckEnd => Sys2Proof.Machine.execRegistrationCheckEnd s
  | .accessionRetire n v => Sys2Proof.Machine.execAccessionRetire n v s
  | .accAllocRead => Sys2Proof.Machine.execAccAllocRead s
  | .exhibitTimeReached e => Sys2Proof.Machine.execExhibitTimeReached e s
  | .closingTimeReached e => Sys2Proof.Machine.execClosingTimeReached e s
  | .closeEvent e => Sys2Proof.Machine.execCloseEvent e s
  | .sealTimeReached e => Sys2Proof.Machine.execSealTimeReached e s
  | .sealEvent e => Sys2Proof.Machine.execSealEvent e s
  | .exhibitRelease e => Sys2Proof.Machine.execExhibitRelease e s
  | .forceClose => Sys2Proof.Machine.execForceClose s
  | .forceSeal => Sys2Proof.Machine.execForceSeal s
  | .viewBind v w => Sys2Proof.Machine.execViewBind v w s
  | .viewHeaderLatch port v => Sys2Proof.Machine.execViewHeaderLatch port v s
  | .vaultWindowWrite off v => Sys2Proof.Machine.execVaultWindowWrite off v s
  | .plnLoad v => Sys2Proof.Machine.execPlnLoad v s
  | .plnStop n => Sys2Proof.Machine.execPlnStop n s
  | .plnLoadEnd data err reach => Sys2Proof.Machine.execPlnLoadEnd data err reach s
  | .plnDataWrite v => Sys2Proof.Machine.execPlnDataWrite v s
  | .plnSwap v => Sys2Proof.Machine.execPlnSwap v s
  | .plnSwapEnd => Sys2Proof.Machine.execPlnSwapEnd s
  | .withdraw => Sys2Proof.Machine.execWithdraw s
  | .discard slot => Sys2Proof.Machine.execDiscard slot s
  | .plnCommit v => Sys2Proof.Machine.execPlnCommit v s
  | .plnCommitEnd ok n => Sys2Proof.Machine.execPlnCommitEnd ok n s
  | .add d fe => Sys2Proof.Machine.execAdd d fe s
  | .sub d fe => Sys2Proof.Machine.execSub d fe s
  | .and d fe => Sys2Proof.Machine.execAnd d fe s
  | .or d fe => Sys2Proof.Machine.execOr d fe s
  | .xor d fe => Sys2Proof.Machine.execXor d fe s
  | .andn d fe => Sys2Proof.Machine.execAndn d fe s
  | .shl d fe => Sys2Proof.Machine.execShl d fe s
  | .shr d fe => Sys2Proof.Machine.execShr d fe s
  | .sar d fe => Sys2Proof.Machine.execSar d fe s
  | .mul d fe => Sys2Proof.Machine.execMul d fe s
  | .mulh d fe => Sys2Proof.Machine.execMulh d fe s
  | .mulhu d fe => Sys2Proof.Machine.execMulhu d fe s
  | .div d fe => Sys2Proof.Machine.execDiv d fe s
  | .divu d fe => Sys2Proof.Machine.execDivu d fe s
  | .rem d fe => Sys2Proof.Machine.execRem d fe s
  | .remu d fe => Sys2Proof.Machine.execRemu d fe s
  | .min d fe => Sys2Proof.Machine.execMin d fe s
  | .max d fe => Sys2Proof.Machine.execMax d fe s
  | .minu d fe => Sys2Proof.Machine.execMinu d fe s
  | .maxu d fe => Sys2Proof.Machine.execMaxu d fe s
  | .clz d fe => Sys2Proof.Machine.execClz d fe s
  | .ctz d fe => Sys2Proof.Machine.execCtz d fe s
  | .popc d fe => Sys2Proof.Machine.execPopc d fe s
  | .sext32 d fe => Sys2Proof.Machine.execSext32 d fe s
  | .zext32 d fe => Sys2Proof.Machine.execZext32 d fe s
  | .eq d fe => Sys2Proof.Machine.execEq d fe s
  | .ne d fe => Sys2Proof.Machine.execNe d fe s
  | .lt d fe => Sys2Proof.Machine.execLt d fe s
  | .ge d fe => Sys2Proof.Machine.execGe d fe s
  | .ltu d fe => Sys2Proof.Machine.execLtu d fe s
  | .geu d fe => Sys2Proof.Machine.execGeu d fe s
  | .feq d fe => Sys2Proof.Machine.execFeq d fe s
  | .flt d fe => Sys2Proof.Machine.execFlt d fe s
  | .fle d fe => Sys2Proof.Machine.execFle d fe s
  | .fun d fe => Sys2Proof.Machine.execFun d fe s
  | .pand d fe => Sys2Proof.Machine.execPand d fe s
  | .por d fe => Sys2Proof.Machine.execPor d fe s
  | .pxor d fe => Sys2Proof.Machine.execPxor d fe s
  | .pandn d fe => Sys2Proof.Machine.execPandn d fe s
  | .pnot d fe => Sys2Proof.Machine.execPnot d fe s
  | .pget d fe => Sys2Proof.Machine.execPget d fe s
  | .pset d fe => Sys2Proof.Machine.execPset d fe s
  | .sel d fe => Sys2Proof.Machine.execSel d fe s
  | .fadd d fe => Sys2Proof.Machine.execFadd d fe s
  | .fsub d fe => Sys2Proof.Machine.execFsub d fe s
  | .fmul d fe => Sys2Proof.Machine.execFmul d fe s
  | .fdiv d fe => Sys2Proof.Machine.execFdiv d fe s
  | .fsqrt d fe => Sys2Proof.Machine.execFsqrt d fe s
  | .fmin d fe => Sys2Proof.Machine.execFmin d fe s
  | .fmax d fe => Sys2Proof.Machine.execFmax d fe s
  | .fmac d fe => Sys2Proof.Machine.execFmac d fe s
  | .fabs d fe => Sys2Proof.Machine.execFabs d fe s
  | .fneg d fe => Sys2Proof.Machine.execFneg d fe s
  | .fcvtDS d fe => Sys2Proof.Machine.execFcvtDS d fe s
  | .fcvtSD d fe => Sys2Proof.Machine.execFcvtSD d fe s
  | .fcvtSL d fe => Sys2Proof.Machine.execFcvtSL d fe s
  | .fcvtDL d fe => Sys2Proof.Machine.execFcvtDL d fe s
  | .fcvtLS d fe => Sys2Proof.Machine.execFcvtLS d fe s
  | .fcvtLD d fe => Sys2Proof.Machine.execFcvtLD d fe s
  | .addi d fe => Sys2Proof.Machine.execAddi d fe s
  | .andi d fe => Sys2Proof.Machine.execAndi d fe s
  | .ori d fe => Sys2Proof.Machine.execOri d fe s
  | .xori d fe => Sys2Proof.Machine.execXori d fe s
  | .shli d fe => Sys2Proof.Machine.execShli d fe s
  | .shri d fe => Sys2Proof.Machine.execShri d fe s
  | .sari d fe => Sys2Proof.Machine.execSari d fe s
  | .movi d fe => Sys2Proof.Machine.execMovi d fe s
  | .movk d fe => Sys2Proof.Machine.execMovk d fe s
  | .cmpiEq d fe => Sys2Proof.Machine.execCmpiEq d fe s
  | .cmpiLt d fe => Sys2Proof.Machine.execCmpiLt d fe s
  | .cmpiLtu d fe => Sys2Proof.Machine.execCmpiLtu d fe s
  | .brp d fe => Sys2Proof.Machine.execBrp d fe s
  | .jal d fe => Sys2Proof.Machine.execJal d fe s
  | .jr d fe => Sys2Proof.Machine.execJr d fe s
  | .ldb d fe me => Sys2Proof.Machine.execLdb d fe me s
  | .ldh d fe me => Sys2Proof.Machine.execLdh d fe me s
  | .ldw d fe me => Sys2Proof.Machine.execLdw d fe me s
  | .ldd d fe me => Sys2Proof.Machine.execLdd d fe me s
  | .ldbs d fe me => Sys2Proof.Machine.execLdbs d fe me s
  | .ldhs d fe me => Sys2Proof.Machine.execLdhs d fe me s
  | .ldws d fe me => Sys2Proof.Machine.execLdws d fe me s
  | .stb d fe => Sys2Proof.Machine.execStb d fe s
  | .sth d fe => Sys2Proof.Machine.execSth d fe s
  | .stw d fe => Sys2Proof.Machine.execStw d fe s
  | .std d fe => Sys2Proof.Machine.execStd d fe s
  | .vldl d fe me => Sys2Proof.Machine.execVldl d fe me s
  | .vstl d fe => Sys2Proof.Machine.execVstl d fe s
  | .vadd d fe => Sys2Proof.Machine.execVadd d fe s
  | .vsub d fe => Sys2Proof.Machine.execVsub d fe s
  | .vmul d fe => Sys2Proof.Machine.execVmul d fe s
  | .vmac d fe => Sys2Proof.Machine.execVmac d fe s
  | .vmin d fe => Sys2Proof.Machine.execVmin d fe s
  | .vmax d fe => Sys2Proof.Machine.execVmax d fe s
  | .vsum d fe => Sys2Proof.Machine.execVsum d fe s
  | .vbcast d fe => Sys2Proof.Machine.execVbcast d fe s
  | .vext d fe => Sys2Proof.Machine.execVext d fe s
  | .vins d fe => Sys2Proof.Machine.execVins d fe s
  | .vzero d fe => Sys2Proof.Machine.execVzero d fe s
  | .vmov d fe => Sys2Proof.Machine.execVmov d fe s
  | .vscale d fe => Sys2Proof.Machine.execVscale d fe s
  | .cadd d fe => Sys2Proof.Machine.execCadd d fe s
  | .csub d fe => Sys2Proof.Machine.execCsub d fe s
  | .cmul d fe => Sys2Proof.Machine.execCmul d fe s
  | .cmulj d fe => Sys2Proof.Machine.execCmulj d fe s
  | .cmac d fe => Sys2Proof.Machine.execCmac d fe s
  | .cconj d fe => Sys2Proof.Machine.execCconj d fe s
  | .cabs d fe => Sys2Proof.Machine.execCabs d fe s
  | .carg d fe => Sys2Proof.Machine.execCarg d fe s
  | .crot d fe => Sys2Proof.Machine.execCrot d fe s
  | .csum d fe => Sys2Proof.Machine.execCsum d fe s
  | .vldd d fe => Sys2Proof.Machine.execVldd d fe s
  | .vldv d fe => Sys2Proof.Machine.execVldv d fe s
  | .tblw d fe => Sys2Proof.Machine.execTblw d fe s
  | .tbld d fe => Sys2Proof.Machine.execTbld d fe s
  | .tblv d fe => Sys2Proof.Machine.execTblv d fe s
  | .lga d fe => Sys2Proof.Machine.execLga d fe s
  | .lgaf d fe => Sys2Proof.Machine.execLgaf d fe s
  | .lgas d fe => Sys2Proof.Machine.execLgas d fe s
  | .raise d fe => Sys2Proof.Machine.execRaise d fe s
  | .nop d fe => Sys2Proof.Machine.execNop d fe s
  | .yield d fe => Sys2Proof.Machine.execYield d fe s
  | .done d fe => Sys2Proof.Machine.execDone d fe s
  | .fence d fe => Sys2Proof.Machine.execFence d fe s
  | .abort d fe => Sys2Proof.Machine.execAbort d fe s
  | .rdsys d fe => Sys2Proof.Machine.execRdsys d fe s
  | .illegalInstruction d fe => Sys2Proof.Machine.execIllegalInstruction d fe s
  | .dramWindowRead port d me => Sys2Proof.Machine.execDramWindowRead port d me s
  | .dramWindowWrite d v => Sys2Proof.Machine.execDramWindowWrite d v s
  | .iramWindowRead d me => Sys2Proof.Machine.execIramWindowRead d me s
  | .jobPlace => Sys2Proof.Machine.execJobPlace s
  | .heldLandingCommit l => Sys2Proof.Machine.execHeldLandingCommit l s
  | .eventFifoRaise l => Sys2Proof.Machine.execEventFifoRaise l s
  | .timerFire t => Sys2Proof.Machine.execTimerFire t s
  | .timerPendingRaise l => Sys2Proof.Machine.execTimerPendingRaise l s
  | .heldHiashJobRaise l => Sys2Proof.Machine.execHeldHiashJobRaise l s
  | .doorbell port tour => Sys2Proof.Machine.execDoorbell port tour s
  | .reductionEnd ns steps => Sys2Proof.Machine.execReductionEnd ns steps s
  | .keepSetCopied b => Sys2Proof.Machine.execKeepSetCopied b s
  | .bankCleared b => Sys2Proof.Machine.execBankCleared b s
  | .pinPulseEnd p => Sys2Proof.Machine.execPinPulseEnd p s
  | .pinClear v => Sys2Proof.Machine.execPinClear v s
  | .pinForce v => Sys2Proof.Machine.execPinForce v s
  | .gooseRetransmit t => Sys2Proof.Machine.execGooseRetransmit t s
  | .urgentAlarmReceived p auth => Sys2Proof.Machine.execUrgentAlarmReceived p auth s
  | .urgentTriggerReceived p auth => Sys2Proof.Machine.execUrgentTriggerReceived p auth s
  | .absenceDigestReceived p auth => Sys2Proof.Machine.execAbsenceDigestReceived p auth s
  | .exhibitCloseReceived p auth => Sys2Proof.Machine.execExhibitCloseReceived p auth s
  | .exhibitSealedReceived p auth => Sys2Proof.Machine.execExhibitSealedReceived p auth s
  | .addendumReceived p auth => Sys2Proof.Machine.execAddendumReceived p auth s
  | .archiveMessageReceived p auth => Sys2Proof.Machine.execArchiveMessageReceived p auth s
  | .helloReceived p auth => Sys2Proof.Machine.execHelloReceived p auth s
  | .dupNoticeReceived p auth => Sys2Proof.Machine.execDupNoticeReceived p auth s
  | .controlMessageReceived p auth => Sys2Proof.Machine.execControlMessageReceived p auth s
  | .helloSend => Sys2Proof.Machine.execHelloSend s
  | .absenceEntryFree n => Sys2Proof.Machine.execAbsenceEntryFree n s
  | .absenceOverflowWindow => Sys2Proof.Machine.execAbsenceOverflowWindow s
  | .relayEntryFree => Sys2Proof.Machine.execRelayEntryFree s
  | .absenceClear => Sys2Proof.Machine.execAbsenceClear s
  | .frameTransmit p cls start at8 => Sys2Proof.Machine.execFrameTransmit p cls start at8 s
  | .holdEnd p => Sys2Proof.Machine.execHoldEnd p s
  | .verifyMpacketTimer p => Sys2Proof.Machine.execVerifyMpacketTimer p s
  | .respondMpacketReceived p => Sys2Proof.Machine.execRespondMpacketReceived p s
  | .pauseReceived p quanta => Sys2Proof.Machine.execPauseReceived p quanta s
  | .pfcReceived p mask quanta => Sys2Proof.Machine.execPfcReceived p mask quanta s
  | .pauseExpire p => Sys2Proof.Machine.execPauseExpire p s
  | .pauseRenew p => Sys2Proof.Machine.execPauseRenew p s
  | .t1sCollision p cls late => Sys2Proof.Machine.execT1sCollision p cls late s
  | .plcaBeacon p => Sys2Proof.Machine.execPlcaBeacon p s
  | .plcaInactive p => Sys2Proof.Machine.execPlcaInactive p s
  | .linkDown p => Sys2Proof.Machine.execLinkDown p s
  | .linkUp p => Sys2Proof.Machine.execLinkUp p s
  | .pushStart port q len => Sys2Proof.Machine.execPushStart port q len s
  | .pushReserved port q => Sys2Proof.Machine.execPushReserved port q s
  | .pushDataWrite port q v => Sys2Proof.Machine.execPushDataWrite port q v s
  | .pushEnd port q => Sys2Proof.Machine.execPushEnd port q s
  | .pop port q => Sys2Proof.Machine.execPop port q s
  | .popWaitEnd => Sys2Proof.Machine.execPopWaitEnd s
  | .popDataRead port q => Sys2Proof.Machine.execPopDataRead port q s
  | .queueDone port q => Sys2Proof.Machine.execQueueDone port q s
  | .queueEnable v => Sys2Proof.Machine.execQueueEnable v s
  | .queueDisable v => Sys2Proof.Machine.execQueueDisable v s
  | .producerWaitCommit => Sys2Proof.Machine.execProducerWaitCommit s
  | .domainRate port d v => Sys2Proof.Machine.execDomainRate port d v s
  | .domainStep port d v => Sys2Proof.Machine.execDomainStep port d v s
  | .domainErr port d v => Sys2Proof.Machine.execDomainErr port d v s
  | .domainReacquire port d v => Sys2Proof.Machine.execDomainReacquire port d v s
  | .domainUpdateTimeout d => Sys2Proof.Machine.execDomainUpdateTimeout d s
  | .domainLost d => Sys2Proof.Machine.execDomainLost d s
  | .ppsInEdge rising sub => Sys2Proof.Machine.execPpsInEdge rising sub s
  | .irigFrame marker sub time control binary => Sys2Proof.Machine.execIrigFrame marker sub time control binary s
  | .ppsSourceTimeout d => Sys2Proof.Machine.execPpsSourceTimeout d s
  | .ppsMissing => Sys2Proof.Machine.execPpsMissing s
  | .select v => Sys2Proof.Machine.execSelect v s
  | .slewEnd => Sys2Proof.Machine.execSlewEnd s
  | .autoSwitchRetry => Sys2Proof.Machine.execAutoSwitchRetry s
  | .domainCompare => Sys2Proof.Machine.execDomainCompare s
  | .refclkLost => Sys2Proof.Machine.execRefclkLost s
  | .refclkLock => Sys2Proof.Machine.execRefclkLock s
  | .leapEntryWrite k v => Sys2Proof.Machine.execLeapEntryWrite k v s
  | .ppsOutEdge => Sys2Proof.Machine.execPpsOutEdge s
  | .ppsOutEnd => Sys2Proof.Machine.execPpsOutEnd s
  | .txtsPop port p => Sys2Proof.Machine.execTxtsPop port p s
  | .domainSetLatch port d => Sys2Proof.Machine.execDomainSetLatch port d s
  | .channelOutputSample c x ovr sub => Sys2Proof.Machine.execChannelOutputSample c x ovr sub s
  | .afeCommit v => Sys2Proof.Machine.execAfeCommit v s
  | .fltSwap port v => Sys2Proof.Machine.execFltSwap port v s
  | .coefficientWrite c b t v => Sys2Proof.Machine.execCoefficientWrite c b t v s
  | .openWireStart v => Sys2Proof.Machine.execOpenWireStart v s
  | .openWireStop => Sys2Proof.Machine.execOpenWireStop s
  | .openWireChannelEnd fund => Sys2Proof.Machine.execOpenWireChannelEnd fund s
  | .afeCalStart v => Sys2Proof.Machine.execAfeCalStart v s
  | .afeCalStop => Sys2Proof.Machine.execAfeCalStop s
  | .afeCalEnd => Sys2Proof.Machine.execAfeCalEnd s
  | .afeCalSave => Sys2Proof.Machine.execAfeCalSave s
  | .lCfgWrite m v => Sys2Proof.Machine.execLCfgWrite m v s
  | .localEstimate m e phasors freq refLow => Sys2Proof.Machine.execLocalEstimate m e phasors freq refLow s
  | .powerStep endAt q => Sys2Proof.Machine.execPowerStep endAt q s
  | .pulseEnd n => Sys2Proof.Machine.execPulseEnd n s
  | .pulseEnable n v => Sys2Proof.Machine.execPulseEnable n v s
  | .pulseDisable n v => Sys2Proof.Machine.execPulseDisable n v s
  | .energyCommit => Sys2Proof.Machine.execEnergyCommit s
  | .energyCommitEnd ok => Sys2Proof.Machine.execEnergyCommitEnd ok s
  | .zcLost c => Sys2Proof.Machine.execZcLost c s
  | .intValRead port e k => Sys2Proof.Machine.execIntValRead port e k s
  | .rocEvaluation t => Sys2Proof.Machine.execRocEvaluation t s
  | .triggerBusEdge n sub rising => Sys2Proof.Machine.execTriggerBusEdge n sub rising s
  | .busDrive => Sys2Proof.Machine.execBusDrive s
  | .busPulseEnd n => Sys2Proof.Machine.execBusPulseEnd n s
  | .capForce => Sys2Proof.Machine.execCapForce s
  | .capRearm => Sys2Proof.Machine.execCapRearm s
  | .capRelease => Sys2Proof.Machine.execCapRelease s
  | .recordEnd => Sys2Proof.Machine.execRecordEnd s
  | .recordStored => Sys2Proof.Machine.execRecordStored s
  | .capRdDataRead => Sys2Proof.Machine.execCapRdDataRead s
  | .archiveBlockStart => Sys2Proof.Machine.execArchiveBlockStart s
  | .archiveBlockCommit pay => Sys2Proof.Machine.execArchiveBlockCommit pay s
  | .arcCompress port => Sys2Proof.Machine.execArcCompress port s
  | .arcDecompress port => Sys2Proof.Machine.execArcDecompress port s
  | .arcSave port => Sys2Proof.Machine.execArcSave port s
  | .arcRestore port => Sys2Proof.Machine.execArcRestore port s
  | .arcJobStop => Sys2Proof.Machine.execArcJobStop s
  | .arcJobEnd src emit busErr => Sys2Proof.Machine.execArcJobEnd src emit busErr s
  | .keyWorkingKey port => Sys2Proof.Machine.execKeyWorkingKey port s
  | .keyErase port => Sys2Proof.Machine.execKeyErase port s
  | .keyTake port => Sys2Proof.Machine.execKeyTake port s
  | .keyReturn port => Sys2Proof.Machine.execKeyReturn port s
  | .keyVoid port => Sys2Proof.Machine.execKeyVoid port s
  | .keyLogClear port => Sys2Proof.Machine.execKeyLogClear port s
  | .keyEnroll port => Sys2Proof.Machine.execKeyEnroll port s
  | .keyStop phase => Sys2Proof.Machine.execKeyStop phase s
  | .keyCommitEnd ok => Sys2Proof.Machine.execKeyCommitEnd ok s
  | .twinTake level => Sys2Proof.Machine.execTwinTake level s
  | .takeoverGapEnd => Sys2Proof.Machine.execTakeoverGapEnd s
  | .twinHbToggle => Sys2Proof.Machine.execTwinHbToggle s
  | .twinLand p auth => Sys2Proof.Machine.execTwinLand p auth s
  | .twinMark p auth => Sys2Proof.Machine.execTwinMark p auth s
  | .twinJob p auth => Sys2Proof.Machine.execTwinJob p auth s
  | .twinCtrl p auth => Sys2Proof.Machine.execTwinCtrl p auth s
  | .twinDigest p auth => Sys2Proof.Machine.execTwinDigest p auth s
  | .twinTaken p auth => Sys2Proof.Machine.execTwinTaken p auth s
  | .twinHello p auth => Sys2Proof.Machine.execTwinHello p auth s
  | .deferredExpire => Sys2Proof.Machine.execDeferredExpire s
  | .demote => Sys2Proof.Machine.execDemote s
  | .vmainLoss vmain vback vsys => Sys2Proof.Machine.execVmainLoss vmain vback vsys s
  | .vmainReturn vmain vback vsys => Sys2Proof.Machine.execVmainReturn vmain vback vsys s
  | .powerWarning vmain vback vsys phase => Sys2Proof.Machine.execPowerWarning vmain vback vsys phase s
  | .braceEnd ok => Sys2Proof.Machine.execBraceEnd ok s
  | .warningEnd vmain vback vsys low => Sys2Proof.Machine.execWarningEnd vmain vback vsys low s
  | .dipRecordWrite => Sys2Proof.Machine.execDipRecordWrite s
  | .brownOut vmain vback vsys => Sys2Proof.Machine.execBrownOut vmain vback vsys s
  | .thermalReset tj => Sys2Proof.Machine.execThermalReset tj s
  | .softReset => Sys2Proof.Machine.execSoftReset s
  | .keepOvercurrent => Sys2Proof.Machine.execKeepOvercurrent s
  | .resetN => Sys2Proof.Machine.execResetN s
  | .startUpLadder ins => Sys2Proof.Machine.execStartUpLadder ins s
  | .idleEvaluation => Sys2Proof.Machine.execIdleEvaluation s
  | .napRequest port => Sys2Proof.Machine.execNapRequest port s
  | .keepRequest port => Sys2Proof.Machine.execKeepRequest port s
  | .wakeRequest port => Sys2Proof.Machine.execWakeRequest port s
  | .wakeEvent kind p => Sys2Proof.Machine.execWakeEvent kind p s
  | .deadlineWake => Sys2Proof.Machine.execDeadlineWake s
  | .powerTransitionEnd pufOk bits speed width => Sys2Proof.Machine.execPowerTransitionEnd pufOk bits speed width s
  | .blockGate v => Sys2Proof.Machine.execBlockGate v s
  | .offlineAccess port a isWrite => Sys2Proof.Machine.execOfflineAccess port a isWrite s
  | .bootrecStart => Sys2Proof.Machine.execBootrecStart s
  | .bootrecErase => Sys2Proof.Machine.execBootrecErase s
  | .bootrecEnd data err ok => Sys2Proof.Machine.execBootrecEnd data err ok s
  | .logRecordWrite => Sys2Proof.Machine.execLogRecordWrite s
  | .logWindowLatch port => Sys2Proof.Machine.execLogWindowLatch port s
  | .logAutoAdvance port => Sys2Proof.Machine.execLogAutoAdvance port s
  | .lifetimeCommit ok => Sys2Proof.Machine.execLifetimeCommit ok s
  | .logClearPass => Sys2Proof.Machine.execLogClearPass s
  | .undecodedAccess port a isWrite => Sys2Proof.Machine.execUndecodedAccess port a isWrite s
  | .vectorAck port v => Sys2Proof.Machine.execVectorAck port v s
  | .pcieReset speed width => Sys2Proof.Machine.execPcieReset speed width s
  | .busMasterEnable on => Sys2Proof.Machine.execBusMasterEnable on s
  | .spiRead cmd addr n => Sys2Proof.Machine.execSpiRead cmd addr n s
  | .spiWrite bytes => Sys2Proof.Machine.execSpiWrite bytes s
  | .ddrTrainingStart port => Sys2Proof.Machine.execDdrTrainingStart port s
  | .ddrTrainingStop port => Sys2Proof.Machine.execDdrTrainingStop port s
  | .ddrTrainingEnd ok prog => Sys2Proof.Machine.execDdrTrainingEnd ok prog s
  | .mramWindowWrite port w data => Sys2Proof.Machine.execMramWindowWrite port w data s
  | .mramWindowRead port w len => Sys2Proof.Machine.execMramWindowRead port w len s
  | .ddrWindowAccess port w len isWrite data => Sys2Proof.Machine.execDdrWindowAccess port w len isWrite data s
  | .vbackLoss vback vsys => Sys2Proof.Machine.execVbackLoss vback vsys s
  | .vioLoss b => Sys2Proof.Machine.execVioLoss b s
  | .vioReturn b => Sys2Proof.Machine.execVioReturn b s
  | .backgroundScrub d me => Sys2Proof.Machine.execBackgroundScrub d me s
  | .msixUnmask en fm v => Sys2Proof.Machine.execMsixUnmask en fm v s

end Sys2Proof.Machine
end

