-- ==== Sys2Proof/Machine/Step.lean ====
section
/-! DEFINITION. One step of the block: the command at the front of the queue, or, on an empty queue, one
nanosecond of the raw counter (log entry 1). -/

namespace Sys2Proof.Machine

/-- On an empty queue RAW counts one nanosecond (R381, log entry 1). -/
def idle (s : State) : State := if s.pwr.st = .off then s else { s with raw := (s.raw + 1) % 2 ^ 64 }

/-- The command at the front of the queue is taken and executed with the queue's rest. -/
def step (s : State) : Host.Outcome State Fault Refusal :=
  match s.pending with
  | [] => .next (idle s)
  | c :: r => exec c { s with pending := r }

/-- The state with the command a word spells in front of its queue. -/
def State.withFetchWord (s : State) (nbits w : Nat) : State :=
  match decodeTableWord nbits w with
  | none => s
  | some c => { s with pending := c :: s.pending }

end Sys2Proof.Machine
end

