-- ==== Sys2Proof/Safety.lean ====
section
/-! DEFINITION. What the statements about this machine speak of: the areas of the state and what leaves them alone,
the well-formed states, and a command that completes. -/

namespace Sys2Proof.Machine

/-- The areas of the state: one per chapter, the register file, RAW and the counter of free values. -/
inductive Area where
  | regs
  | host
  | log
  | tim
  | pce
  | que
  | pwr
  | eth
  | pln
  | acc
  | vlt
  | dsp
  | doc
  | vrd
  | key
  | hsh
  | arc
  | twn
  | afe
  | nrg
  | cap
  | freeCount
  | raw
  deriving DecidableEq, Repr

/-- The number of an area in a bit mask of areas. -/
def Area.bit : Area → Nat
  | .regs => 0
  | .host => 1
  | .log => 2
  | .tim => 3
  | .pce => 4
  | .que => 5
  | .pwr => 6
  | .eth => 7
  | .pln => 8
  | .acc => 9
  | .vlt => 10
  | .dsp => 11
  | .doc => 12
  | .vrd => 13
  | .key => 14
  | .hsh => 15
  | .arc => 16
  | .twn => 17
  | .afe => 18
  | .nrg => 19
  | .cap => 20
  | .freeCount => 21
  | .raw => 22

/-- Two states agree on an area. -/
def Area.same (a : Area) (s t : State) : Prop :=
  match a with
  | .regs => t.regs = s.regs
  | .host => t.host = s.host
  | .log => t.log = s.log
  | .tim => t.tim = s.tim
  | .pce => t.pce = s.pce
  | .que => t.que = s.que
  | .pwr => t.pwr = s.pwr
  | .eth => t.eth = s.eth
  | .pln => t.pln = s.pln
  | .acc => t.acc = s.acc
  | .vlt => t.vlt = s.vlt
  | .dsp => t.dsp = s.dsp
  | .doc => t.doc = s.doc
  | .vrd => t.vrd = s.vrd
  | .key => t.key = s.key
  | .hsh => t.hsh = s.hsh
  | .arc => t.arc = s.arc
  | .twn => t.twn = s.twn
  | .afe => t.afe = s.afe
  | .nrg => t.nrg = s.nrg
  | .cap => t.cap = s.cap
  | .freeCount => t.freeCount = s.freeCount
  | .raw => t.raw = s.raw

/-- From s to t nothing changed outside the areas of the list; the part and the queue of commands never do. -/
def SameBut (l : List Area) (s t : State) : Prop :=
  t.part = s.part ∧ t.pending = s.pending ∧ ∀ a : Area, a ∉ l → a.same s t

/-- From s to t every register reads as before but those at the listed offsets of BAR0. -/
def SameRegs (l : List Nat) (s t : State) : Prop := ∀ a : Nat, a ∉ l → getReg t a = getReg s a

/-- Registers any event may change beside its own: HST_CNT 5 (messages sent, R590), LOG_EVENTS and LOG_CNT LOST (an
event lost, R563), and the SAT flags of HST and LOG (R26). -/
def sideRegs : List Nat := [4, Reg.hstCnt 5, Reg.logEvents, Reg.logCnt 2, 0x50004]

/-- The outcome is a next state, and the next state has the property. -/
def Answers (o : Host.Outcome State Fault Refusal) (P : State → Prop) : Prop := ∃ t, o = .next t ∧ P t

/-- A set-point of the core supply: 600 to 850 mV in steps of 2.5 mV, in half millivolts (R62, R63). -/
def vcoreOk (v : Nat) : Prop := 1200 ≤ v ∧ v ≤ 1700 ∧ v % 5 = 0

/-- The well-formed states: every sparse store is in its canonical form (rising keys, no entry equal to what an
unlisted key reads as), the staging FIFO holds at most 64 events (R563), both set-points of the core supply are
legal (R62, R63), the reserve of the vault stays within its 512 pages (R149), and every exhibit record stands under its
own index. -/
structure State.wf (s : State) : Prop where
  regs : smWf regReset s.regs = true
  iram : smWf (fun _ => 0#32) s.doc.iram = true
  dram : smWf (fun _ => 0#8) s.doc.dram = true
  mram : smWf (fun _ => 0#8) s.host.mram = true
  ddr : smWf (fun _ => 0#8) s.host.ddr = true
  hostMem : smWf (fun _ => 0#8) s.host.hostMem = true
  fifo : s.log.fifo.length ≤ 64
  vcore : vcoreOk s.pce.vcore
  cap : vcoreOk s.pce.cap
  reserve : s.vlt.reserve ≤ 512
  own : s.vlt.ex.all (fun p => decide (p.2.index = p.1)) = true

/-- A statistics counter after one more event: it stops at its limit (R26). -/
def counted (w : Word) : Word := if w = 0xFFFFFFFF#32 then w else w + 1#32

/-! ### A docent's instruction (chapter 6) -/

/-- The wait of a context, if it is the wait of a VLD, is over: its exhibit has had its close event (R217). -/
def waitOver (s : State) (c : JobCtx) : Prop :=
  match c.wait with
  | .vld i => ∀ x, getEx s i = some x → x.st ≠ .opened ∧ x.st ≠ .closing
  | _ => True

/-- Docent d is about to execute w, the instruction word at the PC of its running job, whose context is c, at a cost
of n steps that the job's budget still allows (R204, R233, R234). -/
structure AtWord (s : State) (d : Nat) (c : JobCtx) (w n : Nat) : Prop where
  slot : slotCtx (docentOf s d) (docentOf s d).active = some c
  wait : waitOver s c
  pc : c.pc ≤ 0x3FFC
  word : iramAt s d c.job.slot c.pc = w
  defined_ : wordOk w = true
  budget : c.steps + n ≤ stepBudget s c.job

/-- The machine after the fetch of a word: a single-bit error found (fe 1) is corrected and counted (R205). -/
def fetched (s : State) (fe : Nat) : State := if fe = 1 then memCorrected s else s

/-- From s to t docent d's running job takes the context c but for its PC, its step count and its wait, n steps being
counted for the job and for the docent; nothing else changes (R233). -/
structure Executed (s t : State) (d : Nat) (c : JobCtx) (pc n : Nat) : Prop where
  active : (docentOf t d).active = (docentOf s d).active
  ctx : slotCtx (docentOf t d) (docentOf s d).active =
    some { c with pc := pc, steps := c.steps + n, wait := .ready }
  other : slotCtx (docentOf t d) (1 - (docentOf s d).active) = slotCtx (docentOf s d) (1 - (docentOf s d).active)
  steps : (docentOf t d).steps = ((docentOf s d).steps + n) % 2 ^ 64
  docents : ∀ d', d' ≠ d → docentOf t d' = docentOf s d'
  iram : t.doc.iram = s.doc.iram
  dram : t.doc.dram = s.doc.dram
  frame : SameBut [.doc] s t

/-- From s to t the running job of docent d leaves its local slot; the other slot and every other docent keep what
they hold (R236). -/
structure Vacated (s t : State) (d : Nat) : Prop where
  gone : slotCtx (docentOf t d) (docentOf s d).active = none
  other : slotCtx (docentOf t d) (1 - (docentOf s d).active) = slotCtx (docentOf s d) (1 - (docentOf s d).active)
  docents : ∀ d', d' ≠ d → docentOf t d' = docentOf s d'
  iram : t.doc.iram = s.doc.iram
  dram : t.doc.dram = s.doc.dram

/-- From s to t the job of context c, of docent d, faults with a code (R236, R237): it leaves its slot; words 0 to 4 of
the fault record (section 6.12), and word 5 where the spec names the operand, stand in the docent's own registers and
in DOC_LAST_FAULT; the fault is counted under its code, among all faults and for its docent; DOC_EVENTS.FAULT is
set. -/
structure Faulted (s t : State) (d : Nat) (c : JobCtx) (code user : Nat) (opd : Option Nat) : Prop where
  vacated : Vacated s t d
  words : ∀ k, k < 5 → ∀ w, (faultWords d c code user 0)[k]? = some w →
    getReg t (Reg.docState d + 0x60 + 4 * k) = BitVec.ofNat 32 w ∧ getReg t (Reg.docLastFault k) = BitVec.ofNat 32 w
  operand : ∀ o, opd = some o →
    getReg t (Reg.docState d + 0x74) = BitVec.ofNat 32 o ∧ getReg t (Reg.docLastFault 5) = BitVec.ofNat 32 o
  byCode : getReg t (Reg.docCnt (code - 0x1201)) = counted (getReg s (Reg.docCnt (code - 0x1201)))
  all : getReg t (Reg.docCnt 17) = counted (getReg s (Reg.docCnt 17))
  byDocent : getReg t (Reg.docState d + 0x84) = counted (getReg s (Reg.docState d + 0x84))
  event : regBit t Reg.docEvents 0 = true

/-- The command i executes every word of a form at a cost of n steps: whatever docent runs the word, within its budget,
its job goes on with the context r gives, at the next word (R204, R233). -/
def RunsAs (i : Nat → Nat → Instr) (form : Nat → Bool) (n : Nat) (r : JobCtx → Nat → JobCtx) : Prop :=
  ∀ (s : State) (d fe : Nat) (c : JobCtx) (w : Nat), fe < 2 → AtWord s d c w n → form w = true →
    Answers (exec (i d fe) s) (fun t => Executed (fetched s fe) t d (r c w) (c.pc + 4) n)

/-- The command writes a result to the general register RD names (to g0: nothing, R202). -/
def WritesG (i : Nat → Nat → Instr) (form : Nat → Bool) (n : Nat) (f : JobCtx → Nat → DWord) : Prop :=
  RunsAs i form n (fun c w => setG c (wRd w) (f c w))

/-- The command writes a result to the predicate register a field names (to p0: nothing, R202). -/
def WritesP (i : Nat → Nat → Instr) (form : Nat → Bool) (n : Nat) (pd : Nat → Nat) (f : JobCtx → Nat → Bool) : Prop :=
  RunsAs i form n (fun c w => setP c (pd w) (f c w))

/-- The command writes a result to the vector register VD names. -/
def WritesV (i : Nat → Nat → Instr) (form : Nat → Bool) (n : Nat) (f : JobCtx → Nat → VWord) : Prop :=
  RunsAs i form n (fun c w => setV c (wVd w) (f c w))

/-- The address of a local access: RA + IMM14, modulo 2^64 (R207, R210). -/
def localAt (c : JobCtx) (w : Nat) : Nat := (getG c (wRa w) + (BitVec.ofNat 14 (wImm14 w)).signExtend 64).toNat

/-- A local access of n bytes at a is allowed: aligned to its size and inside the half (R210). -/
def localOk (a n : Nat) : Prop := a % n = 0 ∧ a + n ≤ 0xC000

/-- A local load of n bytes executes: me tells whether the memory word's code corrected an error (R205). -/
def LoadsAs (i : Nat → Nat → Nat → Instr) (op n cost : Nat) (r : JobCtx → Nat → Nat → JobCtx) : Prop :=
  ∀ (s : State) (d fe me : Nat) (c : JobCtx) (w : Nat), fe < 2 → me < 2 → AtWord s d c w cost → isOp op w = true →
    localOk (localAt c w) n →
    Answers (exec (i d fe me) s) (fun t => Executed (fetched (fetched s fe) me) t d
      (r c w (leNat (dramRead s d c.job.slot (localAt c w) n))) (c.pc + 4) cost)

/-- The machine with other contents of the data memories. -/
def withDram (s : State) (m : SMap Byte) : State := { s with doc := { s.doc with dram := m } }

/-- A local store of n bytes executes: of all data memory exactly the n bytes at the address, in the job's half of its
docent's memory, take the value's bytes, low byte first (R9, R210). -/
def StoresAs (i : Nat → Nat → Instr) (op n cost : Nat) (v : JobCtx → Nat → Nat) : Prop :=
  ∀ (s : State) (d fe : Nat) (c : JobCtx) (w : Nat), fe < 2 → AtWord s d c w cost → isOp op w = true →
    localOk (localAt c w) n →
    Answers (exec (i d fe) s) (fun t =>
      Executed (withDram (fetched s fe) t.doc.dram) t d c (c.pc + 4) cost ∧
      ∀ k, smGet 0#8 t.doc.dram k =
        if dramKey d c.job.slot (localAt c w) ≤ k ∧ k < dramKey d c.job.slot (localAt c w) + n then
          BitVec.ofNat 8 (v c w / 256 ^ (k - dramKey d c.job.slot (localAt c w)))
        else smGet 0#8 s.doc.dram k)

/-- A job whose retirement completes a revision: a landing's job of revision 1 or more (R144). -/
def isAddendum (j : Job) : Prop := j.kind = 0 ∧ 1 ≤ j.revision

/-- The areas a job's retirement may change beside the docent: what a completed revision publishes (R144, R297) and the
end of a RETIRING plan slot (Table 5.5). -/
def retireAreas : List Area := [.regs, .host, .log, .pce, .que, .eth, .pln, .vlt, .doc, .vrd, .hsh, .twn, .freeCount]

/-- The job faults: it leaves its slot, nothing outside the retirement's areas changes, and, unless its retirement
publishes a revision, everything R237 records stands in the registers. -/
def FaultsWith (s t : State) (d : Nat) (c : JobCtx) (code user : Nat) (opd : Option Nat) : Prop :=
  Vacated s t d ∧ SameBut retireAreas s t ∧ (¬ isAddendum c.job → Faulted s t d c code user opd)

/-- Docent d's running job c has no contribution still waiting at the verdict unit, so that it may retire (R228). -/
def AtRest (s : State) (d : Nat) (c : JobCtx) : Prop :=
  d < 64 ∧ slotCtx (docentOf s d) (docentOf s d).active = some c ∧ waitOver s c ∧ jobPosted s c.job = false

/-! ### What a docent reaches outside itself (section 6.7) -/

/-- The exhibit a VLD names (R216). -/
def namedExhibit (c : JobCtx) (w : Nat) : Nat :=
  if c.job.kind ≤ 2 then (getG c 1 + getG c (wRb w)).toNat else (getG c (wRb w)).toNat

/-- The accession a VLD names. -/
def namedAcc (c : JobCtx) (w : Nat) : Nat := (getG c (wRa w)).toNat

/-- The VLD names its job's own exhibit (R217). -/
def namesOwn (c : JobCtx) (w : Nat) : Prop := c.job.kind ≤ 2 ∧ c.job.index = namedExhibit c w

/-- None of R216's faults is met by a VLD of n bytes; x is the exhibit it names. -/
structure MayGather (s : State) (c : JobCtx) (w n : Nat) (x : Exhibit) : Prop where
  range : if c.job.kind ≤ 2 then (getG c (wRb w)).toInt ≤ 0 else (getG c (wRb w)).toNat < 2 ^ 48
  held : getEx s (namedExhibit c w) = some x
  unsealed : x.st ≠ .sealed
  acc : namedAcc c w ≤ 0x4003
  slot : ∃ p o len, planAt s x.slot = some p ∧ mapSlot p (namedAcc c w) = some (o, len) ∧ 8 * wFn w + n ≤ 64 * len

/-- A VLD of n bytes at its cost (R216–R218): a slot that is present gives its bytes and sets p7, an absent one 0 and
clears it; of an exhibit other than the job's own only a close-time landing is present, and while that exhibit has not
had its close event the VLD waits, costs nothing and leaves the docent to the other slot's job (R217, R219). -/
def GathersAs (i : Nat → Nat → Instr) (op n cost : Nat) (f : JobCtx → Nat → Nat → JobCtx) : Prop :=
  ∀ (s : State) (d fe : Nat) (c : JobCtx) (w : Nat) (x : Exhibit), fe < 2 → AtWord s d c w cost → isOp op w = true →
    MayGather s c w n x →
    (∀ top : Nat, (namesOwn c w ∧ top = c.job.revision) ∨ (¬ namesOwn c w ∧ x.st ≠ .opened ∧ x.st ≠ .closing ∧ top = 0) →
      Answers (exec (i d fe) s) (fun t =>
        let here := landed x (namedAcc c w) && decide (smGet 0 x.landRev (namedAcc c w) ≤ top)
        Executed (fetched s fe) t d
          (setP (f c (wRd w) (if here then le (smGet [] x.slots (namedAcc c w)) (8 * wFn w) n else 0)) 7 here)
          (c.pc + 4) cost)) ∧
    (¬ namesOwn c w → (x.st = .opened ∨ x.st = .closing) →
      Answers (exec (i d fe) s) (fun t =>
        slotCtx (docentOf t d) (docentOf s d).active = some { c with wait := .vld (namedExhibit c w) } ∧
        slotCtx (docentOf t d) (1 - (docentOf s d).active) = slotCtx (docentOf s d) (1 - (docentOf s d).active) ∧
        (docentOf t d).steps = (docentOf s d).steps ∧
        (∀ d', d' ≠ d → docentOf t d' = docentOf s d') ∧
        t.doc.iram = s.doc.iram ∧ t.doc.dram = s.doc.dram ∧
        SameBut [.doc] (fetched s fe) t))

/-- A TBL of n bytes at its cost, where none of R220's faults is met: the bytes of the element. -/
def ReadsTableAs (i : Nat → Nat → Instr) (op n cost : Nat) (f : JobCtx → Nat → Nat → JobCtx) : Prop :=
  ∀ (s : State) (d fe : Nat) (c : JobCtx) (w : Nat) (p : Plan) (u : PTable), fe < 2 → AtWord s d c w cost →
    isOp op w = true → planAt s c.job.slot = some p → smFind p.tables (wFn w) = some u →
    (getG c (wRa w)).toNat < u.count → (getG c (wRb w)).toNat % n = 0 → (getG c (wRb w)).toNat + n ≤ u.esize →
    Answers (exec (i d fe) s) (fun t => Executed (fetched s fe) t d
      (f c (wRd w) (le u.data (u.esize * (getG c (wRa w)).toNat + (getG c (wRb w)).toNat) n)) (c.pc + 4) cost)

/-- The machine with another verdict unit. -/
def withVrd (s : State) (v : VrdSt) : State := { s with vrd := v }

/-- An LGA of the job is accepted (R223): a kind-0 job of a verdict-bearing exhibit. -/
def ledgerOpen (s : State) (c : JobCtx) : Prop :=
  c.job.kind = 0 ∧ ∃ x, getEx s c.job.index = some x ∧ x.verdict = true

/-- From s to t a value is combined into one cell of a bank; every other cell, bank and part of the verdict unit is as
before (R221, R270). -/
def CellTakes (s t : State) (b cell op : Nat) (v : DWord) : Prop :=
  t.vrd = { s.vrd with banks := t.vrd.banks } ∧
  getBank t b = { getBank s b with cells := (getBank t b).cells } ∧
  (∀ k, cellOf (getBank t b).cells k =
    if k = cell then ledgerOp op (cellOf (getBank s b).cells k) v else cellOf (getBank s b).cells k) ∧
  (∀ b', b' ≠ b → getBank t b' = getBank s b')

/-- An LGA whose value v gives, where the conversion (if any) is in range: of revision 0 it goes into the bank its
exhibit holds, of a later revision it waits for the end of KEEPING or reaches the revision store (R221, R223, R296). -/
def PostsAs (i : Nat → Nat → Instr) (op : Nat) (v : JobCtx → Nat → DWord) (inRange : JobCtx → Nat → Bool) : Prop :=
  ∀ (s : State) (d fe : Nat) (c : JobCtx) (w : Nat), fe < 2 → AtWord s d c w 2 → isOp op w = true →
    (getG c (wRa w)).toNat < 4096 → ledgerOpen s c → inRange c w = true →
    (∀ b, c.job.revision = 0 → bankOf s c.job.index (· == .held) = some b →
      Answers (exec (i d fe) s) (fun t => Executed (withVrd (fetched s fe) t.vrd) t d c (c.pc + 4) 2 ∧
        CellTakes s t b (getG c (wRa w)).toNat (wFn w / 64) (v c w))) ∧
    (1 ≤ c.job.revision → keepingOf s c.job.index = true →
      Answers (exec (i d fe) s) (fun t => Executed (withVrd (fetched s fe) t.vrd) t d c (c.pc + 4) 2 ∧
        t.vrd = { s.vrd with waitLga := s.vrd.waitLga ++
          [{ index := c.job.index, revision := c.job.revision, cell := (getG c (wRa w)).toNat, op := wFn w / 64,
             value := v c w }] }))

/-! ### What every chapter's commands do to counters, events and the logbook -/

/-- From s to t a statistics counter has counted one more event (R26). -/
def Counts (s t : State) (a : Nat) : Prop := getReg t a = counted (getReg s a)

/-- An event reaches the logbook: while the staging FIFO has room for what a command may bring, t holds it (R562–R564). -/
def Logs (s t : State) (event source : Nat) (data : List Byte) : Prop :=
  s.log.fifo.length + 8 ≤ 64 → ∃ e ∈ t.log.fifo, e.event = event ∧ e.source = source ∧ e.data = padTo 32 data

/-- A command is turned away with a reason code in its page's BLK_REFUSE (R19, R20). -/
def Refuses (t : State) (base code : Nat) : Prop := getReg t (base + 8) = BitVec.ofNat 32 code

/-- The message a host port has written passes the tests of Table 17.3 with a usage, under a KEK (R504–R506, R510). -/
structure KeyMessagePasses (s : State) (port u : Nat) (kek m : List Byte) : Prop where
  msg : keyMsgBytes s port = m
  idle : opRunning s Reg.keyOpstat = false
  calm : s.pwr.warn = false
  enabled : enabled s Reg.keyBase = true
  format : le m 0 4 = 0x4B555044 ∧ le m 7 1 = 1 ∧ le m 0x18 8 = 0 ∧ le m 0x2C 4 = 0
  uid : le m 8 8 = Config.uid.toNat
  usage : le m 6 1 = u
  root : s.key.kek = some kek ∧ s.key.rootOk = true ∧ s.key.lc ≠ 0 ∧ s.key.lc ≠ 4
  taken : (s.key.lc = 2 → u = 1 ∨ u = 2 ∨ u = 4 ∨ u = 5 ∨ u = 6) ∧
    (s.key.lc ≠ 2 → (s.key.lc = 1 ∨ s.key.lc = 3) ∧ (u = 1 ∨ u = 2 ∨ u = 3 ∨ u = 5))
  counter : (getReg s Reg.keyCounter).toNat < le m 0x10 4
  tag : gcmTag kek (slice m 0x20 12) (m.take 32) (slice m 0x30 32) = slice m 0x50 16
  payload : u ≠ 1 → u ≠ 3 → gcmCrypt kek (slice m 0x20 12) (slice m 0x30 32) = List.replicate 32 0
  permit : u = 1 → le m 4 2 ≠ 0

/-- The command that submits a message of a usage. -/
def IsKeyCommand (i : Instr) (u port : Nat) : Prop :=
  (u = 1 ∧ i = .keyWorkingKey port) ∨ (u = 2 ∧ i = .keyErase port) ∨ (u = 3 ∧ i = .keyTake port) ∨
  (u = 4 ∧ i = .keyReturn port) ∨ (u = 5 ∧ i = .keyVoid port) ∨ (u = 6 ∧ i = .keyLogClear port)

/-- From s to t a SUBMIT is refused with a cause: the operation FAILED, counted, flagged and logged, no key state
changed (R506). -/
def KeyRefused (s t : State) (cause : Nat) : Prop :=
  opState t Reg.keyOpstat = 3 ∧ regFld t Reg.keyOpstat 23 16 = cause ∧ Refuses t Reg.keyBase (0x0500 + cause) ∧
  Counts s t (Reg.keyCnt 1) ∧ regFld t Reg.keyEvents 0 0 = 1 ∧ regFld t Reg.keyEvents 3 3 = 1 ∧
  Logs s t 0x0543 0xFFFF [] ∧ t.key = s.key ∧ SameBut [.regs, .host, .log] s t

/-! ### Host accesses (section 21.3) -/

/-- A host access to offset a of BAR0 reaches its register: the device is up and not asleep, the offset is decoded and its
block is fitted and not off (R4, R555, R578). -/
structure Reaches (s : State) (a : Nat) : Prop where
  up : s.pwr.st ≠ .off ∧ s.pwr.st ≠ .nap ∧ s.pwr.trans ≠ some .nap
  decoded : undecoded a = false
  fitted : absentAt s a = false
  online : offlineAt s a = false

/-- A host write to offset a reaches its register: no start-up step holds it back (R558). -/
structure Writes (s : State) (a : Nat) : Prop where
  reaches : Reaches s a
  free : ladderHolds s a = false

/-- A host access reaches the windows of BAR2. -/
def windowsOpen (s : State) : Prop :=
  s.pwr.st ≠ .off ∧ s.pwr.st ≠ .nap ∧ s.pwr.st ≠ .keep ∧ s.pwr.trans ≠ some .nap

/-- A register (or array of registers) whose fields have no behaviour of their own: where it stands, and which of its
bits software writes at any time (RW) or while the block is disabled (RWL). -/
structure PlainRow where
  base : Nat
  stride : Nat
  count : Nat
  rw : Nat
  rwl : Nat

/-- Registers of every block without behaviour of their own, from the register sections of the chapters. -/
def plainRows : List PlainRow :=
  [⟨0x30, 4, 2, 0xFFFFFFFF, 0⟩, ⟨0x100, 4, 64, 0x3F, 0⟩, ⟨0x1002C, 4, 6, 0xFFFFFFFF, 0⟩, ⟨0x100A8, 4, 2, 0xFFFFFFFF, 0⟩,
   ⟨0x100B0, 4, 1, 0x7FFF, 0⟩, ⟨0x30048, 4, 1, 0, 0xFFFF⟩, ⟨0x30054, 4, 1, 0xFFFFFFFF, 0⟩, ⟨0x30064, 4, 1, 0xFFFFFFFF, 0⟩,
   ⟨0x3006C, 4, 2, 0xFFFFFFFF, 0⟩, ⟨0x30080, 4, 1, 0xFFFFFFFF, 0⟩, ⟨0x60014, 4, 1, 0, 0xFFFF⟩,
   ⟨0x60018, 4, 1, 0, 0xFFFFFFFF⟩, ⟨0x6001C, 4, 1, 0, 0xFFFF⟩, ⟨0x70010, 4, 1, 0, 0x107FF⟩, ⟨0x70014, 4, 1, 0, 0xFFFF⟩,
   ⟨0x70050, 4, 1, 0x10FFF, 0⟩, ⟨0x70070, 4, 1, 0xF0FFF, 0⟩, ⟨0x70080, 4, 1, 0xFF, 0⟩, ⟨0x88010, 4, 1, 0, 3⟩] ++
  [⟨0x1800C0, 0x1000, 64, 0x1FFFF, 0⟩, ⟨0x1800D0, 0x1000, 64, 0x7FFF, 0⟩, ⟨0x90014, 4, 2, 0xFFFFFFFF, 0⟩,
   ⟨0x9001C, 4, 1, 0x7FFFFF, 0⟩, ⟨0x90030, 4, 1, 0xFFFFFFFF, 0⟩, ⟨0x90034, 4, 1, 0xFFFF, 0⟩, ⟨0xA0044, 4, 1, 0xFFFFFFFF, 0⟩,
   ⟨0xA0048, 4, 1, 0xFFFF, 0⟩, ⟨0xA0070, 4, 1, 0x17FFF, 0⟩, ⟨0xA00C0, 16, 2, 0xFFFFFFFF, 0⟩, ⟨0xA8014, 4, 1, 0, 0xFFFFFFFF⟩,
   ⟨0xB0018, 4, 3, 0, 0xFFFFFFFF⟩, ⟨0xB0028, 4, 1, 0xFFFFFFFF, 0⟩, ⟨0xC001C, 4, 1, 0, 0xFF⟩, ⟨0xC0034, 4, 1, 0xFFFF, 0⟩,
   ⟨0xC0038, 4, 3, 0, 0xFFFFFFFF⟩, ⟨0xD0024, 4, 1, 0, 0xFFFF⟩, ⟨0xD0040, 4, 1, 0x7FF, 0⟩] ++
  [⟨0xE0014, 0x2000, 6, 0, 0xFFFFFFFF⟩, ⟨0xE0018, 0x2000, 6, 0, 0xFFFF⟩, ⟨0xE0024, 0x2000, 6, 0, 0xFFFF0F7C⟩,
   ⟨0xE0034, 0x2000, 6, 0, 0xFFFFFFFF⟩, ⟨0xEC010, 4, 1, 0, 0x07FF07FF⟩, ⟨0xF0020, 4, 2, 0, 0xFFFF⟩,
   ⟨0xF0030, 4, 4, 0, 0xFFFFFFFF⟩, ⟨0xF0200, 4, 64, 0, 0x8003FFFF⟩, ⟨0xF0300, 4, 16, 0, 0x80000FFF⟩, ⟨0x1C0010, 4, 1, 0, 0xFFFF⟩,
   ⟨0x1C0038, 4, 1, 0xFFFFFFFF, 0⟩, ⟨0x1C0104, 64, 16, 0xFFFFFFFF, 0⟩, ⟨0x1C0114, 64, 16, 0xFFFFFFFF, 0⟩,
   ⟨0x1E0014, 4, 4, 0, 0xFFFFFFFF⟩]

/-- The EVENTS bits of each block, by block code (sections 2 to 21). -/
def eventMasks : List (Nat × Nat) :=
  [(1, 0x3E), (2, 0xFF), (3, 0x0F), (4, 0x7F), (5, 0x1F), (6, 0x0F), (7, 0x3F), (8, 0x7F), (9, 0x1F), (0xA, 0x3F), (0xB, 0x7F),
   (0xC, 0x1F), (0xD, 0x1F), (0xE, 0x07), (0xF, 0x1F), (0x10, 0x3F), (0x11, 0x0F), (0x12, 0x1F), (0x13, 0x0F), (0x14, 0x03),
   (0x15, 0x7F)]

end Sys2Proof.Machine
end

