-- ==== Sys2Proof/Certificates/Slice0/Obligations.lean ====
section
/-! DEFINITION. The statements for the provers. Each docstring names the rules of spec/ it rests on. -/

open Sys2Proof Sys2Proof.Machine

/-! ## The whole block -/

/-- The queue is first in, first out: a step takes the command at its front and executes it with the queue's rest. -/
def Obligations.StepRunsTheFrontCommand : Prop :=
  ∀ (s : State) (c : Instr) (r : List Instr), s.pending = c :: r → step s = exec c { s with pending := r }

/-- The model's choice (log entry 1), not the spec's: with no command waiting, a step lets one nanosecond of RAW pass
and changes nothing else. RAW stands while the keeper island is OFF (R381). -/
def Obligations.IdleStepLetsOneNanosecondPass : Prop :=
  ∀ s : State, s.pending = [] → ∃ t, step s = .next t ∧ t = { s with raw := t.raw } ∧
    t.raw = if s.pwr.st = .off then s.raw else (s.raw + 1) % 2 ^ 64

/-- Every step keeps a well-formed state well-formed: the sparse stores canonical, the staging FIFO within 64 events
(R563), both set-points of the core supply legal (R62, R63), the vault's reserve within its pages (R149), every exhibit
record under its own index. -/
def Obligations.StepsKeepTheStateWellFormed : Prop :=
  ∀ s t : State, s.wf → step s = .next t → t.wf

/-- The state after reset is well-formed. -/
def Obligations.ResetIsWellFormed : Prop := State.reset.wf

/-- No command ever stops the block: in every state each answers a next state, in which the part is the same, the
commands that wait still wait, RAW has not moved (a reset may clear it), and no free value is used twice. -/
def Obligations.EveryCommandGoesOn : Prop :=
  ∀ (i : Instr) (s : State), Answers (exec i s) (fun t =>
    t.part = s.part ∧ t.pending = s.pending ∧ (t.raw = s.raw ∨ t.raw = 0) ∧ s.freeCount ≤ t.freeCount)

/-! ## Docents (06_weawen_isa.md) -/

/-- Table 6.4 with R202 and R208: each INT function writes its result to RD, at its cost, and changes nothing else of
the machine than the docent's context, PC and step counts. -/
def Obligations.IntegerFunctionsWriteTheirResults : Prop :=
  WritesG .add (isFn 0x00 0x00) 1 (fun c w => getG c (wRa w) + getG c (wRb w)) ∧
  WritesG .sub (isFn 0x00 0x01) 1 (fun c w => getG c (wRa w) - getG c (wRb w)) ∧
  WritesG .and (isFn 0x00 0x02) 1 (fun c w => getG c (wRa w) &&& getG c (wRb w)) ∧
  WritesG .or (isFn 0x00 0x03) 1 (fun c w => getG c (wRa w) ||| getG c (wRb w)) ∧
  WritesG .xor (isFn 0x00 0x04) 1 (fun c w => getG c (wRa w) ^^^ getG c (wRb w)) ∧
  WritesG .andn (isFn 0x00 0x05) 1 (fun c w => getG c (wRa w) &&& ~~~(getG c (wRb w))) ∧
  WritesG .shl (isFn 0x00 0x08) 1 (fun c w => getG c (wRa w) <<< ((getG c (wRb w)).toNat % 64)) ∧
  WritesG .shr (isFn 0x00 0x09) 1 (fun c w => getG c (wRa w) >>> ((getG c (wRb w)).toNat % 64)) ∧
  WritesG .sar (isFn 0x00 0x0A) 1 (fun c w => (getG c (wRa w)).sshiftRight ((getG c (wRb w)).toNat % 64)) ∧
  WritesG .mul (isFn 0x00 0x10) 2 (fun c w => getG c (wRa w) * getG c (wRb w)) ∧
  WritesG .mulh (isFn 0x00 0x11) 2 (fun c w =>
    BitVec.ofInt 64 (((getG c (wRa w)).toInt * (getG c (wRb w)).toInt) >>> 64)) ∧
  WritesG .mulhu (isFn 0x00 0x12) 2 (fun c w =>
    BitVec.ofNat 64 (((getG c (wRa w)).toNat * (getG c (wRb w)).toNat) >>> 64)) ∧
  WritesG .div (isFn 0x00 0x14) 12 (fun c w =>
    if getG c (wRb w) = 0 then BitVec.allOnes 64 else (getG c (wRa w)).sdiv (getG c (wRb w))) ∧
  WritesG .divu (isFn 0x00 0x15) 12 (fun c w =>
    if getG c (wRb w) = 0 then BitVec.allOnes 64 else getG c (wRa w) / getG c (wRb w)) ∧
  WritesG .rem (isFn 0x00 0x16) 12 (fun c w => (getG c (wRa w)).srem (getG c (wRb w))) ∧
  WritesG .remu (isFn 0x00 0x17) 12 (fun c w => getG c (wRa w) % getG c (wRb w)) ∧
  WritesG .min (isFn 0x00 0x18) 1 (fun c w =>
    if (getG c (wRa w)).slt (getG c (wRb w)) then getG c (wRa w) else getG c (wRb w)) ∧
  WritesG .max (isFn 0x00 0x19) 1 (fun c w =>
    if (getG c (wRa w)).slt (getG c (wRb w)) then getG c (wRb w) else getG c (wRa w)) ∧
  WritesG .minu (isFn 0x00 0x1A) 1 (fun c w =>
    if getG c (wRa w) < getG c (wRb w) then getG c (wRa w) else getG c (wRb w)) ∧
  WritesG .maxu (isFn 0x00 0x1B) 1 (fun c w =>
    if getG c (wRa w) < getG c (wRb w) then getG c (wRb w) else getG c (wRa w)) ∧
  WritesG .clz (isFn 0x00 0x20) 1 (fun c w =>
    BitVec.ofNat 64 ((List.range 64).takeWhile (fun i => !(getG c (wRa w)).getMsbD i)).length) ∧
  WritesG .ctz (isFn 0x00 0x21) 1 (fun c w =>
    BitVec.ofNat 64 ((List.range 64).takeWhile (fun i => !(getG c (wRa w)).getLsbD i)).length) ∧
  WritesG .popc (isFn 0x00 0x22) 1 (fun c w => BitVec.ofNat 64 ((List.range 64).countP (getG c (wRa w)).getLsbD)) ∧
  WritesG .sext32 (isFn 0x00 0x24) 1 (fun c w => ((getG c (wRa w)).setWidth 32).signExtend 64) ∧
  WritesG .zext32 (isFn 0x00 0x25) 1 (fun c w => ((getG c (wRa w)).setWidth 32).setWidth 64)

/-- Table 6.5 with R202 and R211: comparisons and predicate operations write pd (PGET and SEL write RD); the float
comparisons take both precisions; LT and GE are signed. -/
def Obligations.ComparisonsAndPredicatesWriteTheirResults : Prop :=
  WritesP .eq (isFn 0x01 0x00) 1 wRd (fun c w => getG c (wRa w) == getG c (wRb w)) ∧
  WritesP .ne (isFn 0x01 0x01) 1 wRd (fun c w => getG c (wRa w) != getG c (wRb w)) ∧
  WritesP .lt (isFn 0x01 0x02) 1 wRd (fun c w => (getG c (wRa w)).slt (getG c (wRb w))) ∧
  WritesP .ge (isFn 0x01 0x03) 1 wRd (fun c w => !(getG c (wRa w)).slt (getG c (wRb w))) ∧
  WritesP .ltu (isFn 0x01 0x04) 1 wRd (fun c w => (getG c (wRa w)).ult (getG c (wRb w))) ∧
  WritesP .geu (isFn 0x01 0x05) 1 wRd (fun c w => !(getG c (wRa w)).ult (getG c (wRb w))) ∧
  (∀ k, k < 4 →
    let i := if k = 0 then Instr.feq else if k = 1 then Instr.flt else if k = 2 then Instr.fle else Instr.fun
    WritesP i (isFn 0x01 (0x10 + k)) 1 wRd (fun c w => fltCmp f32 k (g32 c (wRa w)) (g32 c (wRb w))) ∧
    WritesP i (isFn 0x01 (0x18 + k)) 1 wRd (fun c w => fltCmp f64 k (getG c (wRa w)).toNat (getG c (wRb w)).toNat)) ∧
  WritesP .pand (isFn 0x02 0x00) 1 wRd (fun c w => getP c (wRa w) && getP c (wRb w)) ∧
  WritesP .por (isFn 0x02 0x01) 1 wRd (fun c w => getP c (wRa w) || getP c (wRb w)) ∧
  WritesP .pxor (isFn 0x02 0x02) 1 wRd (fun c w => xor (getP c (wRa w)) (getP c (wRb w))) ∧
  WritesP .pandn (isFn 0x02 0x03) 1 wRd (fun c w => getP c (wRa w) && !getP c (wRb w)) ∧
  WritesP .pnot (isFn 0x02 0x04) 1 wRd (fun c w => !getP c (wRa w)) ∧
  WritesG .pget (isFn 0x02 0x08) 1 (fun c w => if getP c (wRa w) then 1 else 0) ∧
  WritesP .pset (isFn 0x02 0x09) 1 wRd (fun c w => getG c (wRa w) != 0) ∧
  WritesG .sel (isOp 0x03) 1 (fun c w =>
    if xor (getP c (wFn w % 8)) ((wFn w).testBit 3) then getG c (wRa w) else getG c (wRb w))

/-- Table 6.6 with R207 and R208: the immediate forms; IMM16 is sign-extended but in ANDI, ORI, XORI and CMPI_LTU; N
negates a comparison. -/
def Obligations.ImmediateInstructionsWriteTheirResults : Prop :=
  let imm (w : Nat) : DWord := (BitVec.ofNat 16 w).signExtend 64
  let zim (w : Nat) : DWord := (BitVec.ofNat 16 w).setWidth 64
  WritesG .addi (isSub 0x08 0x0) 1 (fun c w => getG c (wRd w) + imm w) ∧
  WritesG .andi (isSub 0x08 0x1) 1 (fun c w => getG c (wRd w) &&& zim w) ∧
  WritesG .ori (isSub 0x08 0x2) 1 (fun c w => getG c (wRd w) ||| zim w) ∧
  WritesG .xori (isSub 0x08 0x3) 1 (fun c w => getG c (wRd w) ^^^ zim w) ∧
  WritesG .shli (isSub 0x08 0x4) 1 (fun c w => getG c (wRd w) <<< (w % 64)) ∧
  WritesG .shri (isSub 0x08 0x5) 1 (fun c w => getG c (wRd w) >>> (w % 64)) ∧
  WritesG .sari (isSub 0x08 0x6) 1 (fun c w => (getG c (wRd w)).sshiftRight (w % 64)) ∧
  WritesG .movi (isSub 0x08 0x8) 1 (fun _ w => imm w) ∧
  (∀ k, k < 4 → WritesG .movk (isSub 0x08 (0xC + k)) 1 (fun c w =>
    (getG c (wRd w) &&& ~~~(0xFFFF#64 <<< (16 * k))) ||| (zim w <<< (16 * k)))) ∧
  WritesP .cmpiEq (isOp 0x09) 1 (fun w => wSub w / 2) (fun c w => xor (getG c (wRd w) == imm w) (wSub w % 2 == 1)) ∧
  WritesP .cmpiLt (isOp 0x0A) 1 (fun w => wSub w / 2) (fun c w => xor ((getG c (wRd w)).slt (imm w)) (wSub w % 2 == 1)) ∧
  WritesP .cmpiLtu (isOp 0x0B) 1 (fun w => wSub w / 2) (fun c w => xor ((getG c (wRd w)).ult (zim w)) (wSub w % 2 == 1))

/-- BRP, JAL and JR (Table 6.6, R207, R209): a branch counts words from its own address; a target inside 0x0000–0x3FFC
that is a multiple of 4 is taken, at two steps; a BRP not taken costs one. -/
def Obligations.TransfersReachTheirTargets : Prop :=
  (∀ (s : State) (d fe : Nat) (c : JobCtx) (w : Nat), fe < 2 → AtWord s d c w 1 → isOp 0x0C w = true →
    xor (getP c (wRd w % 8)) ((wRd w).testBit 5) = false →
    Answers (exec (.brp d fe) s) (fun t => Executed (fetched s fe) t d c (c.pc + 4) 1)) ∧
  (∀ (s : State) (d fe : Nat) (c : JobCtx) (w pc' : Nat), fe < 2 → AtWord s d c w 2 → pc' ≤ 0x3FFC → pc' % 4 = 0 →
    (isOp 0x0C w = true → xor (getP c (wRd w % 8)) ((wRd w).testBit 5) = true →
      (pc' : Int) = c.pc + 4 * (BitVec.ofNat 16 w).toInt →
      Answers (exec (.brp d fe) s) (fun t => Executed (fetched s fe) t d c pc' 2)) ∧
    (isOp 0x0D w = true → (pc' : Int) = c.pc + 4 * (BitVec.ofNat 16 w).toInt →
      Answers (exec (.jal d fe) s) (fun t =>
        Executed (fetched s fe) t d (setG c (wRd w) (BitVec.ofNat 64 (c.pc + 4))) pc' 2)) ∧
    (isOp 0x0E w = true → pc' = (getG c (wRd w) + 4 * (BitVec.ofNat 16 w).signExtend 64).toNat →
      Answers (exec (.jr d fe) s) (fun t => Executed (fetched s fe) t d c pc' 2)))

/-- Table 6.7, the loads (R201, R205, R207, R210): the bytes at RA + IMM14 of the job's half, little-endian, zero- or
sign-extended; each corrected 64-bit memory word is counted and changes nothing else; a word beyond correction faults the
job. -/
def Obligations.LocalLoadsReadTheJobsHalf : Prop :=
  LoadsAs .ldb 0x10 1 1 (fun c w v => setG c (wRd w) (BitVec.ofNat 64 v)) ∧
  LoadsAs .ldh 0x11 2 1 (fun c w v => setG c (wRd w) (BitVec.ofNat 64 v)) ∧
  LoadsAs .ldw 0x12 4 1 (fun c w v => setG c (wRd w) (BitVec.ofNat 64 v)) ∧
  LoadsAs .ldd 0x13 8 1 (fun c w v => setG c (wRd w) (BitVec.ofNat 64 v)) ∧
  LoadsAs .ldbs 0x14 1 1 (fun c w v => setG c (wRd w) ((BitVec.ofNat 8 v).signExtend 64)) ∧
  LoadsAs .ldhs 0x15 2 1 (fun c w v => setG c (wRd w) ((BitVec.ofNat 16 v).signExtend 64)) ∧
  LoadsAs .ldws 0x16 4 1 (fun c w v => setG c (wRd w) ((BitVec.ofNat 32 v).signExtend 64)) ∧
  LoadsAs .vldl 0x1C 32 2 (fun c w v => setV c (wRd w) (BitVec.ofNat 256 v)) ∧
  (∀ (s : State) (d fe me : Nat) (c : JobCtx) (w : Nat), fe < 2 → me < 256 → AtWord s d c w 2 → isOp 0x1C w = true →
    localOk (localAt c w) 32 → (∀ k, k < 4 → me / 4 ^ k % 4 < 2) →
    Answers (exec (.vldl d fe me) s) (fun t =>
      Executed ((List.range 4).foldl (fun u k => fetched u (me / 4 ^ k % 4)) (fetched s fe)) t d
        (setV c (wRd w) (BitVec.ofNat 256 (leNat (dramRead s d c.job.slot (localAt c w) 32)))) (c.pc + 4) 2)) ∧
  (∀ (s : State) (d fe me : Nat) (c : JobCtx) (w : Nat), fe < 2 → me < 256 → AtRest s d c → AtWord s d c w 2 →
    isOp 0x1C w = true → localOk (localAt c w) 32 → (∃ k, k < 4 ∧ 2 ≤ me / 4 ^ k % 4) →
    Answers (exec (.vldl d fe me) s) (fun t =>
      FaultsWith (fetched s fe) t d c 0x120B 0 (some (localAt c w % 2 ^ 32))))

/-- Table 6.7, the stores (R201, R207, R210): of all data memory exactly the addressed bytes change. -/
def Obligations.LocalStoresWriteTheJobsHalf : Prop :=
  StoresAs .stb 0x18 1 1 (fun c w => (getG c (wRd w)).toNat) ∧
  StoresAs .sth 0x19 2 1 (fun c w => (getG c (wRd w)).toNat) ∧
  StoresAs .stw 0x1A 4 1 (fun c w => (getG c (wRd w)).toNat) ∧
  StoresAs .std 0x1B 8 1 (fun c w => (getG c (wRd w)).toNat) ∧
  StoresAs .vstl 0x1D 32 2 (fun c w => (getV c (wRd w)).toNat)

/-- Where a docent's instruction faults (R206, R209, R210, R233–R237): an undefined word with 0x1201, a transfer out of
range and a fetch beyond 0x3FFC with 0x1202, a local access that is misaligned or out of range with 0x1203, a step
count above the budget with 0x1209, an instruction word with an uncorrectable error with 0x120B. Nothing of the
instruction's effect takes place, and the fault is recorded; the cost of an instruction that was executed and faulted is
counted, one over the budget is not executed. -/
def Obligations.DocentFaultsAreRecorded : Prop :=
  (∀ (s : State) (d fe : Nat) (c : JobCtx), AtRest s d c → fe < 2 → c.pc ≤ 0x3FFC →
    wordOk (iramAt s d c.job.slot c.pc) = false →
    Answers (exec (.illegalInstruction d fe) s) (fun t => FaultsWith (fetched s fe) t d c 0x1201 0 none)) ∧
  (∀ (s : State) (d fe : Nat) (c : JobCtx), AtRest s d c →
    ∀ i ∈ [Instr.add d fe, .fadd d fe, .brp d fe, .stb d fe, .vadd d fe, .cmul d fe, .vldd d fe, .lga d fe, .raise d fe,
      .done d fe, .illegalInstruction d fe, .ldb d fe 0],
      (0x3FFC < c.pc → Answers (exec i s) (fun t => FaultsWith s t d c 0x1202 0 (some c.pc))) ∧
      (c.pc ≤ 0x3FFC → 2 ≤ fe → Answers (exec i s) (fun t => FaultsWith s t d c 0x120B 0 (some c.pc)))) ∧
  (∀ (s : State) (d fe : Nat) (c : JobCtx) (w : Nat), AtRest s d c → fe < 2 → AtWord s d c w 2 →
    (isOp 0x0C w = true → xor (getP c (wRd w % 8)) ((wRd w).testBit 5) = true →
      ¬ (0 ≤ (c.pc : Int) + 4 * (BitVec.ofNat 16 w).toInt ∧ (c.pc : Int) + 4 * (BitVec.ofNat 16 w).toInt ≤ 0x3FFC ∧
        c.pc % 4 = 0) →
      Answers (exec (.brp d fe) s) (fun t => FaultsWith (fetched s fe) t d c 0x1202 0
        (some (BitVec.ofInt 32 ((c.pc : Int) + 4 * (BitVec.ofNat 16 w).toInt)).toNat)))) ∧
  (∀ (s : State) (d fe me : Nat) (c : JobCtx) (w : Nat), AtRest s d c → fe < 2 → AtWord s d c w 1 →
    (isOp 0x12 w = true → ¬ localOk (localAt c w) 4 →
      Answers (exec (.ldw d fe me) s) (fun t => FaultsWith (fetched s fe) t d c 0x1203 0 (some (localAt c w % 2 ^ 32)) ∧
        (docentOf t d).steps = ((docentOf s d).steps + 1) % 2 ^ 64)) ∧
    (isOp 0x1B w = true → ¬ localOk (localAt c w) 8 →
      Answers (exec (.std d fe) s) (fun t => FaultsWith (fetched s fe) t d c 0x1203 0 (some (localAt c w % 2 ^ 32))))) ∧
  (∀ (s : State) (d fe : Nat) (c : JobCtx) (w : Nat), AtRest s d c → fe < 2 → c.pc ≤ 0x3FFC →
    iramAt s d c.job.slot c.pc = w → wordOk w = true →
    (isFn 0x00 0x00 w = true → stepBudget s c.job < c.steps + 1 →
      Answers (exec (.add d fe) s) (fun t => FaultsWith (fetched s fe) t d c 0x1209 0 (some (c.steps + 1)) ∧
        (docentOf t d).steps = (docentOf s d).steps)) ∧
    (isFn 0x3D 0x02 w = true → stepBudget s c.job < c.steps + 2 →
      Answers (exec (.done d fe) s) (fun t => FaultsWith (fetched s fe) t d c 0x1209 0 (some (c.steps + 2)))))

/-- Table 6.8 with R211 and R212: the FP functions in both precisions, float32 sources from bits [31:0] and results
zero-extended; FMAC takes RD as its addend; conversions to integer saturate. -/
def Obligations.FloatFunctionsWriteTheirResults : Prop :=
  let s1 (c : JobCtx) (w : Nat) : Nat := g32 c (wRa w)
  let s2 (c : JobCtx) (w : Nat) : Nat := g32 c (wRb w)
  let d1 (c : JobCtx) (w : Nat) : Nat := (getG c (wRa w)).toNat
  let d2 (c : JobCtx) (w : Nat) : Nat := (getG c (wRb w)).toNat
  let out (v : Nat) : DWord := BitVec.ofNat 64 v
  WritesG .fadd (isFn 0x04 0x00) 1 (fun c w => out (fadd f32 (s1 c w) (s2 c w))) ∧
  WritesG .fadd (isFn 0x04 0x10) 2 (fun c w => out (fadd f64 (d1 c w) (d2 c w))) ∧
  WritesG .fsub (isFn 0x04 0x01) 1 (fun c w => out (fsub f32 (s1 c w) (s2 c w))) ∧
  WritesG .fsub (isFn 0x04 0x11) 2 (fun c w => out (fsub f64 (d1 c w) (d2 c w))) ∧
  WritesG .fmul (isFn 0x04 0x02) 1 (fun c w => out (fmul f32 (s1 c w) (s2 c w))) ∧
  WritesG .fmul (isFn 0x04 0x12) 2 (fun c w => out (fmul f64 (d1 c w) (d2 c w))) ∧
  WritesG .fdiv (isFn 0x04 0x03) 6 (fun c w => out (fdiv f32 (s1 c w) (s2 c w))) ∧
  WritesG .fdiv (isFn 0x04 0x13) 12 (fun c w => out (fdiv f64 (d1 c w) (d2 c w))) ∧
  WritesG .fsqrt (isFn 0x04 0x04) 6 (fun c w => out (fsqrt f32 (s1 c w))) ∧
  WritesG .fsqrt (isFn 0x04 0x14) 12 (fun c w => out (fsqrt f64 (d1 c w))) ∧
  WritesG .fmin (isFn 0x04 0x05) 1 (fun c w => out (fMinMax f32 false (s1 c w) (s2 c w))) ∧
  WritesG .fmin (isFn 0x04 0x15) 1 (fun c w => out (fMinMax f64 false (d1 c w) (d2 c w))) ∧
  WritesG .fmax (isFn 0x04 0x06) 1 (fun c w => out (fMinMax f32 true (s1 c w) (s2 c w))) ∧
  WritesG .fmax (isFn 0x04 0x16) 1 (fun c w => out (fMinMax f64 true (d1 c w) (d2 c w))) ∧
  WritesG .fmac (isFn 0x04 0x07) 2 (fun c w => out (ffma f32 (s1 c w) (s2 c w) (g32 c (wRd w)))) ∧
  WritesG .fmac (isFn 0x04 0x17) 3 (fun c w => out (ffma f64 (d1 c w) (d2 c w) (getG c (wRd w)).toNat)) ∧
  WritesG .fabs (isFn 0x04 0x08) 1 (fun c w => out (s1 c w % 2 ^ 31)) ∧
  WritesG .fabs (isFn 0x04 0x18) 1 (fun c w => getG c (wRa w) &&& 0x7FFFFFFFFFFFFFFF) ∧
  WritesG .fneg (isFn 0x04 0x09) 1 (fun c w => out (s1 c w) ^^^ 0x80000000) ∧
  WritesG .fneg (isFn 0x04 0x19) 1 (fun c w => getG c (wRa w) ^^^ 0x8000000000000000) ∧
  WritesG .fcvtDS (isFn 0x04 0x20) 1 (fun c w => out (fcvt f32 f64 (s1 c w))) ∧
  WritesG .fcvtSD (isFn 0x04 0x21) 1 (fun c w => out (fcvt f64 f32 (d1 c w))) ∧
  WritesG .fcvtSL (isFn 0x04 0x22) 1 (fun c w => out (fofInt f32 (getG c (wRa w)).toInt)) ∧
  WritesG .fcvtDL (isFn 0x04 0x23) 1 (fun c w => out (fofInt f64 (getG c (wRa w)).toInt)) ∧
  WritesG .fcvtLS (isFn 0x04 0x24) 1 (fun c w => (fltToInt f32 0 (s1 c w)).1) ∧
  WritesG .fcvtLD (isFn 0x04 0x25) 1 (fun c w => (fltToInt f64 0 (d1 c w)).1)

/-- Tables 6.9 and R213: the vector functions on eight float32 lanes. Each lane of VD is said by itself. -/
def Obligations.VectorFunctionsWriteTheirLanes : Prop :=
  let lanes (f : Nat → Nat) : VWord := ofLanes ((List.range 8).map f)
  let a (c : JobCtx) (w i : Nat) : Nat := lane (getV c (wVa w)) i
  let b (c : JobCtx) (w i : Nat) : Nat := lane (getV c (wVb w)) i
  let r (c : JobCtx) (w i : Nat) : Nat := lane (getV c (wVd w)) i
  (∀ (f : Nat → Nat) (i : Nat), i < 8 → lane (lanes f) i = f i % 2 ^ 32) ∧
  WritesV .vadd (isFn 0x20 0x00) 1 (fun c w => lanes (fun i => fadd f32 (a c w i) (b c w i))) ∧
  WritesV .vsub (isFn 0x20 0x01) 1 (fun c w => lanes (fun i => fsub f32 (a c w i) (b c w i))) ∧
  WritesV .vmul (isFn 0x20 0x02) 1 (fun c w => lanes (fun i => fmul f32 (a c w i) (b c w i))) ∧
  WritesV .vmac (isFn 0x20 0x03) 2 (fun c w => lanes (fun i => ffma f32 (a c w i) (b c w i) (r c w i))) ∧
  WritesV .vmin (isFn 0x20 0x04) 1 (fun c w => lanes (fun i => fMinMax f32 false (a c w i) (b c w i))) ∧
  WritesV .vmax (isFn 0x20 0x05) 1 (fun c w => lanes (fun i => fMinMax f32 true (a c w i) (b c w i))) ∧
  RunsAs .vsum (isFn 0x20 0x08) 3 (fun c w =>
    let s (x y : Nat) : Nat := fadd f32 x y
    setG c (wRb w) (BitVec.ofNat 64 (s (s (s (a c w 0) (a c w 1)) (s (a c w 2) (a c w 3)))
      (s (s (a c w 4) (a c w 5)) (s (a c w 6) (a c w 7))) % 2 ^ 32))) ∧
  WritesV .vbcast (isFn 0x20 0x09) 1 (fun c w => lanes (fun _ => g32 c (wRb w))) ∧
  RunsAs .vext (isFn 0x20 0x0A) 1 (fun c w => setG c (wRb w) (BitVec.ofNat 64 (a c w (wVb w)))) ∧
  WritesV .vins (isFn 0x20 0x0B) 1 (fun c w => lanes (fun i => if i = wVb w then g32 c (wRb w) else r c w i)) ∧
  WritesV .vzero (isFn 0x20 0x0C) 1 (fun _ _ => 0) ∧
  WritesV .vmov (isFn 0x20 0x0D) 1 (fun c w => getV c (wVa w)) ∧
  WritesV .vscale (isFn 0x20 0x0E) 1 (fun c w => lanes (fun i => fmul f32 (a c w i) (g32 c (wRb w))))

/-- Table 6.10 with R213–R215: the complex functions on four complex lanes, each product formed as R214 says. -/
def Obligations.ComplexFunctionsWriteTheirLanes : Prop :=
  let lanes (f : Nat → Nat × Nat) : VWord := ofLanes ((List.range 8).map (fun i => if i % 2 = 0 then (f (i / 2)).1 else (f (i / 2)).2))
  let re (v : VWord) (k : Nat) : Nat := lane v (2 * k)
  let im (v : VWord) (k : Nat) : Nat := lane v (2 * k + 1)
  let mul (x y : Nat × Nat) : Nat × Nat :=
    (ffma f32 x.1 y.1 (fneg f32 (fmul f32 x.2 y.2)), ffma f32 x.1 y.2 (fmul f32 x.2 y.1))
  let a (c : JobCtx) (w k : Nat) : Nat × Nat := (re (getV c (wVa w)) k, im (getV c (wVa w)) k)
  let b (c : JobCtx) (w k : Nat) : Nat × Nat := (re (getV c (wVb w)) k, im (getV c (wVb w)) k)
  let r (c : JobCtx) (w k : Nat) : Nat × Nat := (re (getV c (wVd w)) k, im (getV c (wVd w)) k)
  let add (x y : Nat × Nat) : Nat × Nat := (fadd f32 x.1 y.1, fadd f32 x.2 y.2)
  WritesV .cadd (isFn 0x21 0x00) 1 (fun c w => lanes (fun k => add (a c w k) (b c w k))) ∧
  WritesV .csub (isFn 0x21 0x01) 1 (fun c w => lanes (fun k =>
    (fsub f32 (a c w k).1 (b c w k).1, fsub f32 (a c w k).2 (b c w k).2))) ∧
  WritesV .cmul (isFn 0x21 0x02) 2 (fun c w => lanes (fun k => mul (a c w k) (b c w k))) ∧
  WritesV .cmulj (isFn 0x21 0x03) 2 (fun c w => lanes (fun k => mul (a c w k) ((b c w k).1, fneg f32 (b c w k).2))) ∧
  WritesV .cmac (isFn 0x21 0x04) 2 (fun c w => lanes (fun k => add (r c w k) (mul (a c w k) (b c w k)))) ∧
  WritesV .cconj (isFn 0x21 0x05) 1 (fun c w => lanes (fun k => ((a c w k).1, fneg f32 (a c w k).2))) ∧
  WritesV .cabs (isFn 0x21 0x06) 4 (fun c w => lanes (fun k => (cabsVal (a c w k), 0))) ∧
  WritesV .carg (isFn 0x21 0x07) 8 (fun c w => lanes (fun k => (cargVal (a c w k), 0))) ∧
  WritesV .crot (isFn 0x21 0x08) 6 (fun c w => lanes (fun k => mul (a c w k) (cosSin (g32 c (wRb w))))) ∧
  WritesV .csum (isFn 0x21 0x09) 2 (fun c w => lanes (fun k =>
    if k = 0 then add (add (a c w 0) (a c w 1)) (add (a c w 2) (a c w 3)) else (0, 0)))

/-- R211 and R212 on the arithmetic itself: a NaN result is the one quiet NaN; of one NaN operand FMIN and FMAX return the
other operand, of two the quiet NaN; FMIN of zeros of unlike sign is −0 and FMAX +0; a NaN converts to 0 and infinities to the int64
limits. -/
def Obligations.FloatResultsFollowTheChosenRules : Prop :=
  ∀ f, f = f32 ∨ f = f64 → ∀ a b c : Nat,
    (fIsNan f (fadd f a b) = true → fadd f a b = fNan f) ∧
    (fIsNan f (fsub f a b) = true → fsub f a b = fNan f) ∧
    (fIsNan f (fmul f a b) = true → fmul f a b = fNan f) ∧
    (fIsNan f (ffma f a b c) = true → ffma f a b c = fNan f) ∧
    (fIsNan f a = true → fIsNan f b = false → ∀ mx, fMinMax f mx a b = b ∧ fMinMax f mx b a = b) ∧
    (fIsNan f a = true → fIsNan f b = true → ∀ mx, fMinMax f mx a b = fNan f) ∧
    fMinMax f false 0 (fSignW f) = fSignW f ∧ fMinMax f false (fSignW f) 0 = fSignW f ∧
    fMinMax f true 0 (fSignW f) = 0 ∧ fMinMax f true (fSignW f) 0 = 0 ∧
    (fIsNan f a = true → (fltToInt f 0 a).1 = 0) ∧
    (fltToInt f 0 (fInfBits f)).1 = 0x7FFFFFFFFFFFFFFF#64 ∧
    (fltToInt f 0 (fInfBits f + fSignW f)).1 = 0x8000000000000000#64

/-- R202: g0 reads as 0 and p0 as 1, writes to both are discarded, and every other register keeps what is written. Every
VLD that completes writes p7. -/
def Obligations.HardWiredRegistersDiscardWrites : Prop :=
  (∀ (c : JobCtx) (v : DWord), getG c 0 = 0 ∧ setG c 0 v = c) ∧
  (∀ (c : JobCtx) (b : Bool), getP c 0 = true ∧ setP c 0 b = c) ∧
  (∀ (c : JobCtx) (n m : Nat) (v : DWord), n ≠ 0 → getG (setG c n v) m = if m = n then v else getG c m) ∧
  (∀ (c : JobCtx) (n m : Nat) (b : Bool), n ≠ 0 → getP (setP c n b) m = if m = n then b else getP c m) ∧
  (∀ (s : State) (d fe top : Nat) (c : JobCtx) (w : Nat) (x : Exhibit), fe < 2 →
    (namesOwn c w ∧ top = c.job.revision) ∨ (¬ namesOwn c w ∧ x.st ≠ .opened ∧ x.st ≠ .closing ∧ top = 0) →
    let writesP7 (i : Instr) : Prop := Answers (exec i s) (fun t => ∃ u,
      slotCtx (docentOf t d) (docentOf s d).active = some u ∧ u.pc = c.pc + 4 ∧
      getP u 7 = (landed x (namedAcc c w) && decide (smGet 0 x.landRev (namedAcc c w) ≤ top)))
    (AtWord s d c w 4 → isOp 0x30 w = true → MayGather s c w 8 x → writesP7 (.vldd d fe)) ∧
    (AtWord s d c w 5 → isOp 0x31 w = true → MayGather s c w 32 x → writesP7 (.vldv d fe)))

/-- Table 6.11 and R216–R219: VLDD and VLDV. -/
def Obligations.VaultGathersReadWhatLanded : Prop :=
  GathersAs .vldd 0x30 8 4 (fun c rd v => setG c rd (BitVec.ofNat 64 v)) ∧
  GathersAs .vldv 0x31 32 5 (fun c rd v => setV c rd (BitVec.ofNat 256 v))

/-- Table 6.11 and R220: TBLW, TBLD and TBLV read the plan's table elements. -/
def Obligations.TableReadsReadThePlan : Prop :=
  ReadsTableAs .tblw 0x34 4 3 (fun c rd v => setG c rd (BitVec.ofNat 64 v)) ∧
  ReadsTableAs .tbld 0x35 8 3 (fun c rd v => setG c rd (BitVec.ofNat 64 v)) ∧
  ReadsTableAs .tblv 0x36 32 4 (fun c rd v => setV c rd (BitVec.ofNat 256 v))

/-- R221–R223: LGA, LGAF and LGAS deliver to the ledger; a conversion out of range is clamped, counted and flagged
unless CLAMP_FAULT makes it a fault; what R223 does not accept and a cell that is not there fault. -/
def Obligations.LedgerAddsReachTheirCell : Prop :=
  let fltOf (c : JobCtx) (w : Nat) : DWord × Bool := fltToInt f64 (wFn w % 64) (getG c (wRd w)).toNat
  PostsAs .lga 0x38 (fun c w => getG c (wRd w)) (fun _ _ => true) ∧
  PostsAs .lgaf 0x39 (fun c w => (fltOf c w).1) (fun c w => !(fltOf c w).2) ∧
  PostsAs .lgas 0x3A (fun c w => (fltToInt f32 (wFn w % 64) (g32 c (wRd w))).1)
    (fun c w => !(fltToInt f32 (wFn w % 64) (g32 c (wRd w))).2) ∧
  (∀ (s : State) (d fe b : Nat) (c : JobCtx) (w : Nat), fe < 2 → AtWord s d c w 2 → isOp 0x39 w = true →
    (getG c (wRa w)).toNat < 4096 → ledgerOpen s c → c.job.revision = 0 →
    bankOf s c.job.index (· == .held) = some b → (fltOf c w).2 = true → regBit s Reg.docCfg 1 = false →
    Answers (exec (.lgaf d fe) s) (fun t =>
      slotCtx (docentOf t d) (docentOf s d).active = some { c with pc := c.pc + 4, steps := c.steps + 2, wait := .ready } ∧
      CellTakes s t b (getG c (wRa w)).toNat (wFn w / 64) (fltOf c w).1 ∧
      getReg t (Reg.docCnt 19) = counted (getReg s (Reg.docCnt 19)) ∧ regBit t Reg.docEvents 3 = true ∧
      SameBut [.regs, .host, .log, .vrd, .doc] s t)) ∧
  (∀ (s : State) (d fe : Nat) (c : JobCtx) (w : Nat), AtRest s d c → fe < 2 → AtWord s d c w 2 → isOp 0x38 w = true →
    (¬ ledgerOpen s c → Answers (exec (.lga d fe) s) (fun t => FaultsWith (fetched s fe) t d c 0x1207 0 none)) ∧
    (4096 ≤ (getG c (wRa w)).toNat → ledgerOpen s c → 1 ≤ c.job.revision →
      Answers (exec (.lga d fe) s) (fun t =>
        FaultsWith (fetched s fe) t d c 0x1208 0 (some ((getG c (wRa w)).toNat % 2 ^ 32)))))

/-- R224 and Table 6.12: RAISE hands the change to the verdict unit (of a revision it is only counted), NOP does
nothing, FENCE and YIELD with nothing posted go on, RDSYS reads what its selector names. -/
def Obligations.SystemFunctionsDoWhatTheTableSays : Prop :=
  (∀ (s : State) (d fe : Nat) (c : JobCtx) (w : Nat), fe < 2 → AtWord s d c w 2 → isOp 0x3C w = true →
    (c.job.revision = 0 → Answers (exec (.raise d fe) s) (fun t =>
      Executed (withVrd (fetched s fe) t.vrd) t d c (c.pc + 4) 2 ∧
      t.vrd = { s.vrd with pendRaise := s.vrd.pendRaise ++
        [{ exhibit := if c.job.kind = 0 then some c.job.index else none, line := wFn w % 16,
           value := (wFn w).testBit 7 }] })) ∧
    (1 ≤ c.job.revision → Answers (exec (.raise d fe) s) (fun t => t.vrd = s.vrd ∧
      (fe = 0 → getReg t (Reg.docCnt 18) = counted (getReg s (Reg.docCnt 18))) ∧ regBit t Reg.docEvents 4 = true ∧
      SameBut [.regs, .host, .log, .doc] s t))) ∧
  RunsAs .nop (isFn 0x3D 0x00) 1 (fun c _ => c) ∧
  (∀ (s : State) (d fe : Nat) (c : JobCtx) (w : Nat), fe < 2 → AtWord s d c w 1 → isFn 0x3D 0x03 w = true →
    (jobPosted s c.job = false → Answers (exec (.fence d fe) s) (fun t => Executed (fetched s fe) t d c (c.pc + 4) 1)) ∧
    (jobPosted s c.job = true → Answers (exec (.fence d fe) s) (fun t =>
      slotCtx (docentOf t d) (docentOf s d).active = some { c with wait := .fence } ∧ SameBut [.doc] (fetched s fe) t))) ∧
  (∀ (s : State) (d fe : Nat) (c : JobCtx) (w : Nat), fe < 2 → AtWord s d c w 2 → isFn 0x3D 0x01 w = true →
    jobPosted s c.job = false →
    Answers (exec (.yield d fe) s) (fun t =>
      slotCtx (docentOf t d) (docentOf s d).active = some { c with pc := c.pc + 4, steps := c.steps + 2, wait := .ready } ∧
      slotCtx (docentOf t d) (1 - (docentOf s d).active) = slotCtx (docentOf s d) (1 - (docentOf s d).active) ∧
      (docentOf t d).active = (match slotCtx (docentOf s d) (1 - (docentOf s d).active) with
        | some o => if c.job.priority ≤ o.job.priority ∧ vldWaits o = false then 1 - (docentOf s d).active
                    else (docentOf s d).active
        | none => (docentOf s d).active) ∧
      (docentOf t d).steps = ((docentOf s d).steps + 2) % 2 ^ 64 ∧
      (∀ d', d' ≠ d → docentOf t d' = docentOf s d') ∧ SameBut [.doc] (fetched s fe) t)) ∧
  (∀ (s : State) (d fe : Nat) (c : JobCtx) (w : Nat) (p : Plan), fe < 2 → AtWord s d c w 1 → isFn 0x3D 0x10 w = true →
    planAt s c.job.slot = some p →
    Answers (exec (.rdsys d fe) s) (fun t => Executed (fetched s fe) t d (setG c (wRd w) (BitVec.ofNat 64
      (match wRa w with
       | 0 => if c.job.kind ≤ 2 then c.job.index else 0
       | 1 => c.job.acc
       | 2 => c.job.arg % 2 ^ 32
       | 3 => c.job.revision
       | 4 => c.job.kind
       | 5 => if c.job.kind ≤ 2 then exhibitTime p.baseRate c.job.index else 0
       | 6 => c.steps
       | 7 => stepBudget s c.job
       | 8 => d
       | 9 => c.job.slot
       | 10 => p.planId
       | 11 => p.baseRate
       | 12 => if c.job.acc = 0xFFFF then 0 else (accBind (fetched s fe) c.job.acc).toNat
       | 13 => s.raw
       | _ => if c.job.acc = 0xFFFF then 0 else
           match mapSlot p c.job.acc with
           | some (o, l) => 2 ^ 31 + l * 65536 + o
           | none => 0))) (c.pc + 4) 1))

/-- R228, R236 and Table 6.12: DONE retires the job, counted as done and as retired on its docent; ABORT retires it
with fault 0x120A and the low 16 bits of its register as USER; with a contribution still posted both wait. -/
def Obligations.DoneAndAbortRetireTheJob : Prop :=
  (∀ (s : State) (d fe : Nat) (c : JobCtx) (w : Nat), AtRest s d c → fe < 2 → AtWord s d c w 2 → isFn 0x3D 0x02 w = true →
    Answers (exec (.done d fe) s) (fun t => Vacated (fetched s fe) t d ∧
      (docentOf t d).steps = ((docentOf s d).steps + 2) % 2 ^ 64 ∧ SameBut retireAreas (fetched s fe) t ∧
      (¬ isAddendum c.job → getReg t (Reg.docCnt 16) = counted (getReg s (Reg.docCnt 16)) ∧
        getReg t (Reg.docState d + 0x80) = counted (getReg s (Reg.docState d + 0x80))))) ∧
  (∀ (s : State) (d fe : Nat) (c : JobCtx) (w : Nat), AtRest s d c → fe < 2 → AtWord s d c w 1 → isFn 0x3D 0x04 w = true →
    Answers (exec (.abort d fe) s) (fun t =>
      FaultsWith (fetched s fe) t d c 0x120A ((getG c (wRa w)).toNat % 65536) none)) ∧
  (∀ (s : State) (d fe : Nat) (c : JobCtx) (w : Nat), fe < 2 → AtWord s d c w 2 → isFn 0x3D 0x02 w = true →
    jobPosted s c.job = true →
    Answers (exec (.done d fe) s) (fun t =>
      slotCtx (docentOf t d) (docentOf s d).active = some { c with wait := .fence } ∧ SameBut [.doc] (fetched s fe) t))

/-- Section 6.12 and R205, R239: the host windows of the docents' memories. A read answers the word, latches the upper
half for the port and moves the address on; a write stores eight bytes into a half whose plan slot is EMPTY; the
background scrub corrects and counts. -/
def Obligations.MemoryWindowsReachTheDocents : Prop :=
  (∀ (s : State) (port d me : Nat), d < 64 → me < 2 → regFld s (Reg.docDramAddr d) 16 0 % 8 = 0 →
    regFld s (Reg.docDramAddr d) 16 0 ≤ 0x17FF8 →
    Answers (exec (.dramWindowRead port d me) s) (fun t =>
      let v := leNat (dramRead s d 0 (regFld s (Reg.docDramAddr d) 16 0) 8)
      t.host.resp = [BitVec.ofNat 32 v] ∧
      smGet { tag := 0, words := [] } t.host.latch port =
        { tag := Reg.docDramAddr d + 4, words := [(Reg.docDramDataHi d, BitVec.ofNat 32 (v / 2 ^ 32))] } ∧
      getReg t (Reg.docDramAddr d) = BitVec.ofNat 32 (regFld s (Reg.docDramAddr d) 16 0 + 8) ∧
      SameBut [.regs, .host, .log] s t)) ∧
  (∀ (s : State) (d : Nat) (v : Word), d < 64 → regFld s (Reg.docDramAddr d) 16 0 % 8 = 0 →
    regFld s (Reg.docDramAddr d) 16 0 ≤ 0x17FF8 →
    (planSlot s (regFld s (Reg.docDramAddr d) 16 0 / 0xC000)).st = .empty →
    Answers (exec (.dramWindowWrite d v) s) (fun t =>
      dramRead t d 0 (regFld s (Reg.docDramAddr d) 16 0) 8 =
        leBytes 4 v.toNat ++ leBytes 4 (getReg s (Reg.docDramDataHi d)).toNat ∧
      (∀ k, ¬ (dramKey d 0 (regFld s (Reg.docDramAddr d) 16 0) ≤ k ∧ k < dramKey d 0 (regFld s (Reg.docDramAddr d) 16 0) + 8) →
        smGet 0#8 t.doc.dram k = smGet 0#8 s.doc.dram k) ∧
      getReg t (Reg.docDramAddr d) = BitVec.ofNat 32 (regFld s (Reg.docDramAddr d) 16 0 + 8) ∧
      SameRegs [Reg.docDramAddr d] s t ∧ t.doc.d = s.doc.d ∧ t.doc.iram = s.doc.iram ∧ SameBut [.regs, .doc] s t)) ∧
  (∀ (s : State) (d me : Nat), d < 64 → me < 2 → regFld s (Reg.docIramAddr d) 14 0 % 4 = 0 →
    Answers (exec (.iramWindowRead d me) s) (fun t =>
      t.host.resp = [BitVec.ofNat 32 (iramAt s d 0 (regFld s (Reg.docIramAddr d) 14 0))] ∧
      getReg t (Reg.docIramAddr d) = BitVec.ofNat 32 ((regFld s (Reg.docIramAddr d) 14 0 + 4) % 0x8000) ∧
      SameBut [.regs, .host, .log] s t)) ∧
  (∀ (s : State) (d : Nat), regBit s Reg.docCfg 0 = true → (docentOf s d).s0 = none → (docentOf s d).s1 = none →
    Answers (exec (.backgroundScrub d 1) s) (fun t =>
      getReg t (Reg.docCnt 20) = counted (getReg s (Reg.docCnt 20)) ∧ regBit t Reg.docEvents 1 = true ∧
      SameRegs (Reg.docCnt 20 :: Reg.docEvents :: 0x88004 :: sideRegs) s t ∧ SameBut [.regs, .host, .log] s t))

/-! ## Time base (12_time_base.md) -/

/-- R388 and Table 12.2, without LOCK: RATE keeps T_d continuous, STEP takes the staged offset, ERR changes no value,
REACQUIRE starts acquisition (of a domain that is not LOCKED, R393, log entry 32); each increments GEN, answers 0 in the port's DOM_RESULT, is counted, and leaves the other domain
alone. A command the domain's SOURCE does not allow is refused with 0x0407 and changes nothing. -/
def Obligations.DomainCommitsStoreTheirValues : Prop :=
  ∀ (s : State) (port d : Nat) (v : Word), d < 2 →
    let staged (o : Nat) : Nat := (getReg s (portReg port (0x30100 + 0x80 * d + o))).toNat
    let result : Nat := portReg port (Reg.timDomResult d)
    let old := (domOf s d).vals
    let t8 : Int := domTime8 old (8 * s.raw)
    let accepted (t : State) : Prop := (domOf t d).gen = ((domOf s d).gen + 1) % 2 ^ 32 ∧ getReg t result = 0 ∧
      Counts s t (Reg.timCnt 2) ∧ domOf t (1 - d) = domOf s (1 - d) ∧
      SameRegs (result :: Reg.timCnt 2 :: 0x30004 :: sideRegs) s t ∧ SameBut [.regs, .log, .tim] s t
    let source : Nat := regFld s (Reg.timDomCfg d) 0 0
    (bit v 8 = false → source = 0 → 8 * (s.raw : Int) ≤ t8 → t8 < 8 * (s.raw : Int) + 8000000000 * 2 ^ 48 →
      Answers (exec (.domainRate port d v) s) (fun t => accepted t ∧
        (domOf t d).vals.rate = toSigned 32 (staged 0x34) ∧ (domOf t d).vals.anchor = s.raw ∧
        domTime8 (domOf t d).vals (8 * s.raw) = t8)) ∧
    (bit v 8 = false → s.tim.slew = none → (d ≠ s.tim.sel ∨ s.tim.valid = false) → staged 0x30 < 1000000000 →
      Answers (exec (.domainStep port d v) s) (fun t => accepted t ∧
        (domOf t d).vals = { s := staged 0x28 + staged 0x2C % 65536 * 2 ^ 32, ns := staged 0x30, sub := 0,
                             rate := toSigned 32 (staged 0x34), anchor := s.raw })) ∧
    (bit v 8 = false → source = 0 →
      Answers (exec (.domainErr port d v) s) (fun t => accepted t ∧ (domOf t d).vals = old)) ∧
    (bit v 8 = false → source = 1 →
      Answers (exec (.domainReacquire port d v) s) (fun t => accepted t ∧ (domOf t d).vals = old ∧
        (domOf t d).sourceJump = false ∧ (domOf t d).usable = 0 ∧
        (domOf t d).reacqForce = (if (domOf s d).st = .locked then none else some ((if bit v 9 then 2 else 0) + port)))) ∧
    (∀ i, (source = 1 ∧ (i = .domainRate port d v ∨ i = .domainErr port d v)) ∨ (source = 0 ∧ i = .domainReacquire port d v) →
      Answers (exec i s) (fun t => Refuses t 0x30000 0x0407 ∧ getReg t result = 0x0407 ∧ Counts s t (Reg.timCnt 3) ∧
        t.tim = s.tim ∧ SameBut [.regs, .log] s t))

/-- R386, R388 and Table 12.1: a commit with LOCK 1 sets ERR_LAST to the staged error and restarts AGE; an enabled time
base moves the SOURCE 0 domain to LOCKED from every other state, and flags the change. -/
def Obligations.LockUpdatesLockTheDomain : Prop :=
  ∀ (s : State) (port d : Nat) (v : Word), d < 2 → bit v 8 = true → regFld s (Reg.timDomCfg d) 0 0 = 0 →
    enabled s Reg.timBase = true →
    Answers (exec (.domainErr port d v) s) (fun t =>
      (domOf t d).st = .locked ∧ (domOf t d).lastLock = some s.raw ∧
      (domOf t d).errLast = 8 * (getReg s (portReg port (Reg.timStgErr d))).toNat ∧ (domOf t d).vals = (domOf s d).vals ∧
      ((domOf s d).st ≠ .locked → regBit t Reg.timEvents 0 = true) ∧
      (d = s.tim.sel → (domOf s d).st ≠ .locked → t.tim.valid = true) ∧
      (d ≠ s.tim.sel → t.tim.valid = s.tim.valid) ∧ t.tim.sel = s.tim.sel ∧ domOf t (1 - d) = domOf s (1 - d) ∧
      SameBut [.regs, .host, .log, .tim, .pce, .que, .eth, .pln, .vlt, .dsp, .vrd, .hsh, .nrg, .freeCount] s t)

/-- R387 and Table 12.1: a domain that hears nothing enters HOLDOVER (SOURCE 0 after UPDATE_TIMEOUT, SOURCE 1 after 3 s),
and one whose error estimate, saturated (R386), passes HOLD_LIMIT is LOST. The change is flagged and logged; its rate stays; with AUTO_SWITCH off, the loss of the
selected domain withdraws valid time (R394). Too early, nothing changes. -/
def Obligations.DomainsFallBackAsTheTableSays : Prop :=
  ∀ (s : State) (d : Nat), d < 2 →
    let x := domOf s d
    let changed (t : State) (new : DomState) : Prop :=
      (domOf t d).st = new ∧ (domOf t d).vals = x.vals ∧ regBit t Reg.timEvents 0 = true ∧
      Logs s t 0x0442 0xFFFF ([BitVec.ofNat 8 d, BitVec.ofNat 8 (domStateCode x.st), BitVec.ofNat 8 (domStateCode new), 0#8] ++
        leBytes 4 (errEst s d)) ∧
      (d ≠ s.tim.sel → t.tim.valid = s.tim.valid ∧ domOf t (1 - d) = domOf s (1 - d) ∧
        SameRegs (Reg.timEvents :: sideRegs) s t ∧ SameBut [.regs, .host, .log, .tim] s t) ∧
      (d = s.tim.sel → regBit s Reg.timCfg 8 = false →
        t.tim.valid = (if new = .lost then false else s.tim.valid) ∧ t.tim.sel = s.tim.sel)
    let e (u : Nat) : Nat := Nat.min (0xFFFFFFFF * 1000000000) (x.errLast * 125000000 + (s.raw - u) *
      ((getReg s (Reg.timHoldDrift d)).toNat + if s.tim.refLock then 0 else (getReg s Reg.timRefDrift).toNat))
    (∀ u, x.st = .locked → regFld s (Reg.timDomCfg d) 0 0 = 0 → x.lastLock = some u →
      (u + 1000000000 * regFld s (Reg.timDomCfg d) 10 8 ≤ s.raw →
        ∃ t, exec (.domainUpdateTimeout d) s = .next t ∧ changed t .holdover) ∧
      (s.raw < u + 1000000000 * regFld s (Reg.timDomCfg d) 10 8 → exec (.domainUpdateTimeout d) s = .next s)) ∧
    (x.st = .locked → regFld s (Reg.timDomCfg d) 0 0 = 1 →
      (x.lastUsable + 3000000000 ≤ s.raw → ∃ t, exec (.ppsSourceTimeout d) s = .next t ∧ changed t .holdover) ∧
      (s.raw < x.lastUsable + 3000000000 → exec (.ppsSourceTimeout d) s = .next s)) ∧
    (∀ u, (x.st = .locked ∨ x.st = .holdover) → x.lastLock = some u →
      ((getReg s (Reg.timHoldLimit d)).toNat * 1000000000 < e u → ∃ t, exec (.domainLost d) s = .next t ∧ changed t .lost) ∧
      (e u ≤ (getReg s (Reg.timHoldLimit d)).toNat * 1000000000 → exec (.domainLost d) s = .next s))

/-- R391, R403 and R404: PPS_IN edges, IRIG frames (their elements as log entry 35 takes them from IEEE 1344), the
missing-edge alarm and the 1PPS output with its level. -/
def Obligations.PulsesAndFramesAreCaptured : Prop :=
  (∀ (s : State) (rising : Bool) (sub : Nat), rising ≠ regBit s Reg.timPpsCfg 28 → sub < 8 →
    ((∀ u b, s.tim.ppsLast = some (u, b) → u + 500000000 ≤ s.raw) → s.tim.irigLast = none → s.raw < 2 ^ 64 →
      Answers (exec (.ppsInEdge rising sub) s) (fun t =>
        t.tim = { s.tim with ppsLast := some (s.raw, sub), ppsMiss := s.raw } ∧ Counts s t (Reg.timCnt 4) ∧
        getReg64 t (Reg.timPpsCap 0) (Reg.timPpsCap 1) = s.raw ∧ getReg t (Reg.timPpsCap 2) = BitVec.ofNat 32 sub ∧
        SameRegs (Reg.timCnt 4 :: Reg.timPpsCap 0 :: Reg.timPpsCap 1 :: Reg.timPpsCap 2 :: 0x30004 :: sideRegs) s t ∧
        SameBut [.regs, .log, .tim] s t)) ∧
    (∀ u b, s.tim.ppsLast = some (u, b) → s.raw < u + 500000000 →
      Answers (exec (.ppsInEdge rising sub) s) (fun t => t.tim = s.tim ∧ Counts s t (Reg.timCnt 5) ∧
        SameRegs (Reg.timCnt 5 :: 0x30004 :: sideRegs) s t ∧ SameBut [.regs, .log] s t))) ∧
  (∀ (s : State) (marker sub time control binary : Nat),
    let f := irigElements time control binary
    (((∃ k, k < 100 ∧ (k = 0 ∨ k % 10 = 9) ∧ f / 4 ^ k % 4 ≠ 2) ∨ (∃ k, k < 100 ∧ k ≠ 0 ∧ k % 10 ≠ 9 ∧ 2 ≤ f / 4 ^ k % 4) ∨
        60 < irigSec f ∨ 59 < irigMin f ∨ 23 < irigHour f ∨ irigDay f = 0 ∨ 366 < irigDay f) →
      Answers (exec (.irigFrame marker sub time control binary) s) (fun t => t.tim = s.tim ∧ Counts s t (Reg.timCnt 8) ∧
        regBit t Reg.timIrigStatus 31 = false ∧ SameBut [.regs, .log] s t)) ∧
    (irigUsable f = true → irigSec f < 60 → s.tim.ppsLast = none →
      let utc : Int := 86400 * (10957 + 365 * irigYear f + (irigYear f + 3) / 4 + irigDay f - 1 : Nat) + 3600 * irigHour f +
        60 * irigMin f + irigSec f + 1800 * irigOffset f
      let label : Nat := (utc + taiMinusUtc s utc).toNat
      label < 2 ^ 48 →
      Answers (exec (.irigFrame marker sub time control binary) s) (fun t => Counts s t (Reg.timCnt 7) ∧
        regBit t Reg.timIrigStatus 31 = true ∧ getReg64 t (Reg.timIrigTime 0) (Reg.timIrigTime 1) = label ∧
        (∀ l, s.tim.lastLabel = some l → l + 1 ≠ label → Counts s t (Reg.timCnt 9)) ∧
        t.tim.lastLabel = some label ∧ SameBut [.regs, .log, .tim] s t))) ∧
  (∀ (s : State), s.tim.ppsLast.isSome = true → s.tim.ppsMiss + 1500000000 ≤ s.raw →
    Answers (exec .ppsMissing s) (fun t => t.tim = { s.tim with ppsMiss := s.raw } ∧ Counts s t (Reg.timCnt 6) ∧
      regBit t Reg.timEvents 5 = true ∧ Logs s t 0x0445 0xFFFF [] ∧
      SameRegs (Reg.timCnt 6 :: Reg.timEvents :: 0x30004 :: sideRegs) s t ∧ SameBut [.regs, .host, .log, .tim] s t)) ∧
  (∀ (s : State), regBit s Reg.timPpsCfg 31 = true → (s.tim.valid = true ∨ regBit s Reg.timPpsCfg 30 = true) →
    (selTime8 s (8 * s.raw) - 8 * toSigned 32 (getReg s Reg.timPpsOutOffset).toNat) % 8000000000 = 0 →
    Answers (exec .ppsOutEdge s) (fun t => t.tim = { s.tim with ppsOut := true, ppsOutEnd := t.tim.ppsOutEnd } ∧
      t.tim.ppsOutEnd = s.raw + 1000 * regFld s Reg.timPpsCfg 18 0 ∧ SameBut [.tim] s t)) ∧
  (∀ (s : State), s.tim.ppsOut = true → s.tim.ppsOutEnd ≤ s.raw →
    Answers (exec .ppsOutEnd s) (fun t => t.tim = { s.tim with ppsOut := false } ∧ SameBut [.tim] s t)) ∧
  (∀ s : State, inLadder s = false → s.pwr.st ≠ .off → s.host.vio.testBit 3 = true →
    ppsLevel s = some (xor (s.tim.ppsOut && (s.tim.valid || regBit s Reg.timPpsCfg 30) && s.pwr.st != .keep)
      (regBit s Reg.timPpsCfg 29)))

/-- R396–R399 and Table 12.4: what a SELECT of a domain does, row by row, the end of a slew, the comparison of the
domains and AUTO_SWITCH. -/
def Obligations.SelectionFollowsTheTable : Prop :=
  (∀ (s : State) (v : Word),
    let d := fld v 0 0
    let tol : Int := 8 * ((regFld s Reg.timCfg 7 0 : Nat) : Int)
    let apart : Int := domTime8 s.tim.domB.vals (8 * s.raw) - domTime8 s.tim.domA.vals (8 * s.raw)
    let refused (code : Nat) : Prop := Answers (exec (.select v) s) (fun t => t.tim.sel = s.tim.sel ∧ t.tim.slew = s.tim.slew ∧
      t.tim.valid = s.tim.valid ∧ Refuses t 0x30000 code ∧ getReg t Reg.timSelectResult = BitVec.ofNat 32 code ∧
      Counts s t (Reg.timCnt 1) ∧ (t.tim.split = (s.tim.split || code == 0x0404)) ∧
      (code = 0x0404 → regBit t Reg.timEvents 2 = true) ∧ SameBut [.regs, .host, .log, .tim] s t)
    (s.tim.slew.isSome = true → refused 0x0406) ∧
    (s.tim.slew = none →
      (d = s.tim.sel → Answers (exec (.select v) s) (fun t => t.tim = { s.tim with split := false } ∧
        getReg t Reg.timSelectResult = 0 ∧ Counts s t (Reg.timCnt 0) ∧ SameBut [.regs, .log, .tim] s t)) ∧
      (d ≠ s.tim.sel →
        ((domOf s d).st ≠ .locked → refused 0x0405) ∧
        ((domOf s d).st = .locked →
          (s.tim.valid = false → Answers (exec (.select v) s) (fun t => t.tim.sel = d ∧ t.tim.valid = true ∧ t.tim.slew = none ∧
            getReg t Reg.timSelectResult = 0 ∧
            SameBut [.regs, .host, .log, .tim, .pce, .que, .eth, .pln, .vlt, .dsp, .vrd, .nrg] s t)) ∧
          (s.tim.valid = true → tol < (apart.natAbs : Int) → refused 0x0404) ∧
          (s.tim.valid = true → (apart.natAbs : Int) ≤ tol → Answers (exec (.select v) s) (fun t => t.tim.sel = d ∧
            t.tim.valid = true ∧ t.tim.slew = some { start := s.raw, fromDom := s.tim.sel, oldVals := none } ∧
            t.tim.split = false ∧ getReg t Reg.timSelectResult = 0 ∧ Counts s t (Reg.timCnt 0) ∧
            selTime8 t (8 * s.raw) = domTime8 (domOf s s.tim.sel).vals (8 * s.raw) ∧
            SameBut [.regs, .log, .tim, .vrd] s t)))))) ∧
  (∀ (s : State) (x : Slew), s.tim.slew = some x → x.start + 1000000000 ≤ s.raw →
    Answers (exec .slewEnd s) (fun t => t.tim = { s.tim with slew := none } ∧ regBit t Reg.timEvents 1 = true ∧
      SameRegs (Reg.timEvents :: sideRegs) s t ∧ SameBut [.regs, .host, .log, .tim] s t)) ∧
  (∀ (s : State), s.tim.domA.st ≠ .free → s.tim.domB.st ≠ .free →
    let apart : Int := domTime8 s.tim.domB.vals (8 * s.raw) - domTime8 s.tim.domA.vals (8 * s.raw)
    Answers (exec .domainCompare s) (fun t =>
      (-2147483647 ≤ apart / 8 → apart / 8 ≤ 2147483647 → (getReg t Reg.timDiff).toInt = apart / 8) ∧
      t.tim = { s.tim with split := s.tim.split && !decide ((apart.natAbs : Int) ≤ 8 * ((regFld s Reg.timCfg 7 0 : Nat) : Int)) } ∧
      SameRegs [Reg.timDiff] s t ∧ SameBut [.regs, .tim] s t)) ∧
  (∀ (s : State), s.tim.sel < 2 → regBit s Reg.timCfg 8 = true → (domOf s (1 - s.tim.sel)).st = .locked → s.tim.slew = none →
    (domOf s s.tim.sel).st = .lost → s.tim.valid = false →
    Answers (exec .autoSwitchRetry s) (fun t => t.tim.sel = 1 - s.tim.sel ∧ t.tim.valid = true ∧ Counts s t (Reg.timCnt 0)))

/-- R383, R385, R401 and R406: REFCLK's lock, appending and refusing leap entries, and the latches of a domain's set and
of a transmit timestamp. -/
def Obligations.ReferenceLeapTableAndLatches : Prop :=
  (∀ (s : State), (s.tim.refLock = true → Answers (exec .refclkLost s) (fun t => t.tim = { s.tim with refLock := false } ∧
      regBit t Reg.timEvents 4 = true ∧ Logs s t 0x0443 0xFFFF [] ∧ t.raw = s.raw ∧
      SameBut [.regs, .host, .log, .tim, .vrd] s t)) ∧
    (s.tim.refLock = false → Answers (exec .refclkLock s) (fun t => t.tim = { s.tim with refLock := true } ∧
      regBit t Reg.timEvents 4 = true ∧ Logs s t 0x0443 0xFFFF [] ∧ t.raw = s.raw ∧
      SameBut [.regs, .host, .log, .tim, .vrd] s t))) ∧
  (∀ (s : State) (k : Nat) (v : Word), k < 32 → bit v 31 = true →
    let eff : Nat := (getReg s (0x30400 + 16 * k)).toNat + regFld s (0x30404 + 16 * k) 15 0 * 2 ^ 32
    let off : Int := toSigned 16 (fld v 15 0)
    let before : Int := if k = 0 then toSigned 16 (regFld s Reg.timLeapBase 15 0) else leapOff s (k - 1)
    ((∀ j, j < k → ∃ e, smFind s.tim.leap j = some e) → smFind s.tim.leap k = none →
      (k ≠ 0 → leapEff s (k - 1) < eff) → (off = before + 1 ∨ off = before - 1) →
      Answers (exec (.leapEntryWrite k v) s) (fun t => smFind t.tim.leap k = some (eff, off) ∧
        (∀ j, j ≠ k → smFind t.tim.leap j = smFind s.tim.leap j) ∧ SameBut [.regs, .log, .tim, .vrd] s t)) ∧
    (off ≠ before + 1 → off ≠ before - 1 →
      Answers (exec (.leapEntryWrite k v) s) (fun t => t.tim = s.tim ∧ Refuses t 0x30000 0x0401 ∧
        SameRegs [0x30008] s t ∧ SameBut [.regs] s t))) ∧
  (∀ (s : State) (port p : Nat), port < 2 → p < 6 →
    (smGet [] s.tim.txts p = [] → Answers (exec (.txtsPop port p) s) (fun t => t.host.resp = [0#32] ∧ t.tim = s.tim ∧
      SameBut [.host] s t)) ∧
    (∀ e r, smGet [] s.tim.txts p = e :: r →
      Answers (exec (.txtsPop port p) s) (fun t =>
        t.host.resp = [BitVec.ofNat 32 (2 ^ 31 + e.msgType * 2 ^ 24 + e.domain * 65536 + e.seqId)] ∧
        smGet [] t.tim.txts p = r ∧ (∀ q, q ≠ p → smGet [] t.tim.txts q = smGet [] s.tim.txts q) ∧
        smGet none t.tim.txtsLatch (port * 8 + p) = some e ∧ SameBut [.host, .tim] s t))) ∧
  (∀ (s : State) (port d : Nat), port < 2 → d < 2 →
    let v := (domOf s d).vals
    Answers (exec (.domainSetLatch port d) s) (fun t => t.host.resp = [BitVec.ofNat 32 v.s] ∧
      smFind t.tim.domLatch (port * 2 + d) = some [BitVec.ofNat 32 (v.s / 2 ^ 32 % 65536), BitVec.ofNat 32 v.ns,
        BitVec.ofNat 32 v.sub, BitVec.ofNat 32 (ofSigned 32 v.rate), BitVec.ofNat 32 v.anchor,
        BitVec.ofNat 32 (v.anchor / 2 ^ 32), BitVec.ofNat 32 (domOf s d).gen] ∧
      t.tim = { s.tim with domLatch := t.tim.domLatch } ∧ SameBut [.host, .tim] s t))

/-! ## Pace (02_pace.md) -/

/-- R55–R57, R59 and R62: the end of a window sets every ring's pace and the lowest of them, and moves VCORE by at most
one step of 2.5 mV inside its limits; a window begun before the last wake raises and clears no condition; BELOW_REQ is raised by one window below the
required pace. -/
def Obligations.WindowsMeasurePaceAndMoveVcore : Prop :=
  ∀ (s : State) (counts : List Nat) (tj : Nat), s.pwr.st ≠ .nap → s.pwr.st ≠ .keep → s.pwr.st ≠ .off →
    opRunning s Reg.pceCalOpstat = false →
    Answers (exec (.paceWindowEnd counts tj) s) (fun t =>
      let ring (k : Nat) : Nat :=
        Nat.min 0xFFFFFFFF ((match counts[k]? with | some c => c | none => 0) * 65536 / windowUs s)
      let now : Nat := (getReg t Reg.pcePaceNow).toNat
      let edge : Nat := paceEdge s
      let upper : Nat := edge * (100 + (if s.pwr.st = .trim then 0 else regFld s Reg.pceCfg 13 8))
      (∀ k, k < 20 → getReg t (Reg.pceRingPace k) = BitVec.ofNat 32 (ring k) ∧ now ≤ ring k) ∧
      (∃ k, k < 20 ∧ now = ring k) ∧
      t.pce.vcore = (if now < edge ∧ s.pce.vcore < 1700 ∧ s.pce.vcore < s.pce.cap then s.pce.vcore + 5
        else if upper < now * 100 ∧ 1200 < s.pce.vcore then s.pce.vcore - 5
        else if s.pce.cap < s.pce.vcore then s.pce.vcore - 5 else s.pce.vcore) ∧
      getReg t Reg.pceVcoreNow = BitVec.ofNat 32 (t.pce.vcore / 2) ∧ t.pce.cap = s.pce.cap ∧
      (s.pce.stale = true → t.pce.stale = false ∧ regFld t Reg.pceStatus 3 2 = regFld s Reg.pceStatus 3 2) ∧
      (s.pce.stale = false → regBit t Reg.pceStatus 0 = true ∧
        (regBit s Reg.pceStatus 3 = false → now < (getReg s Reg.pcePaceReq).toNat →
          regBit t Reg.pceStatus 3 = true ∧ regBit t Reg.pceEvents 2 = true)) ∧
      SameBut [.regs, .host, .log, .pce, .vrd] s t)

/-- R25, R66 and R74–R76: a write of PCE_CFG, and calibration: its start at 0.60 V, its stop, points that complete and
are readable while it goes on, and its end with a point that fails or with all eleven (what log entry 32 chose: the
point that fails counts, and cause 0x02 wins). -/
def Obligations.CalibrationRunsItsPoints : Prop :=
  (∀ (s : State) (v : Word), Answers (exec (.pceCfgWrite v) s) (fun t => regFld t Reg.pceCfg 1 0 = fld v 1 0 ∧
    (fld v 13 8 ≤ 50 → regFld t Reg.pceCfg 13 8 = fld v 13 8 ∧ SameRegs [Reg.pceCfg] s t) ∧
    (50 < fld v 13 8 → regFld t Reg.pceCfg 13 8 = regFld s Reg.pceCfg 13 8 ∧ Refuses t 0x20000 0x03F1) ∧
    t.pce = { s.pce with stale := t.pce.stale } ∧ SameBut [.regs, .pce] s t)) ∧
  (∀ (s : State),
    (opRunning s Reg.pceCalOpstat = false → s.vlt.ex = [] → Answers (exec .pceCalStart s) (fun t =>
      getReg t Reg.pceCalOpstat = 0x10000000 ∧ t.pce = { s.pce with calPts := [], vcore := 1200 } ∧
      getReg t Reg.pceVcoreNow = 600 ∧ SameRegs [Reg.pceCalOpstat, Reg.pceVcoreNow, Reg.pceStatus] s t ∧
      SameBut [.regs, .pce] s t)) ∧
    (opRunning s Reg.pceCalOpstat = false → s.vlt.ex ≠ [] → Answers (exec .pceCalStart s) (fun t =>
      Refuses t 0x20000 0x0304 ∧ SameRegs [0x20008] s t ∧ SameBut [.regs] s t)) ∧
    (opRunning s Reg.pceCalOpstat = true → Answers (exec .pceCalStart s) (fun t =>
      Refuses t 0x20000 0x03F3 ∧ SameRegs [0x20008] s t ∧ SameBut [.regs] s t))) ∧
  (∀ (s : State) (pts : List (List Nat)), opRunning s Reg.pceCalOpstat = true →
    let lows : List Nat := s.pce.calPts ++ pts.map calLow
    let low (i : Nat) : Nat := match lows[i]? with | some c => c | none => 0
    let pace (i : Nat) : Nat := Nat.min 0xFFFFFFFF (low i * 65536 / 64)
    let good : Prop := (∀ c ∈ lows, c ≠ 0) ∧ (lows ≠ [] → 900 * 65536 ≤ pace 0)
    let shown (t : State) : Prop := regFld t Reg.pceCalOpstat 15 0 = lows.length ∧ t.pce.vcore = 1200 + 50 * lows.length ∧
      getReg t Reg.pceVcoreNow = BitVec.ofNat 32 (t.pce.vcore / 2) ∧ SameBut [.regs, .pce] s t
    (good → lows.length < 11 →
      Answers (exec (.pceCalStop pts) s) (fun t => opState t Reg.pceCalOpstat = 4 ∧ shown t) ∧
      Answers (exec (.pceCalEnd pts) s) (fun t => opState t Reg.pceCalOpstat = 1 ∧ t.pce.calPts = lows ∧ shown t)) ∧
    (s.pce.calPts.length < 11 → lows.length = 11 → good →
      Answers (exec (.pceCalEnd pts) s) (fun t => opState t Reg.pceCalOpstat = 2 ∧ regBit t Reg.pceStatus 4 = true ∧
        regFld t Reg.pceCalOpstat 15 0 = 11 ∧ (∃ k, k ≤ 10 ∧ t.pce.vcore = 1200 + 50 * k ∧ (∀ i, i < k → pace i < (getReg s Reg.pcePaceTarget).toNat) ∧
          (k = 10 ∨ (getReg s Reg.pcePaceTarget).toNat ≤ pace k)) ∧ SameBut [.regs, .pce] s t)) ∧
    (∀ c r, pts = c :: r → calLow c = 0 → s.pce.calPts.length < 11 →
      Answers (exec (.pceCalEnd pts) s) (fun t => opState t Reg.pceCalOpstat = 3 ∧
        regFld t Reg.pceCalOpstat 15 0 = s.pce.calPts.length + 1 ∧ regFld t Reg.pceCalOpstat 23 16 = 2 ∧ t.pce.vcore = 1700 ∧ Refuses t 0x20000 0x0302 ∧ SameBut [.regs, .pce] s t)) ∧
    (∀ c r, pts = c :: r → s.pce.calPts = [] → calLow c ≠ 0 → pace 0 < 900 * 65536 →
      Answers (exec (.pceCalEnd pts) s) (fun t => opState t Reg.pceCalOpstat = 3 ∧
        regFld t Reg.pceCalOpstat 23 16 = 3 ∧ t.pce.vcore = 1700 ∧ Refuses t 0x20000 0x0303 ∧ SameBut [.regs, .pce] s t)))

/-! ## Logbook and lifetime counters (20_logbook.md) -/

/-- R562–R564: the event at the head of the staging FIFO becomes the next record or folds into the newest; every other
record stands; lost events are told in record 0x0641. -/
def Obligations.EventsBecomeRecords : Prop :=
  ∀ (s : State) (e : LogEvent) (l : List LogEvent), s.log.fifo = e :: l →
    (repeatCounted e.event = false → s.log.lost = 0 →
      Answers (exec .logRecordWrite s) (fun t =>
        smFind t.log.ring (s.log.next % 65536) = some
          { recnum := s.log.next, opSeconds := (getReg s (Reg.logLife 0)).toNat,
            powerCycles := (getReg s (Reg.logLife 1)).toNat, event := e.event, source := e.source, tai := e.tai,
            data := e.data, rep := 0, keep := e.keep, brace := s.log.brace } ∧
        (∀ k, k ≠ s.log.next % 65536 → smFind t.log.ring k = smFind s.log.ring k) ∧
        t.log.next = (s.log.next + 1) % 2 ^ 32 ∧ t.log.foldable = true ∧ (∃ m, t.log.fifo = l ++ m) ∧
        Counts s t (Reg.logCnt 0) ∧ regBit t Reg.logEvents 0 = true ∧
        SameRegs (Reg.logCnt 0 :: sideRegs) s t ∧ SameBut [.regs, .host, .log] s t)) ∧
    (∀ r, repeatCounted e.event = true → s.log.lost = 0 → s.log.foldable = true →
      smFind s.log.ring (logHead s % 65536) = some r → r.recnum = logHead s → r.event = e.event → r.source = e.source →
      e.grant ≤ s.log.newestGrant + 1000000 * regFld s Reg.logCfg 15 0 → r.rep < 65535 →
      Answers (exec .logRecordWrite s) (fun t =>
        smFind t.log.ring (logHead s % 65536) = some { r with rep := r.rep + 1 } ∧
        (∀ k, k ≠ logHead s % 65536 → smFind t.log.ring k = smFind s.log.ring k) ∧ t.log.next = s.log.next ∧
        t.log.newestGrant = e.grant ∧ (∃ m, t.log.fifo = l ++ m) ∧ Counts s t (Reg.logCnt 1) ∧
        SameRegs (Reg.logCnt 1 :: sideRegs) s t ∧ SameBut [.regs, .host, .log] s t)) ∧
    (s.log.lost ≠ 0 → l.length ≤ 56 →
      Answers (exec .logRecordWrite s) (fun t => t.log.lost = 0 ∧
        ∃ x ∈ t.log.fifo, x.event = 0x0641 ∧ x.data = padTo 32 (leBytes 4 s.log.lost ++ leBytes 2 s.log.lostFirst)))

/-- R567, R569, R571 and R572: the window of each port, the background pass below the floor, and the commit of the
lifetime store. -/
def Obligations.TheLogIsReadClearedAndCommitted : Prop :=
  (∀ (s : State) (port : Nat), port < 2 →
    let a := portReg port Reg.logCursor
    let c := (getReg s a).toNat
    (∀ r, smFind s.log.ring (c % 65536) = some r → r.recnum = c → belowFloor s c = false → logAge s c ≤ 65536 →
      ¬ (1 ≤ (c + 2 ^ 32 - logHead s) % 2 ^ 32 ∧ (c + 2 ^ 32 - logHead s) % 2 ^ 32 ≤ 2 ^ 31) →
      Answers (exec (.logWindowLatch port) s) (fun t => t.host.resp = [getReg s a] ∧
        smFind t.log.window port = some (0, logBytes r) ∧ t.log = { s.log with window := t.log.window } ∧
        SameBut [.host, .log] s t)) ∧
    (1 ≤ (c + 2 ^ 32 - logHead s) % 2 ^ 32 → (c + 2 ^ 32 - logHead s) % 2 ^ 32 ≤ 2 ^ 31 →
      Answers (exec (.logWindowLatch port) s) (fun t => t.host.resp = [0#32] ∧ smFind t.log.window port = some (1, []) ∧
        t.log = { s.log with window := t.log.window } ∧ SameBut [.host, .log] s t)) ∧
    (∀ st b, smFind s.log.window port = some (st, b) →
      Answers (exec (.logAutoAdvance port) s) (fun t => t.host.resp = [BitVec.ofNat 32 (le b 60 4)] ∧
        getReg t a = (if st = 0 ∧ regBit s Reg.logCfg 16 = true then getReg s a + 1#32 else getReg s a) ∧
        SameRegs [a] s t ∧ SameBut [.regs, .host] s t))) ∧
  (∀ (s : State) (p left : Nat), s.log.clearPos = some (p, left) →
    Answers (exec .logClearPass s) (fun t =>
      (∀ k, smFind t.log.ring k = (match smFind s.log.ring k with
        | some r => if k < 65536 ∧ (k + 65536 - p % 65536) % 65536 < Nat.min 64 left ∧ belowFloor s r.recnum = true then none else some r
        | none => none)) ∧
      t.log.clearPos = (if left ≤ 64 then none else some ((p + 64) % 65536, left - 64)) ∧
      t.log = { s.log with ring := t.log.ring, clearPos := t.log.clearPos } ∧ SameBut [.log] s t)) ∧
  (∀ (s : State) (ok : Bool) (a b : LifeSlot), s.log.slot0 = some a → s.log.slot1 = some b → a.gen < b.gen →
    opState s Reg.pwrStartOpstat = 2 → s.log.lifeSec ≠ some (s.raw / 1000000000) →
    Answers (exec (.lifetimeCommit ok) s) (fun t => t.log.slot1 = some b ∧
      t.log.lifeSec = some (s.raw / 1000000000) ∧
      (getReg t (Reg.logLife 0)).toNat = Nat.min 0xFFFFFFFF ((getReg s (Reg.logLife 0)).toNat + (s.raw / 1000000000 - s.log.lifeAt)) ∧
      (ok = false → t.log.slot0 = none ∧ Logs s t 0x0642 0xFFFF []) ∧
      (ok = true → ∃ x, t.log.slot0 = some x ∧ x.gen = (b.gen + 1) % 2 ^ 32 ∧ x.floor = s.log.floor ∧ x.pend = s.log.pendFloor ∧
        x.counters = (List.range 13).map (fun k => (getReg t (Reg.logLife k)).toNat)) ∧
      SameBut [.regs, .host, .log] s t))

/-! ## Keys (17_keys.md) -/

/-- R502–R507 and Tables 17.1 and 17.3: a message that passes every test starts its commit in phase 1 and changes
nothing of the key state yet; a message is refused with the first failing test's cause. -/
def Obligations.UpdateMessagesAreTested : Prop :=
  ∀ (s : State) (i : Instr) (port u : Nat) (m : List Byte), port < 2 → IsKeyCommand i u port →
    (∀ kek, KeyMessagePasses s port u kek m →
      Answers (exec i s) (fun t => opState t Reg.keyOpstat = 1 ∧ regFld t Reg.keyOpstat 15 0 = 1 ∧
        t.key = { s.key with update := t.key.update } ∧ SameRegs [Reg.keyOpstat] s t ∧
        SameBut (if u = 6 then [.regs, .log, .key] else [.regs, .key]) s t ∧
        ∃ x, t.key.update = some x ∧ x.usage = u ∧ x.slot.counter = le m 0x10 4 ∧
          x.slot.lc = (if u = 3 then 2 else if u = 4 then 3 else if u = 5 then 4 else (keyCur s).lc) ∧
          x.slot.epoch = (if u = 3 then ((keyCur s).epoch + 1) % 2 ^ 32 else (keyCur s).epoch) ∧
          (u = 1 → x.wk = some (gcmCrypt kek (slice m 0x20 12) (slice m 0x30 32)) ∧ x.slot.permit = le m 4 2 ∧
            x.slot.label = le m 0x14 4) ∧
          (2 ≤ u → u ≤ 5 → x.wk = none ∧ x.slot.wkW = none))) ∧
    (keyMsgBytes s port = m → le m 6 1 = u →
      (opRunning s Reg.keyOpstat = true → Answers (exec i s) (fun t =>
        Refuses t Reg.keyBase 0x05F3 ∧ SameRegs [0x40008] s t ∧ SameBut [.regs] s t)) ∧
      (opRunning s Reg.keyOpstat = false →
        (s.pwr.warn = true → Answers (exec i s) (fun t => KeyRefused s t 0x0B)) ∧
        (s.pwr.warn = false →
          (enabled s Reg.keyBase = false → Answers (exec i s) (fun t => KeyRefused s t 0x0A)) ∧
          (enabled s Reg.keyBase = true →
            (le m 0 4 ≠ 0x4B555044 → Answers (exec i s) (fun t => KeyRefused s t 0x01)) ∧
            (le m 0 4 = 0x4B555044 → le m 7 1 = 1 → le m 0x18 8 = 0 → le m 0x2C 4 = 0 →
              (le m 8 8 ≠ Config.uid.toNat → Answers (exec i s) (fun t => KeyRefused s t 0x02)) ∧
              (le m 8 8 = Config.uid.toNat →
                (s.key.kek = none → Answers (exec i s) (fun t => KeyRefused s t 0x06)) ∧
                (s.key.kek.isSome = true → s.key.lc = 4 →
                  Answers (exec i s) (fun t => KeyRefused s t 0x06)) ∧
                (s.key.kek.isSome = true → s.key.rootOk = true → s.key.lc = 1 →
                  (u = 4 ∨ u = 6 → Answers (exec i s) (fun t => KeyRefused s t 0xF2)) ∧
                  (u ≠ 4 → u ≠ 6 → le m 0x10 4 ≤ (getReg s Reg.keyCounter).toNat →
                    Answers (exec i s) (fun t => KeyRefused s t 0x03)))))))))

/-- R504, R507, R510 and section 17.7: ENROLL, STOP and the end of a commit. -/
def Obligations.KeyCommitsTakeEffectWhole : Prop :=
  (∀ (s : State) (port : Nat), port < 2 → opRunning s Reg.keyOpstat = false → s.pwr.warn = false →
    (s.key.lc ≠ 0 → Answers (exec (.keyEnroll port) s) (fun t => KeyRefused s t 0xF2)) ∧
    (s.key.lc = 0 → port = 0 → Answers (exec (.keyEnroll port) s) (fun t => KeyRefused s t 0x09)) ∧
    (∀ m, s.key.lc = 0 → port = 1 → keyMsgBytes s 1 = m → enabled s Reg.keyBase = true → le m 0 4 = 0x4B555044 →
      le m 7 1 = 1 → le m 0x18 8 = 0 → le m 0x2C 4 = 0 → le m 8 8 = Config.uid.toNat → le m 6 1 = 7 →
      slice m 0x50 16 = List.replicate 16 0 →
      Answers (exec (.keyEnroll port) s) (fun t => opState t Reg.keyOpstat = 1 ∧
        (∃ x, x.usage = 7 ∧ x.slot.lc = 1 ∧ x.slot.counter = le m 0x10 4 ∧ x.wk = none ∧
          t.key = { s.key with update := some x }) ∧ SameRegs [Reg.keyOpstat] s t ∧ SameBut [.regs, .key] s t))) ∧
  (∀ (s : State) (n : Nat), opRunning s Reg.keyOpstat = true → regFld s Reg.keyOpstat 15 0 ≤ 4 →
    (n ≤ 2 → regFld s Reg.keyOpstat 15 0 ≤ 2 → Answers (exec (.keyStop n) s) (fun t => opState t Reg.keyOpstat = 4 ∧
      t.key = { s.key with update := none } ∧ regFld t Reg.keyEvents 0 0 = 1 ∧ SameBut [.regs, .host, .log, .key] s t)) ∧
    (3 ≤ n ∨ 3 ≤ regFld s Reg.keyOpstat 15 0 → Answers (exec (.keyStop n) s) (fun t => opState t Reg.keyOpstat = 1 ∧
      t.key = s.key ∧ SameRegs [Reg.keyOpstat] s t ∧ SameBut [.regs] s t))) ∧
  (∀ (s : State) (u : KeyUpdate) (g k : Nat), s.key.update = some u → opRunning s Reg.keyOpstat = true →
    keySelect s = some (g, k) → k < 2 → g + 1 < 2 ^ 31 →
    Answers (exec (.keyCommitEnd true) s) (fun t =>
      keySelect t = some (g + 1, 1 - k) ∧ keySlotAt t (1 - k) = some u.slot ∧ keySlotAt t k = keySlotAt s k ∧
      t.key.lc = u.slot.lc ∧ t.key.wk = u.wk ∧ t.key.kek = kekOf u.slot ∧ t.key.update = none ∧
      getReg t Reg.keyCounter = BitVec.ofNat 32 u.slot.counter ∧ getReg t Reg.keyEpoch = BitVec.ofNat 32 u.slot.epoch ∧
      opState t Reg.keyOpstat = 2 ∧ Counts s t (Reg.keyCnt 0) ∧ regFld t Reg.keyEvents 0 0 = 1 ∧
      (u.usage = 1 → regFld t Reg.keyEvents 1 1 = 1) ∧
      (u.slot.lc ≠ (keyCur s).lc → regFld t Reg.keyEvents 2 2 = 1) ∧
      (u.usage = 5 → t.key.helper0 = false ∧ t.key.helper1 = false) ∧
      (u.usage = 7 → t.key.helper0 = true ∧ t.key.helper1 = true ∧ t.key.rootOk = true) ∧
      (∀ f c, u.usage = 6 → s.log.pendFloor = some (f, c) → t.log.floor = f) ∧
      SameBut [.regs, .host, .log, .eth, .key] s t) ∧
    Answers (exec (.keyCommitEnd false) s) (fun t => t.key = { s.key with update := none } ∧
      opState t Reg.keyOpstat = 3 ∧ Refuses t Reg.keyBase 0x0507 ∧ Logs s t 0x0544 0xFFFF [] ∧
      SameBut [.regs, .host, .log, .key] s t))

/-! ## Capture (15_capture.md) -/

/-- R467, R469, R471–R473 and R477: triggers. One that meets IDLE or HALTED, or whose instant lies before the previous record's
end, is lost and counted; while RECORDING it counts in the open record; while ARMED it opens one. So do a host trigger, an
edge on the trigger bus, a ROC result that turns true and a mask's violation. -/
def Obligations.TriggersOpenAndExtendRecords : Prop :=
  let joined (r : CapRec) (src inst : Nat) : CapRec :=
    { r with latest := Nat.max r.latest inst, sources := r.sources ||| 2 ^ src, triggers := Nat.min 65535 (r.triggers + 1) }
  let quiet (s : State) : Prop := regFld s Reg.capBus 23 16 = 0 ∧ regFld s Reg.capRemote 15 8 = 0
  (∀ (s : State), s.part = .gld9600 → regBit s Reg.capSrcEn 7 = true →
    ((s.cap.st = .idle ∨ s.cap.st = .halted ∨ s.raw < s.cap.lastEnd) →
      Answers (exec .capForce s) (fun t => t.cap = s.cap ∧ Counts s t (Reg.capCnt 2) ∧
        SameRegs (Reg.capCnt 2 :: 0xC0004 :: sideRegs) s t ∧ SameBut [.regs, .log] s t)) ∧
    (∀ r, s.cap.st = .recording → s.cap.cur = some r → s.cap.lastEnd ≤ s.raw → quiet s →
      Answers (exec .capForce s) (fun t => t.cap = { s.cap with cur := some (joined r 7 s.raw) } ∧
        Counts s t (Reg.capCnt 1) ∧ regBit t Reg.capEvents 0 = true ∧
        SameRegs (Reg.capCnt 1 :: Reg.capEvents :: 0xC0004 :: sideRegs) s t ∧ SameBut [.regs, .host, .log, .cap] s t)) ∧
    (s.cap.st = .armed → s.cap.cur = none → s.cap.lastEnd ≤ s.raw → quiet s → capTarget s = 0 →
      Answers (exec .capForce s) (fun t => t.cap.st = .recording ∧ Counts s t (Reg.capCnt 1) ∧
        (∃ r, t.cap.cur = some r ∧ r.first = s.raw ∧ r.latest = s.raw ∧ r.firstSrc = 7 ∧ r.sources = 128 ∧ r.triggers = 1 ∧
          r.tag = regFld s Reg.capTag 15 0 ∧ r.flags.testBit 5 = !s.tim.valid ∧
          r.start = Nat.max (s.raw - 1000000 * regFld s Reg.capRec 31 16) s.cap.lastEnd ∧
          (r.flags.testBit 2 = decide (s.raw - 1000000 * regFld s Reg.capRec 31 16 < s.cap.lastEnd))) ∧
        t.cap.rings = s.cap.rings ∧ t.cap.store = [] ∧ SameBut [.regs, .host, .log, .cap] s t))) ∧
  (∀ (s : State) (n sub : Nat), s.part = .gld9600 → n < 4 → sub < 8 →
    (∀ r, s.cap.st = .recording → s.cap.cur = some r → quiet s →
      regBit s Reg.capSrcEn 5 = true → (regFld s Reg.capBus 27 24).testBit n = true → s.cap.hostTx.testBit n = false →
      smFind s.cap.driving n = none →
      let inst : Nat := ((((8 * s.raw + sub : Nat) : Int) - 8000 * ((getReg s Reg.capBusLat).toNat : Int) -
        (getReg s Reg.capBusDelay).toInt) / 8).toNat
      s.cap.lastEnd ≤ inst →
      Answers (exec (.triggerBusEdge n sub true) s) (fun t =>
        t.cap = { s.cap with hostTx := s.cap.hostTx ||| 2 ^ n, cur := some (joined r 5 inst) } ∧
        Counts s t (Reg.capCnt 1) ∧ SameBut [.regs, .host, .log, .cap] s t)) ∧
    Answers (exec (.triggerBusEdge n sub false) s) (fun t =>
      t.cap = { s.cap with hostTx := s.cap.hostTx &&& (15 - 2 ^ n) } ∧ SameBut [.cap] s t)) ∧
  (∀ (s : State) (u c : Nat) (r : CapRec), s.part = .gld9600 → enabled s Reg.capBase = true → u % 250000 = 0 → s.cap.rocAt < u → u ≤ s.raw →
    s.cap.st = .recording → s.cap.cur = some r → quiet s → bitList 16 (capChan s) = [c] →
    (bit (getReg s (Reg.capChTrg c)) 2 = true → (∀ m, m < 8 → bit (getReg s (Reg.capMaskCfg m)) 31 = false) →
      regBit s Reg.capSrcEn 2 = true → rocTest s c u = some true → (capRing s c).roc = false →
      s.cap.lastEnd ≤ lastStamp s c u →
      Answers (exec (.rocEvaluation u) s) (fun t => t.cap.cur = some (joined r 2 (lastStamp s c u)) ∧ t.cap.rocAt = u ∧
        (capRing t c).roc = true ∧ Counts s t (Reg.capCnt 1) ∧ SameBut [.regs, .host, .log, .cap] s t)) ∧
    (∀ m, m < 8 → bit (getReg s (Reg.capChTrg c)) 2 = false → (∀ k, k < 8 → bit (getReg s (Reg.capMaskCfg k)) 31 = decide (k = m)) →
      regBit s Reg.capSrcEn 3 = false → r.maskFail.testBit m = false → r.first ≤ u → maskBroken s m r.first u = true →
      Answers (exec (.rocEvaluation u) s) (fun t => t.cap.rocAt = u ∧ Counts s t (Reg.capCnt 5) ∧
        regBit t Reg.capEvents 3 = true ∧ Logs s t 0x0D41 0xFFFF [] ∧
        t.cap.cur = some { r with
          maskFail := r.maskFail ||| 2 ^ m
          flags := if bit (getReg s (Reg.capMaskCfg m)) 25 then r.flags ||| 8 else r.flags
          stopAt := if bit (getReg s (Reg.capMaskCfg m)) 25 ∧ r.stopAt = none then some u else r.stopAt } ∧
        SameBut [.regs, .host, .log, .cap] s t)))

/-- R466, R469 and R473–R475, with the record kept in the rings where TARGET is 0: the end of a record, its landing in the
store, REARM and RELEASE; driven bus lines; and the read port of the capture memory. -/
def Obligations.RecordsEndAndAreStored : Prop :=
  (∀ (s : State) (r : CapRec), s.cap.cur = some r → capTarget s = 0 →
    let post := 1000000 * regFld s Reg.capRec 15 0
    let latest := Nat.min (r.latest + post) (r.first + 1000000 * (getReg s Reg.capMax).toNat)
    let stop := match r.stopAt with | some v => Nat.min latest (v + post) | none => latest
    (stop ≤ s.raw → Answers (exec .recordEnd s) (fun t => t.cap.cur = none ∧ t.cap.lastEnd = stop ∧
      t.cap.st = (if r.stopAt.isSome then .halted else .armed) ∧ t.cap.recNum = (s.cap.recNum + 1) % 2 ^ 32 ∧
      (∃ x, t.cap.storing = s.cap.storing ++ [x] ∧ x.num = s.cap.recNum ∧ x.header.length = 60) ∧
      SameBut [.regs, .host, .log, .cap] s t)) ∧
    (s.raw < stop → exec .recordEnd s = .next s)) ∧
  (∀ (s : State) (x : CapDone) (l : List CapDone), s.cap.storing = x :: l → x.header.length = 60 →
    let bytes := x.header ++ leBytes 4 (crc32c (x.header ++ x.blocks.flatten))
    Answers (exec .recordStored s) (fun t => t.cap.storing = l ∧
      t.cap.store = (if capTarget s = 0 then [] else s.cap.store) ++ [(x.num, x.off, 64 + 4096 * x.blocks.length)] ∧
      (∀ k, k < 16 → getReg t (Reg.capLast k) = BitVec.ofNat 32 (le bytes (4 * k) 4)) ∧ Counts s t (Reg.capCnt 0) ∧
      regBit t Reg.capEvents 1 = true ∧ Logs s t 0x0D40 0xFFFF [] ∧ SameBut [.regs, .host, .log, .cap] s t)) ∧
  (∀ (s : State), (s.cap.st = .halted → Answers (exec .capRearm s) (fun t => t.cap = { s.cap with st := .armed } ∧ SameBut [.cap] s t)) ∧
    (s.cap.st ≠ .halted → exec .capRearm s = .next s) ∧
    (capTarget s = 0 → s.cap.cur = none → Answers (exec .capRelease s) (fun t =>
      t.cap = { s.cap with held := none, store := [] } ∧ SameBut [.cap] s t))) ∧
  (∀ (s : State) (at_ lines : Nat) (l : List (Nat × Nat)), s.cap.drives = (at_, lines) :: l →
    (at_ ≤ s.raw → s.twn.st ≠ .taking → Answers (exec .busDrive s) (fun t => t.cap.drives = l ∧
      (∀ n, n < 4 → smGet 0 t.cap.driving n =
        if lines.testBit n then Nat.max (s.raw + 1000 * regFld s Reg.capBus 15 0) (smGet 0 s.cap.driving n)
        else smGet 0 s.cap.driving n) ∧ SameBut [.cap] s t)) ∧
    ((s.raw < at_ ∨ s.twn.st = .taking) → exec .busDrive s = .next s)) ∧
  (∀ (s : State) (n u : Nat), n < 4 → smFind s.cap.driving n = some u → u ≤ s.raw →
    Answers (exec (.busPulseEnd n) s) (fun t => smFind t.cap.driving n = none ∧
      (∀ k, k ≠ n → smFind t.cap.driving k = smFind s.cap.driving k) ∧ SameBut [.cap] s t)) ∧
  (∀ (s : State), s.part = .gld9610 → Answers (exec .capRdDataRead s) (fun t => t.host.resp = [0#32] ∧ SameBut [.host] s t)) ∧
  (∀ (s : State), s.part = .gld9600 →
    let a := regFld s Reg.capRdAddr 21 0
    (a % 4 = 0 → Answers (exec .capRdDataRead s) (fun t => t.host.resp = [BitVec.ofNat 32 (capSramWord s a)] ∧
      getReg t Reg.capRdAddr = BitVec.ofNat 32 ((a + 4) % 2 ^ 22) ∧ SameRegs [Reg.capRdAddr] s t ∧ SameBut [.regs, .host] s t)) ∧
    (a % 4 ≠ 0 → Answers (exec .capRdDataRead s) (fun t => t.host.resp = [0#32] ∧ Refuses t Reg.capBase 0x0D06 ∧
      SameRegs [0xC0008] s t ∧ SameBut [.regs, .host] s t)))

/-! ## Energy (14_energy.md) -/

/-- R437–R442: a step of 250 µs of an element with every sample is applied: it counts, and the import-active total of a
phase whose power lies above creep takes the step's energy, exact or one unit in the last place up (what the spec leaves open is free, log
entry 3); with a sample missing the interval only takes DATA_GAP; while samples are still to come it waits. Both set TIME_GAP
while time is not valid. -/
def Obligations.PowerStepsFeedTheTotals : Prop :=
  ∀ (s : State) (stop : Nat) (q : List Int), nrgOn s = true → stop % 250000 = 0 → s.nrg.lastStep < stop → stop ≤ s.raw →
    stop ≤ s.nrg.lastStep + 250000 → elemOn s 0 = true → elemOn s 1 = false → s.nrg.run.opened = true → s.tim.valid = false →
    (∀ n, n < 4 → regBit s (Reg.nrgPulseCfg n) 31 = false) →
    (stepWaits s stop = true → exec (.powerStep stop q) s = .next s) ∧
    (stepComplete s 0 stop = true → stepMarks s 0 stop = 0 →
      Answers (exec (.powerStep stop q) s) (fun t => t.nrg.lastStep = stop ∧ Counts s t (Reg.nrgCnt 0) ∧
        smGet 0 t.nrg.run.steps 0 = (smGet 0 s.nrg.run.steps 0 + 1) % 2 ^ 32 ∧ s.freeCount < t.freeCount ∧
        t.nrg.run.flags = s.nrg.run.flags ||| 2 ∧
        (∀ p P, p < 3 → (phaseVal s 0 p stop (match q[p]? with | some x => x | none => 0)).p = some P → 0 < P →
          atOrBelow P 1 (creepOf s 0) = false →
          smGet 0 t.nrg.live (4 * p) = BitVec.ofNat 32 (ratFlt P) ∧
          ∃ up, smGet 0 s.nrg.run.totals (7 * p) + (stepEnergy P up).natAbs < 2 ^ 96 →
            smGet 0 t.nrg.run.totals (7 * p) = smGet 0 s.nrg.run.totals (7 * p) + (stepEnergy P up).natAbs) ∧
        SameBut [.regs, .host, .log, .nrg, .freeCount] s t)) ∧
    (stepComplete s 0 stop = false → stepWaits s stop = false →
      Answers (exec (.powerStep stop q) s) (fun t => t.nrg = { s.nrg with lastStep := stop, run := t.nrg.run } ∧
        t.nrg.run = { s.nrg.run with elemFlags := t.nrg.run.elemFlags, flags := s.nrg.run.flags ||| 2 } ∧
        smGet 0 t.nrg.run.elemFlags 0 = smGet 0 s.nrg.run.elemFlags 0 ||| 8 ∧ SameBut [.nrg] s t))

/-- R444, R446, R447, R454 and R456–R459: pulse outputs, commits of the energy record, lost zero crossings and the latch of an
interval's value. -/
def Obligations.PulsesCommitsAndIntervalReads : Prop :=
  (∀ (s : State) (n u : Nat), n < 4 → (smGet Pulse.reset s.nrg.pulses n).endAt = some u → u ≤ s.raw →
    Answers (exec (.pulseEnd n) s) (fun t =>
      smGet Pulse.reset t.nrg.pulses n = { smGet Pulse.reset s.nrg.pulses n with endAt := none } ∧
      (∀ k, k ≠ n → smGet Pulse.reset t.nrg.pulses k = smGet Pulse.reset s.nrg.pulses k) ∧ SameBut [.nrg] s t)) ∧
  (∀ (s : State) (n : Nat) (v : Word), s.part = .gld9600 → n < 4 → fld v 23 20 < 7 → regBit s (Reg.nrgPulseCfg n) 31 = false →
    let w := regFld s (Reg.nrgPulseWidth n) 15 0
    let good : Prop := getReg s (Reg.nrgPulseConst n) ≠ 0 ∧ 10 ≤ w ∧ w ≤ 60000 ∧ elemOn s (fld v 28 28) = true
    (good → Answers (exec (.pulseEnable n v) s) (fun t =>
      getReg t (Reg.nrgPulseCfg n) = (v ||| 0x80000000#32) &&& 0xF0F30000#32 ∧
      SameRegs [Reg.nrgPulseCfg n] s t ∧ SameBut [.regs] s t)) ∧
    (¬ good → Answers (exec (.pulseEnable n v) s) (fun t => Refuses t Reg.nrgBase 0x1504 ∧ SameRegs [0x1E0008] s t ∧
      SameBut [.regs] s t))) ∧
  (∀ (s : State) (n : Nat) (v : Word), n < 4 →
    (s.part = .gld9610 → exec (.pulseEnable n v) s = .next s ∧ exec (.pulseDisable n v) s = .next s) ∧
    (s.part = .gld9600 → 7 ≤ fld v 23 20 → Answers (exec (.pulseDisable n v) s) (fun t =>
      regFld t (Reg.nrgPulseCfg n) 23 20 = regFld s (Reg.nrgPulseCfg n) 23 20 ∧ Refuses t Reg.nrgBase 0x15F1))) ∧
  (∀ (s : State) (n : Nat) (v : Word), s.part = .gld9600 → n < 4 → fld v 23 20 < 7 → regBit s (Reg.nrgPulseCfg n) 31 = true →
    Answers (exec (.pulseDisable n v) s) (fun t => regBit t (Reg.nrgPulseCfg n) 31 = false ∧
      smGet Pulse.reset t.nrg.pulses n = { smGet Pulse.reset s.nrg.pulses n with backlog := 0, endAt := none } ∧
      t.nrg.run = s.nrg.run ∧ SameRegs [Reg.nrgPulseCfg n] s t ∧ SameBut [.regs, .nrg] s t)) ∧
  (∀ (s : State) (a b : Nat × EnergySnap), nrgOn s = true → s.nrg.commit = none → s.nrg.repeatPos = none →
    s.nrg.commitSec ≠ some (s.raw / 1000000000) → s.nrg.rec0 = some a → s.nrg.rec1 = some b → a.1 < b.1 →
    Answers (exec .energyCommit s) (fun t => t.nrg = { s.nrg with
      commit := some s.nrg.run, commitAt := 0, commitGen := (b.1 + 1) % 2 ^ 32, rec0 := none,
      commitSec := some (s.raw / 1000000000) } ∧ SameBut [.nrg] s t)) ∧
  (∀ (s : State) (x : EnergySnap), s.nrg.commit = some x → s.nrg.again = false →
    Answers (exec (.energyCommitEnd true) s) (fun t =>
      t.nrg = { s.nrg with commit := none, repeatPos := none,
                           rec0 := if s.nrg.commitAt = 0 then some (s.nrg.commitGen, x) else s.nrg.rec0,
                           rec1 := if s.nrg.commitAt = 1 then some (s.nrg.commitGen, x) else s.nrg.rec1 } ∧
      getReg t Reg.nrgCommit = BitVec.ofNat 32 (s.nrg.commitGen % 2 ^ 31) ∧ Counts s t (Reg.nrgCnt 3) ∧
      SameBut [.regs, .log, .nrg] s t) ∧
    Answers (exec (.energyCommitEnd false) s) (fun t =>
      t.nrg = { s.nrg with commit := none, repeatPos := some s.nrg.commitAt } ∧ regBit t Reg.nrgEvents 6 = true ∧
      Logs s t 0x1543 0xFFFF [] ∧ SameBut [.regs, .host, .log, .nrg] s t)) ∧
  (∀ (s : State) (c e p : Nat), c = 7 * e + (c % 7) → e < 2 → chRole s c = p + 1 → p < 3 → elemOn s e = true →
    regBit s Reg.nrgStatus (16 + 3 * e + p) = false → (chan s c).zcBase + 8000000 * regFld s Reg.nrgZcCfg 31 16 ≤ 8 * s.raw →
    Answers (exec (.zcLost c) s) (fun t => regBit t Reg.nrgStatus (16 + 3 * e + p) = true ∧ regBit t Reg.nrgEvents 2 = true ∧
      Logs s t 0x1541 0xFFFF [] ∧ smGet 0 t.nrg.run.elemFlags e = smGet 0 s.nrg.run.elemFlags e ||| 0x40 ∧
      SameRegs (Reg.nrgStatus :: Reg.nrgEvents :: sideRegs) s t ∧ SameBut [.regs, .host, .log, .nrg] s t)) ∧
  (∀ (s : State) (port e k : Nat), s.part = .gld9600 → port < 2 → e < 2 → k < 32 →
    let a := smGet IntAcc.reset s.nrg.run.accs (32 * e + k)
    Answers (exec (.intValRead port e k) s) (fun t => t.host.resp = [BitVec.ofNat 32 a.value] ∧
      smGet 0#32 t.nrg.auxLatch (64 * port + 32 * e + k) = BitVec.ofNat 32 (b2n a.wrap * 2 ^ 31 + a.wraps * 65536 + a.revs) ∧
      smGet 0 t.nrg.seqLatch port = s.nrg.run.seq ∧ t.nrg.run = s.nrg.run ∧ SameBut [.host, .nrg] s t))

/-! ## Acquisition and filters (13_acquisition.md) -/

/-- R408–R412, R414–R417: with capture off, a channel without a correction commit, a swap or a fade, and with unity values in
use, emits the filter output of eight samples before, stamped with its group delay; commits, swaps and coefficient writes. -/
def Obligations.ChannelsEmitStampedSamples : Prop :=
  let in31 (v : Int) : Prop := -2147483648 ≤ v ∧ v ≤ 2147483647
  let runs (s : State) (c sub : Nat) : Prop := c < 16 ∧ sub < 8 ∧ chOn s c = true ∧ s.pwr.st ≠ .keep ∧ s.pwr.st ≠ .off ∧
    enabled s Reg.capBase = false ∧
    ∀ p, (chan s c).hist.head? = some p → p.stamp < stampOf (8 * s.raw + sub) (gdHalf s c)
  (∀ (s : State) (c sub : Nat) (x y : Int) (ovr : Bool), runs s c sub →
    ((chan s c).commit = none → (chan s c).fade = none → (chan s c).swap = none → (chan s c).use_ = ⟨0, 2 ^ 30, 2 ^ 30, 0⟩ →
      in31 x → (chan s c).fir[7]? = some y → in31 y → chTaps s c ≤ 96 → chTaps s c ≤ (chan s c).corr.length + 1 →
      Answers (exec (.channelOutputSample c x ovr sub) s) (fun t =>
        (∃ p, (chan t c).hist.head? = some p ∧ p.stamp = stampOf (8 * s.raw + sub) (gdHalf s c) ∧ p.value = y ∧
          p.marks.testBit 0 = underTest s c ∧ (ovr = true → p.marks.testBit 1 = true)) ∧
        (chan t c).corr = (x :: (chan s c).corr).take 96 ∧
        (∃ up, (chan t c).fir.head? = some (clampI (-2147483648) 2147483647
          (roundBy (firSum s c (chan s c).bank ((x :: (chan s c).corr).take 96)) (2 ^ 30) up))) ∧
        (ovr = true → Counts s t (Reg.afeClip c) ∧ regBit t Reg.afeEvents 0 = true ∧ Logs s t 0x1341 c []) ∧
        (∀ k, k ≠ c → chan t k = chan s k) ∧
        SameRegs (Reg.afeClip c :: Reg.afeEvents :: Reg.afeCalOpstat :: Reg.nrgStatus :: 0x1C0004 :: sideRegs) s t ∧
        SameBut [.regs, .host, .log, .afe, .freeCount] s t)) ∧
    (∀ v, (chan s c).commit = some v → Answers (exec (.channelOutputSample c x ovr sub) s) (fun t =>
      (chan t c).use_ = v ∧ (chan t c).commit = none ∧ SameBut [.regs, .host, .log, .afe, .freeCount] s t)) ∧
    ((chan s c).fade = none → (chan s c).swap = some 0 → Answers (exec (.channelOutputSample c x ovr sub) s) (fun t =>
      (chan t c).bank = 1 - (chan s c).bank ∧ (chan t c).swap = none ∧ (chan t c).fade = none ∧
      regBit t Reg.fltEvents 1 = true ∧ SameBut [.regs, .host, .log, .afe, .freeCount] s t)) ∧
    (∀ f, 1 < f → (chan s c).fade = none → (chan s c).swap = some f → Answers (exec (.channelOutputSample c x ovr sub) s)
      (fun t => (chan t c).bank = 1 - (chan s c).bank ∧ (chan t c).swap = none ∧ (chan t c).fade = some (1, f) ∧
        SameBut [.regs, .host, .log, .afe, .freeCount] s t))) ∧
  (∀ (s : State) (v : Word), s.part = .gld9600 → Answers (exec (.afeCommit v) s) (fun t => t.afe = { s.afe with ch := t.afe.ch } ∧
    (∀ c, chan t c = if c < 16 ∧ bit v c = true then { chan s c with commit := some (stagedCorr s c) } else chan s c) ∧
    SameBut [.afe] s t)) ∧
  (∀ (s : State) (port : Nat) (v : Word), s.part = .gld9600 → port < 2 →
    let turned (s t : State) (code : Nat) : Prop := getReg t (portReg port Reg.fltSwapResult) = BitVec.ofNat 32 code ∧
      Refuses t Reg.fltBase code ∧ SameRegs [portReg port Reg.fltSwapResult, 0x1D0008] s t ∧ SameBut [.regs] s t
    ((∃ c, c < 16 ∧ bit v c = true ∧ (chan s c).swap.isSome = true) →
      Answers (exec (.fltSwap port v) s) (fun t => turned s t 0x1401)) ∧
    ((∀ c, c < 16 → bit v c = true → (chan s c).swap = none) →
      (4096 < fld v 28 16 → Answers (exec (.fltSwap port v) s) (fun t => turned s t 0x1402)) ∧
      (fld v 28 16 ≤ 4096 → Answers (exec (.fltSwap port v) s) (fun t =>
        getReg t (portReg port Reg.fltSwapResult) = 0#32 ∧
        (∀ c, chan t c = if c < 16 ∧ bit v c = true then
            (if chOn s c then { chan s c with swap := some (fld v 28 16) }
             else { chan s c with bank := 1 - (chan s c).bank, fade := none })
          else chan s c) ∧ SameBut [.regs, .host, .log, .afe] s t)))) ∧
  (∀ (s : State) (c b n : Nat) (v : Word), s.part = .gld9600 → c < 16 → b < 2 → n < 96 →
    ((chan s c).bank ≠ b → (chan s c).fade = none → (chan s c).swap = none →
      Answers (exec (.coefficientWrite c b n v) s) (fun t => firCoef t c b n = v.toInt ∧
        SameRegs [0x1D1000 + 0x400 * c + 0x200 * b + 4 * n] s t ∧ SameBut [.regs] s t)) ∧
    ((chan s c).bank = b ∨ (chan s c).fade.isSome = true ∨ (chan s c).swap.isSome = true →
      Answers (exec (.coefficientWrite c b n v) s) (fun t => Refuses t Reg.fltBase 0x1403 ∧ SameRegs [0x1D0008] s t ∧
        SameBut [.regs] s t))) ∧
  (∀ (s : State) (port c b n : Nat) (v : Word), s.part = .gld9610 →
    ∀ i ∈ [Instr.afeCommit v, .fltSwap port v, .coefficientWrite c b n v], exec i s = .next s)

/-- R3, R25 and R418–R427: the open-wire test and calibration, their starts, stops, ends and refusals, the results that are
readable before the end, and the saving of the calibration record; on the gld9610 none of it. A quotient's last place that
the spec leaves open is free (log entries 3 and 16); that a failing channel keeps its value is the model's choice (log
entry 32). -/
def Obligations.TestsAndCalibrationMeasureTheirChannels : Prop :=
  let ends (s t : State) (op bitNo st : Nat) : Prop := opState t op = st ∧ regBit t Reg.afeEvents bitNo = true ∧
    SameBut [.regs, .host, .log, .afe] s t
  (∀ (s : State) (v : Word), s.part = .gld9600 → bit v 17 = false →
    let named (c : Nat) : Prop := c < 16 ∧ bit v c = true
    (opRunning s Reg.afeOwOpstat = true → Answers (exec (.openWireStart v) s) (fun t =>
      Refuses t Reg.afeBase 0x13F3 ∧ SameRegs [0x1C0008] s t ∧ SameBut [.regs] s t)) ∧
    (opRunning s Reg.afeOwOpstat = false →
      ((∃ c, named c ∧ calBusy s c = true) → Answers (exec (.openWireStart v) s) (fun t =>
        Refuses t Reg.afeBase 0x130C ∧ SameRegs [0x1C0008] s t ∧ SameBut [.regs] s t)) ∧
      ((∀ c, named c → calBusy s c = false) →
        ((fld v 15 0 = 0 ∨ ∃ c, named c ∧ chOn s c = false) → Answers (exec (.openWireStart v) s) (fun t =>
          Refuses t Reg.afeBase 0x1307 ∧ SameRegs [0x1C0008] s t ∧ SameBut [.regs] s t)) ∧
        (fld v 15 0 ≠ 0 → (∀ c, named c → chOn s c = true) → Answers (exec (.openWireStart v) s) (fun t =>
          opState t Reg.afeOwOpstat = 1 ∧
          t.afe = { s.afe with ow := some { chans := bitList 16 (fld v 15 0), done := 0, start := s.raw } } ∧
          SameRegs [Reg.afeOwOpstat] s t ∧ SameBut [.regs, .afe] s t)))) ∧
    (opRunning s Reg.afeCalOpstat = false → (∀ c, named c → owBusy s c = false ∧ chOn s c = true) → fld v 15 0 ≠ 0 →
      ((bit v 18 = true → ∀ c, named c → s.afe.zeroed.testBit c = true) → Answers (exec (.afeCalStart v) s) (fun t =>
        opState t Reg.afeCalOpstat = 1 ∧
        t.afe = { s.afe with cal := some { mask := fld v 15 0, full := bit v 18, rms := bit v 19, apply := bit v 20,
                                           start := s.raw, acc := [], wrote := 0 } } ∧
        SameRegs [Reg.afeCalOpstat] s t ∧ SameBut [.regs, .afe] s t)) ∧
      ((bit v 18 = true ∧ ∃ c, named c ∧ s.afe.zeroed.testBit c = false) → Answers (exec (.afeCalStart v) s) (fun t =>
        ends s t Reg.afeCalOpstat 3 3 ∧ Refuses t Reg.afeBase 0x1308 ∧ t.afe.cal = none)))) ∧
  (∀ (s : State), s.part = .gld9600 → opRunning s Reg.afeOwOpstat = true → Answers (exec .openWireStop s) (fun t =>
    ends s t Reg.afeOwOpstat 2 4 ∧ t.afe = { s.afe with ow := none } ∧
    SameRegs (Reg.afeOwOpstat :: Reg.afeEvents :: sideRegs) s t)) ∧
  (∀ (s : State), s.part = .gld9600 → opRunning s Reg.afeOwOpstat = false → Answers (exec .openWireStop s) (fun t =>
    Refuses t Reg.afeBase 0x13F4 ∧ SameRegs [0x1C0008] s t ∧ SameBut [.regs] s t)) ∧
  (∀ (s : State), s.part = .gld9600 → opRunning s Reg.afeCalOpstat = true → Answers (exec .afeCalStop s) (fun t =>
    ends s t Reg.afeCalOpstat 3 4 ∧ t.afe = { s.afe with cal := none } ∧
    SameRegs (Reg.afeCalOpstat :: Reg.afeEvents :: sideRegs) s t)) ∧
  (∀ (s : State) (r : OwRun) (c : Nat) (l : List Nat) (x : Sample) (k1 k2 : Nat × Nat) (fund : Bool), s.afe.ow = some r →
    r.chans = c :: l → c < 16 → r.done + 1 < 65536 → opRunning s Reg.afeOwOpstat = true → (chan s c).hist.head? = some x →
    owHalves s c = [k1, k2] → 8 * r.start + k2.2 ≤ x.stamp →
    let a := samplesIn s c (8 * r.start + k1.1) (8 * r.start + k1.2)
    let b := samplesIn s c (8 * r.start + k2.1) (8 * r.start + k2.2)
    let d := owDelta a b
    let v := if fund || (a ++ b).any (fun y => y.marks.testBit 1) then 3
      else if 1000 * regFld s Reg.afeOwCfg 15 0 * d.2 ≤ d.1.natAbs then 2 else 1
    Answers (exec (.openWireChannelEnd fund) s) (fun t =>
      regFld t Reg.afeOwVerdict (2 * c + 1) (2 * c) = v ∧
      (∃ up, getReg t (Reg.afeOwDv c) = BitVec.ofNat 32 (ofSigned 32 (roundBy d.1 d.2 up)) ∧
        (v = 2 → regBit t Reg.afeEvents 1 = true ∧
          Logs s t 0x1340 0xFFFF (leBytes 4 c ++ leBytes 4 (ofSigned 32 (roundBy d.1 d.2 up))))) ∧
      regFld t Reg.afeOwOpstat 15 0 = r.done + 1 ∧
      (l = [] → opState t Reg.afeOwOpstat = 2 ∧ t.afe = { s.afe with ow := none } ∧ regBit t Reg.afeEvents 2 = true) ∧
      (l ≠ [] → opState t Reg.afeOwOpstat = 1 ∧
        t.afe = { s.afe with ow := some { chans := l, done := r.done + 1, start := s.raw } }) ∧
      SameRegs (Reg.afeOwVerdict :: Reg.afeOwDv c :: Reg.afeOwOpstat :: Reg.afeEvents :: sideRegs) s t ∧
      SameBut [.regs, .host, .log, .afe, .freeCount] s t)) ∧
  (∀ (s : State) (r : CalRun) (ts : List (Nat × List CalAcc × CalAcc)), s.afe.cal = some r →
    opRunning s Reg.afeCalOpstat = true →
    ts = (bitList 16 r.mask).filterMap (fun c => (calCycles s r c).map (fun l => (c, l, calTotal l))) →
    let ref := toSigned 32 (getReg s Reg.afeCalRef).toNat
    let resultAt (x : Nat × List CalAcc × CalAcc) : Nat := if r.full then Reg.afeCalGain x.1 else Reg.afeCalOffset x.1
    let written (s t : State) : Prop := ∀ x ∈ ts,
      (r.wrote.testBit x.1 = true ∨ calCause r ref [x] ≠ 0 → getReg t (resultAt x) = getReg s (resultAt x)) ∧
      (r.wrote.testBit x.1 = false → calCause r ref [x] = 0 → ∃ up, getReg t (resultAt x) = BitVec.ofNat 32
        (if r.full then calGain r.rms ref x.2.2 up else
          ofSigned 32 (clampI (-2147483648) 2147483647 (roundBy (-x.2.2.sum) (Nat.max 1 x.2.2.n) up))))
    (ts.length < (bitList 16 r.mask).length → Answers (exec .afeCalEnd s) (fun t => written s t ∧
      SameRegs (ts.map resultAt) s t ∧ (∃ w, t.afe = { s.afe with cal := some { r with wrote := w } } ∧
        ∀ c, w.testBit c = (r.wrote.testBit c || ts.any (fun x => x.1 == c))) ∧ SameBut [.regs, .afe, .freeCount] s t)) ∧
    (ts.length = (bitList 16 r.mask).length → calCause r ref ts ≠ 0 → Answers (exec .afeCalEnd s) (fun t =>
      opState t Reg.afeCalOpstat = 3 ∧ written s t ∧ Refuses t Reg.afeBase (0x1300 + calCause r ref ts) ∧
      t.afe = { s.afe with cal := none } ∧
      SameRegs (Reg.afeCalOpstat :: Reg.afeEvents :: 0x1C0008 :: (ts.map resultAt ++ sideRegs)) s t ∧
      SameBut [.regs, .host, .log, .afe, .freeCount] s t)) ∧
    (ts.length = (bitList 16 r.mask).length → calCause r ref ts = 0 → r.full = false → Answers (exec .afeCalEnd s) (fun t =>
      opState t Reg.afeCalOpstat = 2 ∧ written s t ∧ t.afe = { s.afe with cal := none, zeroed := s.afe.zeroed ||| r.mask } ∧
      SameBut [.regs, .host, .log, .afe, .freeCount] s t)) ∧
    (ts.length = (bitList 16 r.mask).length → calCause r ref ts = 0 → r.full = true → Answers (exec .afeCalEnd s) (fun t =>
      opState t Reg.afeCalOpstat = 2 ∧ written s t ∧
      (r.apply = true → Logs s t 0x1342 0xFFFF [] ∧ ∀ x ∈ ts,
        getReg t (Reg.afeOffset x.1) = getReg s (Reg.afeCalOffset x.1) ∧
        getReg t (Reg.afeGain x.1) = getReg t (Reg.afeCalGain x.1) ∧
        chan t x.1 = { chan s x.1 with commit := some (stagedCorr t x.1) }) ∧
      (r.apply = false → t.afe = { s.afe with cal := none }) ∧
      SameBut [.regs, .host, .log, .afe, .freeCount] s t))) ∧
  (∀ (s : State), s.part = .gld9600 → Answers (exec .afeCalSave s) (fun t => SameBut [.afe] s t ∧
    t.afe = { s.afe with calRec := some ((List.range 16).map (fun c => (getReg s (Reg.afeOffset c), getReg s (Reg.afeGain c)))) })) ∧
  (∀ (s : State) (v : Word), s.part = .gld9610 →
    ∀ i ∈ [Instr.openWireStart v, .openWireStop, .afeCalStart v, .afeCalStop, .afeCalSave], exec i s = .next s)

/-- R3, R87 and R428–R433: L_CFG sets the format of its local accession or is refused (a RETIRED one keeps its format); an
estimate of the PMU fills its registers and its frame, which then lands as R29 says (localLand), waits while the twin takes
over, or goes nowhere. -/
def Obligations.LocalEstimatesFillTheirFrames : Prop :=
  (∀ (s : State) (m : Nat) (v : Word), s.part = .gld9610 → exec (.lCfgWrite m v) s = .next s) ∧
  (∀ (s : State) (m : Nat) (v : Word), s.part = .gld9600 → m < 4 →
    let w := if m < 2 then setFld (v &&& 0x6FFFFFFF#32) 15 0 (lMap s m) else v &&& 0x6FFFFFFF#32
    let fmtAt := accAddr (0x4000 + m) + 20
    let fmtGets (k : Nat) (t : State) : Prop := if (getAcc s (0x4000 + m)).st = .retired
      then getReg t fmtAt = getReg s fmtAt ∧ Refuses t Reg.accBase 0x110C else getReg t fmtAt = BitVec.ofNat 32 k
    let entryIs (r : AccState) : Prop := (getAcc s (0x4000 + m)).st = r
    (accIsEnabled (getAcc s (0x4000 + m)) = true ∨ entryIs .checking → Answers (exec (.lCfgWrite m v) s) (fun t =>
      Refuses t Reg.afeBase 0x1303 ∧ SameRegs [0x1C0008] s t ∧ SameBut [.regs] s t)) ∧
    (accIsEnabled (getAcc s (0x4000 + m)) = false → ¬ entryIs .checking →
      (fld w 23 16 = 0 ∨ fld w 15 0 = 0 ∨ bit w (fld w 27 24) = false → Answers (exec (.lCfgWrite m v) s) (fun t =>
        fmtGets 0 t ∧ Refuses t Reg.afeBase 0x1304 ∧ SameRegs [fmtAt, Reg.accBase + 8, 0x1C0008] s t ∧ SameBut [.regs] s t)) ∧
      (fld w 23 16 ≠ 0 → fld w 15 0 ≠ 0 → bit w (fld w 27 24) = true → Answers (exec (.lCfgWrite m v) s) (fun t =>
        getReg t (Reg.afeLCfg m) = w ∧ fmtGets (lFmt m w) t ∧
        SameRegs [Reg.afeLCfg m, fmtAt, Reg.accBase + 8] s t ∧ SameBut [.regs] s t)))) ∧
  (∀ (s : State) (m e freq : Nat) (ph : List (Nat × Nat)) (refLow : Bool) (p : Plan), m < 4 → ratePlan s = some p →
    afeOn s = true → lValid s m = true → fld (accFmt s (0x4000 + m)) 7 0 ≠ 0 → e % fld (accFmt s (0x4000 + m)) 7 0 = 0 →
    timeReached s (exhibitTime p.baseRate e) = true →
    let at_ := rawOfTai s (exhibitTime p.baseRate e)
    let inWin (x : Nat) : Bool := decide (8 * at_ ≤ x + lWindow s m p.baseRate) && decide (x ≤ 8 * at_ + lWindow s m p.baseRate)
    let marked (k : Nat) : Bool := (lChans s m).any (fun c => (chan s c).hist.any (fun y => inWin y.stamp && y.marks.testBit k))
    let opened : List Bool := (lChans s m).map (fun c => decide (owVerdict s c = 2))
    let stat := lStat s (marked 0) (marked 1) (opened.any id) refLow ((lChans s m).any (fun c => (chan s c).changed.any inWin))
    let fq := if refLow then fofInt f32 (nominalOf (accFmt s (0x4000 + m))) else freq % 2 ^ 32
    Answers (exec (.localEstimate m e ph freq refLow) s) (fun t => ∃ (u : State) (l : Landing) (dig : Nat),
      (∀ k, k < 7 → dig.testBit k = (opened[k]? = some true)) ∧ dig.testBit 14 = marked 0 ∧ dig.testBit 15 = marked 1 ∧
      getReg u (Reg.afeLStat m) = BitVec.ofNat 32 (stat * 65536 + dig) ∧ getReg u (Reg.afeLLat m) = BitVec.ofNat 32 (s.raw - at_) ∧
      Counts s u (Reg.afeLEst m) ∧ u.afe = { s.afe with lastFreq := smSet s.afe.lastFreq m fq } ∧
      SameRegs (Reg.afeLStat m :: Reg.afeLLat m :: Reg.afeLEst m :: 0x1C0004 :: sideRegs) s u ∧
      SameBut [.regs, .log, .afe, .freeCount] s u ∧
      l.acc = 0x4000 + m ∧ l.port = 7 ∧ l.arrival = s.raw ∧ l.index = e ∧ l.status = stat ∧ l.digs = [dig] ∧ l.freq = fq ∧
      (refLow = true → l.rocof = 0) ∧
      (∀ f, refLow = false → smFind s.afe.lastFreq m = some f → l.rocof = fmul f32 (fsub f32 fq f)
        (ratio32 p.baseRate (Nat.max 1 (regFld s (Reg.afeLCfg m) 23 16)))) ∧
      l.phasors.length = fld (accFmt s (0x4000 + m)) 22 16 ∧
      (∀ k x, k < l.phasors.length → ph[k]? = some x → l.phasors[k]? = some (x.1 % 2 ^ 32, x.2 % 2 ^ 32)) ∧
      t = (if enabled s Reg.accBase = true ∧ ((getAcc s (0x4000 + m)).st = .vacant ∨ (getAcc s (0x4000 + m)).st = .checking)
          then u
        else if twinDrops s then
          { u with twn := { u.twn with deferred := u.twn.deferred ++ [.estimate l], deferAt := u.twn.deferAt ++ [s.raw] } }
        else if s.twn.st = .isolated then u
        else localLand u l)))

/-! ## The host interface (00_scope.md, 21_host_interface.md) -/

/-- R12–R17, R579, R581 and R587. A register write completes: RW bits take the value, RWL bits while the block is disabled (else
0xF0), W1C bits clear, other bits keep theirs; a partial write is dropped. A read of an RC field, of a low word (which
latches its high words) and of a high word (latched, or missed) completes with the word the rule gives. -/
def Obligations.RegisterAccessesFollowTheAccessCodes : Prop :=
  (∀ (s : State) (port k a : Nat) (v : Word) (r : PlainRow), port < 2 → r ∈ plainRows → k < r.count → a = r.base + r.stride * k →
    Writes s a →
    ∃ t, exec (.registerWrite port a 15 v) s = .next t ∧
      (let m : Word := BitVec.ofNat 32 (if enabled s (blkBase a) then r.rw else r.rw ||| r.rwl)
      getReg t a = (getReg s a &&& ~~~m) ||| (v &&& m)) ∧
      (enabled s (blkBase a) = true → (getReg s a &&& BitVec.ofNat 32 r.rwl) ≠ (v &&& BitVec.ofNat 32 r.rwl) →
        Refuses t (blkBase a) (reason (blkBase a) 0xF0)) ∧
      SameRegs (a :: (blkBase a + 8) :: sideRegs) s t ∧ SameBut [.regs, .host, .log] s t) ∧
  (∀ (s : State) (port a : Nat), port < 2 → isPairLow a = true → lowOf a = none → Reaches s a → (curWord s port a).2 = s →
    ∃ t, exec (.latchedLowWordRead port a) s = .next t ∧
      t.host = { s.host with resp := [(curWord s port a).1], latch := t.host.latch } ∧
      smFind t.host.latch port = some { tag := a, words := (highsOf a).map (fun h => (h, (curWord s port h).1)) } ∧
      smFind t.host.latch (1 - port) = smFind s.host.latch (1 - port) ∧ SameBut [.host] s t) ∧
  (∀ (s : State) (port a g : Nat), port < 2 → a % 4 = 0 → a < 2 ^ 24 → Reaches s a → lowOf a = some g → (curWord s port a).2 = s →
    (∀ l, smFind s.host.latch port = some l → l.tag ≠ g) →
    ∃ t, exec (.highWordRead port a) s = .next t ∧ t.host.resp = [(curWord s port a).1] ∧ t.host.latch = s.host.latch ∧
      regBit t Reg.hstEvents 3 = true ∧ Counts s t (Reg.hstCnt 4) ∧
      SameRegs (Reg.hstEvents :: Reg.hstCnt 4 :: sideRegs) s t ∧ SameBut [.regs, .host, .log] s t) ∧
  (∀ (s : State) (port a be : Nat) (v : Word), port < 2 → a < 2 ^ 24 → Reaches s (a / 4 * 4) → be < 16 → (be ≠ 15 ∨ a % 4 ≠ 0) →
    Answers (exec (.registerWrite port a be v) s) (fun t => Refuses t Reg.hstBase 0x0102 ∧ SameRegs [8] s t ∧ SameBut [.regs] s t)) ∧
  (∀ (s : State) (port : Nat) (v : Word) (p : Nat × Nat), port < 2 → p ∈ eventMasks → s.log.fifo.length + 8 ≤ 64 →
    (Writes s (srcRegs p.1).2 → Answers (exec (.registerWrite port (srcRegs p.1).2 15 v) s) (fun t =>
      getReg t (srcRegs p.1).2 = (getReg s (srcRegs p.1).2 &&& ~~~(BitVec.ofNat 32 p.2)) ||| (v &&& BitVec.ofNat 32 p.2) ∧
      SameRegs ((srcRegs p.1).2 :: sideRegs) s t ∧ SameBut [.regs, .host, .log] s t)) ∧
    (Writes s (srcRegs p.1).1 → Answers (exec (.registerWrite port (srcRegs p.1).1 15 v) s) (fun t =>
      getReg t (srcRegs p.1).1 = getReg s (srcRegs p.1).1 &&& ~~~(v &&& BitVec.ofNat 32 p.2) ∧
      SameRegs ((srcRegs p.1).1 :: sideRegs) s t ∧ SameBut [.regs, .host, .log] s t))) ∧
  (∀ (s : State) (port : Nat) (v : Word), port < 2 → Writes s Reg.logCursor →
    Answers (exec (.registerWrite port Reg.logCursor 15 v) s) (fun t => getReg t (portReg port Reg.logCursor) = v ∧
      SameRegs [portReg port Reg.logCursor] s t ∧ SameBut [.regs] s t)) ∧
  (∀ (s : State) (port a : Nat), port < 2 → Reaches s a →
    (a = 0x2C ∨ a = Reg.pcePaceMin ∨ a = Reg.vrdReduceMax ∨ (∃ k, k < 8 ∧ a = Reg.dspWaitMax k) ∨ a = Reg.vltPagesMin ∨
      a = Reg.quePoolMin) →
    ∃ t, exec (.rcFieldRead port a) s = .next t ∧ t.host = { s.host with resp := [getReg s a] } ∧
      getReg t a = (if a = 0x2C then getReg s a &&& 0x0000FFFF#32 else if a = Reg.pcePaceMin then 0xFFFFFFFF#32
        else if a = Reg.vrdReduceMax then getReg s a &&& 0xFFFF0000#32
        else if a = Reg.vltPagesMin then BitVec.ofNat 32 s.vlt.general
        else if a = Reg.quePoolMin then BitVec.ofNat 32 (poolFree s) else 0#32) ∧
      SameRegs [a] s t ∧ SameBut [.regs, .host] s t) ∧
  (∀ (s : State) (port : Nat), port < 2 →
    (Reaches s (Reg.timRaw 0) → Answers (exec (.latchedLowWordRead port (Reg.timRaw 0)) s) (fun t =>
      t.host = { s.host with resp := [BitVec.ofNat 32 s.raw], latch := t.host.latch } ∧
      smFind t.host.latch port = some { tag := Reg.timRaw 0, words := [(Reg.timRaw 1, BitVec.ofNat 32 (s.raw / 2 ^ 32))] } ∧
      smFind t.host.latch (1 - port) = smFind s.host.latch (1 - port) ∧ SameBut [.host] s t)) ∧
    (∀ (a g : Nat) (l : Latch), a % 4 = 0 → a < 2 ^ 24 → Reaches s a → lowOf a = some g → smFind s.host.latch port = some l →
      l.tag = g → ∃ t, exec (.highWordRead port a) s = .next t ∧
        t.host = { s.host with resp := [smGet 0#32 l.words a] } ∧ SameBut [.host] s t) ∧
    (Reaches s (Reg.timRaw 1) → (∀ l, smFind s.host.latch port = some l → l.tag ≠ Reg.timRaw 0) →
      Answers (exec (.highWordRead port (Reg.timRaw 1)) s) (fun t => t.host.resp = [BitVec.ofNat 32 (s.raw / 2 ^ 32)] ∧
        t.host.latch = s.host.latch ∧ regBit t Reg.hstEvents 3 = true ∧ Counts s t (Reg.hstCnt 4) ∧
        SameRegs (Reg.hstEvents :: Reg.hstCnt 4 :: sideRegs) s t ∧ SameBut [.regs, .host, .log] s t)))

/-- R20, R26, R583–R586 and R622: BLK_CTRL of every page, the end of a check (passed, failed, or cause 0xFF where the check
itself failed), the writes held during it, and STAT_CLR. -/
def Obligations.BlocksEnableAfterTheirChecks : Prop :=
  let plain : List Nat := [0x10000, 0x20000, 0x40000, 0x50000, 0x88000, 0x90000, 0xA0000, 0xD0000, 0x1D0000]
  (∀ (s : State) (port base : Nat), port < 2 → base ∈ blkPages → base ≠ 0 → Writes s base →
    (blkChecking s base = true → Answers (exec (.blockEnable port base) s) (fun t => SameBut [.host] s t ∧
      smGet [] t.host.heldCtrl base = smGet [] s.host.heldCtrl base ++ [true]) ∧
      Answers (exec (.blockDisable port base) s) (fun t => SameBut [.host] s t ∧
        smGet [] t.host.heldCtrl base = smGet [] s.host.heldCtrl base ++ [false])) ∧
    (blkChecking s base = false →
      (enabled s base = true → exec (.blockEnable port base) s = .next s) ∧
      (enabled s base = false → Answers (exec (.blockEnable port base) s) (fun t => blkChecking t base = true ∧
        enabled t base = false ∧ SameRegs [base + 4] s t ∧ SameBut [.regs] s t)) ∧
      Answers (exec (.blockDisable port base) s) (fun t => enabled t base = false) ∧
      (base ∈ plain → Answers (exec (.blockDisable port base) s) (fun t => enabled t base = false ∧ regFld t (base + 4) 1 0 = 0 ∧
        SameRegs [base, base + 4] s t ∧ SameBut [.regs] s t)))) ∧
  (∀ (s : State) (base : Nat), base ∈ blkPages → base ≠ 0 → blkChecking s base = true → smFind s.host.heldCtrl base = none →
    (blkCheck s base ≠ 0 → Answers (exec (.blockCheckEnd ⟨base, false⟩) s) (fun t => enabled t base = enabled s base ∧
      regFld t (base + 4) 1 0 = 3 ∧ Refuses t base (reason base (blkCheck s base)) ∧
      SameRegs [base + 4, base + 8, Reg.accRefuseEntry] s t ∧ SameBut [.regs] s t)) ∧
    (blkCheck s base = 0 → Answers (exec (.blockCheckEnd ⟨base, false⟩) s) (fun t => enabled t base = true ∧ regFld t (base + 4) 1 0 = 2) ∧
      (base ∈ plain → Answers (exec (.blockCheckEnd ⟨base, false⟩) s) (fun t => enabled t base = true ∧ regFld t (base + 4) 1 0 = 2 ∧
        SameRegs (base :: (base + 4) :: Reg.keyCnt 3 :: 0x40004 :: sideRegs) s t ∧ SameBut [.regs, .log] s t))) ∧
    Answers (exec (.blockCheckEnd ⟨base, true⟩) s) (fun t => enabled t base = enabled s base ∧ regFld t (base + 4) 1 0 = 3 ∧
      Refuses t base (reason base 0xFF) ∧ SameRegs [base + 4, base + 8] s t ∧ SameBut [.regs] s t)) ∧
  (∀ (s : State) (base : Nat), base ∈ plain → blkChecking s base = true → smFind s.host.heldCtrl base = some [false] →
    Answers (exec (.blockCheckEnd ⟨base, false⟩) s) (fun t => enabled t base = false ∧ regFld t (base + 4) 1 0 = 0 ∧
      smFind t.host.heldCtrl base = none ∧ SameBut [.regs, .host, .log] s t)) ∧
  (∀ (s : State) (port base o : Nat), port < 2 → base ∈ blkPages → statClrOff base = some o → Writes s (base + o) →
    Answers (exec (.statClr port base) s) (fun t => (∀ a ∈ statRegs base, getReg t a = 0#32) ∧ regBit t (base + 4) 8 = false ∧
      SameRegs ((base + 4) :: (statRegs base ++ sideRegs)) s t ∧ SameBut [.regs, .log, .pce, .vrd, .dsp, .vlt, .que] s t))

/-- R555, R578, R581, R582, R590, R596–R600 and R613: accesses that find nothing or a block that is off, acknowledged vectors and
masks, the endpoint, the SPI port and the supplies of the pin banks. -/
def Obligations.LinksAndOfflineAccessesAreServed : Prop :=
  (∀ (s : State) (port a : Nat) (w : Bool), port < 2 → a % 4 = 0 → a < 2 ^ 24 → s.pwr.st ≠ .off → s.pwr.st ≠ .nap →
    s.pwr.trans ≠ some .nap →
    (undecoded a = true → Answers (exec (.undecodedAccess port a w) s) (fun t => (w = false → t.host.resp = [0#32]) ∧
      Refuses t Reg.hstBase 0x0101 ∧ regBit t Reg.hstEvents 1 = true ∧ Counts s t (Reg.hstCnt 0) ∧
      SameRegs (8 :: Reg.hstEvents :: Reg.hstCnt 0 :: sideRegs) s t ∧ SameBut [.regs, .host, .log] s t)) ∧
    (undecoded a = false → absentAt s a = false → offlineAt s a = true → Answers (exec (.offlineAccess port a w) s) (fun t =>
      (w = false → t.host.resp = [0xFFFFFFFF#32]) ∧
      getReg t Reg.hstOffline0 = BitVec.ofNat 32 (port * 2 ^ 25 + b2n w * 2 ^ 24 + a) ∧
      getReg t Reg.hstOffline1 =
        BitVec.ofNat 32 (Nat.min 65535 (regFld s Reg.hstOffline1 31 16 + 1) * 65536 + blkCode (blkBase a)) ∧
      regBit t Reg.hstEvents 2 = true ∧ Counts s t (Reg.hstCnt 1) ∧
      SameRegs (Reg.hstOffline0 :: Reg.hstOffline1 :: Reg.hstEvents :: Reg.hstCnt 1 :: sideRegs) s t ∧
      SameBut [.regs, .host, .log, .tim] s t))) ∧
  (∀ (s : State) (port v : Nat), port < 2 → v < 64 → Writes s Reg.hstVecAck →
    ((pendingVectors s).testBit v = false → exec (.vectorAck port v) s = .next s) ∧
    ((pendingVectors s).testBit v = true → s.host.msixEn = true → vecMasked s v = false → s.host.busMaster = true →
      Answers (exec (.vectorAck port v) s) (fun t => t.host = { s.host with msiSent := v :: s.host.msiSent } ∧
        Counts s t (Reg.hstCnt 5) ∧ SameRegs sideRegs s t ∧ SameBut [.regs, .host, .log] s t)) ∧
    ((pendingVectors s).testBit v = true → s.host.msixEn = true → vecMasked s v = true →
      Answers (exec (.vectorAck port v) s) (fun t => t.host = { s.host with msixPba := s.host.msixPba ||| 2 ^ v } ∧
        SameBut [.host] s t))) ∧
  (∀ (s : State) (v : Nat), v < 64 → s.pwr.st ≠ .off → s.host.msixPba = 2 ^ v → s.host.msixEn = true →
    (s.host.busMaster = true → Answers (exec (.msixUnmask true false (some v)) s) (fun t =>
      t.host = { s.host with msixPba := 0, funcMask := false, msiSent := v :: s.host.msiSent } ∧
      regBit t (0x8000 + 16 * v + 12) 0 = false ∧ SameRegs ((0x8000 + 16 * v + 12) :: sideRegs) s t ∧
      SameBut [.regs, .host, .log] s t)) ∧
    (vecMasked s v = false → Answers (exec (.busMasterEnable true) s) (fun t =>
      t.host = { s.host with msixPba := 0, busMaster := true, msiSent := v :: s.host.msiSent } ∧
      SameRegs sideRegs s t ∧ SameBut [.regs, .host, .log] s t))) ∧
  (∀ s : State, s.pwr.st ≠ .off → Answers (exec (.busMasterEnable false) s) (fun t =>
    t.host = { s.host with busMaster := false } ∧ SameBut [.host] s t)) ∧
  (∀ (s : State) (speed width : Nat), s.pwr.st ≠ .off → Answers (exec (.pcieReset speed width) s) (fun t =>
    (∀ a ∈ pcieCopies ++ arr 0x8000 4 256, getReg t a = regReset a) ∧ SameRegs (pcieCopies ++ arr 0x8000 4 256) s t ∧
    t.host.busMaster = false ∧ t.host.msixEn = false ∧ t.host.msixPba = 0 ∧ smFind t.host.latch 0 = none ∧
    smFind t.host.latch 1 = smFind s.host.latch 1 ∧ t.que = { s.que with popWait := [] } ∧
    t.tim = { s.tim with domLatch := t.tim.domLatch } ∧ SameBut [.regs, .host, .tim, .que] s t)) ∧
  (∀ (s : State) (cmd k n : Nat), spiLive s = true → cmd.testBit 7 = true → cmd.testBit 6 = true → cmd / 16 % 4 = 0 → k + n ≤ 64 →
    (∀ i, k ≤ i → i < k + n → Reaches s (Reg.hstVecMap i)) →
    Answers (exec (.spiRead cmd (Reg.hstVecMap k) n) s) (fun t => t.host.spiStatus = spiStatusByte s ∧
      t.host.resp = (List.range n).map (fun i => getReg s (Reg.hstVecMap (k + i))) ∧ Counts s t (Reg.hstCnt 2) ∧
      SameRegs (Reg.hstCnt 2 :: sideRegs) s t ∧ SameBut [.regs, .host, .log] s t)) ∧
  (∀ (s : State) (b : List Byte), spiLive s = true → b.length = 10 → (le b 0 1).testBit 7 = false →
    (le b 0 1 / 16 % 4 = 0 → le b 1 4 = Reg.logCursor → crc8 (b.take 9) = le b 9 1 → Writes s Reg.logCursor →
      Answers (exec (.spiWrite b) s) (fun t => getReg t (portReg 1 Reg.logCursor) = BitVec.ofNat 32 (le b 5 4) ∧
        t.host.spiDropped = false ∧ t.host.spiStatus = spiStatusByte s ∧
        SameRegs (portReg 1 Reg.logCursor :: Reg.hstCnt 2 :: sideRegs) s t ∧ SameBut [.regs, .host, .log] s t)) ∧
    (crc8 (b.take 9) ≠ le b 9 1 → Answers (exec (.spiWrite b) s) (fun t => Refuses t Reg.hstBase 0x0103 ∧
      regBit t Reg.hstEvents 4 = true ∧ t.host.spiDropped = true ∧ Counts s t (Reg.hstCnt 3) ∧
      SameRegs (8 :: Reg.hstEvents :: Reg.hstCnt 2 :: Reg.hstCnt 3 :: sideRegs) s t ∧ SameBut [.regs, .host, .log] s t))) ∧
  (∀ (s : State) (b : Nat), b < 4 →
    Answers (exec (.vioLoss b) s) (fun t => t.host = { s.host with vio := t.host.vio } ∧ SameBut [.host] s t ∧
      (∀ k, k < 4 → t.host.vio.testBit k = (s.host.vio.testBit k && k != b)) ∧
      (b = 0 → ∀ n, pinLevel t n = none ∧ xoffLevel t n = none ∧ twinHbLevel t = none ∧ twinRoleLevel t = none) ∧
      (b = 1 → ∀ n, pulseLevel t n = none) ∧ (b = 2 → irqLevel t = none ∧ pwrWarnLevel t = none ∧ spiLive t = false) ∧
      (b = 3 → ppsLevel t = none)) ∧
    Answers (exec (.vioReturn b) s) (fun t => t.host = { s.host with vio := t.host.vio } ∧ SameBut [.host] s t ∧
      ∀ k, k < 4 → t.host.vio.testBit k = (s.host.vio.testBit k || k == b)))

/-- R592–R595 with Table 21.4: training of the LPDDR5X memory, and one word of each window. -/
def Obligations.MemoryWindowsFollowTheirAreas : Prop :=
  (∀ (s : State) (port : Nat), port < 2 → Writes s Reg.hstDdrCtrl →
    (opRunning s Reg.hstDdrOpstat = false →
      (regFld s Reg.hstDdrCfg 2 0 ≠ 0 → Answers (exec (.ddrTrainingStart port) s) (fun t => opState t Reg.hstDdrOpstat = 1 ∧
        t.host = { s.host with ddrLocked := true, ddrTrained := false } ∧ SameRegs [Reg.hstDdrOpstat] s t ∧
        SameBut [.regs, .host] s t)) ∧
      (regFld s Reg.hstDdrCfg 2 0 = 0 → exec (.ddrTrainingStart port) s = .next s) ∧
      Answers (exec (.ddrTrainingStop port) s) (fun t => Refuses t Reg.hstBase 0x01F4 ∧ SameRegs [8] s t ∧ SameBut [.regs] s t)) ∧
    (opRunning s Reg.hstDdrOpstat = true →
      Answers (exec (.ddrTrainingStart port) s) (fun t => Refuses t Reg.hstBase 0x01F3 ∧ SameRegs [8] s t ∧ SameBut [.regs] s t) ∧
      Answers (exec (.ddrTrainingStop port) s) (fun t => opState t Reg.hstDdrOpstat = 4 ∧ regBit t Reg.hstEvents 5 = true ∧
        SameRegs (Reg.hstDdrOpstat :: Reg.hstEvents :: sideRegs) s t ∧ SameBut [.regs, .host, .log] s t))) ∧
  (∀ (s : State) (prog : Nat), opRunning s Reg.hstDdrOpstat = true →
    Answers (exec (.ddrTrainingEnd true prog) s) (fun t => opState t Reg.hstDdrOpstat = 2 ∧ regFld t Reg.hstDdrOpstat 15 0 = 100 ∧
      t.host.ddrTrained = true ∧ regBit t Reg.hstEvents 5 = true ∧ SameBut [.regs, .host, .log] s t) ∧
    Answers (exec (.ddrTrainingEnd false prog) s) (fun t => opState t Reg.hstDdrOpstat = 3 ∧ Refuses t Reg.hstBase 0x0106 ∧
      t.host.ddrTrained = s.host.ddrTrained ∧ regBit t Reg.hstEvents 5 = true ∧ SameBut [.regs, .host, .log] s t)) ∧
  (∀ (s : State) (port w : Nat) (b : List Byte), port < 2 → w < 0x2000000 → windowsOpen s →
    (w % 4 ≠ 0 ∨ b.length % 4 ≠ 0 → Answers (exec (.mramWindowWrite port w b) s) (fun t =>
      Refuses t Reg.hstBase 0x0102 ∧ SameRegs [8] s t ∧ SameBut [.regs] s t)) ∧
    (w % 4 = 0 → b.length = 4 →
      (mramArea (mramAt s w) = .user → Answers (exec (.mramWindowWrite port w b) s) (fun t =>
        t.host = { s.host with mram := t.host.mram } ∧ SameBut [.host] s t ∧
        ∀ k, smGet 0#8 t.host.mram k =
          if mramAt s w ≤ k ∧ k < mramAt s w + 4 then (b[k - mramAt s w]?).getD 0#8 else smGet 0#8 s.host.mram k)) ∧
      (∀ base code, (mramArea (mramAt s w) = .ring ∧ base = Reg.logBase ∧ code = 0x0601) ∨
          (mramArea (mramAt s w) = .plans ∧ base = Reg.plnBase ∧ code = 0x0A28) ∨
          (mramArea (mramAt s w) = .keys ∧ base = Reg.keyBase ∧ code = 0x050C) ∨
          (mramArea (mramAt s w) ∈ [MramArea.boot, .capture, .records, .reserved] ∧ base = Reg.hstBase ∧ code = 0x0104) →
        Answers (exec (.mramWindowWrite port w b) s) (fun t => Refuses t base code ∧ SameRegs [base + 8] s t ∧
          SameBut [.regs] s t))) ∧
    (w % 4 = 0 →
      (mramArea (mramAt s w) = .user ∨ mramArea (mramAt s w) = .capture →
        Answers (exec (.mramWindowRead port w 4) s) (fun t => SameBut [.host] s t ∧ t.host = { s.host with resp :=
          [BitVec.ofNat 32 (leNat ((List.range 4).map (fun i => smGet 0#8 s.host.mram (mramAt s w + i))))] })) ∧
      (∀ base code, (mramArea (mramAt s w) = .ring ∧ base = Reg.logBase ∧ code = 0x0601) ∨
          (mramArea (mramAt s w) = .keys ∧ base = Reg.keyBase ∧ code = 0x050C) →
        Answers (exec (.mramWindowRead port w 4) s) (fun t => t.host.resp = [0#32] ∧ Refuses t base code ∧
          SameRegs [base + 8] s t ∧ SameBut [.regs, .host] s t)))) ∧
  (∀ (s : State) (port w : Nat) (b : List Byte), port < 2 → w < 0x800000 → w % 4 = 0 → b.length = 4 → windowsOpen s →
    regBit s Reg.pwrGate 4 = false →
    (s.host.ddrTrained = true →
      Answers (exec (.ddrWindowAccess port w 4 true b) s) (fun t => t.host = { s.host with ddr := t.host.ddr } ∧
        SameBut [.host] s t ∧ ∀ k, smGet 0#8 t.host.ddr k =
          if ddrAt s w ≤ k ∧ k < ddrAt s w + 4 then (b[k - ddrAt s w]?).getD 0#8 else smGet 0#8 s.host.ddr k) ∧
      Answers (exec (.ddrWindowAccess port w 4 false b) s) (fun t => SameBut [.host] s t ∧ t.host = { s.host with resp :=
        [BitVec.ofNat 32 (leNat ((List.range 4).map (fun i => smGet 0#8 s.host.ddr (ddrAt s w + i))))] })) ∧
    (s.host.ddrTrained = false → ∀ wr : Bool, Answers (exec (.ddrWindowAccess port w 4 wr b) s) (fun t =>
      (wr = false → t.host.resp = [0#32]) ∧ t.host.ddr = s.host.ddr ∧ Refuses t Reg.hstBase 0x0105 ∧ SameRegs [8] s t ∧
      SameBut [.regs, .host] s t)))

/-! ## Ethernet ports and the parser (10_ethernet_ports.md, 03_accessions.md) -/

/-- R338–R342 with Table 10.2, R361 and R625: the tests of a received frame in order, each frame counted in its first failing
row only; a preempted frame holds cells, its first fragment's time and its SMD's number until it ends; the frame that passes
joins its port's ingress queue. -/
def Obligations.ReceivedFramesAreTestedInOrder : Prop :=
  ∀ (s : State) (p len flags kind cnt smd arrival sub : Nat) (data : List Byte), ethOn s p = true → kind < 6 →
    let fr : Host.Outcome State Fault Refusal := exec (.frameReceive p len flags kind ⟨cnt, smd⟩ arrival sub data) s
    let x := getPort s p
    let fails (c : Nat) : Prop := Answers fr (fun t => Counts s t (ethCnt p c) ∧ (kind < 2 → ∀ k, getPort t k = getPort s k) ∧
      (kind = 2 ∨ kind = 3 → ∃ r, (getPort t p).rx = some r ∧ r.dead = true ∧ r.cells = 0) ∧
      (kind = 4 → (getPort t p).rx = none) ∧ SameBut [.regs, .host, .log, .que, .eth] s t)
    let joins (n at_ sb c : Nat) (d : List Byte) : Prop := Answers fr (fun t =>
      (getQ t p).pkts = (getQ s p).pkts ++ [{ source := 0xF, port := p, arrival := at_, sub := sb, data := d }] ∧
      (getQ t p).held = (getQ s p).held + cellsFor d.length - c ∧ (∀ k, k ≠ p → getQ t k = getQ s k) ∧
      (getPort t p).rx = (if kind = 0 then x.rx else none) ∧ Counts s t (ethCnt p 0) ∧ Counts s t (Reg.queCnt 0) ∧
      getReg64 t (ethBase p + 0x200) (ethBase p + 0x204) = (getReg64 s (ethBase p + 0x200) (ethBase p + 0x204) + n) % 2 ^ 64 ∧
      SameBut [.regs, .host, .log, .que, .eth] s t)
    let kept (d : List Byte) (next c : Nat) (r0 : RxFrag) : Prop := Answers fr (fun t => Counts s t (ethCnt p 13) ∧
      (getPort t p).rx = some { r0 with data := d, next := next, cells := c, full := c = r0.cells } ∧
      (getQ t p).held = (getQ s p).held + (c - r0.cells) ∧ SameBut [.regs, .host, .log, .que, .eth] s t)
    let heard (d : List Byte) : Prop := isMacControl d = false ∧ addrAccepts s p (d.take 6) = true ∧ macsecOn s p = false
    (kind = 5 → Answers fr (fun t => getPort t p = { x with out := .respond :: x.out } ∧ SameBut [.eth] s t)) ∧
    (∀ r, kind = 1 ∨ kind = 2 → x.rx = some r → r.dead = false →
      Answers fr (fun t => Counts s t (ethCnt p 5) ∧ SameBut [.regs, .host, .log, .que, .eth] s t)) ∧
    (∀ r, x.rx = some r → r.dead = true → r.cells = 0 → (kind = 3 → fr = .next s) ∧
      (kind = 4 → Answers fr (fun t => getPort t p = { x with rx := none } ∧ SameBut [.eth] s t))) ∧
    (∀ got : Nat, kind = 0 ∧ got = 0 ∨ 0 < kind ∧ kind < 5 ∧ x.rx = none ∧ got = 0 ∨
        (kind = 3 ∨ kind = 4) ∧ (∃ r, x.rx = some r ∧ r.dead = false ∧ got = r.data.length) →
      (flags.testBit 2 = true → fails (if got + len < 64 then 1 else 2)) ∧
      (flags.testBit 2 = false → (len < 64 → fails 1) ∧ (64 ≤ len → flags.testBit 0 = true → fails 2) ∧
        (64 ≤ len → flags.testBit 0 = false → flags.testBit 1 = true → fails 3))) ∧
    (64 ≤ len → flags = 0 →
      (kind = 0 ∨ kind = 1 ∧ x.rx = none →
        (ethMaxLen s p < len → fails 4) ∧
        (len ≤ ethMaxLen s p →
          (isMacControl data = false → addrAccepts s p (data.take 6) = false → fails 6) ∧
          (isMacControl data = false → addrAccepts s p (data.take 6) = true → macsecOn s p = true → be data 12 2 ≠ 0x88E5 →
            isPtp data = false → fails 7) ∧
          (heard data → canTake s p (cellsFor data.length) = false → Answers fr (fun t => Counts s t (ethCnt p 11) ∧
            Counts s t (Reg.queCnt 2) ∧ (∀ k, getPort t k = getPort s k) ∧ SameBut [.regs, .log, .eth] s t)) ∧
          (heard data → canTake s p (cellsFor data.length) = true → joins len arrival sub 0 data))) ∧
      (kind = 2 → x.rx = none →
        (ethMaxLen s p < len → fails 4) ∧
        (len ≤ ethMaxLen s p → kept data 0 (if canTake s p (cellsFor data.length) then cellsFor data.length else 0)
          { data := [], next := 0, smd := smd, arrival := arrival, sub := sub, cells := 0, full := false, dead := false })) ∧
      (kind = 3 ∨ kind = 4 → x.rx = none → Answers fr (fun t => Counts s t (ethCnt p 5) ∧ (∀ k, getPort t k = getPort s k) ∧
        SameBut [.regs, .log] s t)) ∧
      (∀ r, kind = 3 ∨ kind = 4 → x.rx = some r → r.dead = false →
        let all := r.data ++ data
        (ethMaxLen s p < all.length + 4 → fails 4) ∧
        (all.length + 4 ≤ ethMaxLen s p →
          (cnt ≠ r.next ∨ smd ≠ r.smd → fails 5) ∧
          (cnt = r.next → smd = r.smd →
            (kind = 3 → r.full = false → r.cells < cellsFor all.length → kept all ((r.next + 1) % 4)
              (if canTake s p (cellsFor all.length - r.cells) then cellsFor all.length else r.cells) r) ∧
            (kind = 3 → r.full = true ∨ cellsFor all.length ≤ r.cells → Answers fr (fun t => Counts s t (ethCnt p 13) ∧
              getPort t p = { x with rx := some { r with data := all, next := (r.next + 1) % 4 } } ∧
              SameBut [.regs, .log, .eth] s t)) ∧
            (kind = 4 → heard all → r.full = true → Answers fr (fun t => Counts s t (ethCnt p 11) ∧ Counts s t (Reg.queCnt 2) ∧
              (getPort t p).rx = none ∧ (getQ t p).held = (getQ s p).held - r.cells ∧
              SameBut [.regs, .host, .log, .que, .eth] s t)) ∧
            (kind = 4 → heard all → r.full = false →
              cellsFor all.length ≤ r.cells ∨ canTake s p (cellsFor all.length - r.cells) = true →
              joins (all.length + 4) r.arrival r.sub r.cells all)))))

/-- R338, R342–R349, R355–R358, R368, R370, R405 and R626: links, verification, pauses, HOLD, what a port sends and where a
preemptable frame is cut, and 10BASE-T1S (what the model presumes of fragments and PLCA: log entry 23). -/
def Obligations.PortsSendHoldAndPause : Prop :=
  let port (s t : State) (p : Nat) (x : PortSt) : Prop := getPort t p = x ∧ ∀ k, k ≠ p → getPort t k = getPort s k
  (∀ (s : State) (p : Nat), ethOn s p = true →
    let x := getPort s p
    let due : Prop := x.verifies = 0 ∨ x.verAt + 1000000 * (regFld s (ethBase p + 0x20) 14 8 + 1) ≤ s.raw
    let from_ : Nat := if x.pausePre ≤ s.raw then s.raw else x.pauseFrom
    (x.link = true → Answers (exec (.linkDown p) s) (fun t => (getPort t p).link = false ∧
      (getPort t p).pe = .disabled ∧ (getPort t p).rx = none ∧ (getPort t p).part = none ∧ (getPort t p).express = none ∧
      Counts s t (ethCnt p 23) ∧ (∀ r, x.rx = some r → r.dead = false → Counts s t (ethCnt p 2)) ∧
      (x.part.isSome ≠ x.express.isSome → Counts s t (ethCnt p 19)) ∧
      (x.part = none → x.express = none → getReg t (ethCnt p 19) = getReg s (ethCnt p 19)) ∧
      regBit t (ethBase p + 0x54) 0 = true ∧ Logs s t 0x0F40 p [] ∧ SameBut [.regs, .host, .log, .que, .eth] s t)) ∧
    (x.link = false → Answers (exec (.linkUp p) s) (fun t => port s t p { x with
        link := true, verifies := 0,
        pe := if 4 ≤ p then .disabled else if regBit s (ethBase p + 0x20) 0 then .active else .verifying } ∧
      regBit t (ethBase p + 0x54) 1 = true ∧ Logs s t 0x0F41 p [] ∧ SameBut [.regs, .host, .log, .eth] s t)) ∧
    (x.pe = .verifying →
      (due → x.verifies < 3 → Answers (exec (.verifyMpacketTimer p) s) (fun t => SameBut [.eth] s t ∧ port s t p
        { x with verifies := x.verifies + 1, verAt := s.raw, out := .verify :: x.out })) ∧
      (due → 3 ≤ x.verifies → Answers (exec (.verifyMpacketTimer p) s) (fun t =>
        port s t p { x with pe := .failed } ∧ Counts s t (ethCnt p 22) ∧ regBit t (ethBase p + 0x54) 2 = true ∧
        Logs s t 0x0F42 p [] ∧ SameBut [.regs, .host, .log, .eth] s t)) ∧
      (¬ due → exec (.verifyMpacketTimer p) s = .next s) ∧
      Answers (exec (.respondMpacketReceived p) s) (fun t => port s t p { x with pe := .active } ∧ SameBut [.eth] s t)) ∧
    (∀ q, Answers (exec (.pauseReceived p q) s) (fun t => Counts s t (ethCnt p 12) ∧ SameBut [.regs, .log, .eth] s t ∧
      port s t p (if p < 4 ∧ regBit s (ethBase p + 0x24) 11 = true then
        { x with pauseExp := pauseEnd s p q, pausePre := pauseEnd s p q, pauseFrom := from_ } else x))) ∧
    (∀ (m : Nat) (l : List Nat) (e c : Nat), e < 8 → c < 8 → ethFlow s p 10 8 = e → ethFlow s p 6 4 = c →
      Answers (exec (.pfcReceived p m l) s) (fun t => Counts s t (ethCnt p 12) ∧ SameBut [.regs, .log, .eth] s t ∧
        (p < 4 → regBit s (ethBase p + 0x24) 11 = true → port s t p { x with
          pauseExp := if m.testBit e then pauseEnd s p ((l[e]?).getD 0) else x.pauseExp
          pausePre := if m.testBit c then pauseEnd s p ((l[c]?).getD 0) else x.pausePre
          pauseFrom := if m.testBit c then from_ else x.pauseFrom }))) ∧
    (x.flowOn = true → ethFlow s p 3 2 ≠ 0 →
      x.flowAt + ceilDiv (ethFlow s p 31 16 * 256 * 1000) (ethMbps s p) ≤ s.raw →
      Answers (exec (.pauseRenew p) s) (fun t => SameBut [.eth] s t ∧ port s t p
        { x with flowTx := x.flowTx ++ [ethFlow s p 31 16], flowAt := s.raw }))) ∧
  (∀ (s : State) (p : Nat), p < 6 →
    Answers (exec (.pauseExpire p) s) (fun t => SameBut [.eth] s t ∧ port s t p { getPort s p with
      pauseExp := if (getPort s p).pauseExp ≤ s.raw then 0 else (getPort s p).pauseExp
      pausePre := if (getPort s p).pausePre ≤ s.raw then 0 else (getPort s p).pausePre }) ∧
    ((getPort s p).hold = true → (getPort s p).holdEnd ≤ s.raw → (getPort s p).express = none → (getQ s (6 + p)).pkts = [] →
      (getQ s (ethHostQ s p 0)).pkts = [] → Answers (exec (.holdEnd p) s) (fun t =>
        port s t p { getPort s p with hold := false } ∧ SameBut [.eth] s t))) ∧
  (∀ (s : State) (p cls q at8 : Nat) (start : Bool) (k : Packet) (r : List Packet), ethOn s p = true → cls < 2 →
    txPick s p cls = some q → (getQ s q).pkts = k :: r →
    let x := getPort s p
    (x.link = false → Answers (exec (.frameTransmit p cls start at8) s) (fun t => (getQ t q).pkts = r ∧
      (getQ t q).held = (getQ s q).held - cellsFor k.data.length ∧ (getPort t p).out = x.out ∧
      Counts s t (ethCnt p 20) ∧ SameBut [.regs, .host, .log, .que, .eth] s t)) ∧
    (x.link = true → x.flowTx = [] → needsMacsec s p k.data = false → wireFree s p = true → mediumMay s p = true →
      let wire := padTo (Nat.max 60 k.data.length) k.data
      (cls = 1 → preMay s p = false → exec (.frameTransmit p cls start at8) s = .next s) ∧
      ((cls = 0 ∧ x.express = none ∧ x.pauseExp ≤ s.raw) ∨ (cls = 1 ∧ x.part = none ∧ preMay s p = true) →
        Answers (exec (.frameTransmit p cls true at8) s) (fun t => (getQ t q).pkts = r ∧ (getQ t q).held = (getQ s q).held ∧
          txOf (getPort t p) cls = some { queue := q, pkt := k, wire := wire, sent := 0, count := 0, smd := x.txSmd, start8 := at8,
                                          frag8 := at8, live := true } ∧
          (getPort t p).out = x.out ∧ SameBut [.regs, .host, .log, .que, .eth] s t) ∧
        (x.coll = 0 → k.bad = false → Answers (exec (.frameTransmit p cls false at8) s) (fun t => (getQ t q).pkts = r ∧
          (getQ t q).held = (getQ s q).held - cellsFor k.data.length ∧
          (getPort t p).out = .frame (cls = 0) wire :: x.out ∧ Counts s t (ethCnt p 14) ∧
          (cls = 0 → Counts s t (ethCnt p 15)) ∧
          (isPtp k.data = false → t.tim = s.tim) ∧
          (isPtp k.data = true → le k.data (etypeAt k.data + 2) 1 % 16 < 4 → (smGet [] s.tim.txts p).length < 16 →
            smGet [] t.tim.txts p = smGet [] s.tim.txts p ++
              [{ msgType := le k.data (etypeAt k.data + 2) 1 % 16, domain := le k.data (etypeAt k.data + 6) 1,
                 seqId := be k.data (etypeAt k.data + 32) 2, raw := at8 / 8, sub := at8 % 8 }]) ∧
          SameBut [.regs, .host, .log, .tim, .que, .eth] s t)))) ∧
    (4 ≤ p →
      (plcaOn s p = true → ∀ late : Bool, exec (.t1sCollision p cls late) s = .next s) ∧
      (plcaOn s p = false → txOf x cls = none →
        (x.coll < 15 → Answers (exec (.t1sCollision p cls false) s) (fun t => ∃ n, n < 2 ^ Nat.min (x.coll + 1) 10 ∧
          port s t p { x with coll := x.coll + 1, backoff := s.raw + 51200 * n } ∧ t.freeCount = s.freeCount + 1 ∧
          SameBut [.eth, .freeCount] s t)) ∧
        (∀ late : Bool, late = true ∨ 15 ≤ x.coll → Answers (exec (.t1sCollision p cls late) s) (fun t =>
          (getQ t q).pkts = r ∧ (getPort t p).coll = 0 ∧ Counts s t (ethCnt p (if late then 26 else 27)) ∧
          SameBut [.regs, .host, .log, .que, .eth] s t))))) ∧
  (∀ (s : State) (p at8 : Nat) (f : TxPart), ethOn s p = true → (getPort s p).link = true → (getPort s p).part = some f →
    f.live = true →
    (∀ c n, cutReason s p = some c → (getPort s p).pe = .active → f.sent + n + 64 ≤ f.wire.length + 4 →
      n = Nat.max (64 * (1 + regFld s (ethBase p + 0x20) 3 2) - 4) (4 * ceilDiv (onWire s p f c) 4) →
      Answers (exec (.frameTransmit p 1 false at8) s) (fun t => Counts s t (ethCnt p 16) ∧ SameBut [.regs, .log, .eth] s t ∧
        port s t p { getPort s p with
          part := some { f with sent := f.sent + n, count := if f.sent = 0 then 0 else (f.count + 1) % 4, live := false }
          out := .fragment (f.sent = 0) false f.smd f.count (slice f.wire f.sent n) :: (getPort s p).out })) ∧
    (cutReason s p = none → f.pkt.bad = false → (getPort s p).coll = 0 →
      Answers (exec (.frameTransmit p 1 false at8) s) (fun t => Counts s t (ethCnt p 14) ∧ (getPort t p).part = none ∧
        (getPort t p).out = (if f.sent = 0 then .frame false f.wire
          else .fragment false true f.smd f.count (f.wire.drop f.sent)) :: (getPort s p).out ∧
        SameBut [.regs, .host, .log, .tim, .que, .eth] s t))) ∧
  (∀ (s : State) (p : Nat) (f : TxPart), ethOn s p = true → 4 ≤ p → plcaOn s p = false → (getPort s p).express = some f →
    f.queue = 6 + p → (getPort s p).coll < 15 → Answers (exec (.t1sCollision p 0 false) s) (fun t =>
      (getQ t (6 + p)).pkts = f.pkt :: (getQ s (6 + p)).pkts ∧ (getQ t (6 + p)).held = (getQ s (6 + p)).held ∧
      (getPort t p).express = none ∧ (getPort t p).coll = (getPort s p).coll + 1 ∧ SameBut [.que, .eth, .freeCount] s t)) ∧
  (∀ (s : State) (p cls q at8 : Nat) (start : Bool) (l : List Nat), p < 6 → (getPort s p).link = true → wireFree s p = true →
    (getPort s p).flowTx = q :: l →
    Answers (exec (.frameTransmit p cls start at8) s) (fun t => Counts s t (ethCnt p 17) ∧ SameBut [.regs, .log, .eth] s t ∧
      port s t p { getPort s p with
        flowTx := l
        out := .pause (if ethFlow s p 3 2 = 2 then regFld s (ethBase p + 0x28) 7 0 else 0) q :: (getPort s p).out })) ∧
  (∀ (s : State) (p : Nat), 4 ≤ p → p < 6 →
    (ethOn s p = true → regBit s (ethBase p + 0x40) 31 = true → Answers (exec (.plcaBeacon p) s) (fun t => SameBut [.eth] s t ∧
      port s t p { getPort s p with
        plca := true
        lastBeacon := s.raw
        plcaSent := 0
        out := if regFld s (ethBase p + 0x40) 23 16 = 0 then .beacon :: (getPort s p).out else (getPort s p).out })) ∧
    ((getPort s p).plca = true → (getPort s p).lastBeacon + 400 * regFld s (ethBase p + 0x40) 15 8 *
        regFld s (ethBase p + 0x40) 7 0 ≤ s.raw → Answers (exec (.plcaInactive p) s) (fun t =>
      port s t p { getPort s p with plca := false } ∧ Counts s t (ethCnt p 28) ∧ regBit t (ethBase p + 0x54) 4 = true ∧
      SameBut [.regs, .host, .log, .eth] s t)))

/-- R79–R81, R111–R113, R253 and Table 3.1: the parser takes the head frame of a port; a C37.118 data frame that passes every test
is given to its exhibit (reserveLand) with its values and deviation, any other is discarded under its cause or copied to the host. -/
def Obligations.AdmissionTakesTheHeadFrame : Prop :=
  ∀ (s : State) (p : Nat) (k : Packet) (r : List Packet) (auth : Bool) (sv : Option SvPacket), p < 6 → (getQ s p).pkts = k :: r →
    (∀ h ∈ s.dsp.heldLand, h.port ≠ p) → rowOf s k = 0 → k.port < 8 →
    let left (t : State) : Prop := (getQ t p).pkts = r ∧ (getQ t p).held = (getQ s p).held - cellsFor k.data.length ∧
      Counts s t (Reg.queCnt 1)
    (enabled s 0xEC000 = false → Answers (exec (.admission p auth sv) s) (fun t => left t ∧ Counts s t (Reg.ethParseCnt 2) ∧
      SameBut [.regs, .host, .log, .que, .eth] s t)) ∧
    (enabled s 0xEC000 = true →
      (∀ q, routeOf s k.data sv = .other → regFld s Reg.ethParseCfg 10 0 = q → copyRoom s q k.data.length = true →
        Answers (exec (.admission p auth sv) s) (fun t => left t ∧ (getQ t q).pkts = (getQ s q).pkts ++ [k] ∧
          Counts s t (Reg.ethParseCnt 1) ∧ SameBut [.regs, .host, .log, .que, .eth] s t)) ∧
      (∀ f, routeOf s k.data sv = .c37 → udpOf k.data = some f → s.twn.st = .off →
        let l := f.payload
        let n := l.length
        let thrown (cause acc e : Nat) : Prop := Answers (exec (.admission p auth sv) s) (fun t => left t ∧
          Counts s t (Reg.accDisc (cause - 0x20)) ∧
          getReg t (Reg.accLastDiscard 0) = BitVec.ofNat 32 (cause * 2 ^ 24 + k.port * 65536 + acc) ∧
          getReg t (Reg.accLastDiscard 1) = BitVec.ofNat 32 e ∧
          getReg64 t (Reg.accLastDiscard 2) (Reg.accLastDiscard 3) = k.arrival % 2 ^ 64 ∧
          SameBut [.regs, .host, .log, .que, .eth] s t)
        (enabled s Reg.accBase = false → thrown 0x20 0xFFFF 0) ∧
        (enabled s Reg.accBase = true →
          (n < 4 ∨ crcCcitt (l.take (n - 2)) ≠ be l (n - 2) 2 → thrown 0x21 0xFFFF 0) ∧
          (4 ≤ n → crcCcitt (l.take (n - 2)) = be l (n - 2) 2 →
            (le l 1 1 % 16 = 0 ∨ 2 < le l 1 1 % 16 → thrown 0x23 0xFFFF 0) ∧
            (0 < le l 1 1 % 16 → le l 1 1 % 16 ≤ 2 →
              (identFind s (rxKey f (be l 4 2) 0) = none → regBit s Reg.accCfg 15 = false → thrown 0x26 0xFFFF 0) ∧
              (∀ acc, acc < 0x4004 → identFind s (rxKey f (be l 4 2) 0) = some acc →
                (be l 2 2 ≠ c37Size (accFmt s acc) ∨ be l 2 2 ≠ n → thrown 0x22 acc 0) ∧
                (be l 2 2 = c37Size (accFmt s acc) → be l 2 2 = n →
                  (c37Time s acc l = none → thrown 0x24 acc 0) ∧
                  (∀ x, c37Time s acc l = some x →
                    (s.tim.valid = false → Answers (exec (.admission p auth sv) s) (fun t => left t ∧
                      Counts s t (Reg.accDisc 9) ∧ SameBut [.regs, .host, .log, .que, .eth, .freeCount] s t)) ∧
                    (∀ pl e, s.tim.valid = true → lapsePast s = s → ratePlan s = some pl → rateTests s acc x = (e, 0) →
                      indexTests s acc e false true = 0 → duplicate s acc e = false →
                      let v : Landing := { c37Values s (accFmt s acc) l with
                        acc := acc, port := k.port, arrival := k.arrival, sub := k.sub, index := e,
                        offset := x - (exhibitTime pl.baseRate e : Int),
                        arrived := selTime8 s (8 * k.arrival + k.sub), commit := (getAcc s acc).commitSeq }
                      exec (.admission p auth sv) s =
                        .next (takeHead (skipFree (reserveLand s v) (2 * fld (accFmt s acc) 22 16)) p k))))))))))

/-! ## Queues (11_queues.md) -/

/-- R361–R367, R374–R377 and R627: pushes and pops of a host port on a host queue, the release of cells, the enable check and the
disabling of a queue; device producers that waited. -/
def Obligations.QueuesPushPopAndRelease : Prop :=
  let only (s t : State) (q : Nat) : Prop := ∀ k, k ≠ q → getQ t k = getQ s k
  (∀ (s : State) (port q : Nat), port < 2 → isHostQueue s q = false →
    let refused (i : Instr) : Prop := Answers (exec i s) (fun t => Refuses t Reg.queBase 0x0E07 ∧
      getReg t Reg.queLastRefuse = BitVec.ofNat 32 (0x0E07 * 65536 + q) ∧ SameRegs [0xD0008, Reg.queLastRefuse] s t ∧
      (∀ k, (getQ t k).pkts = (getQ s k).pkts) ∧ SameBut [.regs, .host, .que] s t)
    refused (.pushStart port q 1) ∧ refused (.pushDataWrite port q 0#32) ∧ refused (.pushEnd port q) ∧ refused (.pop port q) ∧
      refused (.popDataRead port q) ∧ refused (.queueDone port q)) ∧
  (∀ (s : State) (port q len : Nat), port < 2 → isHostQueue s q = true → smFind (getQ s q).push port = none → 0 < len →
    (len ≤ 9216 → canTake s q (cellsFor len) = true → Answers (exec (.pushStart port q len) s) (fun t =>
      smFind (getQ t q).push port = some ⟨len, [], true⟩ ∧ (getQ t q).held = (getQ s q).held + cellsFor len ∧
      (getQ t q).pkts = (getQ s q).pkts ∧ only s t q ∧ SameBut [.regs, .host, .log, .que] s t)) ∧
    (len ≤ 9216 → canTake s q (cellsFor len) = false → Answers (exec (.pushStart port q len) s) (fun t =>
      smFind (getQ t q).push port = some ⟨len, [], false⟩ ∧ (getQ t q).held = (getQ s q).held ∧ only s t q ∧
      SameBut [.que] s t)) ∧
    (9216 < len → Answers (exec (.pushStart port q len) s) (fun t => Refuses t Reg.queBase 0x0E04 ∧
      smFind (getQ t q).push port = none ∧ only s t q ∧ SameBut [.regs, .que] s t))) ∧
  (∀ (s : State) (port q : Nat) (h : HPush) (v : Word), port < 2 → smFind (getQ s q).push port = some h →
    (h.isOpen = false → canTake s q (cellsFor h.len) = true → Answers (exec (.pushReserved port q) s) (fun t =>
      smFind (getQ t q).push port = some ⟨h.len, [], true⟩ ∧ (getQ t q).held = (getQ s q).held + cellsFor h.len ∧
      only s t q ∧ SameBut [.regs, .host, .log, .que, .eth] s t)) ∧
    (isHostQueue s q = true → h.isOpen = true →
      (h.data.length < h.len → Answers (exec (.pushDataWrite port q v) s) (fun t =>
        smFind (getQ t q).push port = some { h with data := h.data ++ (leBytes 4 v.toNat).take (h.len - h.data.length) } ∧
        (getQ t q).pkts = (getQ s q).pkts ∧ only s t q ∧ SameBut [.que] s t)) ∧
      (h.data.length = h.len → Answers (exec (.pushEnd port q) s) (fun t => smFind (getQ t q).push port = none ∧
        (getQ t q).pkts = (getQ s q).pkts ++ [{ source := 1, port := 7, arrival := s.raw, sub := 0, data := h.data }] ∧
        (getQ t q).held = (getQ s q).held ∧ Counts s t (Reg.queCnt 0) ∧ only s t q ∧ SameBut [.regs, .host, .log, .que] s t)) ∧
      (h.data.length ≠ h.len → Answers (exec (.pushEnd port q) s) (fun t => Refuses t Reg.queBase 0x0E06 ∧
        (getQ t q).pkts = (getQ s q).pkts ∧ smFind (getQ t q).push port = some h ∧ SameBut [.regs, .que] s t)))) ∧
  (∀ (s : State) (port q : Nat), port < 2 → isHostQueue s q = true → smFind (getQ s q).pop port = none →
    (∀ p r, (getQ s q).pkts = p :: r → Answers (exec (.pop port q) s) (fun t => (getQ t q).pkts = r ∧
      smFind (getQ t q).pop port = some ⟨p, 0⟩ ∧ (getQ t q).held = (getQ s q).held ∧
      t.host.resp = [BitVec.ofNat 32 (packetWord p), BitVec.ofNat 32 (packetWord p / 2 ^ 32)] ∧ Counts s t (Reg.queCnt 1) ∧
      only s t q ∧ SameBut [.regs, .host, .log, .que] s t)) ∧
    ((getQ s q).pkts = [] → port = 1 ∨ bit (getQ s q).cfg 27 = false → Answers (exec (.pop port q) s) (fun t =>
      t.host.resp = [0#32, 0#32] ∧ Counts s t (Reg.queCnt 5) ∧ SameBut [.regs, .host, .log, .que] s t)) ∧
    ((getQ s q).pkts = [] → port = 0 → bit (getQ s q).cfg 27 = true → Answers (exec (.pop port q) s) (fun t =>
      t.que = { s.que with popWait := s.que.popWait ++ [(q, s.raw)] } ∧ SameBut [.que] s t))) ∧
  (∀ s : State, s.que.popWait.find? (popEnds s) = none → exec .popWaitEnd s = .next s) ∧
  (∀ (s : State) (q t0 : Nat), s.que.popWait.find? (popEnds s) = some (q, t0) →
    (∀ p r, (getQ s q).pkts = p :: r → Answers (exec .popWaitEnd s) (fun t =>
      t.que.popWait = s.que.popWait.erase (q, t0) ∧ (getQ t q).pkts = r ∧
      smFind (getQ t q).pop 0 = some ⟨p, 0⟩ ∧ Counts s t (Reg.queCnt 1) ∧ only s t q ∧ SameBut [.regs, .host, .log, .que] s t)) ∧
    ((getQ s q).pkts = [] → Answers (exec .popWaitEnd s) (fun t =>
      t.que.popWait = s.que.popWait.erase (q, t0) ∧ smFind (getQ t q).popHi 0 = none ∧ only s t q ∧
      t.host.resp = [0#32, 0#32] ∧ Counts s t (Reg.queCnt 5) ∧ Counts s t (Reg.queCnt 6) ∧ SameBut [.regs, .host, .log, .que] s t))) ∧
  (∀ (s : State) (port q : Nat) (h : HPop), port < 2 → isHostQueue s q = true → smFind (getQ s q).pop port = some h →
    Answers (exec (.popDataRead port q) s) (fun t =>
      t.host.resp = [BitVec.ofNat 32 (le (leBytes 8 h.pkt.arrival ++ h.pkt.data) h.pos 4)] ∧
      smFind (getQ t q).pop port = some { h with pos := h.pos + 4 } ∧ (getQ t q).held = (getQ s q).held ∧ only s t q ∧
      SameBut [.host, .que] s t) ∧
    Answers (exec (.queueDone port q) s) (fun t => smFind (getQ t q).pop port = none ∧
      (getQ t q).held = (getQ s q).held - cellsFor h.pkt.data.length ∧ (getQ t q).pkts = (getQ s q).pkts ∧ only s t q ∧
      SameBut [.regs, .host, .log, .que, .eth] s t)) ∧
  (∀ (s : State) (q : Nat) (v : Word), regFld s Reg.queSel 10 0 = q → 64 ≤ q → fld v 5 0 ≤ 50 →
    (bit (getQ s q).cfg 31 = false →
      let u := setQ s q { getQ s q with cfg := qcfgFields q (getQ s q).cfg (setBit v 31 true) }
      (queueCheck u q = 0 → Answers (exec (.queueEnable v) s) (fun t => isHostQueue t q = true ∧ only s t q ∧
        getQ t q = { getQ s q with cfg := setBit (qcfgFields q (getQ s q).cfg (setBit v 31 true)) 31 true } ∧
        SameBut [.que] s t)) ∧
      (queueCheck u q ≠ 0 → Answers (exec (.queueEnable v) s) (fun t => isHostQueue t q = false ∧
        Refuses t Reg.queBase (queueCheck u q) ∧ only s t q ∧ SameBut [.regs, .que] s t))) ∧
    (bit (getQ s q).cfg 31 = true → (getQ s q).push = [] → Answers (exec (.queueDisable v) s) (fun t =>
      isHostQueue t q = false ∧ (getQ t q).pkts = [] ∧ (getQ t q).pop = [] ∧ (getQ t q).held = takenCells (getQ s q) ∧
      only s t q ∧ SameBut [.regs, .host, .log, .que, .eth] s t))) ∧
  (∀ (s : State) (q : Nat) (p : Packet) (r : List (Nat × Packet)), firstReady s s.que.waiting [] = some ((q, p), r) →
    Answers (exec .producerWaitCommit s) (fun t => t.que.waiting = r ∧ (getQ t q).pkts = (getQ s q).pkts ++ [p] ∧
      (getQ t q).held = (getQ s q).held + cellsFor p.data.length ∧ Counts s t (Reg.queCnt 0) ∧ only s t q ∧
      SameBut [.regs, .host, .log, .que, .eth] s t))

/-! ## Accessions (03_accessions.md) -/

/-- R87, R88, R93–R95, R100, R101, R103 and Tables 3.3 and 3.4: enabling an accession, the end of its registration check,
retirement, and ACC_ALLOC; R523: a twin standby turns ACC_CTL away. -/
def Obligations.AccessionsRegisterAndRetire : Prop :=
  let others (s t : State) (n : Nat) : Prop := ∀ m, m ≠ n → getAcc t m = getAcc s m
  (∀ (s : State) (n : Nat) (v : Word), s.twn.st = .standby ∨ s.twn.st = .taking →
    Answers (exec (.accessionEnable n v) s) (fun t => Refuses t Reg.twnBase 0x0704 ∧ SameRegs [Reg.twnBase + 8] s t ∧
      SameBut [.regs] s t) ∧
    Answers (exec (.accessionRetire n v) s) (fun t => Refuses t Reg.twnBase 0x0704 ∧ SameRegs [Reg.twnBase + 8] s t ∧
      SameBut [.regs] s t)) ∧
  (∀ (s : State) (n : Nat) (v : Word), n < 0x4004 → s.twn.st = .off →
    ((getAcc s n).st = .vacant → Answers (exec (.accessionEnable n v) s) (fun t =>
      getAcc t n = { getAcc s n with st := .checking } ∧ others s t n ∧ t.acc.checks = s.acc.checks ++ [n] ∧
      (n < 0x4000 → regFld t (accAddr n + 28) 23 0 = fld v 23 0) ∧ SameRegs (if n < 0x4000 then [accAddr n + 28] else []) s t ∧
      t.acc.ident = s.acc.ident ∧ t.acc.seq = s.acc.seq ∧ SameBut [.regs, .acc] s t)) ∧
    ((getAcc s n).st = .checking → Answers (exec (.accessionEnable n v) s) (fun t =>
      getAcc t n = { getAcc s n with heldCtl := (getAcc s n).heldCtl ++ [setBit v 31 true] } ∧ others s t n ∧
      SameBut [.acc] s t)) ∧
    ((getAcc s n).st = .retired → Answers (exec (.accessionEnable n v) s) (fun t => Refuses t Reg.accBase 0x110D ∧
      getReg t Reg.accRefuseEntry = BitVec.ofNat 32 n ∧ regBit t Reg.accEvents 3 = true ∧ SameBut [.regs, .host, .log] s t)) ∧
    (accIsEnabled (getAcc s n) = true → Answers (exec (.accessionEnable n v) s) (fun t =>
      (n < 0x4000 → fld v 23 0 ≠ regFld s (accAddr n + 28) 23 0 → Refuses t Reg.accBase 0x110C) ∧
      SameRegs [Reg.accBase + 8] s t ∧ SameBut [.regs] s t)) ∧
    (accIsEnabled (getAcc s n) = true → Answers (exec (.accessionRetire n v) s) (fun t =>
      let held := s.vlt.ex.any (fun p => p.2.openSeq < s.acc.seq && p.2.st != .sealed)
      (held = true → (getAcc t n).st = .retired ∧ (getAcc t n).retireSeq = s.acc.seq) ∧
      (held = false → getAcc t n = AccEntry.reset ∧ regBit t Reg.accEvents 2 = true ∧
        (n < 0x4000 → identFind t (recordKey (accWords s n)) ≠ some n)) ∧
      (n < 0x4000 → fld v 23 0 ≠ regFld s (accAddr n + 28) 23 0 → Refuses t Reg.accBase 0x110C) ∧
      t.acc.seq = s.acc.seq + 1 ∧ others s t n ∧ SameBut [.regs, .host, .log, .acc, .vrd, .hsh] s t))) ∧
  (∀ (s : State) (n : Nat) (r : List Nat), s.acc.checks = n :: r → n < 0x4004 → (getAcc s n).heldCtl = [] → s.twn.st = .off →
    (registrationCause s n = 0 → Answers (exec .registrationCheckEnd s) (fun t =>
      getAcc t n = { getAcc s n with st := .registered, run := 0, commitSeq := s.acc.seq } ∧ others s t n ∧
      t.acc.checks = r ∧ t.acc.seq = s.acc.seq + 1 ∧ (n < 0x4000 → identFind t (recordKey (accWords s n)) = some n) ∧
      SameBut [.acc] s t)) ∧
    (registrationCause s n ≠ 0 → Answers (exec .registrationCheckEnd s) (fun t => getAcc t n = AccEntry.reset ∧ others s t n ∧
      t.acc.checks = r ∧ t.acc.ident = s.acc.ident ∧ Refuses t Reg.accBase (registrationCause s n) ∧
      getReg t Reg.accRefuseEntry = BitVec.ofNat 32 n ∧ regBit t Reg.accEvents 3 = true ∧
      SameBut [.regs, .host, .log, .acc] s t))) ∧
  (∀ s : State,
    (∀ n, n < 0x4000 → (getAcc s n).st = .vacant → (∀ m, m < n → (getAcc s m).st ≠ .vacant) →
      Answers (exec .accAllocRead s) (fun t => t.host = { s.host with resp := [BitVec.ofNat 32 (2 ^ 31 + n)] } ∧
        SameBut [.host] s t)) ∧
    ((∀ n, n < 0x4000 → (getAcc s n).st ≠ .vacant) → Answers (exec .accAllocRead s) (fun t =>
      t.host = { s.host with resp := [0#32] } ∧ Refuses t Reg.accBase 0x1101 ∧ SameRegs [Reg.accBase + 8] s t ∧
      SameBut [.regs, .host] s t)))

/-! ## The vault and exhibits (04_vault_and_exhibits.md) -/

/-- R97, R98, R122, R131, R133, R135–R138, R146–R149, R151–R154, R266 and Tables 4.4 to 4.12: opening, close condition and
close event, seal condition and seal event, release, force commands and the read window. -/
def Obligations.ExhibitsOpenCloseSealAndGo : Prop :=
  let others (s t : State) (e : Nat) : Prop := ∀ k, k ≠ e → getEx t k = getEx s k
  (∀ (s : State) (e k : Nat) (p : Plan), s.twn.st = .off → lapsePast s = s → getEx s e = none → mayOpenByTime s e = some (k, p) →
    (openLack s (decide (e % p.verdictDiv = 0)) = none → Answers (exec (.exhibitTimeReached e) s) (fun t =>
      ∃ x, getEx t e = some x ∧ others s t e ∧ x.index = e ∧ x.slot = k ∧ x.planId = p.planId ∧ x.openTime = s.raw ∧
        x.openSeq = s.acc.seq ∧ x.revision = 0 ∧ x.presMask = 0 ∧ x.locPres = 0 ∧ x.slots = [] ∧ x.sealCond = false ∧
        (∀ n, n < 0x4000 → x.expMask.testBit n = accExpected s k e n) ∧
        (∀ n, n < 4 → x.locExp.testBit n = accExpected s k e (0x4000 + n)) ∧
        x.st = (if exExpected x = 0 then .closing else .opened) ∧
        x.verdict = decide (e % p.verdictDiv = 0) ∧ x.bankValid = x.verdict ∧
        (∀ b, x.verdict = true → freeBank s = some b →
          x.bank = b ∧ getBank t b = { st := .held, index := e, cells := [], mask := 0 }) ∧
        t.vlt.general = s.vlt.general - 2 ∧ t.acc.seq = s.acc.seq + 1 ∧ t.acc.entries = s.acc.entries ∧
        Counts s t (Reg.vltCnt 0) ∧ SameBut [.regs, .log, .pce, .acc, .vlt, .vrd] s t)) ∧
    (openLack s (decide (e % p.verdictDiv = 0)) = some 2 → Answers (exec (.exhibitTimeReached e) s) (fun t =>
      e ∈ t.vlt.waitOpen ∧ t.vlt = { s.vlt with waitOpen := t.vlt.waitOpen } ∧ SameBut [.vlt] s t))) ∧
  (∀ (s : State) (e : Nat) (x : Exhibit) (p : Plan), getEx s e = some x → x.index = e → planAt s x.slot = some p →
    s.twn.st = .off →
    (x.st = .opened → slotRetire (lapsePast s) = s → s.tim.valid = true → timeReached s (closingTime p e) = true →
      Answers (exec (.closingTimeReached e) s) (fun t =>
        getEx t e = some { x with st := .closing, condTime := s.raw, closeCause := 1 } ∧ others s t e ∧
        Counts s t (Reg.vltCnt 1) ∧ SameBut [.regs, .log, .vlt] s t)) ∧
    (closeReady s e x = true → x.verdict = true → s.vlt.reclaim = false → (∀ k t, tourLevel s k t < 8) →
      Answers (exec (.closeEvent e) s) (fun t =>
        let late := decide (p.closeDrain < s.raw - x.condTime)
        getEx t e = some { x with
          closeTime := s.raw
          presentAtClose := x.onTime
          paceLate := late
          bankValid := false
          st := if x.sealCond then .sealing else .closed } ∧
        others s t e ∧ (late = true → regBit t Reg.vltEvents 4 = true) ∧
        (getBank t x.bank) = { getBank s x.bank with st := .reducing } ∧
        (∀ b, b ≠ x.bank → getBank t b = getBank s b) ∧
        t.vrd.queue = [{
          index := e
          slot := x.slot
          bank := some x.bank
          present := x.onTime
          expected := exExpected x
          closeCause := x.closeCause
          paceLate := late
          raises := s.vrd.pendRaise.filter (fun r => r.exhibit = none || r.exhibit = some e) }] ∧
        t.vrd.pendRaise = s.vrd.pendRaise.filter (fun r => !(r.exhibit = none || r.exhibit = some e)) ∧
        (∀ n, n < 0x4000 → x.expMask.testBit n = true → x.presMask.testBit n = false → (getAcc s n).run + 1 < p.silence →
          getAcc t n = { getAcc s n with
            run := (getAcc s n).run + 1
            runFirst := if (getAcc s n).run = 0 then e else (getAcc s n).runFirst }) ∧
        (x.expMask &&& x.presMask = x.expMask → x.locExp &&& x.locPres = x.locExp → ∀ q, q < 4 →
          getPort t q = if (getPort s q).pe = .active then { getPort s q with
              hold := true
              holdFrom := if (getPort s q).hold then (getPort s q).holdFrom else s.raw
              holdEnd := s.raw + 1300 }
            else getPort s q) ∧
        (∀ d, (docentOf t d).steps = (docentOf s d).steps) ∧
        SameBut [.regs, .host, .log, .pce, .que, .eth, .acc, .vlt, .dsp, .doc, .vrd, .hsh, .arc, .twn, .cap, .freeCount] s t)) ∧
    (x.sealCond = false → s.tim.valid = true → timeReached s (sealTimeOf p e) = true →
      Answers (exec (.sealTimeReached e) s) (fun t =>
        getEx t e = some { x with sealCond := true, sealCause := 1, st := if x.st = .closed then .sealing else x.st } ∧
        others s t e ∧ SameBut [.vlt] s t)) ∧
    (x.st = .sealing → jobsOf s e (fun _ => true) = false → x.revision ≤ x.digested → s.vlt.reclaim = false →
      (∀ k t, tourLevel s k t < 8) → Answers (exec (.sealEvent e) s) (fun t =>
        (sealsUp s x = false → getEx t e = some { x with
          st := .sealed, sealTime := s.raw, outflow := b2n (arcStreamOn s), sealSeg := 0 }) ∧
        (sealsUp s x = true → ∃ n m, getEx t e = some { x with
          st := .sealed, sealTime := s.raw, outflow := b2n (arcStreamOn s) + 2 * n, sealSeg := m } ∧ m = n ∧ n < 2) ∧
        others s t e ∧
        Counts s t (Reg.vltCnt (if x.sealCause = 1 then 6 else if x.sealCause = 2 then 7 else 8)) ∧
        smFind t.vrd.rev e = none ∧ smFind t.hsh.up e = none ∧
        t.arc = { s.arc with waiting := if arcStreamOn s then s.arc.waiting ++ [e] else s.arc.waiting } ∧
        SameBut [.regs, .host, .log, .que, .eth, .acc, .vlt, .dsp, .vrd, .hsh, .arc, .twn, .freeCount] s t)) ∧
    (x.st = .sealed → x.outflow.testBit 1 = true → hshSends s 2 = true →
      x.sealSeg + 1 < ceilDiv (serialise p x false).length 1400 → Answers (exec (.exhibitRelease e) s) (fun t =>
        getEx t e = some { x with sealSeg := x.sealSeg + 1 } ∧ others s t e ∧
        SameBut [.regs, .host, .log, .que, .eth, .vlt, .hsh, .twn, .freeCount] s t)) ∧
    (x.st = .sealed → x.outflow = 0 → s.vlt.reclaim = false → s.vlt.waitOpen = [] → retiringSlot s = none → s.twn.own = [] →
      s.twn.partner = [] → s.arc.cur ≠ some e → Answers (exec (.exhibitRelease e) s) (fun t =>
        getEx t e = none ∧ others s t e ∧ goneKind t e = 1 ∧
        t.vlt.general + t.vlt.reserve = s.vlt.general + s.vlt.reserve + 2 + popCount 1024 x.pages ∧
        (s.vlt.reserve ≤ 512 → t.vlt.reserve = Nat.min 512 (s.vlt.reserve + 2 + popCount 1024 x.pages)) ∧
        (∀ v, (getView s v).index = e → (getView s v).status = 1 → getView t v = { getView s v with status := 3 }) ∧
        e ∉ t.arc.waiting ∧ SameBut [.pce, .vlt, .arc] s t))) ∧
  (∀ (s : State) (e : Nat), s.twn.st = .off →
    (getReg s Reg.vltForceLo).toNat + regFld s Reg.vltForceHi 15 0 * 2 ^ 32 = e →
    let refused (i : Instr) (code : Nat) : Prop := Answers (exec i s) (fun t =>
      getReg t Reg.vltForceResult = BitVec.ofNat 32 code ∧ Refuses t Reg.vltBase code ∧
      SameRegs [Reg.vltForceResult, Reg.vltBase + 8] s t ∧ SameBut [.regs] s t)
    (getEx s e = none → refused .forceClose 0x0B01 ∧ refused .forceSeal 0x0B01) ∧
    (∀ x, getEx s e = some x → x.index = e →
      (x.st ≠ .opened → refused .forceClose 0x0B02) ∧
      (x.st = .opened → Answers (exec .forceClose s) (fun t => getReg t Reg.vltForceResult = 0 ∧
        getEx t e = some { x with st := .closing, condTime := s.raw, closeCause := 3 } ∧ others s t e ∧
        Counts s t (Reg.vltCnt 3) ∧ SameBut [.regs, .log, .vlt] s t)) ∧
      (x.sealCond = true → refused .forceSeal 0x0B03) ∧
      (x.sealCond = false → Answers (exec .forceSeal s) (fun t => getReg t Reg.vltForceResult = 0 ∧
        getEx t e = some { x with sealCond := true, sealCause := 3, st := if x.st = .closed then .sealing else x.st } ∧
        others s t e ∧ regBit t Reg.vltEvents 0 = true ∧ Logs s t 0x0B41 0xFFFF [] ∧ SameBut [.regs, .host, .log, .vlt] s t)))) ∧
  (∀ (s : State) (v e : Nat) (w : Word), v < 2 → (getReg s (Reg.vltViewIndexLo v)).toNat + fld w 15 0 * 2 ^ 32 = e →
    Answers (exec (.viewBind v w) s) (fun t =>
      getView t v = { status := if (getEx s e).isSome then 1 else 2, index := e, latch := [] } ∧
      (∀ u, u ≠ v → getView t u = getView s u) ∧ (getEx s e = none → Refuses t Reg.vltBase 0x0B06) ∧
      SameRegs [Reg.vltViewIndexHi v, Reg.vltBase + 8] s t ∧ SameBut [.regs, .vlt] s t)) ∧
  (∀ (s : State) (port v : Nat) (x : Exhibit), v < 2 → (getView s v).status = 1 → getEx s (getView s v).index = some x →
    Answers (exec (.viewHeaderLatch port v) s) (fun t => t.host = { s.host with resp := (headerWords x).take 1 } ∧
      smFind (getView t v).latch port = some (headerWords x) ∧ (∀ u, u ≠ v → getView t u = getView s u) ∧
      SameBut [.host, .vlt] s t)) ∧
  (∀ (s : State) (off : Nat) (v : Word), Answers (exec (.vaultWindowWrite off v) s) (fun t => Refuses t Reg.vltBase 0x0B05 ∧
    SameRegs [Reg.vltBase + 8] s t ∧ SameBut [.regs] s t))

/-! ## Hang plans (05_hang_plan.md) -/

/-- R181, R186–R197, R201 and section 5.8: LOAD, its stop and its end, bytes through PLN_DATA, SWAP with and without templates,
WITHDRAW, DISCARD, COMMIT and its end. How PROGRESS counts a part of a KiB is the model's choice (log entry 32). -/
def Obligations.PlansLoadSwapAndCommit : Prop :=
  let failed (t : State) (c : Nat) : Prop := opState t Reg.plnOpstat = 3 ∧ regFld t Reg.plnOpstat 23 16 = c ∧
    Refuses t Reg.plnBase (0x0A00 + c) ∧ regBit t Reg.plnEvents 1 = true
  let result (t : State) (c : Nat) : Prop := getReg t Reg.plnCmdResult = BitVec.ofNat 32 c
  let area (s : State) (a : Nat) : List Byte := if a = 0 then s.pln.area0 else s.pln.area1
  let spare (s : State) : Nat := match selRec s with | some r => 1 - r.area | none => 0
  let running (s : State) (op : Nat) : Prop := opRunning s Reg.plnOpstat = true ∧ s.pln.op = op ∧ s.pln.opSlot < 2
  (∀ (s : State) (v : Word), bit v 1 = false →
    let k := fld v 2 2
    let source := fld v 5 4
    let stored := match selRec s with | some r => area s (if source = 1 then r.area else 1 - r.area) | none => []
    let turned (c : Nat) : Prop := Answers (exec (.plnLoad v) s) (fun t => failed t c ∧ t.pln = s.pln ∧
      SameBut [.regs, .host, .log] s t)
    let active := (planSlot s k).st = .live ∨ (planSlot s k).st = .retiring
    (opRunning s Reg.plnOpstat = true → Answers (exec (.plnLoad v) s) (fun t => Refuses t Reg.plnBase 0x0AF3 ∧
      SameRegs [Reg.plnBase + 8] s t ∧ SameBut [.regs] s t)) ∧
    (opRunning s Reg.plnOpstat = false →
      (active → turned 0x18) ∧
      (¬ active → source = 0 → regFld s Reg.plnSrcLo 5 0 ≠ 0 → turned 0x1B) ∧
      (¬ active → source = 1 ∨ source = 2 → stored = [] → turned 0x1A) ∧
      (¬ active → (source = 0 ∧ regFld s Reg.plnSrcLo 5 0 = 0) ∨ ((source = 1 ∨ source = 2) ∧ stored ≠ []) ∨ source = 3 →
        Answers (exec (.plnLoad v) s) (fun t => opState t Reg.plnOpstat = 1 ∧
          planSlot t k = { PlanSlot.reset with st := .loading } ∧ planSlot t (1 - k) = planSlot s (1 - k) ∧
          t.pln.op = 1 ∧ t.pln.opSlot = k ∧ t.pln.source = source ∧ t.pln.data = [] ∧
          getReg t Reg.plnFailSection = 0 ∧ getReg t Reg.plnFailEntry = 0 ∧ getReg t Reg.plnFailOffset = 0 ∧
          SameBut [.regs, .pln] s t)))) ∧
  (∀ (s : State) (n : Nat), n < 65536 →
    let from_ := regFld s Reg.plnOpstat 15 0
    let stopped (t : State) (units : Nat) (areas : List Area) : Prop := opState t Reg.plnOpstat = 4 ∧
      regFld t Reg.plnOpstat 15 0 = Nat.max from_ (Nat.min n units) ∧ SameBut areas s t
    (opRunning s Reg.plnOpstat = false → Answers (exec (.plnStop n) s) (fun t => Refuses t Reg.plnBase 0x0AF4 ∧
      SameRegs [Reg.plnBase + 8] s t ∧ SameBut [.regs] s t)) ∧
    (running s 1 → Answers (exec (.plnStop n) s) (fun t => stopped t (phaseUnits s s.pln.opSlot (plnPhase s)) [.regs, .pln] ∧
      planSlot t s.pln.opSlot = PlanSlot.reset ∧
      planSlot t (1 - s.pln.opSlot) = planSlot s (1 - s.pln.opSlot))) ∧
    (∀ p, running s 2 → planAt s s.pln.opSlot = some p → s.twn.st = .off → Answers (exec (.plnStop n) s) (fun t =>
      stopped t (enabledTemplates p).length [.regs, .host, .log, .acc] ∧ t.pln = s.pln ∧
      (∀ m, m ∉ ((enabledTemplates p).take n).drop from_ → getAcc t m = getAcc s m))) ∧
    (running s 3 → Answers (exec (.plnStop n) s) (fun t =>
      stopped t (((planSlot s s.pln.opSlot).image).length / 1024) [.regs, .pln] ∧ t.pln.sel0 = s.pln.sel0 ∧ t.pln.sel1 = s.pln.sel1 ∧
      planSlot t 0 = planSlot s 0 ∧ planSlot t 1 = planSlot s 1 ∧
      (spare s < 2 → area t (spare s) = patch (area s (spare s)) 0 (((planSlot s s.pln.opSlot).image).take
          (1024 * Nat.max from_ (Nat.min n (((planSlot s s.pln.opSlot).image).length / 1024)))) ∧
        area t (1 - spare s) = area s (1 - spare s))))) ∧
  (∀ (s : State) (v : Word),
    let len := regFld s Reg.plnSrcLen 22 0
    (running s 1 → s.pln.source = 3 → plnPhase s = 0 → s.pln.data.length < len → Answers (exec (.plnDataWrite v) s) (fun t =>
      t.pln = { s.pln with data := s.pln.data ++ (leBytes 4 v.toNat).take (len - s.pln.data.length) } ∧
      regFld t Reg.plnOpstat 15 0 = t.pln.data.length / 1024 ∧ SameRegs [Reg.plnOpstat] s t ∧ SameBut [.regs, .pln] s t)) ∧
    (opRunning s Reg.plnOpstat = false ∨ s.pln.op ≠ 1 ∨ s.pln.source ≠ 3 ∨ plnPhase s ≠ 0 ∨ len ≤ s.pln.data.length →
      Answers (exec (.plnDataWrite v) s) (fun t => Refuses t Reg.plnBase 0x0A29 ∧ SameRegs [Reg.plnBase + 8] s t ∧
        SameBut [.regs] s t))) ∧
  (∀ (s : State) (d : List Byte) (err : Bool) (ph n : Nat), n < 65536 → running s 1 → s.twn.st = .off →
    let k := s.pln.opSlot
    let len := regFld s Reg.plnSrcLen 22 0
    let from_ := regFld s Reg.plnOpstat 15 0
    let came (units : Nat) : Nat := Nat.max from_ (Nat.min n units)
    let settles (ph prog : Nat) (f : State → Prop) : Prop := Answers (exec (.plnLoadEnd d err ⟨ph, n⟩) s) (fun t => f t ∧
      regFld t Reg.plnOpstat 15 0 = prog % 65536 ∧ planSlot t (1 - k) = planSlot s (1 - k))
    let waits (t : State) : Prop := opState t Reg.plnOpstat = 1 ∧ t.pln = s.pln ∧ SameRegs [Reg.plnOpstat] s t ∧ SameBut [.regs] s t
    (plnPhase s = 0 → s.pln.source = 0 → s.host.busMaster = false → exec (.plnLoadEnd d err ⟨ph, n⟩) s = .next s) ∧
    (plnPhase s = 0 → s.pln.source = 0 → s.host.busMaster = true → err = true → settles ph (Nat.min n (len / 1024)) (fun t =>
      failed t 0x19 ∧ planSlot t k = PlanSlot.reset ∧ SameBut [.regs, .host, .log, .pln] s t)) ∧
    (plnPhase s = 0 → ph = 0 → (s.pln.source = 0 ∧ s.host.busMaster = true ∧ err = false) ∨ s.pln.source = 1 ∨ s.pln.source = 2 →
      settles ph (came (phaseUnits s k 0)) waits) ∧
    (0 < plnPhase s → plnPhase s < 5 → ph = plnPhase s → phaseFail s k ph (came (phaseUnits s k ph)) = none →
      settles ph (came (phaseUnits s k ph)) waits) ∧
    (∀ img, plnPhase s = 0 → (s.pln.source = 0 ∧ s.host.busMaster = true ∧ err = false ∧ img = padTo len d) ∨
        (s.pln.source = 3 ∧ len ≤ s.pln.data.length ∧ img = s.pln.data) ∨
        (∃ r, (s.pln.source = 1 ∨ s.pln.source = 2) ∧ selRec s = some r ∧
          img = area s (if s.pln.source = 1 then r.area else 1 - r.area) ∧ r.area < 2) → ph = 5 →
      let frame := frameFail img img.length
      let cross := crossFail s (parsePlan img) (readsEnabled s).length
      let fails (f : PlanFail) (phase at_ : Nat) : Prop := settles 5 at_ (fun t => failed t f.cause ∧
        planSlot t k = PlanSlot.reset ∧
        getReg t Reg.plnFailSection = BitVec.ofNat 32 f.section_ ∧ getReg t Reg.plnFailEntry = BitVec.ofNat 32 f.entry ∧
        getReg t Reg.plnFailOffset = BitVec.ofNat 32 f.offset ∧
        getReg t Reg.plnOp = BitVec.ofNat 32 (k * 256 + phase * 16 + 1) ∧ SameBut [.regs, .host, .log, .pln] s t)
      (∀ f, f.cause < 256 → frame = some f → fails f 1 (img.length / 1024)) ∧
      (∀ f, f.cause < 256 → frame = none → sectionsFail s.part img = some f → fails f 2 (img.length / 1024)) ∧
      (∀ f i, f.cause < 256 → frame = none → sectionsFail s.part img = none → cross = some (i, f) → fails f 3 i) ∧
      (frame = none → sectionsFail s.part img = none → cross = none → settles 5 ((parsePlan img).code.length / 1024) (fun t =>
        opState t Reg.plnOpstat = 2 ∧ regBit t Reg.plnEvents 0 = true ∧
        planSlot t k = { PlanSlot.reset with st := .loaded, image := img, plan := some (parsePlan img) } ∧
        t.doc = (placePlan s k (parsePlan img)).doc ∧ t.doc.d = s.doc.d ∧
        (enabled s Reg.accBase = false → getReg t Reg.accHashSeed = BitVec.ofNat 32 (parsePlan img).hashSeed) ∧
        (enabled s Reg.accBase = true → getReg t Reg.accHashSeed = getReg s Reg.accHashSeed) ∧
        SameBut [.regs, .host, .log, .pln, .doc] s t)))) ∧
  (∀ (s : State) (v : Word),
    let k := fld v 2 2
    let tpl := bit v 1
    let idx := (getReg s Reg.plnSwapLo).toNat + regFld s Reg.plnSwapHi 15 0 * 2 ^ 32
    (s.twn.st = .standby ∨ s.twn.st = .taking → Answers (exec (.plnSwap v) s) (fun t => Refuses t Reg.twnBase 0x0704 ∧
      SameRegs [Reg.twnBase + 8] s t ∧ SameBut [.regs] s t)) ∧
    (s.twn.st = .off → opRunning s Reg.plnOpstat = true → Answers (exec (.plnSwap v) s) (fun t =>
      Refuses t Reg.plnBase 0x0AF3 ∧ SameRegs [Reg.plnBase + 8] s t ∧ SameBut [.regs] s t)) ∧
    (s.twn.st = .off → opRunning s Reg.plnOpstat = false →
      (swapCause s k idx ≠ 0 → Answers (exec (.plnSwap v) s) (fun t => failed t (swapCause s k idx) ∧
        planSlot t 0 = planSlot s 0 ∧ planSlot t 1 = planSlot s 1 ∧ SameBut [.regs, .host, .log, .pln] s t)) ∧
      (∀ p, swapCause s k idx = 0 → planAt s k = some p →
        (slotActive s (1 - k) = false → Answers (exec (.plnSwap v) s) (fun t =>
          let start := if s.tim.valid then Nat.max idx (leadIndex s p) else idx
          planSlot t k = { planSlot s k with
            st := .live
            start := start
            startFixed := s.tim.valid
            closed := 0
            liveAt := selTime8 s (8 * s.raw) } ∧
          planSlot t (1 - k) = planSlot s (1 - k) ∧ t.vlt = (vaultPlan s p start true s.tim.valid).vlt ∧
          t.pln.firstStart = (vaultPlan s p start true s.tim.valid).pln.firstStart ∧
          t.vrd.lines = s.vrd.lines.filter (fun l => l.1 / 4096 != k) ∧ t.dsp.timerNext = [] ∧ t.dsp.timerPend = [] ∧
          opState t Reg.plnOpstat = (if tpl then 1 else 2) ∧ regBit t Reg.plnEvents 2 = true ∧
          getReg t Reg.pcePaceReq = BitVec.ofNat 32 p.reqPace ∧
          SameBut [.regs, .host, .log, .pce, .pln, .vlt, .dsp, .vrd] s t)) ∧
        ((planSlot s (1 - k)).st = .live → s.vlt.ex.any (fun x => x.2.slot = 1 - k) = true →
          Answers (exec (.plnSwap v) s) (fun t =>
            planSlot t k = { planSlot s k with
              st := .live
              start := idx
              startFixed := true
              closed := 0
              liveAt := selTime8 s (8 * s.raw) } ∧
            planSlot t (1 - k) = { planSlot s (1 - k) with st := .retiring, stop := idx, retSeq := s.acc.seq } ∧
            (∀ l, l < 8 → level t l = (level s l).filter (fun j => !(3 ≤ j.kind && j.slot = 1 - k))) ∧
            t.dsp.heldHsh = s.dsp.heldHsh.filter (fun j => !(3 ≤ j.kind && j.slot = 1 - k)) ∧
            t.dsp.timerNext = [] ∧ t.dsp.timerPend = [] ∧ opState t Reg.plnOpstat = (if tpl then 1 else 2) ∧
            regBit t Reg.plnEvents 2 = true ∧ SameBut [.regs, .host, .log, .pce, .pln, .vlt, .dsp, .vrd] s t))))) ∧
  (∀ (s : State) (p : Plan), running s 2 → planAt s s.pln.opSlot = some p → s.twn.st = .off → p.templates.length < 65536 →
    let todo := (List.range p.templates.length).filter (fun n =>
      match p.templates[n]? with | some w => tplEnabled w | none => false)
    let from_ := regFld s Reg.plnOpstat 15 0
    Answers (exec .plnSwapEnd s) (fun t => opState t Reg.plnOpstat = (if todo.length ≤ from_ + 1 then 2 else 1) ∧
      regFld t Reg.plnOpstat 15 0 = Nat.max from_ (Nat.min (from_ + 1) todo.length) ∧
      (∀ m, todo[from_]? ≠ some m → getAcc t m = getAcc s m) ∧
      (∀ n, (getAcc s n).st ≠ .vacant → getAcc t n = getAcc s n) ∧
      (∀ n w, todo[from_]? = some n → p.templates[n]? = some w → n < 0x4000 → (getAcc s n).st = .vacant →
        (∀ i, i < 7 → getReg t (accAddr n + 4 * i) = wordAt w i) ∧
        getReg t (accAddr n + 28) = wordAt w 7 &&& 0xFFFFFF#32 ∧
        (((getAcc t n).st = .registered ∧
            getReg t Reg.plnTplStatus = BitVec.ofNat 32 ((getReg s Reg.plnTplStatus).toNat + 1)) ∨
          (getAcc t n = AccEntry.reset ∧
            getReg t Reg.plnTplStatus = BitVec.ofNat 32 ((getReg s Reg.plnTplStatus).toNat + 65536)))) ∧
      SameBut [.regs, .host, .log, .acc] s t)) ∧
  (∀ s : State, s.twn.st = .off →
    (accCountWord s / 65536 ≠ 0 → Answers (exec .withdraw s) (fun t => result t 0x0A24 ∧ Refuses t Reg.plnBase 0x0A24 ∧
      SameRegs [Reg.plnCmdResult, Reg.plnBase + 8] s t ∧ SameBut [.regs] s t)) ∧
    (accCountWord s / 65536 = 0 →
      (liveSlot s = none → Answers (exec .withdraw s) (fun t => result t 0x0A25 ∧ Refuses t Reg.plnBase 0x0A25 ∧
        SameRegs [Reg.plnCmdResult, Reg.plnBase + 8] s t ∧ SameBut [.regs] s t)) ∧
      (∀ k p, liveSlot s = some k → planAt s k = some p → slotActive s (1 - k) = false →
        Answers (exec .withdraw s) (fun t => result t 0 ∧
          let ending : PlanSlot := { planSlot s k with
            st := .retiring
            stop := withdrawEnd s (planSlot s k) p
            retSeq := s.acc.seq }
          (slotBusy s k = true → planSlot t k = ending) ∧
          (slotBusy s k = false → slotDone s ending = true →
            planSlot t k = PlanSlot.reset ∧ regBit t Reg.plnEvents 3 = true ∧
            getReg t Reg.pcePaceTarget = BitVec.ofNat 32 (900 * 65536)) ∧
          planSlot t (1 - k) = planSlot s (1 - k) ∧ t.vlt = { s.vlt with past := t.vlt.past } ∧
          SameBut [.regs, .host, .log, .pce, .pln, .vlt] s t))) ∧
    (∀ k, k < 2 →
      ((planSlot s k).st = .loaded → Answers (exec (.discard k) s) (fun t => result t 0 ∧ planSlot t k = PlanSlot.reset ∧
        planSlot t (1 - k) = planSlot s (1 - k) ∧ SameRegs [Reg.plnCmdResult] s t ∧ SameBut [.regs, .pln] s t)) ∧
      ((planSlot s k).st ≠ .loaded → Answers (exec (.discard k) s) (fun t => result t 0x0A26 ∧
        Refuses t Reg.plnBase 0x0A26 ∧ SameRegs [Reg.plnCmdResult, Reg.plnBase + 8] s t ∧ SameBut [.regs] s t)))) ∧
  (∀ (s : State) (v : Word),
    let k := fld v 1 1
    let held := (planSlot s k).st = .loaded ∨ (planSlot s k).st = .live
    let asked : PlnSt := { s.pln with op := 3, opSlot := k, autoboot := bit v 2, fallback := bit v 3 }
    (opRunning s Reg.plnOpstat = true → Answers (exec (.plnCommit v) s) (fun t => Refuses t Reg.plnBase 0x0AF3 ∧
      SameRegs [Reg.plnBase + 8] s t ∧ SameBut [.regs] s t)) ∧
    (opRunning s Reg.plnOpstat = false → ¬ held → Answers (exec (.plnCommit v) s) (fun t => failed t 0x26 ∧ t.pln = asked ∧
      SameBut [.regs, .host, .log, .pln] s t)) ∧
    (opRunning s Reg.plnOpstat = false → held → Answers (exec (.plnCommit v) s) (fun t => opState t Reg.plnOpstat = 1 ∧
      t.pln = asked ∧ SameBut [.regs, .pln] s t))) ∧
  (∀ (s : State) (ok : Bool) (n : Nat), running s 3 → planAt s s.pln.opSlot = none →
    Answers (exec (.plnCommitEnd ok n) s) (fun t => failed t 0x26 ∧ t.pln = s.pln ∧ SameBut [.regs, .host, .log] s t)) ∧
  (∀ (s : State) (n : Nat) (p : Plan), running s 3 → n < 65536 → planAt s s.pln.opSlot = some p → spare s < 2 →
    (∀ a b, s.pln.sel0 = some a → s.pln.sel1 = some b → a.gen ≠ b.gen) →
    let img := (planSlot s s.pln.opSlot).image
    let kib := Nat.max (regFld s Reg.plnOpstat 15 0) n
    (n < img.length / 1024 → ∀ ok : Bool, Answers (exec (.plnCommitEnd ok n) s) (fun t => opState t Reg.plnOpstat = 1 ∧
      regFld t Reg.plnOpstat 15 0 = kib ∧ area t (spare s) = patch (area s (spare s)) 0 (img.take (1024 * kib)) ∧
      area t (1 - spare s) = area s (1 - spare s) ∧ t.pln.sel0 = s.pln.sel0 ∧ t.pln.sel1 = s.pln.sel1 ∧
      SameRegs [Reg.plnOpstat] s t ∧ SameBut [.regs, .pln] s t)) ∧
    (img.length / 1024 ≤ n →
    let put (t : State) : Prop := area t (spare s) = img ∧ area t (1 - spare s) = area s (1 - spare s) ∧
      planSlot t 0 = planSlot s 0 ∧ planSlot t 1 = planSlot s 1 ∧ SameBut [.regs, .host, .log, .pln] s t
    Answers (exec (.plnCommitEnd false n) s) (fun t => put t ∧ failed t 0x27 ∧ t.pln.sel0 = s.pln.sel0 ∧
      t.pln.sel1 = s.pln.sel1) ∧
    Answers (exec (.plnCommitEnd true n) s) (fun t => put t ∧ opState t Reg.plnOpstat = 2 ∧ regBit t Reg.plnEvents 4 = true ∧
      let gen (r : Option SelRec) : Nat := match r with | some x => x.gen | none => 0
      let r : SelRec := {
        gen := (Nat.max (gen s.pln.sel0) (gen s.pln.sel1) + 1) % 2 ^ 32
        area := spare s
        planId := p.planId
        len := img.length
        autoboot := s.pln.autoboot
        fallback := s.pln.fallback }
      (t.pln.sel0 = some r ∨ t.pln.sel1 = some r) ∧
      (∀ o, selRec s = some o → t.pln.sel0 = some o ∨ t.pln.sel1 = some o))))

/-! ## Dispatch (07_dispatch.md) -/

/-- R203, R243–R262 and Table 7.1: placement of jobs in docents' local slots, and every source that enters a level: the event
FIFO, timers, held Hiash jobs, held landings and doorbells. -/
def Obligations.JobsEnterTheirLevelsAndDocents : Prop :=
  let enters (s t : State) (l : Nat) (j : Job) : Prop := level t l = level s l ++ [j] ∧
    (∀ m, m ≠ l → level t m = level s m)
  (∀ (s : State) (l d : Nat) (j : Job) (r : List Job), enabled s Reg.dspBase = true → enabled s Reg.docBase = true →
    nextPlace s 8 = some (l, j, d, r) → Answers (exec .jobPlace s) (fun t =>
      let k := if (docentOf s d).s0.isNone then 0 else 1
      level t l = r ∧ (∀ m, m ≠ l → level t m = level s m) ∧ slotCtx (docentOf t d) k = some (startCtx j) ∧
      slotCtx (docentOf t d) (1 - k) = slotCtx (docentOf s d) (1 - k) ∧ (∀ e, e ≠ d → docentOf t e = docentOf s e) ∧
      t.doc.iram = s.doc.iram ∧ t.doc.dram = s.doc.dram ∧
      Nat.min (s.raw - j.raised) 0xFFFFFFFF ≤ (getReg t (Reg.dspWaitMax j.priority)).toNat ∧
      SameRegs [Reg.dspWaitMax j.priority] s t ∧ SameBut [.regs, .dsp, .doc] s t)) ∧
  (∀ (s : State) (l : Nat), l < 8 → s.twn.st = .off → levelRoom s l = true →
    (∀ j r, takeLevel s l s.dsp.evFifo = some (j, r) → Answers (exec (.eventFifoRaise l) s) (fun t => enters s t l j ∧
      t.dsp.evFifo = r ∧ Counts s t (Reg.dspCnt l) ∧ SameBut [.regs, .host, .log, .dsp] s t)) ∧
    (fifoHas s l = false →
      (∀ k i n l' x, liveSlot s = some k → pendingTimer s l = some (i, n) → timerLevel s i = some (l', x) → i < 16 →
        Answers (exec (.timerPendingRaise l) s) (fun t => enters s t l (timerJob s k i (n - 1) x.tour) ∧
          smFind t.dsp.timerPend i = none ∧ Counts s t (Reg.dspTimerFired i) ∧ SameBut [.regs, .host, .log, .dsp] s t)) ∧
      (pendingTimer s l = none →
        (∀ j r, takeLevel s l s.dsp.heldHsh = some (j, r) → Answers (exec (.heldHiashJobRaise l) s) (fun t => enters s t l j ∧
          t.dsp.heldHsh = r ∧ Counts s t (Reg.dspCnt l) ∧ SameBut [.regs, .host, .log, .dsp] s t)) ∧
        (hshHas s l = false → ∀ y r x p o n, takeHeld s l s.dsp.heldLand = some (y, r) →
          y.port < 6 ∨ smGet [] s.dsp.localBuf (y.acc - 0x4000) = [] →
          lapsePast s = s →
          let entry := getAcc s y.acc
          let late := tooLate s y.acc y.index
          let gone : Prop := entry.commitSeq ≠ y.commit ∨ entry.st = .vacant ∨ entry.st = .checking ∨
            (entry.st = .retired ∧ ∀ v, getEx s y.index = some v → entry.retireSeq ≤ v.openSeq)
          let twice : Prop := y.port ≠ 7 ∧ duplicate s y.acc y.index = true
          (∀ c, (c = 0x20 ∧ enabled s Reg.accBase = false) ∨ (enabled s Reg.accBase = true ∧
              ((c = 0x29 ∧ s.tim.valid = false) ∨ (s.tim.valid = true ∧ ((c = 0x2C ∧ late = true) ∨
                (late = false ∧ ((c = 0x28 ∧ gone) ∨ (c = 0x2D ∧ ¬ gone ∧ twice))))))) →
            Answers (exec (.heldLandingCommit l) s) (fun t => t.dsp.heldLand = r ∧ Counts s t (Reg.accDisc (c - 0x20)) ∧
              getReg t (Reg.accLastDiscard 0) = BitVec.ofNat 32 (c * 2 ^ 24 + y.port * 65536 + y.acc) ∧
              t.vlt = s.vlt ∧ SameBut [.regs, .host, .log, .que, .eth, .dsp] s t)) ∧
          (enabled s Reg.accBase = true → s.tim.valid = true → late = false → ¬ gone → ¬ twice →
            getEx s y.index = some x → x.index = y.index →
            x.st = .opened → planAt s x.slot = some p → mapSlot p y.acc = some (o, n) →
            (newPages x o n).length ≤ s.vlt.general → Answers (exec (.heldLandingCommit l) s) (fun t =>
              t.dsp.heldLand = r ∧ enters s t l (makeJob s x.slot (bindTour s y.acc) 0 0 y.acc y.index s.vlt.landSeq) ∧
              (∃ z, getEx t y.index = some z ∧ landed z y.acc = true ∧ z.onTime = x.onTime + 1 ∧ z.revision = x.revision ∧
                smGet [] z.slots y.acc = slotBytes y 0 s.vlt.landSeq n ∧ smGet 0 z.landRev y.acc = 0 ∧
                (∀ m, m ≠ y.acc → smGet [] z.slots m = smGet [] x.slots m)) ∧
              (∀ e, e ≠ y.index → getEx t e = getEx s e) ∧ t.vlt.landSeq = (s.vlt.landSeq + 1) % 2 ^ 32 ∧
              t.vlt.general = s.vlt.general - (newPages x o n).length ∧ t.vlt.reserve = s.vlt.reserve ∧
              getAcc t y.acc = { getAcc s y.acc with
                st := if (getAcc s y.acc).st = .registered ∨ (getAcc s y.acc).st = .silent then .live else (getAcc s y.acc).st
                run := 0
                lastLand := s.raw } ∧
              SameBut [.regs, .host, .log, .que, .eth, .acc, .vlt, .dsp, .vrd, .hsh] s t)))))) ∧
  (∀ (s : State) (k i l : Nat) (x : PTimer), liveSlot s = some k → timerLevel s i = some (l, x) → i < 16 → l < 8 →
    s.twn.st = .off →
    let n := nextFiring s k i x
    timeReached s (1000 * (x.phase + x.period * n)) = true →
    let fires (f : State → Prop) : Prop := Answers (exec (.timerFire i) s) (fun t => f t ∧
      smFind t.dsp.timerNext i = some (n + 2) ∧ SameBut [.regs, .host, .log, .dsp] s t)
    (s.tim.valid = false → fires (fun t => Counts s t (Reg.dspCnt 25) ∧ t.dsp.levels = s.dsp.levels)) ∧
    (s.tim.valid = true →
      ((smFind s.dsp.timerPend i).isSome = true → fires (fun t => Counts s t (Reg.dspCnt 24) ∧
        regBit t Reg.dspEvents 2 = true ∧ Logs s t 0x0942 0xFFFF [] ∧ t.dsp.levels = s.dsp.levels)) ∧
      (smFind s.dsp.timerPend i = none → levelOpen s l = true → fires (fun t => enters s t l (timerJob s k i n x.tour) ∧
        Counts s t (Reg.dspTimerFired i) ∧ Counts s t (Reg.dspCnt l))) ∧
      (smFind s.dsp.timerPend i = none → levelOpen s l = false → fires (fun t => smFind t.dsp.timerPend i = some (n + 1) ∧
        levelFull t l = true ∧ t.dsp.levels = s.dsp.levels)))) ∧
  (∀ (s : State) (port tour : Nat), port < 2 → tour < 256 →
    (s.twn.st = .standby ∨ s.twn.st = .taking → Answers (exec (.doorbell port tour) s) (fun t =>
      getReg t (portReg port Reg.dspDoorbellResult) = 0x0705#32 ∧ Refuses t Reg.twnBase 0x0705 ∧ Counts s t (Reg.dspCnt 26) ∧
      regBit t Reg.dspEvents 3 = true ∧ SameBut [.regs, .host, .log] s t)) ∧
    (s.twn.st = .off →
      (doorbellCause s tour ≠ 0 → Answers (exec (.doorbell port tour) s) (fun t =>
        getReg t (portReg port Reg.dspDoorbellResult) = BitVec.ofNat 32 (doorbellCause s tour) ∧
        Refuses t Reg.dspBase (doorbellCause s tour) ∧ Counts s t (Reg.dspCnt 26) ∧ regBit t Reg.dspEvents 3 = true ∧
        SameBut [.regs, .host, .log] s t)) ∧
      (∀ k, doorbellCause s tour = 0 → liveSlot s = some k → tourLevel s k tour < 8 → Answers (exec (.doorbell port tour) s) (fun t =>
        enters s t (tourLevel s k tour)
          (makeJob s k tour 4 0 0xFFFF 0 (getReg s (portReg port Reg.dspDoorbellArg)).toNat) ∧
        getReg t (portReg port Reg.dspDoorbellResult) = 0 ∧ SameBut [.regs, .log, .dsp] s t))))

/-! ## Verdicts and alarms (08_verdicts_and_alarms.md) -/

/-- R267, R268, R272–R282, R284–R286, R289, R295, R296 and Tables 8.2, 8.5, 8.7: the end of a reduction, the keep copy, clearing
of a bank, pulses, latches and forces of the pins, and retransmission of a template. -/
def Obligations.ReductionsBanksAndPins : Prop :=
  (∀ (s : State) (r : Reduction) (rest : List Reduction) (b ns steps : Nat) (p : Plan), s.vrd.queue = r :: rest →
    r.bank = some b → b < 16 → planAt s r.slot = some p → (getBank s b).index = r.index →
    (planSlot s 0).st ≠ .retiring → (planSlot s 1).st ≠ .retiring →
    Answers (exec (.reductionEnd ns steps) s) (fun t =>
      let ls := planLines p
      let cells := (getBank s b).cells
      (∀ i v q, ls[i]? = some v → (evalLines ls cells)[i]? = some q →
        getLine t r.slot i =
          let n := lineNext v (getLine s r.slot i) q
          { n with changes := if n.active = (getLine s r.slot i).active then n.changes else Nat.min 0xFFFFFFFF (n.changes + 1) }) ∧
      getBank t b = { getBank s b with
        st := .keeping
        mask := reviseMask ls (fun i => (getLine t r.slot i).inst && !(getLine t r.slot i).unknown) } ∧
      (∀ c, c ≠ b → getBank t c = getBank s c) ∧ t.vrd.queue = rest ∧ t.vrd.last = r.index ∧
      t.vrd.verdictSrc = verdictParts t ls r.slot ∧ t.vrd.tourSrc = raiseApply s.vrd.tourSrc r.raises ∧
      t.vrd.pinMap = pinMapOf p ∧ t.vrd.rev = s.vrd.rev ∧ t.vrd.waitLga = s.vrd.waitLga ∧
      (∀ x, getEx s r.index = some x → x.index = r.index →
        getEx t r.index = some { x with digest := digestZero t x (some cells), digested := 0 }) ∧
      getReg t (Reg.vrdLast 0) = BitVec.ofNat 32 r.index ∧
      getReg t Reg.vrdReduce = BitVec.ofNat 32 (Nat.min 65535 ns * 65536 + steps % 65536) ∧ Counts s t (Reg.vrdCnt 0) ∧
      SameBut [.regs, .host, .log, .que, .eth, .vlt, .vrd, .hsh, .twn, .cap, .freeCount] s t)) ∧
  (∀ (s : State) (b : Nat), (getBank s b).st = .keeping →
    (∀ v, getEx s (getBank s b).index = some v → v.revision ≤ v.digested) →
    let x := getBank s b
    let kept (t : State) : Prop := getBank t b = { x with st := .clearing } ∧ (∀ c, c ≠ b → getBank t c = getBank s c)
    ((∀ l ∈ s.vrd.waitLga, l.index ≠ x.index) → Answers (exec (.keepSetCopied b) s) (fun t => kept t ∧
      (∀ v p, getEx s x.index = some v → v.st ≠ .sealed → planAt s v.slot = some p → reviseLines p ≠ [] →
        smFind t.vrd.rev x.index = some {
          slot := v.slot
          cells := x.cells.filter (fun c => (keepSet p).contains c.1)
          closeMask := x.mask
          repMask := x.mask }) ∧
      (getEx s x.index = none → t.vrd.rev = s.vrd.rev) ∧ (∀ e, e ≠ x.index → smFind t.vrd.rev e = smFind s.vrd.rev e) ∧
      t.vrd.lines = s.vrd.lines ∧ SameBut [.vrd] s t)) ∧
    (∀ l v p, s.vrd.waitLga = [l] → l.index = x.index → getEx s x.index = some v → v.st ≠ .sealed → planAt s v.slot = some p →
      reviseLines p ≠ [] → (keepSet p).contains l.cell = true → Answers (exec (.keepSetCopied b) s) (fun t => kept t ∧
        t.vrd.waitLga = [] ∧ Counts s t (Reg.vrdCnt 6) ∧ SameBut [.regs, .log, .vrd] s t ∧
        ∃ w, smFind t.vrd.rev x.index = some w ∧ ∀ c, cellOf w.cells c =
          let old := cellOf (x.cells.filter (fun c => (keepSet p).contains c.1)) c
          if c = l.cell then ledgerOp l.op old l.value else old))) ∧
  (∀ (s : State) (b : Nat), (getBank s b).st = .clearing → s.vlt.waitOpen = [] → Answers (exec (.bankCleared b) s) (fun t =>
    getBank t b = Bank.reset ∧ (∀ c, c ≠ b → getBank t c = getBank s c) ∧ t.vrd = { s.vrd with banks := t.vrd.banks } ∧
    SameBut [.vrd] s t)) ∧
  (∀ (s : State) (p u : Nat), smFind s.vrd.pulses p = some u → u ≤ s.raw → Answers (exec (.pinPulseEnd p) s) (fun t =>
    smFind t.vrd.pulses p = none ∧ (∀ q, q ≠ p → smFind t.vrd.pulses q = smFind s.vrd.pulses q) ∧
    t.vrd = { s.vrd with pulses := t.vrd.pulses } ∧ SameBut [.vrd] s t)) ∧
  (∀ (s : State) (v : Word),
    (s.twn.st = .off → Answers (exec (.pinClear v) s) (fun t =>
      (∀ i, t.vrd.latches.testBit i = (s.vrd.latches.testBit i && !(fld v 15 0).testBit i)) ∧
      t.vrd = { s.vrd with latches := t.vrd.latches } ∧ SameBut [.vrd] s t)) ∧
    (s.twn.st = .standby ∨ s.twn.st = .taking → Answers (exec (.pinClear v) s) (fun t => Refuses t Reg.twnBase 0x0704 ∧
      SameRegs [Reg.twnBase + 8] s t ∧ SameBut [.regs] s t)) ∧
    (fld v 31 16 = 0 → Answers (exec (.pinForce v) s) (fun t => getReg t Reg.vrdPinForce = v ∧
      SameRegs [Reg.vrdPinForce] s t ∧ SameBut [.regs] s t)) ∧
    (fld v 31 16 ≠ 0 → Answers (exec (.pinForce v) s) (fun t => getReg t Reg.vrdPinForce = v ∧ Counts s t (Reg.vrdCnt 13) ∧
      regBit t Reg.vrdEvents 6 = true ∧ Logs s t 0x0842 0xFFFF [] ∧ SameBut [.regs, .host, .log] s t))) ∧
  (∀ (s : State) (i : Nat) (x : TplState), smFind s.vrd.tpl i = some x → x.nextAt ≤ s.raw → s.twn.st = .off →
    let tp := templateWith x.elem x.body
    let iv := Nat.min (2 * x.interval) (tMax tp)
    let y : TplState := { x with sqNum := next1 x.sqNum, interval := iv, nextAt := x.nextAt + 1000000 * iv }
    ((tp.gmac = true → keyUsable s 1 = true) → Answers (exec (.gooseRetransmit i) s) (fun t =>
      smFind t.vrd.tpl i = some { y with spdu := if tp.kind = 1 then (x.spdu + 1) % 2 ^ 32 else x.spdu } ∧
      Counts s t (Reg.vrdCnt 10) ∧ t.vrd = { s.vrd with tpl := t.vrd.tpl } ∧
      SameBut [.regs, .host, .log, .que, .eth, .vrd, .freeCount] s t)) ∧
    (tp.gmac = true → keyUsable s 1 = false → Answers (exec (.gooseRetransmit i) s) (fun t => smFind t.vrd.tpl i = some y ∧
      Counts s t (Reg.vrdCnt 11) ∧ regBit t Reg.vrdEvents 5 = true ∧ t.vrd = { s.vrd with tpl := t.vrd.tpl } ∧
      SameBut [.regs, .host, .log, .vrd] s t)))

/-! ## The Hiash link (09_hiash_link.md) -/

/-- R301, R305–R308, R311, R317, R320, R321, R325–R327, R330–R333, R478 and Table 9.2: what each kind of received message
does, its tests and its relaying; HELLO, the absence table and the relay table. -/
def Obligations.MessagesAreTestedDeliveredAndRelayed : Prop :=
  let rx : List (Nat × (Nat → Bool → Instr)) := [(1, .urgentAlarmReceived), (2, .urgentTriggerReceived),
    (3, .absenceDigestReceived), (4, .exhibitCloseReceived), (5, .exhibitSealedReceived), (6, .addendumReceived),
    (7, .archiveMessageReceived), (8, .helloReceived), (9, .dupNoticeReceived), (10, .controlMessageReceived)]
  let left (s t : State) (p : Nat) (k : Packet) (r : List Packet) : Prop := (getQ t p).pkts = r ∧
    (getQ t p).held = (getQ s p).held - cellsFor k.data.length ∧ Counts s t (Reg.queCnt 1)
  let atHead (s : State) (p : Nat) (k : Packet) (r : List Packet) (row : Nat) : Prop := p < 6 ∧ (getQ s p).pkts = k :: r ∧
    (∀ h ∈ s.dsp.heldLand, h.port ≠ p) ∧ rowOf s k = row
  let stays (s : State) (m : HMsg) : Prop := (hshTopo s = 0 ∧ treeUp s m = false) ∨ (hshTopo s ≠ 0 ∧ m.dst ≠ 0xFFFF)
  let heard (s : State) (k : Packet) (auth : Bool) (f : RxFrame) (m : HMsg) : Prop := enabled s 0xEC000 = true ∧
    hiashOf s k.data = some f ∧ m = hmsgParse f.payload ∧ hshFail s f.payload m auth = none ∧ originDup s k m = s ∧
    s.twn.st = .off ∧ (∀ slot tour, tourLevel s slot tour < 8)
  let delivered (s t : State) : Prop := t.hsh = { s.hsh with delivered := s.hsh.delivered + 1 }
  (∀ (s : State) (p : Nat) (k : Packet) (r : List Packet) (auth : Bool), ∀ x ∈ rx, atHead s p k r x.1 →
    enabled s 0xEC000 = false → Answers (exec (x.2 p auth) s) (fun t => left s t p k r ∧ Counts s t (Reg.ethParseCnt 2) ∧
      SameBut [.regs, .host, .log, .que, .eth] s t)) ∧
  (∀ (s : State) (p c : Nat) (k : Packet) (r : List Packet) (auth : Bool) (f : RxFrame), ∀ x ∈ rx, x.1 ≠ 4 → x.1 ≠ 6 →
    atHead s p k r x.1 → enabled s 0xEC000 = true → hiashOf s k.data = some f →
    hshFail s f.payload (hmsgParse f.payload) auth = some c → c ≠ 9 → c ≠ 13 →
    Answers (exec (x.2 p auth) s) (fun t => left s t p k r ∧ Counts s t (Reg.hshCnt c) ∧
      SameBut [.regs, .host, .log, .que, .eth] s t)) ∧
  (∀ (s : State) (p : Nat) (k : Packet) (r : List Packet) (auth : Bool) (f : RxFrame) (m : HMsg), heard s k auth f m →
    hshOnline s = true →
    (∀ x ∈ rx, x.1 = 1 ∨ x.1 = 5 ∨ x.1 = 7 ∨ x.1 = 10 → atHead s p k r x.1 →
      (mine s m = true → stays s m → Answers (exec (x.2 p auth) s) (fun t =>
        let b := getReg s (Reg.hshBind (m.cls - 1))
        let q := regFld s Reg.hshRxQueue 10 0
        let n := (s.hsh.delivered + 1) % 65536
        let bytes := leBytes 4 (k.port * 65536 + n) ++ leBytes 8 k.arrival ++ leBytes 4 0 ++ hmsgRaw f.payload m
        left s t p k r ∧ delivered s t ∧ Counts s t (Reg.hshCnt 6) ∧
        (bit b 30 = true → copyRoom s q (16 + (hmsgRaw f.payload m).length) = true →
          (getQ t q).pkts = (getQ s q).pkts ++
            [{ source := 0x10, port := k.port, arrival := k.arrival, sub := 0, data := bytes }]) ∧
        (∀ l d, bit b 31 = true → liveSlot s = some l → planAt s l = some d → tourKind d (fld b 7 0) 5 = true →
          levelOpen s (tourLevel s l (fld b 7 0)) = true →
          level t (tourLevel s l (fld b 7 0)) = level s (tourLevel s l (fld b 7 0)) ++
            [makeJob s l (fld b 7 0) 5 0 0xFFFF 0 (m.origin * 65536 + n)]) ∧
        (bit b 31 = false → t.dsp = s.dsp) ∧ SameBut [.regs, .host, .log, .que, .eth, .dsp, .hsh] s t)) ∧
      (mine s m = false → hshTopo s = 0 → Answers (exec (x.2 p auth) s) (fun t => left s t p k r ∧
        Counts s t (Reg.hshCnt 14) ∧ SameBut [.regs, .host, .log, .que, .eth] s t)) ∧
      (mine s m = false → hshTopo s ≠ 0 →
        (m.hops = 0 → Answers (exec (x.2 p auth) s) (fun t => left s t p k r ∧ Counts s t (Reg.hshCnt 15) ∧
          SameBut [.regs, .host, .log, .que, .eth] s t)) ∧
        (m.hops ≠ 0 → m.origin ≠ hshId s → s.hsh.relayed.contains (m.origin, m.cls, m.seq) = true →
          Answers (exec (x.2 p auth) s) (fun t => left s t p k r ∧ Counts s t (Reg.hshCnt 17) ∧
            SameBut [.regs, .host, .log, .que, .eth] s t)) ∧
        (m.hops ≠ 0 → m.origin ≠ hshId s → s.hsh.relayed.contains (m.origin, m.cls, m.seq) = false →
          relayPorts s k.port false ≠ [] → Answers (exec (x.2 p auth) s) (fun t => (getQ t p).pkts = r ∧ Counts s t (Reg.hshCnt 7) ∧
            t.hsh = { s.hsh with relayed := ((m.origin, m.cls, m.seq) :: s.hsh.relayed).take 256 } ∧
            SameBut [.regs, .host, .log, .que, .eth, .hsh, .freeCount] s t)))) ∧
    (mine s m = true → stays s m →
      (atHead s p k r 2 → bit (getReg s (Reg.hshBind 0)) 31 = false → bit (getReg s (Reg.hshBind 0)) 30 = false →
        let inst := if s.tim.valid then rawOfTai s (le m.body 4 8) else s.raw
        (le m.body 0 1 % 16 &&& regFld s Reg.capRemote 27 24 = 0 ∨ enabled s Reg.capBase = false →
          Answers (exec (.urgentTriggerReceived p auth) s) (fun t => left s t p k r ∧ delivered s t ∧
            Counts s t (Reg.hshCnt 6) ∧ SameBut [.regs, .host, .log, .que, .eth, .hsh] s t)) ∧
        (∀ o, le m.body 0 1 % 16 &&& regFld s Reg.capRemote 27 24 ≠ 0 → enabled s Reg.capBase = true →
          regBit s Reg.capSrcEn 6 = true → s.cap.cur = some o → s.cap.st ≠ .idle → s.cap.st ≠ .halted →
          s.cap.lastEnd ≤ inst → regFld s Reg.capBus 31 28 = 0 → regFld s Reg.capRemote 15 8 = 0 →
          Answers (exec (.urgentTriggerReceived p auth) s) (fun t => left s t p k r ∧ delivered s t ∧
            Counts s t (Reg.hshCnt 6) ∧ Counts s t (Reg.capCnt 1) ∧ Counts s t (Reg.capCnt 6) ∧
            t.cap = { s.cap with cur := some { o with
              latest := Nat.max o.latest inst
              sources := o.sources ||| 2 ^ 6
              triggers := Nat.min 65535 (o.triggers + 1) } } ∧
            SameBut [.regs, .host, .log, .que, .eth, .hsh, .cap] s t))) ∧
      (atHead s p k r 3 →
        let kind := le m.body 2 1 % 4
        let id := le m.body 0 2
        let first := le m.body 4 4 + le m.body 8 2 * 2 ^ 32
        let rate := le m.body 0xA 1
        let took (t : State) : Prop := left s t p k r ∧ t.hsh.delivered = s.hsh.delivered + 1 ∧ Counts s t (Reg.hshCnt 6) ∧
          Counts s t (Reg.hshCnt 19) ∧ SameBut [.regs, .host, .log, .que, .eth, .dsp, .hsh, .freeCount] s t
        (∀ n e, kind < 2 → absFind s kind id = some (n, e) → Answers (exec (.absenceDigestReceived p auth) s) (fun t => took t ∧
          Counts s t (Reg.hshCnt 20) ∧ smFind t.hsh.abs n = some (absRepeat s e first rate 1) ∧
          (∀ i, i ≠ n → smFind t.hsh.abs i = smFind s.hsh.abs i))) ∧
        (∀ n, kind < 2 → absFind s kind id = none → absFree s = some n →
          Answers (exec (.absenceDigestReceived p auth) s) (fun t => took t ∧ regBit t Reg.hshEvents 0 = true ∧
            smFind t.hsh.abs n = some {
              kind := kind
              id := id
              first := first
              rate := rate
              origin := m.origin
              repeats := 0
              isLocal := false
              forwarded := hshUpId s != 0
              last := s.raw } ∧
            (∀ i, i ≠ n → smFind t.hsh.abs i = smFind s.hsh.abs i))) ∧
        (∀ n, (kind = 2 ∧ n = le m.body 0xC 2) ∨ (kind < 2 ∧ absFind s kind id = none ∧ absFree s = none ∧ n = 1) →
          s.hsh.overEp = none → Answers (exec (.absenceDigestReceived p auth) s) (fun t => took t ∧
            regBit t Reg.hshEvents 1 = true ∧ t.hsh.abs = s.hsh.abs ∧
            ∃ o, t.hsh.overEp = some o ∧ o.windowStart = s.raw ∧ o.taken = n ∧ o.entry.kind = 2 ∧ o.entry.first = first ∧
              o.entry.rate = rate ∧ o.entry.origin = m.origin ∧
              o.entry.repeats = if kind = 2 then Nat.min 65535 n else 0))) ∧
      (atHead s p k r 8 → (∀ h ∈ s.hsh.hellos, h.id ≠ m.origin) → Answers (exec (.helloReceived p auth) s) (fun t =>
        let uid := le m.body 0 8
        let dup := m.origin = hshId s ∧ uid ≠ ownUid
        left s t p k r ∧ Counts s t (Reg.hshCnt 6) ∧
        t.hsh.hellos = { id := m.origin, uid := uid, join := le m.body 8 8, port := k.port, mac := slice k.data 6 6, heard := s.raw } ::
          s.hsh.hellos.filter (fun h => s.raw < h.heard + 3000000000) ∧
        (dup → getReg t Reg.hshDupInfo = BitVec.ofNat 32 m.origin ∧
          getReg64 t (Reg.hshDupUid 0) (Reg.hshDupUid 1) = uid % 2 ^ 64 ∧ regBit t Reg.hshEvents 2 = true ∧
          t.hsh.dupSeen = s.raw + 1 ∧ t.hsh.silent = joinLater s.hsh.join ownUid (le m.body 8 8) uid) ∧
        (¬ dup → t.hsh.silent = false ∧ t.hsh.dupSeen = s.hsh.dupSeen) ∧
        SameBut [.regs, .host, .log, .que, .eth, .hsh] s t)) ∧
      (∀ h, atHead s p k r 8 → s.hsh.hellos = [h] → s.raw < h.heard + 3000000000 → h.id = m.origin → m.origin ≠ hshId s →
        h.uid ≠ le m.body 0 8 → Answers (exec (.helloReceived p auth) s) (fun t => (getQ t p).pkts = r ∧
          t.hsh.dupSeen = s.raw + 1 ∧ t.hsh.silent = false ∧ t.hsh.hellos.length = 2 ∧
          (hshTagOk s = true → Counts s t (Reg.hshCnt 4) ∧ smGet 0 t.hsh.seq 5 = (nextSeq s 5 + 1) % 2 ^ 32) ∧
          SameBut [.regs, .host, .log, .que, .eth, .hsh, .freeCount] s t)) ∧
      (atHead s p k r 9 → Answers (exec (.dupNoticeReceived p auth) s) (fun t =>
        left s t p k r ∧ Counts s t (Reg.hshCnt 6) ∧ t.hsh.delivered = s.hsh.delivered + 1 ∧
        (le m.body 0 8 = ownUid → t.hsh.silent = true ∧ t.hsh.dupSeen = s.raw + 1 ∧ regBit t Reg.hshEvents 3 = true ∧
          getReg t Reg.hshDupInfo = BitVec.ofNat 32 (le m.body 16 2)) ∧
        (le m.body 0 8 ≠ ownUid → le m.body 8 8 = ownUid → t.hsh.silent = false ∧ t.hsh.dupSeen = s.raw + 1 ∧
          regBit t Reg.hshEvents 2 = true ∧ getReg t Reg.hshDupInfo = BitVec.ofNat 32 (le m.body 16 2)) ∧
        (le m.body 0 8 ≠ ownUid → le m.body 8 8 ≠ ownUid → delivered s t) ∧
        SameBut [.regs, .host, .log, .que, .eth, .hsh] s t)))) ∧
  (∀ (s : State) (p : Nat) (k : Packet) (r : List Packet) (auth : Bool) (f : RxFrame) (m : HMsg),
    atHead s p k r 4 ∨ atHead s p k r 6 → enabled s 0xEC000 = true → hiashOf s k.data = some f → m = hmsgParse f.payload →
    hshOnline s = true → m.dst = hshId s → m.dst ≠ 0xFFFF → m.flags.testBit 0 = false → originDup s k m = s → s.twn.st = .off →
    let i : Instr := if rowOf s k = 4 then .exhibitCloseReceived p auth else .addendumReceived p auth
    let thrown (cause : Nat) : Prop := Answers (exec i s) (fun t => left s t p k r ∧ Counts s t (Reg.accDisc (cause - 0x20)) ∧
      getReg t (Reg.accLastDiscard 0) = BitVec.ofNat 32 (cause * 2 ^ 24 + k.port * 65536 + 0xFFFF) ∧
      getReg64 t (Reg.accLastDiscard 2) (Reg.accLastDiscard 3) = k.arrival % 2 ^ 64 ∧
      SameBut [.regs, .host, .log, .que, .eth] s t)
    (enabled s Reg.accBase = true → hmsgCrcBad f.payload = true → thrown 0x21) ∧
    (enabled s Reg.accBase = true → hmsgCrcBad f.payload = false → hmsgAuthBad s m auth = true → thrown 0x25) ∧
    (∀ acc pl e, enabled s Reg.accBase = true → hmsgCrcBad f.payload = false → hmsgAuthBad s m auth = false →
      le f.payload 0 1 = 1 → identFind s (rxKey f m.origin (if f.udp then 2 else 3)) = some acc → hmsgFits f.payload = true →
      le m.body 0 1 = fld (accFmt s acc) 22 16 → le m.body 1 1 = fld (accFmt s acc) 15 11 →
      m.body.length = 24 + 8 * le m.body 0 1 + 4 * le m.body 1 1 + 8 * le m.body 2 1 → s.tim.valid = true →
      lapsePast s = s → ratePlan s = some pl → rateTests s acc (m.time : Int) = (e, 0) →
      indexTests s acc e false true = 0 → duplicate s acc e = false →
      let v : Landing := { bodyValues (accFmt s acc) m.body with
        acc := acc, port := k.port, arrival := k.arrival, sub := k.sub, index := e,
        offset := (m.time : Int) - (exhibitTime pl.baseRate e : Int),
        arrived := selTime8 s (8 * k.arrival + k.sub), commit := (getAcc s acc).commitSeq }
      (rowOf s k = 4 → exec i s = .next (takeHead (reserveLand s v) p k)) ∧
      (rowOf s k = 6 → exec i s = .next (takeHead (relayAddendum (reserveLand s v) k f m) p k)))) ∧
  (∀ s : State, (∀ u, s.hsh.helloAt = some u → u + 1000000 * regFld s Reg.hshHello 15 0 ≤ s.raw) →
    let dst := if hshTopo s = 0 then hshUpId s else 0xFFFF
    (dst = 0 → Answers (exec .helloSend s) (fun t => t.hsh = { s.hsh with helloAt := some s.raw } ∧ SameBut [.hsh] s t)) ∧
    (dst ≠ 0 → hshOnline s = true → hshTagOk s = true → Answers (exec .helloSend s) (fun t =>
      t.hsh = { s.hsh with helloAt := some s.raw, seq := t.hsh.seq } ∧ smGet 0 t.hsh.seq 5 = (nextSeq s 5 + 1) % 2 ^ 32 ∧
      (∀ c, c ≠ 5 → smGet 0 t.hsh.seq c = smGet 0 s.hsh.seq c) ∧ Counts s t (Reg.hshCnt 4) ∧
      SameBut [.regs, .host, .log, .que, .eth, .hsh, .freeCount] s t))) ∧
  (∀ (s : State) (n : Nat) (e : AbsEntry), smFind s.hsh.abs n = some e → e.last + absWindowNs s ≤ s.raw →
    Answers (exec (.absenceEntryFree n) s) (fun t => smFind t.hsh.abs n = none ∧
      (∀ i, i ≠ n → smFind t.hsh.abs i = smFind s.hsh.abs i) ∧ t.hsh = { s.hsh with abs := t.hsh.abs } ∧ SameBut [.hsh] s t)) ∧
  (∀ (s : State) (o : Overflow), s.hsh.overEp = some o → o.windowStart + absWindowNs s ≤ s.raw →
    (0 < o.taken → Answers (exec .absenceOverflowWindow s) (fun t =>
      t.hsh.overEp = some { o with windowStart := o.windowStart + absWindowNs s, taken := 0 } ∧ t.hsh.abs = s.hsh.abs ∧
      (hshUpId s = 0 → SameBut [.hsh] s t) ∧ SameBut [.regs, .host, .log, .que, .eth, .hsh, .twn, .freeCount] s t)) ∧
    (o.taken = 0 → Answers (exec .absenceOverflowWindow s) (fun t => SameBut [.hsh] s t ∧ t.hsh = { s.hsh with
      overEp := if (absFree s).isSome then none else some { o with windowStart := o.windowStart + absWindowNs s } }))) ∧
  (∀ s : State,
    Answers (exec .relayEntryFree s) (fun t => SameBut [.hsh] s t ∧
      t.hsh = { s.hsh with relayTab := s.hsh.relayTab.filter (fun r => s.raw < r.2.2.2 + absWindowNs s) }) ∧
    Answers (exec .absenceClear s) (fun t => t.hsh = { s.hsh with abs := [], overEp := none } ∧ SameBut [.hsh] s t))

/-! ## The archive engine (16_archive_compression.md) -/

/-- R481, R484–R486, R488–R490, R492, R493, R495–R497 and Table 16.2: a block of the stream starts, waits and commits; a host job
is checked, stopped and ends: SAVE, RESTORE, DECOMPRESS, COMPRESS. The compressor's own choice of bits is an operand: the
model's choice (log entry 2), held to what the verifier accepts. -/
def Obligations.ArchiveBlocksAndHostJobs : Prop :=
  let failed (t : State) (c : Nat) : Prop := opState t Reg.arcJobOpstat = 3 ∧ regFld t Reg.arcJobOpstat 23 16 = c ∧
    Refuses t Reg.arcBase (0x0C00 + c)
  let wrote (m m' : SMap Byte) (a : Nat) (bs : List Byte) : Prop := ∀ i, smGet 0#8 m' i =
    if a ≤ i ∧ i < a + bs.length then (match bs[i - a]? with | some b => b | none => 0#8) else smGet 0#8 m i
  (∀ (s : State) (e : Nat) (rest : List Nat) (x : Exhibit) (p : Plan), s.arc.cur = none → s.arc.waiting = e :: rest →
    getEx s e = some x → planAt s x.slot = some p → arcStreamOn s = true → Answers (exec .archiveBlockStart s) (fun t =>
      let first := decide (s.arc.runLeft = 0)
      t.arc.waiting = rest ∧ t.arc.cur = some e ∧ t.arc.curReset = first ∧ t.arc.serial = serialise p x (regBit s Reg.arcCfg 27) ∧
      t.arc.runLeft = (if first then regFld s Reg.arcCfg 15 0 else s.arc.runLeft) ∧
      arcSlot t 0 = (if first then { ArcSlot.reset with op := 1, zlib := regBit s Reg.arcCfg 28 } else arcSlot s 0) ∧
      (∀ k, k ≠ 0 → arcSlot t k = arcSlot s k) ∧ SameBut [.arc] s t)) ∧
  (∀ (s : State) (pay : List Byte) (e : Nat) (x : Exhibit), s.arc.cur = some e → getEx s e = some x → x.index = e →
    let auth := regBit s Reg.arcCfg 26
    let n := 32 + pay.length + (if auth then 16 else 0)
    let last := decide (s.arc.runLeft = 1)
    let chk := streamCheck s pay last
    let seq := if s.arc.started then ((getReg s Reg.arcBlockSeq).toNat + 1) % 2 ^ 32 else 0
    let flags := b2n s.arc.curReset + 2 * b2n (regBit s Reg.arcCfg 28) + 4 * b2n (regBit s Reg.arcCfg 27) + 8 * b2n (!chk.1) +
      16 * b2n last + 32 * b2n auth
    let h := arcHeader flags x.revision e s.arc.serial.length pay.length seq
    let base := getReg64 s (Reg.arcRingBase 0) (Reg.arcRingBase 1)
    let place := arcPlace s n
    let wp := (getReg s Reg.arcRingWp).toNat
    let ready := (auth = true → keyUsable s 4 = true) ∧ (arcTarget s = 0 → s.host.busMaster = true) ∧
      (arcTarget s < 2 → n ≤ arcRingLen s)
    (¬ ready → exec (.archiveBlockCommit pay) s = .next s) ∧
    (ready → arcTarget s = 0 → arcBlocked s n = true → s.arc.ringWait = false → Answers (exec (.archiveBlockCommit pay) s) (fun t =>
      t.arc = { s.arc with ringWait := true } ∧ Counts s t (Reg.arcCnt 4) ∧ SameBut [.regs, .log, .arc] s t)) ∧
    (ready → (arcTarget s = 0 → arcBlocked s n = false) → Answers (exec (.archiveBlockCommit pay) s) (fun t =>
      t.arc.cur = none ∧ t.arc.serial = [] ∧ t.arc.ringWait = false ∧ t.arc.started = true ∧ t.arc.waiting = s.arc.waiting ∧
      t.arc.runLeft = (if chk.1 then s.arc.runLeft - 1 else 0) ∧
      t.arc.blocks = (if s.arc.curReset then 1 else s.arc.blocks + 1) ∧ arcSlot t 0 = chk.2 ∧
      getReg t Reg.arcBlockSeq = BitVec.ofNat 32 seq ∧ Counts s t (Reg.arcCnt 0) ∧
      getReg64 t (Reg.arcInBytes 0) (Reg.arcInBytes 1) =
        (getReg64 s (Reg.arcInBytes 0) (Reg.arcInBytes 1) + s.arc.serial.length) % 2 ^ 64 ∧
      getReg64 t (Reg.arcOutBytes 0) (Reg.arcOutBytes 1) =
        (getReg64 s (Reg.arcOutBytes 0) (Reg.arcOutBytes 1) + pay.length) % 2 ^ 64 ∧
      (chk.1 = false → Counts s t (Reg.arcCnt 1) ∧ regBit t Reg.arcEvents 1 = true) ∧
      getEx t e = some { x with outflow := x.outflow &&& 2 } ∧ (∀ k, k ≠ e → getEx t k = getEx s k) ∧
      (arcTarget s < 2 → getReg t Reg.arcRingWp = BitVec.ofNat 32 ((place.1 + n) % arcRingLen s) ∧
        ∃ tag : List Byte, tag.length = (if auth then 16 else 0) ∧
          let bs := h ++ leBytes 4 (crc32c (h ++ pay ++ tag)) ++ pay ++ tag
          let old := if arcTarget s = 1 then s.host.ddr else s.host.hostMem
          let new := if arcTarget s = 1 then t.host.ddr else t.host.hostMem
          ∀ i, smGet 0#8 new i =
            if base + place.1 ≤ i ∧ i < base + place.1 + n then
              (match bs[i - (base + place.1)]? with | some b => b | none => 0#8)
            else if base + wp ≤ i ∧ i < base + wp + place.2 then 0#8 else smGet 0#8 old i) ∧
      (arcTarget s ≠ 1 → t.host.ddr = s.host.ddr) ∧ (arcTarget s ≠ 0 → t.host.hostMem = s.host.hostMem) ∧
      SameBut [.regs, .host, .log, .que, .eth, .vlt, .hsh, .arc, .twn, .freeCount] s t))) ∧
  (∀ (s : State) (port : Nat), port < 2 →
    ∀ x ∈ [(1, Instr.arcCompress port), (2, Instr.arcDecompress port), (3, Instr.arcSave port), (4, Instr.arcRestore port)],
      let ws := (List.range 8).map (fun k => getReg s (portReg port (0xB0040 + 4 * k)))
      let w := getReg s (portReg port 0xB0040)
      let u : State := { s with arc := { s.arc with job := ws, jobPort := port, jobOp := x.1, jobSlot := fld w 25 24 } }
      (portJobOp s port ≠ x.1 → exec x.2 s = .next s) ∧
      (portJobOp s port = x.1 → opRunning s Reg.arcJobOpstat = true → Answers (exec x.2 s) (fun t =>
        Refuses t Reg.arcBase 0x0CF3 ∧ SameRegs [Reg.arcBase + 8] s t ∧ SameBut [.regs] s t)) ∧
      (portJobOp s port = x.1 → opRunning s Reg.arcJobOpstat = false → Answers (exec x.2 s) (fun t => t.arc = u.arc ∧
        Counts s t (Reg.arcCnt 5) ∧ getReg t Reg.arcJobRes = BitVec.ofNat 32 (fld w 25 24) ∧ getReg t Reg.arcInDone = 0 ∧
        getReg t Reg.arcOutDone = 0 ∧ (arcJobCheck u = 0 → opState t Reg.arcJobOpstat = 1) ∧
        (arcJobCheck u ≠ 0 → failed t (arcJobCheck u)) ∧ SameBut [.regs, .log, .arc] s t))) ∧
  (∀ s : State,
    (opRunning s Reg.arcJobOpstat = true → Answers (exec .arcJobStop s) (fun t => opState t Reg.arcJobOpstat = 4 ∧
      SameRegs [Reg.arcJobOpstat] s t ∧ SameBut [.regs] s t)) ∧
    (opRunning s Reg.arcJobOpstat = false → Answers (exec .arcJobStop s) (fun t => Refuses t Reg.arcBase 0x0CF4 ∧
      SameRegs [Reg.arcBase + 8] s t ∧ SameBut [.regs] s t))) ∧
  (∀ (s : State) (src : List Byte) (emit : List Bool) (busErr : Bool), opRunning s Reg.arcJobOpstat = true →
    s.host.busMaster = true → 1 ≤ s.arc.jobOp → s.arc.jobOp ≤ 4 →
    let w := jobW s 0
    let k := s.arc.jobSlot
    let hostSrc := s.arc.jobOp ≠ 3 ∧ bit w 17 = false
    let n := (jobW s 3).toNat
    let cap := (jobW s 6).toNat
    let data := jobSrc s src n
    let ends (f : State → Prop) : Prop := Answers (exec (.arcJobEnd src emit busErr) s) (fun t => f t ∧
      (∀ j, j ≠ k → arcSlot t j = arcSlot s j) ∧ regBit t Reg.arcEvents 0 = true ∧ SameBut [.regs, .host, .log, .arc] s t)
    let fails (c : Nat) : Prop := ends (fun t => failed t c ∧ arcSlot t k = ArcSlot.reset)
    let stores (t : State) (bs : List Byte) : Prop :=
      wrote (if bit w 16 then s.host.ddr else s.host.hostMem) (if bit w 16 then t.host.ddr else t.host.hostMem) (jobOf64 s 4) bs ∧
      (if bit w 16 then t.host.hostMem else t.host.ddr) = (if bit w 16 then s.host.hostMem else s.host.ddr)
    let ended (t : State) (outcome inDone outDone pend : Nat) : Prop := opState t Reg.arcJobOpstat = 2 ∧
      getReg t Reg.arcJobRes = BitVec.ofNat 32 (outcome * 2 ^ 28 + k) ∧ getReg t Reg.arcInDone = BitVec.ofNat 32 inDone ∧
      getReg t Reg.arcOutDone = BitVec.ofNat 32 outDone ∧ getReg t Reg.arcPend = BitVec.ofNat 32 (pend % 2048)
    (busErr = true → hostSrc → fails 0x04) ∧
    (¬ (busErr = true ∧ hostSrc) →
      (s.arc.jobOp = 3 → ends (fun t => ended t 0 0 36864 0 ∧ stores t (slotImage (arcSlot s k)) ∧ arcSlot t k = arcSlot s k)) ∧
      (s.arc.jobOp = 4 →
        let b := jobSrc s src 36864
        (crc32c (b.take 36860) = le b 36860 4 → ends (fun t => ended t 0 36864 0 0 ∧ arcSlot t k = imageSlot b ∧
          t.host.ddr = s.host.ddr ∧ t.host.hostMem = s.host.hostMem)) ∧
        (crc32c (b.take 36860) ≠ le b 36860 4 → fails 0x07)) ∧
      (s.arc.jobOp = 2 →
        let sl := if bit w 23 then arcSlot s k else { ArcSlot.reset with op := 2, zlib := bit w 21 }
        let x0 := infLoad sl data cap (if guardOn s then some (regFld s Reg.arcGuard 10 0) else none)
        let r := infRun (infFuel x0) x0
        let spare := Nat.min data.length (r.2.bits.length / 8)
        (∀ c, r.1 = .err c → c < 256 → ends (fun t => failed t c ∧ arcSlot t k = ArcSlot.reset ∧ stores t r.2.out.reverse ∧
          getReg t Reg.arcErrPos = BitVec.ofNat 32 (infErrPos r.2) ∧
          getReg t Reg.arcOutDone = BitVec.ofNat 32 r.2.out.length ∧ Counts s t (Reg.arcCnt 6) ∧
          (c = 0x1B → Counts s t (Reg.arcCnt 7) ∧ regBit t Reg.arcEvents 3 = true))) ∧
        (∀ c, (r.1 = .full ∧ c = 2) ∨ (r.1 = .stop ∧ c = 1) → ends (fun t =>
          ended t c (data.length - spare) r.2.out.length 0 ∧ stores t r.2.out.reverse ∧
          (arcSlot t k).hist = r.2.hist.reverse ∧ (arcSlot t k).inf = r.2.st ∧
          (arcSlot t k).inTotal = sl.inTotal + (data.length - spare) ∧
          (arcSlot t k).outTotal = sl.outTotal + r.2.out.length))) ∧
      (s.arc.jobOp = 1 → bit w 20 = false →
        let fresh := bit w 23 = false
        let sl := if bit w 23 then arcSlot s k else { ArcSlot.reset with op := 1, zlib := bit w 21 }
        let r := arcVerify { sl with bits := [] } sl.bits.length emit (data.length + 1)
        let all := sl.bits ++ emit
        let goodHead := fresh → bit w 21 = true → 16 ≤ emit.length → bitsVal (emit.take 16) = 0x5E78
        let bytes := if bit w 22 then ceilDiv all.length 8 else all.length / 8
        (goodHead → (∃ c, r.1 = .err c) ∨ r.2.out.reverse ≠ data.take r.2.out.length → fails 0x20) ∧
        (goodHead → (∀ c, r.1 ≠ .err c) → r.2.out.reverse = data → r.2.bits = [] → (bit w 22 = true → r.2.st = .ended) →
          bytes ≤ cap → ends (fun t =>
            let pend := if bit w 22 then [] else all.drop (8 * bytes)
            ended t 1 data.length bytes pend.length ∧ stores t (bytesOfBits bytes all) ∧ (arcSlot t k).bits = pend ∧
            (arcSlot t k).hist = r.2.hist.reverse ∧ (arcSlot t k).inf = r.2.st ∧
            (arcSlot t k).inTotal = sl.inTotal + data.length ∧ (arcSlot t k).outTotal = sl.outTotal + bytes ∧
            getReg64 t (Reg.arcInBytes 0) (Reg.arcInBytes 1) =
              (getReg64 s (Reg.arcInBytes 0) (Reg.arcInBytes 1) + data.length) % 2 ^ 64 ∧
            getReg64 t (Reg.arcOutBytes 0) (Reg.arcOutBytes 1) =
              (getReg64 s (Reg.arcOutBytes 0) (Reg.arcOutBytes 1) + bytes) % 2 ^ 64)))))

/-! ## The twin pair (18_twin.md) -/

/-- R518, R520–R523, R525–R530 and Table 18.3: the replay stream as a standby applies it, digests, HELLO and TAKEN, takeover and
its gap, the heartbeat, deferral and DEMOTE. Where a replayed job waits for its level is the model's choice (log entry 33). -/
def Obligations.TwinReplaysAndTakesOver : Prop :=
  let left (s t : State) (p : Nat) (k : Packet) (r : List Packet) : Prop := (getQ t p).pkts = r ∧
    (getQ t p).held = (getQ s p).held - cellsFor k.data.length ∧ Counts s t (Reg.queCnt 1)
  let atHead (s : State) (p : Nat) (k : Packet) (r : List Packet) (row : Nat) : Prop := p < 6 ∧ (getQ s p).pkts = k :: r ∧
    (∀ h ∈ s.dsp.heldLand, h.port ≠ p) ∧ rowOf s k = row ∧ enabled s 0xEC000 = true
  let heard (s : State) (k : Packet) (auth : Bool) (f : RxFrame) (m : HMsg) : Prop := hiashOf s k.data = some f ∧
    m = hmsgParse f.payload ∧ hshFail s f.payload m auth = none ∧ hshOnline s = true ∧ mine s m = true ∧ originDup s k m = s ∧
    m.cls = 6 ∧ (∀ slot tour, tourLevel s slot tour < 8)
  let lost (s t : State) : Prop := t.twn.st = .isolated ∧ t.twn.role = false ∧ t.twn.synced = false ∧ t.vlt.ex = [] ∧
    Counts s t (Reg.twnCnt 5) ∧ regBit t Reg.twnEvents 2 = true
  let stream : List (Nat × (Nat → Bool → Instr)) := [(12, .twinLand), (13, .twinMark), (14, .twinJob), (15, .twinCtrl)]
  (∀ (s : State) (p : Nat) (k : Packet) (r : List Packet) (auth : Bool) (f : RxFrame), ∀ x ∈ stream, atHead s p k r x.1 →
    hiashOf s k.data = some f → s.twn.st = .standby → s.twn.synced = true → twnOn s = true →
    (∀ m, heard s k auth f m → fromPartner s m = true → (∃ n, s.twn.seqRx = some n ∧ n ≠ m.seq) →
      Answers (exec (x.2 p auth) s) (fun t => left s t p k r ∧ lost s t)) ∧
    ((hshFail s f.payload (hmsgParse f.payload) auth).isSome = true → Answers (exec (x.2 p auth) s) (fun t =>
      left s t p k r ∧ lost s t))) ∧
  (∀ (s : State) (p : Nat) (k : Packet) (r : List Packet) (auth : Bool) (f : RxFrame) (m : HMsg), heard s k auth f m →
    fromPartner s m = true →
    (∀ x ∈ stream, atHead s p k r x.1 → s.twn.st = .active ∨ (s.twn.st = .taking ∧ s.twn.gapStart < k.arrival) →
      Answers (exec (x.2 p auth) s) (fun t => left s t p k r ∧ Counts s t (Reg.twnCnt 8) ∧
        SameBut [.regs, .host, .log, .que, .eth, .hsh] s t)) ∧
    (s.twn.st = .standby → (∀ n, s.twn.seqRx = some n → n = m.seq) →
      let applied (i : Instr) (f : State → Prop) : Prop := Answers (exec i s) (fun t => f t ∧ left s t p k r ∧
        t.hsh.delivered = s.hsh.delivered + 1 ∧ Counts s t (Reg.hshCnt 6) ∧ Counts s t (Reg.twnCnt 1) ∧
        getReg t Reg.twnSeq = BitVec.ofNat 32 m.seq ∧ t.twn.st = .standby ∧ t.twn.seqRx = some ((m.seq + 1) % 2 ^ 32))
      (atHead s p k r 12 →
        let e := le m.body 0 4 + le m.body 4 2 * 2 ^ 32
        let img := m.body.drop 8
        let acc := le img 12 2
        ∀ x d o n, getEx s e = some x → x.index = e → x.st = .opened → planAt s x.slot = some d → mapSlot d acc = some (o, n) →
          landed x acc = false → (newPages x o n).length ≤ s.vlt.general → applied (.twinLand p auth) (fun t =>
            let lv := tourLevel s x.slot (bindTour s acc)
            let j := makeJob s x.slot (bindTour s acc) 0 (le img 19 1) acc e (le img 20 4)
            (∃ z, getEx t e = some z ∧ landed z acc = true ∧ smGet [] z.slots acc = padTo (64 * n) img ∧
              smGet 0 z.landRev acc = le img 19 1) ∧
            (∀ i, i ≠ e → getEx t i = getEx s i) ∧ t.vlt.general = s.vlt.general - (newPages x o n).length ∧
            (levelOpen s lv = true → level t lv = level s lv ++ [j] ∧ t.dsp.evFifo = s.dsp.evFifo) ∧
            (levelOpen s lv = false → level t lv = level s lv ∧ t.dsp.evFifo = s.dsp.evFifo ++ [j] ∧
              (smFind t.dsp.fullSince lv).isSome = true) ∧
            SameBut [.regs, .host, .log, .que, .eth, .acc, .vlt, .dsp, .vrd, .hsh, .twn] s t)) ∧
      (atHead s p k r 13 →
        let e := le m.body 0 8
        let what := le m.body 8 1 % 8
        let cause := le m.body 9 1 % 8
        (∀ n d, what = 0 → getEx s e = none → governing s e = some n → planAt s n = some d →
          openLack s (decide (e % d.verdictDiv = 0)) = none → applied (.twinMark p auth) (fun t =>
            (∃ z, getEx t e = some z ∧ z.index = e ∧ z.slot = n ∧ z.st = .opened ∧ z.openTime = s.raw ∧
              (∀ a, a < 0x4000 → z.expMask.testBit a = accExpected s n e a)) ∧
            (∀ i, i ≠ e → getEx t i = getEx s i) ∧ Counts s t (Reg.vltCnt 0) ∧
            t.twn.synced = (s.twn.plansEqual || s.twn.synced) ∧
            (s.twn.plansEqual = true → s.twn.synced = false → getReg64 t (Reg.twnStart 0) (Reg.twnStart 1) = e % 2 ^ 64 ∧
              regBit t Reg.twnEvents 0 = true))) ∧
        (∀ x, getEx s e = some x → x.index = e →
          (what = 1 → x.st = .opened → cause ≤ 3 → applied (.twinMark p auth) (fun t =>
            getEx t e = some { x with st := .closing, condTime := s.raw, closeCause := cause } ∧
            (∀ i, i ≠ e → getEx t i = getEx s i))) ∧
          (what = 2 → x.sealCond = false → applied (.twinMark p auth) (fun t =>
            getEx t e = some { x with sealCond := true, sealCause := cause, st := if x.st = .closed then .sealing else x.st } ∧
            (∀ i, i ≠ e → getEx t i = getEx s i))))) ∧
      (atHead s p k r 14 →
        let w := le m.body 0 4
        let arg := le m.body 4 4
        let kind := w / 2 ^ 21 % 8
        let j := makeJob s (w / 2 ^ 20 % 2) (w / 2 ^ 24) kind 0 0xFFFF 0 arg
        3 ≤ kind → kind ≤ 5 → applied (.twinJob p auth) (fun t =>
          (levelOpen s j.priority = true → level t j.priority = level s j.priority ++ [j] ∧ t.dsp.heldHsh = s.dsp.heldHsh) ∧
          (levelOpen s j.priority = false → level t j.priority = level s j.priority ∧
            t.dsp.heldHsh = s.dsp.heldHsh ++ [j]) ∧
          (∀ l, l ≠ j.priority → level t l = level s l) ∧ (kind = 3 → Counts s t (Reg.dspTimerFired (arg / 2 ^ 28))))) ∧
      (atHead s p k r 15 →
        let op := le m.body 0 1 % 16
        let n := le m.body 4 4
        (op = 1 → n < 0x4004 → recordCrc s n = le m.body 8 4 → (getAcc s n).st = .vacant → applied (.twinCtrl p auth) (fun t =>
          (getAcc t n).st = .registered ∧ (getAcc t n).commitSeq = s.acc.seq ∧ t.acc.seq = s.acc.seq + 1 ∧
          (∀ i, i ≠ n → getAcc t i = getAcc s i))) ∧
        (op = 2 → n < 0x4004 → accIsEnabled (getAcc s n) = true →
          s.vlt.ex.any (fun x => x.2.openSeq < s.acc.seq && x.2.st != .sealed) = true → applied (.twinCtrl p auth) (fun t =>
            (getAcc t n).st = .retired ∧ (∀ i, i ≠ n → getAcc t i = getAcc s i))) ∧
        (op = 3 → applied (.twinCtrl p auth) (fun t =>
          ∀ i, t.vrd.latches.testBit i = (s.vrd.latches.testBit i && !(i < 16 && n.testBit i)))) ∧
        (∀ d, op = 4 → planAt s (n % 2) = some d → (planSlot s (n % 2)).st = .loaded → slotActive s (1 - n % 2) = false →
          d.planId = (if n % 2 = 0 then s.twn.partnerPlans.1 else s.twn.partnerPlans.2) → applied (.twinCtrl p auth) (fun t =>
            (planSlot t (n % 2)).st = .live ∧ (planSlot t (n % 2)).start = le m.body 8 8 ∧
            (planSlot t (n % 2)).startFixed = true))) ∧
      (atHead s p k r 16 →
        let e := le m.body 0 8
        let key := digestKey e (le m.body 8 1)
        let d := le m.body 12 8
        ∀ x, getEx s e = some x → applied (.twinDigest p auth) (fun t => smFind t.twn.partner key = some d ∧
          t.twn.own = s.twn.own ∧ (smFind s.twn.own key = some d → Counts s t (Reg.twnCnt 2)) ∧
          (∀ o, smFind s.twn.own key = some o → o ≠ d → Counts s t (Reg.twnCnt 3) ∧ regBit t Reg.twnEvents 1 = true ∧
            getReg t (Reg.twnMismatch 0) = BitVec.ofNat 32 e ∧
            getReg64 t (Reg.twnMismatch 2) (Reg.twnMismatch 3) = o % 2 ^ 64 ∧
            getReg64 t (Reg.twnMismatch 4) (Reg.twnMismatch 5) = d % 2 ^ 64) ∧
          SameBut [.regs, .host, .log, .que, .eth, .hsh, .twn] s t))) ∧
    (atHead s p k r 17 →
      (s.twn.st = .active → s.twn.partnerUid = some (le m.body 0 8) → Answers (exec (.twinTaken p auth) s) (fun t =>
        left s t p k r ∧ t.twn.st = .isolated ∧ t.twn.role = false ∧ regBit t Reg.twnEvents 4 = true ∧ t.vlt = s.vlt ∧
        SameBut [.regs, .host, .log, .que, .eth, .hsh, .twn] s t)) ∧
      (s.twn.st ≠ .active → s.twn.st ≠ .standby → Answers (exec (.twinTaken p auth) s) (fun t => left s t p k r ∧
        t.twn = s.twn ∧ SameBut [.regs, .host, .log, .que, .eth, .hsh] s t))) ∧
    (atHead s p k r 11 → (s.twn.st = .standby ∧ ∀ n, s.twn.seqRx = some n → n = m.seq) ∨ s.twn.st = .active →
      Answers (exec (.twinHello p auth) s) (fun t => left s t p k r ∧
        let id0 := le m.body 12 4
        let id1 := le m.body 16 4
        t.twn = { s.twn with
          partnerUid := some (le m.body 4 8)
          partnerPlans := (id0, id1)
          plansEqual := decide (id0 = slotPlanId s 0 ∧ id1 = slotPlanId s 1)
          seqRx := if s.twn.st = .standby then some (le m.body 20 4) else s.twn.seqRx } ∧
        (s.twn.st = .active ∨ s.twn.partnerUid = none → hshTagOk s = true → Counts s t (Reg.twnCnt 0)) ∧
        SameBut [.regs, .host, .log, .que, .eth, .hsh, .twn, .freeCount] s t))) ∧
  (∀ (s : State) (level : Bool),
    (level = false ∨ s.twn.st ≠ .standby → Answers (exec (.twinTake level) s) (fun t =>
      t.twn = { s.twn with takeLevel := level } ∧ SameBut [.twn] s t)) ∧
    (level = true → s.twn.st = .standby → Answers (exec (.twinTake level) s) (fun t => t.twn = { s.twn with
        takeLevel := true
        st := .taking
        takeUnsynced := !s.twn.synced
        role := true
        gapStart := s.raw
        lineHold := pinStates s
        held := [] } ∧
      (hshOnline s = true → hshTagOk s = true → Counts s t (Reg.twnCnt 0) ∧ Counts s t (Reg.hshCnt 5)) ∧
      SameBut [.regs, .host, .log, .que, .eth, .hsh, .twn, .freeCount] s t))) ∧
  (∀ s : State, s.wf → s.twn.st = .taking → intakeClosed s = true → s.twn.deferred = [] →
    Answers (exec .takeoverGapEnd s) (fun t => t.twn = { s.twn with st := .active, held := [], deferAt := [] } ∧
      getReg t Reg.twnGapUs = BitVec.ofNat 32 ((s.raw - s.twn.gapStart) / 1000) ∧ Counts s t (Reg.twnCnt 9) ∧
      regBit t Reg.twnEvents 3 = true ∧
      (∀ e x p, s.tim.valid = true → getEx s e = some x → x.st = .opened → planAt s x.slot = some p →
        timeReached s (closingTime p e) = true →
        ∃ z, getEx t e = some z ∧ z.st = .closing ∧ z.closeCause = 1 ∧ z.condTime = s.raw) ∧
      (∀ e x, getEx s e = some x → s.tim.valid = false → getEx t e = some x) ∧
      SameBut [.regs, .host, .log, .que, .eth, .vlt, .dsp, .vrd, .twn] s t)) ∧
  (∀ s : State,
    (twinFit s = true → s.twn.hbAt + 1000 * regFld s Reg.twnTiming 31 16 ≤ s.raw → Answers (exec .twinHbToggle s) (fun t =>
      t.twn = { s.twn with hb := !s.twn.hb, hbAt := s.raw } ∧ SameBut [.twn] s t)) ∧
    (twinFit s = false → exec .twinHbToggle s = .next s)) ∧
  (∀ s : State, s.twn.st = .standby → Answers (exec .deferredExpire s) (fun t =>
      let kept := (s.twn.deferred.zip s.twn.deferAt).filter (fun d => s.raw < d.2 + 1000 * regFld s Reg.twnTiming 15 0)
      t.twn = { s.twn with deferred := kept.map (·.1), deferAt := kept.map (·.2) } ∧
      ((getReg s (Reg.twnCnt 7)).toNat + (s.twn.deferred.length - kept.length) < 0xFFFFFFFF →
        getReg t (Reg.twnCnt 7) = getReg s (Reg.twnCnt 7) + BitVec.ofNat 32 (s.twn.deferred.length - kept.length)) ∧
      SameBut [.regs, .log, .twn] s t)) ∧
  (∀ s : State,
    (s.twn.st = .active → Answers (exec .demote s) (fun t => t.twn = { s.twn with
        st := .isolated
        synced := false
        role := false
        seqRx := none
        deferred := []
        deferAt := []
        held := [] } ∧
      regBit t Reg.twnEvents 4 = true ∧ Logs s t 0x0743 0xFFFF [] ∧ SameBut [.regs, .host, .log, .twn] s t)) ∧
    (s.twn.st ≠ .active → Answers (exec .demote s) (fun t => Refuses t Reg.twnBase 0x0706 ∧
      SameRegs [Reg.twnBase + 8] s t ∧ SameBut [.regs] s t)))

/-! ## Supplies, resets, start-up and power states (19_power_and_start.md) -/

/-- R532, R534, R536–R539, R549, R556, R557, R572, R613 and R616: what the supplies, the warning with its brace and dips, every reset, the
steps of the start-up ladder and the boot records do. -/
def Obligations.SuppliesResetsAndStart : Prop :=
  let supplied (s : State) (vmain vback vsys : Nat) : PwrSt := { s.pwr with
    vmain := vmain
    vback := if s.part = .gld9610 then 0 else vback
    vsys := vsys
    mainGood := if vWarn s + 800 ≤ vmain then (match s.pwr.mainGood with | some a => some a | none => some s.raw) else none }
  (∀ (s : State) (vmain vback vsys : Nat),
    let v := supplied s vmain vback vsys
    let switches := s.pwr.onBackup = false ∧ vmain < vWarn s + 400 ∧ vWarn s + 400 ≤ v.vback
    Answers (exec (.vmainLoss vmain vback vsys) s) (fun t => SameBut [.regs, .host, .log, .pwr] s t ∧
      (switches → t.pwr = { v with onBackup := true } ∧ regBit t Reg.pwrEvents 0 = true ∧ Counts s t (Reg.pwrCnt 0) ∧
        Logs s t 0x0240 0xFFFF []) ∧
      (¬ switches → t.pwr = v)) ∧
    Answers (exec (.vbackLoss vback vsys) s) (fun t => t.pwr = supplied s s.pwr.vmain vback vsys ∧
      (vWarn s + 400 ≤ s.pwr.vback → (supplied s s.pwr.vmain vback vsys).vback < vWarn s + 400 →
        getReg t (Reg.logLife 5) = counted (getReg s (Reg.logLife 5))) ∧ SameBut [.regs, .log, .pwr] s t) ∧
    (let returns := s.pwr.onBackup = true ∧ ∃ a, v.mainGood = some a ∧ a + 1000000 * regFld s Reg.pwrCfg 13 0 ≤ s.raw
    Answers (exec (.vmainReturn vmain vback vsys) s) (fun t => SameBut [.regs, .host, .log, .pwr] s t ∧
      (¬ returns → t.pwr = v) ∧
      (returns → regBit t Reg.pwrEvents 1 = true ∧ Counts s t (Reg.pwrCnt 1) ∧ Logs s t 0x0241 0xFFFF [] ∧
        (¬ (s.pwr.st = .keep ∧ s.pwr.keepBackup = true) → t.pwr = { v with onBackup := false }) ∧
        (s.pwr.st = .keep → s.pwr.keepBackup = true → s.pwr.trans = none → t.pwr.trans = some (awakeState s)))))) ∧
  (∀ (s : State) (vmain vback vsys phase : Nat),
    let v := supplied s vmain vback vsys
    Answers (exec (.powerWarning vmain vback vsys phase) s) (fun t =>
      (vWarn s ≤ vsys → t.pwr = v) ∧
      (vsys < vWarn s → s.pwr.warn = true → t.pwr = { v with warnLow := Nat.min s.pwr.warnLow vsys }) ∧
      (vsys < vWarn s → s.pwr.warn = false →
        t.pwr = { v with warn := true, warnStart := s.raw, warnLow := vsys, brace := true, pendReq := none } ∧
        t.log.brace = true ∧ regBit t Reg.pwrEvents 2 = true ∧ Counts s t (Reg.pwrCnt 2) ∧
        (s.pwr.st ≠ .keep → t.cap.cur = none ∧ (enabled s Reg.nrgBase = true → t.nrg.commit.isSome = true))) ∧
      SameBut [.regs, .host, .log, .pwr, .key, .nrg, .cap] s t)) ∧
  (∀ (s : State) (ok : Bool),
    (s.pwr.brace = true → Answers (exec (.braceEnd ok) s) (fun t => t.pwr = { s.pwr with brace := false } ∧ t.log.brace = false ∧
      regBit t Reg.pwrEvents 5 = true ∧ (∀ d, s.pwr.dip = some d → getReg t (Reg.pwrDip 0) = BitVec.ofNat 32 d.repeats ∧
        getReg t (Reg.pwrDip 3) = BitVec.ofNat 32 (d.lowest % 65536)) ∧ SameBut [.regs, .host, .log, .pwr] s t)) ∧
    (s.pwr.brace = false → exec (.braceEnd ok) s = .next s)) ∧
  (∀ (s : State) (vmain vback vsys low : Nat),
    let v := supplied s vmain vback vsys
    let n := s.raw - s.pwr.warnStart
    let l := Nat.min s.pwr.warnLow low
    let fresh : Dip := { start := s.pwr.warnStart, repeats := 0, total := n, longest := n, lowest := l, lastEnd := s.raw }
    (s.pwr.warn = false ∨ vsys ≤ vWarn s + 200 → Answers (exec (.warningEnd vmain vback vsys low) s) (fun t => t.pwr = v ∧
      SameBut [.regs, .log, .pwr] s t)) ∧
    (s.pwr.warn = true → vWarn s + 200 < vsys → Answers (exec (.warningEnd vmain vback vsys low) s) (fun t =>
      t.pwr = { v with
        warn := false
        dip := some (match s.pwr.dip with
          | none => fresh
          | some d => if s.pwr.warnStart ≤ d.lastEnd + 100000000 then { d with
              repeats := Nat.min 65535 (d.repeats + 1)
              total := d.total + n
              longest := Nat.max d.longest n
              lowest := Nat.min d.lowest l
              lastEnd := s.raw } else fresh) } ∧
      regBit t Reg.pwrEvents 3 = true ∧ regBit t Reg.pwrEvents 4 = true ∧ Counts s t (Reg.pwrCnt 3) ∧
      (∀ d, s.pwr.dip = some d → d.lastEnd + 100000000 < s.pwr.warnStart → Logs s t 0x0242 0xFFFF (dipData d)) ∧
      SameBut [.regs, .host, .log, .pwr] s t))) ∧
  (∀ (s : State) (d : Dip), s.pwr.dip = some d → d.lastEnd + 100000000 ≤ s.raw →
    s.pwr.warn = false ∨ d.lastEnd + 100000000 < s.pwr.warnStart → Answers (exec .dipRecordWrite s) (fun t =>
      t.pwr = { s.pwr with dip := none } ∧ Logs s t 0x0242 0xFFFF (dipData d) ∧
      getReg t (Reg.pwrDip 0) = BitVec.ofNat 32 d.repeats ∧ getReg t (Reg.pwrDip 1) = BitVec.ofNat 32 (d.total / 1000) ∧
      getReg t (Reg.pwrDip 2) = BitVec.ofNat 32 (d.longest / 1000) ∧
      getReg t (Reg.pwrDip 3) = BitVec.ofNat 32 (d.lowest % 65536) ∧ SameBut [.regs, .host, .log, .pwr] s t)) ∧
  (∀ s : State,
    let resets (i : Instr) (cause : Nat) (keeper : Bool) : Prop := Answers (exec i s) (fun t =>
      t.raw = (if keeper then s.raw else 0) ∧ t.part = s.part ∧ t.freeCount = s.freeCount ∧ t.pending = s.pending ∧
      t.pwr.cause = cause ∧ t.pwr.st = (if cause = 2 then .off else .run) ∧ t.pwr.trans = none ∧ t.pwr.warn = false ∧
      t.pwr.dip = none ∧ t.pwr.ladder = 0 ∧ t.pwr.onBackup = (keeper && s.pwr.onBackup) ∧ t.pwr.boot0 = s.pwr.boot0 ∧
      t.pwr.boot1 = s.pwr.boot1 ∧ t.regs = State.reset.regs ∧ t.que = State.reset.que ∧ t.eth = State.reset.eth ∧
      t.acc = State.reset.acc ∧ t.vlt = State.reset.vlt ∧ t.dsp = State.reset.dsp ∧ t.doc = State.reset.doc ∧
      t.vrd = State.reset.vrd ∧ t.pce = State.reset.pce ∧ t.hsh = State.reset.hsh ∧ t.arc = State.reset.arc ∧
      t.host = { State.reset.host with vio := s.host.vio, mram := s.host.mram, hostMem := s.host.hostMem } ∧
      t.pln = { State.reset.pln with sel0 := s.pln.sel0, sel1 := s.pln.sel1, area0 := s.pln.area0, area1 := s.pln.area1 } ∧
      t.key = { State.reset.key with
        helper0 := s.key.helper0
        helper1 := s.key.helper1
        slot0 := s.key.slot0
        slot1 := s.key.slot1
        sel0 := s.key.sel0
        sel1 := s.key.sel1 } ∧
      t.nrg = { State.reset.nrg with rec0 := s.nrg.rec0, rec1 := s.nrg.rec1 } ∧ t.log.fifo = [] ∧
      t.log.slot0 = s.log.slot0 ∧ t.log.slot1 = s.log.slot1 ∧ (s.pwr.dip = none → t.log.ring = s.log.ring))
    (∀ vmain vback vsys, vsys < 8400 → resets (.brownOut vmain vback vsys) 2 false) ∧
    (∀ vmain vback vsys, 8400 ≤ vsys → exec (.brownOut vmain vback vsys) s = .next s) ∧
    (∀ tj, 125 * 256 ≤ toSigned 16 tj → s.pwr.st ≠ .off → resets (.thermalReset tj) 4 true) ∧
    (∀ tj, toSigned 16 tj < 125 * 256 → exec (.thermalReset tj) s = .next s) ∧
    (s.pwr.st ≠ .off → resets .softReset 5 true) ∧
    (s.pwr.st = .keep → resets .keepOvercurrent 3 false) ∧ (s.pwr.st ≠ .keep → exec .keepOvercurrent s = .next s) ∧
    (s.host.vio.testBit 2 = true → s.pwr.st ≠ .off → resets .resetN 1 true) ∧
    (s.host.vio.testBit 2 = false → exec .resetN s = .next s)) ∧
  (∀ (s : State) (i : StartInputs),
    (opRunning s Reg.pwrStartOpstat = true → 1 ≤ s.pwr.ladder → s.pwr.ladder ≤ 10 → i.last = s.pwr.ladder →
      (s.pwr.ladder = 10 → s.pwr.warn = false) → Answers (exec (.startUpLadder i) s) (fun t =>
        let n := s.pwr.ladder
        let x := startStep i n (opProgress s Reg.pwrStartOpstat n)
        let dur := Nat.min 65535 (match i.durs[n - 1]? with | some d => d | none => 0)
        getReg t (Reg.pwrStartStep (n - 1)) = BitVec.ofNat 32 (x.2 * 65536 + dur) ∧
        t.pwr = { x.1.pwr with ladder := if startStops x.2 = true ∨ n = 10 then 0 else n + 1 } ∧
        (startStops x.2 = true → opState t Reg.pwrStartOpstat = 3 ∧ regFld t Reg.pwrStartOpstat 23 16 = x.2 % 256) ∧
        (startStops x.2 = false → n = 10 → opState t Reg.pwrStartOpstat = 2) ∧
        (startStops x.2 = false → n ≠ 10 → t.regs = (setRegN x.1 (Reg.pwrStartStep (n - 1)) (x.2 * 65536 + dur)).regs) ∧
        SameBut [.regs, .pwr] x.1 t)) ∧
    (opState s Reg.pwrStartOpstat = 0 → 9200 ≤ i.vsys → i.last = 1 → Answers (exec (.startUpLadder i) s) (fun t =>
      opState t Reg.pwrStartOpstat = 1 ∧ regFld t Reg.pwrStartOpstat 15 0 = 1 ∧ t.pwr.ladder = 2 ∧ t.pwr.st = .run ∧
      t.pwr.vmain = i.vmain ∧ t.pwr.vsys = i.vsys ∧ t.tim.refSel = i.refSel ∧
      getReg t Reg.pwrResetCause = BitVec.ofNat 32 s.pwr.cause ∧ regFld t (Reg.pwrStartStep 0) 31 16 = 0 ∧
      SameBut [.regs, .log, .tim, .pwr] s t)) ∧
    (opState s Reg.pwrStartOpstat = 0 → i.vsys < 9200 → exec (.startUpLadder i) s = .next s)) ∧
  (∀ s : State, s.pwr.st ≠ .nap → s.pwr.trans ≠ some .nap →
    (opRunning s Reg.pwrBootrecOpstat = true → ∀ i ∈ [Instr.bootrecStart, Instr.bootrecErase], Answers (exec i s) (fun t =>
      Refuses t Reg.pwrBase 0x02F3 ∧ SameRegs [Reg.pwrBase + 8] s t ∧ SameBut [.regs] s t)) ∧
    (opRunning s Reg.pwrBootrecOpstat = false →
      Answers (exec .bootrecStart s) (fun t => opState t Reg.pwrBootrecOpstat = 1 ∧ SameRegs [Reg.pwrBootrecOpstat] s t ∧
        SameBut [.regs] s t) ∧
      Answers (exec .bootrecErase s) (fun t => opState t Reg.pwrBootrecOpstat = 2 ∧
        t.pwr = { s.pwr with boot0 := none, boot1 := none } ∧ SameRegs [Reg.pwrBootrecOpstat] s t ∧
        SameBut [.regs, .pwr] s t))) ∧
  (∀ (s : State) (d : List Byte) (err ok : Bool), opRunning s Reg.pwrBootrecOpstat = true → s.host.busMaster = true →
    let read := bootParse (padTo (regFld s Reg.pwrBootrecLen 14 0) d)
    let failed (t : State) : Prop := opState t Reg.pwrBootrecOpstat = 3 ∧ regFld t Reg.pwrBootrecOpstat 23 16 = 5 ∧
      Refuses t Reg.pwrBase 0x0205
    (err = true ∨ read = none → Answers (exec (.bootrecEnd d err ok) s) (fun t => failed t ∧ t.pwr = s.pwr ∧ SameBut [.regs] s t)) ∧
    (∀ r, err = false → read = some r → Answers (exec (.bootrecEnd d err ok) s) (fun t => SameBut [.regs, .pwr] s t ∧
      (∀ o, bootSelected s = some o → t.pwr.boot0 = some o ∨ t.pwr.boot1 = some o) ∧
      (ok = true → opState t Reg.pwrBootrecOpstat = 2 ∧
        let g := match bootSelected s with | some x => (x.gen + 1) % 2 ^ 32 | none => 1
        (t.pwr.boot0 = some { r with gen := g } ∨ t.pwr.boot1 = some { r with gen := g })) ∧
      (ok = false → failed t))))

/-- R540–R545, R548, R551–R554 and Tables 19.3 to 19.5: evaluation when idle, requests of the host ports, wake events, deadlines,
the end of a transition, and gating of blocks. -/
def Obligations.PowerStatesFollowEventsAndRequests : Prop :=
  let free (s : State) : Prop := s.pwr.st ≠ .nap ∧ s.pwr.trans = none
  (∀ s : State, free s → isAwake s = true → coreIdle s = true → s.pwr.warn = false →
    let nap := regBit s Reg.pwrCfg 30 = true ∧ s.pwr.napOff = false
    let blocked := keepBlock (keepEvaluate s) ≠ 0
    let us (d : Option Nat) : Nat := match d with | some x => Nat.min 0xFFFFFFFF (x / 1000) | none => 0xFFFFFFFF
    let acts (x : Option PState) : Prop := Answers (exec .idleEvaluation s) (fun t =>
      t.pwr = { s.pwr with napOff := false, trans := x } ∧ getReg t Reg.pwrNextUs = BitVec.ofNat 32 (us (nextDelta s)) ∧
      SameRegs [Reg.pwrNextUs, Reg.pwrKeepEst] s t ∧ SameBut [.regs, .pwr] s t)
    (∀ d, nextDelta s = some d →
      (d < 20000 → acts none) ∧
      (20000 ≤ d → d ≤ 2000000 → nap → acts (some .nap)) ∧ (20000 ≤ d → d ≤ 2000000 → ¬ nap → acts none)) ∧
    ((∀ d, nextDelta s = some d → 2000000 < d) →
      (¬ blocked → acts (some .keep)) ∧ (blocked → nap → acts (some .nap)) ∧ (blocked → ¬ nap → acts none))) ∧
  (∀ (s : State) (port : Nat), port < 2 → free s → isAwake s = true →
    let result (t : State) (c : Nat) : Prop := getReg t (portReg port Reg.pwrReqResult) = BitVec.ofNat 32 c
    let u := keepEvaluate s
    (s.pwr.warn = false → Answers (exec (.napRequest port) s) (fun t => t.pwr = { s.pwr with trans := some .nap } ∧ result t 0 ∧
      SameRegs [portReg port Reg.pwrReqResult] s t ∧ SameBut [.regs, .pwr] s t)) ∧
    (s.pwr.warn = true → Answers (exec (.napRequest port) s) (fun t => result t 0 ∧
      SameRegs [portReg port Reg.pwrReqResult] s t ∧ SameBut [.regs] s t)) ∧
    (keepBlock u = 0 → s.pwr.warn = false → Answers (exec (.keepRequest port) s) (fun t =>
      t.pwr = { s.pwr with trans := some .keep } ∧ result t 0 ∧ getReg t Reg.pwrKeepEst = BitVec.ofNat 32 (keepEstimate s) ∧
      SameRegs [portReg port Reg.pwrReqResult, Reg.pwrKeepEst] s t ∧ SameBut [.regs, .pwr] s t)) ∧
    (keepBlock u ≠ 0 → Answers (exec (.keepRequest port) s) (fun t =>
      let c := if (keepBlock u).testBit 9 then 0x0203 else 0x0202
      result t c ∧ Refuses t Reg.pwrBase c ∧ regBit t Reg.pwrEvents 7 = true ∧ Counts s t (Reg.pwrCnt 6) ∧
      getReg t Reg.pwrKeepEst = BitVec.ofNat 32 (keepEstimate s) ∧ SameBut [.regs, .host, .log] s t)) ∧
    Answers (exec (.wakeRequest port) s) (fun t => t.pwr = { s.pwr with napOff := true } ∧ result t 0 ∧
      SameRegs [portReg port Reg.pwrReqResult] s t ∧ SameBut [.regs, .pwr] s t)) ∧
  (∀ s : State, s.pwr.st = .keep → s.pwr.trans = none → s.pwr.pendReq = none → Answers (exec (.wakeRequest 1) s) (fun t =>
    t.pwr.trans = some (awakeState s) ∧ t.pwr.st = .keep ∧ SameBut [.regs, .pwr] s t)) ∧
  (∀ (s : State) (kind p : Nat),
    let calls := ((s.pwr.st = .nap ∨ s.pwr.trans = some .nap) ∧ (kind = 1 ∨ kind = 2 ∨ kind = 3 ∨ (kind = 0 ∧ ethOn s p = true))) ∨
      ((s.pwr.st = .keep ∨ s.pwr.trans = some .keep) ∧ kind = 4 ∧
        getReg64 s (Reg.pwrKeepWake 0) (Reg.pwrKeepWake 1) ≠ 0 ∧ getReg64 s (Reg.pwrKeepWake 0) (Reg.pwrKeepWake 1) ≤ s.raw)
    (¬ calls → exec (.wakeEvent kind p) s = .next s) ∧
    (calls → Answers (exec (.wakeEvent kind p) s) (fun t =>
      t.pwr = { s.pwr with
        pendReq := if s.pwr.pendReq = some .wake then some .wake else none
        wakeAfter := s.pwr.wakeAfter || decide (s.pwr.trans = some .nap ∨ s.pwr.trans = some .keep)
        trans := if s.pwr.trans = none ∧ isAsleep s = true then some (awakeState s) else s.pwr.trans } ∧
      SameBut [.pwr] s t))) ∧
  (∀ (s : State) (d : Nat), nextDelta s = some d →
    (isAsleep s = true → s.pwr.trans = none → d ≤ (if s.pwr.st = .keep then 602000 else 10000) → s.pwr.pendReq = none →
      Answers (exec .deadlineWake s) (fun t => t.pwr = { s.pwr with trans := some (awakeState s) } ∧ SameBut [.pwr] s t)) ∧
    (isAsleep s = false ∨ s.pwr.trans ≠ none ∨ (if s.pwr.st = .keep then 602000 else 10000) < d →
      exec .deadlineWake s = .next s)) ∧
  (∀ (s : State) (pufOk : Bool) (bits speed width : Nat),
    let i := Instr.powerTransitionEnd pufOk bits speed width
    (s.pwr.trans = none → exec i s = .next s) ∧
    (s.pwr.wakeAfter = false → s.pwr.pendReq = none →
      (s.pwr.trans = some .nap → Answers (exec i s) (fun t => t.pwr = { s.pwr with trans := none, st := .nap } ∧
        Counts s t (Reg.pwrCnt 4) ∧ t.pce = { s.pce with stale := true } ∧ regBit t Reg.pceStatus 0 = false ∧
        SameBut [.regs, .log, .pce, .pwr, .vrd] s t)) ∧
      (s.pwr.trans = some .keep → Answers (exec i s) (fun t =>
        t.pwr = { s.pwr with trans := none, st := .keep, keepBackup := s.pwr.onBackup } ∧ Counts s t (Reg.pwrCnt 5) ∧
        t.host = { s.host with linkSpeed := 0, linkWidth := 0 } ∧ t.tim.ppsOut = false ∧ t.cap.drives = [] ∧
        t.arc.runLeft = 0 ∧
        (compatMode s = true → t.pln = s.pln ∧ t.doc = s.doc ∧ t.que = s.que ∧ t.hsh = s.hsh) ∧
        (compatMode s = false →
          (regBit s Reg.pwrCfg 27 = false → t.doc.iram = [] ∧ t.doc.dram = []) ∧
          (regBit s Reg.pwrCfg 27 = true → t.doc = s.doc) ∧
          (∀ k, k < 2 → planSlot t k = if banksKept (retainMask s) (56 + 4 * k) (59 + 4 * k) = true ∧ regBit s Reg.pwrCfg 27 = true
            then planSlot s k else PlanSlot.reset) ∧
          (banksKept (retainMask s) 40 47 = true → t.que = s.que) ∧
          (banksKept (retainMask s) 48 51 = false → t.cap.rings = []) ∧
          (banksKept (retainMask s) 52 55 = false → t.arc.slots = [])) ∧
        SameBut [.regs, .host, .log, .tim, .pce, .que, .pwr, .pln, .doc, .vrd, .hsh, .arc, .nrg, .cap, .freeCount] s t)) ∧
      (∀ x, s.pwr.trans = some x → x ≠ .nap → x ≠ .keep →
        (s.pwr.st ≠ .keep → Answers (exec i s) (fun t => t.pwr = { s.pwr with trans := none, st := awakeState s } ∧
          SameBut [.pce, .pwr] s t)) ∧
        (s.pwr.st = .keep → Answers (exec i s) (fun t => t.pwr = { s.pwr with trans := none, st := awakeState s } ∧
          regBit t Reg.pwrEvents 6 = true ∧ Counts s t (Reg.pwrCnt 7) ∧ t.host.linkSpeed = speed % 16 ∧
          t.host.linkWidth = width % 16 ∧ t.vlt = s.vlt ∧ t.eth = s.eth ∧ t.acc = s.acc))))) ∧
  (∀ (s : State) (v : Word), s.pwr.st ≠ .nap → s.pwr.trans ≠ some .nap →
    let want := v.toNat &&& gateBits s
    let held := (bitList 14 want).any (fun i => (gatePages i).any (enabled s))
    let newly (i : Nat) : Bool := want.testBit i && !(getReg s Reg.pwrGate).toNat.testBit i
    let inside (i a : Nat) : Bool := (gateRanges i).any (fun r => r.1 ≤ a % 0x1000000 && a % 0x1000000 < r.2)
    (held = true → Answers (exec (.blockGate v) s) (fun t => Refuses t Reg.pwrBase 0x0204 ∧ SameRegs [Reg.pwrBase + 8] s t ∧
      SameBut [.regs] s t)) ∧
    let quiet := ∀ p, p < 6 → newly (8 + p) = true →
      (getPort s p).rx = none ∧ (getPort s p).express = none ∧ (getPort s p).part = none
    (held = false → Answers (exec (.blockGate v) s) (fun t => getReg t Reg.pwrGate = BitVec.ofNat 32 want ∧
      (quiet → (∀ i a, i < 14 → newly i = true → inside i a = true → getReg t a = regReset a) ∧
        (∀ a, a ≠ Reg.pwrGate → (∀ i, i < 14 → newly i = true → inside i a = false) → getReg t a = getReg s a) ∧
        t.host = (if newly 4 then { s.host with ddr := [], ddrTrained := false } else s.host) ∧
        (∀ p, p < 6 → getPort t p = if newly (8 + p) then PortSt.reset else getPort s p) ∧
        SameBut [.regs, .host, .eth, .arc, .afe, .nrg, .cap] s t) ∧
      (newly 0 = true → t.afe = { AfeSt.reset with calRec := s.afe.calRec }) ∧ (newly 0 = false → t.afe = s.afe) ∧
      (newly 1 = true → t.nrg = { NrgSt.reset with rec0 := s.nrg.rec0, rec1 := s.nrg.rec1 }) ∧ (newly 1 = false → t.nrg = s.nrg) ∧
      (newly 2 = true → t.cap = { CapSt.reset with anchor := s.cap.anchor, hostTx := s.cap.hostTx }) ∧
      (newly 2 = false → t.cap = s.cap) ∧ (newly 3 = true → t.arc = ArcSt.reset) ∧ (newly 3 = false → t.arc = s.arc) ∧
      (newly 4 = true → t.host.ddr = [] ∧ t.host.ddrTrained = false) ∧
      SameBut [.regs, .host, .log, .que, .eth, .arc, .afe, .nrg, .cap] s t)))
end

