-- ==== Sys2Proof/Laws/Sparse.lean ====
section
/-! SUPPORT. The sparse stores: what a read answers after a write, and that every operation keeps the canonical
form. -/

namespace Sys2Proof.Machine

theorem smErase_all {β : Type} (p : Nat × β → Bool) (m : SMap β) (k : Nat) (h : m.all p = true) : (smErase m k).all p = true := by
  induction m with
  | nil => rfl
  | cons x r ih =>
    obtain ⟨k', v⟩ := x
    simp only [List.all_cons, Bool.and_eq_true] at h
    unfold smErase
    split
    · exact ih h.2
    · simp only [List.all_cons, Bool.and_eq_true]; exact ⟨h.1, ih h.2⟩

theorem smInsert_all {β : Type} (p : Nat × β → Bool) (m : SMap β) (k : Nat) (v : β) (h : m.all p = true) (hk : p (k, v) = true) :
    (smInsert m k v).all p = true := by
  induction m with
  | nil => simp [smInsert, hk]
  | cons x r ih =>
    obtain ⟨k', v'⟩ := x
    simp only [List.all_cons, Bool.and_eq_true] at h
    unfold smInsert
    split
    · simp [hk, h.1, h.2]
    · simp only [List.all_cons, Bool.and_eq_true]; exact ⟨h.1, ih h.2⟩
/-- Keys above a bound. -/
def smAbove {β : Type} (b : Nat) (m : SMap β) : Prop := ∀ x ∈ m, b < x.1

theorem smSorted_cons {β : Type} (k : Nat) (v : β) (r : SMap β) : smSorted ((k, v) :: r) = true ↔ smAbove k r ∧ smSorted r = true := by
  induction r generalizing k v with
  | nil => simp [smSorted, smAbove]
  | cons x r ih =>
    obtain ⟨k', v'⟩ := x
    have h1 : smSorted ((k, v) :: (k', v') :: r) = true ↔ k < k' ∧ smSorted ((k', v') :: r) = true := by
      rw [smSorted]; simp
    rw [h1]
    constructor
    · rintro ⟨a, b⟩
      refine ⟨?_, b⟩
      intro y hy
      rcases List.mem_cons.1 hy with rfl | hy
      · exact a
      · exact Nat.lt_trans a (((ih k' v').1 b).1 y hy)
    · rintro ⟨a, b⟩
      exact ⟨a _ (List.mem_cons_self ..), b⟩

theorem smAbove_erase {β : Type} (b k : Nat) (m : SMap β) (h : smAbove b m) : smAbove b (smErase m k) := by
  induction m with
  | nil => exact h
  | cons x r ih =>
    obtain ⟨k', v'⟩ := x
    have hr : smAbove b r := fun y hy => h y (List.mem_cons_of_mem _ hy)
    unfold smErase
    split
    · exact ih hr
    · intro y hy
      rcases List.mem_cons.1 hy with rfl | hy
      · exact h _ (List.mem_cons_self ..)
      · exact ih hr y hy

theorem smErase_sorted {β : Type} (m : SMap β) (k : Nat) (h : smSorted m = true) : smSorted (smErase m k) = true := by
  induction m with
  | nil => rfl
  | cons x r ih =>
    obtain ⟨k', v'⟩ := x
    rw [smSorted_cons] at h
    unfold smErase
    split
    · exact ih h.2
    · rw [smSorted_cons]; exact ⟨smAbove_erase _ _ _ h.1, ih h.2⟩

theorem smErase_ne {β : Type} (m : SMap β) (k : Nat) : ∀ x ∈ smErase m k, x.1 ≠ k := by
  induction m with
  | nil => intro x hx; cases hx
  | cons y r ih =>
    obtain ⟨k', v'⟩ := y
    unfold smErase
    split
    · exact ih
    · intro x hx
      rcases List.mem_cons.1 hx with rfl | hx
      · assumption
      · exact ih x hx

theorem smAbove_insert {β : Type} (b k : Nat) (v : β) (m : SMap β) (h : smAbove b m) (hk : b < k) : smAbove b (smInsert m k v) := by
  induction m with
  | nil => intro y hy; rcases List.mem_cons.1 hy with rfl | hy; exact hk; cases hy
  | cons x r ih =>
    obtain ⟨k', v'⟩ := x
    have hr : smAbove b r := fun y hy => h y (List.mem_cons_of_mem _ hy)
    unfold smInsert
    split
    · intro y hy
      rcases List.mem_cons.1 hy with rfl | hy
      · exact hk
      · exact h y hy
    · intro y hy
      rcases List.mem_cons.1 hy with rfl | hy
      · exact h _ (List.mem_cons_self ..)
      · exact ih hr y hy

theorem smInsert_sorted {β : Type} (m : SMap β) (k : Nat) (v : β) (h : smSorted m = true) (hk : ∀ x ∈ m, x.1 ≠ k) :
    smSorted (smInsert m k v) = true := by
  induction m with
  | nil => rfl
  | cons x r ih =>
    obtain ⟨k', v'⟩ := x
    have h' := (smSorted_cons ..).1 h
    unfold smInsert
    split
    · rename_i hlt
      rw [smSorted_cons]
      refine ⟨?_, h⟩
      intro y hy
      rcases List.mem_cons.1 hy with rfl | hy
      · exact hlt
      · exact Nat.lt_trans hlt (h'.1 y hy)
    · rename_i hlt
      rw [smSorted_cons]
      have : k' ≠ k := hk _ (List.mem_cons_self ..)
      exact ⟨smAbove_insert _ _ _ _ h'.1 (by omega), ih h'.2 (fun y hy => hk y (List.mem_cons_of_mem _ hy))⟩

theorem smPut_wf {β : Type} [DecidableEq β] (d : Nat → β) (m : SMap β) (k : Nat) (v : β) (h : smWf d m = true) :
    smWf d (smPut (d k) m k v) = true := by
  unfold smWf at *
  simp only [Bool.and_eq_true] at *
  unfold smPut
  split
  · exact ⟨smErase_sorted _ _ h.1, smErase_all _ _ _ h.2⟩
  · refine ⟨smInsert_sorted _ _ _ (smErase_sorted _ _ h.1) (smErase_ne _ _), smInsert_all _ _ _ _ (smErase_all _ _ _ h.2) ?_⟩
    simpa

theorem smFilter_wf {β : Type} [DecidableEq β] (d : Nat → β) (m : SMap β) (p : Nat × β → Bool) (h : smWf d m = true) :
    smWf d (m.filter p) = true := by
  unfold smWf at *
  simp only [Bool.and_eq_true] at *
  obtain ⟨h1, h2⟩ := h
  constructor
  · clear h2
    induction m with
    | nil => rfl
    | cons x r ih =>
      obtain ⟨k', v'⟩ := x
      rw [smSorted_cons] at h1
      rw [List.filter_cons]
      split
      · rw [smSorted_cons]
        exact ⟨fun y hy => h1.1 y (List.mem_filter.1 hy).1, ih h1.2⟩
      · exact ih h1.2
  · rw [List.all_eq_true] at *
    exact fun x hx => h2 x (List.mem_filter.1 hx).1

theorem smGet_erase_ne {β : Type} (d : β) (m : SMap β) (k k' : Nat) (h : k' ≠ k) : smGet d (smErase m k) k' = smGet d m k' := by
  induction m with
  | nil => rfl
  | cons x r ih =>
    obtain ⟨a, v⟩ := x
    simp only [smErase, smGet]
    split
    · rename_i e; subst e; rw [if_neg (Ne.symm h)]; exact ih
    · rw [smGet]; split
      · rfl
      · exact ih

theorem smGet_notin {β : Type} (d : β) (m : SMap β) (k : Nat) (h : ∀ x ∈ m, x.1 ≠ k) : smGet d m k = d := by
  induction m with
  | nil => rfl
  | cons x r ih =>
    obtain ⟨a, v⟩ := x
    rw [smGet, if_neg (h _ (List.mem_cons_self ..))]
    exact ih (fun y hy => h y (List.mem_cons_of_mem _ hy))

theorem smGet_insert {β : Type} (d : β) (m : SMap β) (k k' : Nat) (v : β) (h : ∀ x ∈ m, x.1 ≠ k) :
    smGet d (smInsert m k v) k' = if k' = k then v else smGet d m k' := by
  induction m with
  | nil => simp [smInsert, smGet, eq_comm]
  | cons x r ih =>
    obtain ⟨a, w⟩ := x
    have ha : a ≠ k := h _ (List.mem_cons_self ..)
    have ih := ih (fun y hy => h y (List.mem_cons_of_mem _ hy))
    simp only [smInsert]
    split
    · simp only [smGet, eq_comm]
    · simp only [smGet]
      split
      · rename_i e; subst e; rw [if_neg ha]
      · exact ih

theorem smGet_smPut {β : Type} [DecidableEq β] (d d' : β) (m : SMap β) (k k' : Nat) (v : β) (hd : k' = k → d' = d) :
    smGet d' (smPut d m k v) k' = if k' = k then v else smGet d' m k' := by
  unfold smPut
  split
  · rename_i e
    split
    · rename_i ek
      subst ek
      rw [smGet_notin _ _ _ (smErase_ne _ _), hd rfl, e]
    · rename_i ek
      exact smGet_erase_ne _ _ _ _ ek
  · rw [smGet_insert _ _ _ _ _ (smErase_ne _ _)]
    split
    · rfl
    · rename_i ek
      exact smGet_erase_ne _ _ _ _ ek

end Sys2Proof.Machine
end

