-- ==== Sys2Proof/Laws/Keeps.lean ====
section
/-! SUPPORT. The relation the laws of the model's functions are stated in, and how it goes through branches, pairs
and folds. -/

namespace Sys2Proof.Machine
/-- What a function of the model may do from s to t, L being the bit mask of the areas it may change: it leaves the
part and the queue of commands alone, RAW as it is or at 0, uses no free value twice, keeps a well-formed state
well-formed, and leaves every area outside L as it was. -/
structure Keeps (L : Nat) (s t : State) : Prop where
  part : t.part = s.part
  q : t.pending = s.pending
  raw : t.raw = s.raw ∨ t.raw = 0
  free : s.freeCount ≤ t.freeCount
  wf : s.wf → t.wf
  frame : ∀ a : Area, L.testBit a.bit = false → a.same s t
theorem Area.same_refl (a : Area) (s : State) : a.same s s := by cases a <;> rfl
theorem Area.same_trans (a : Area) {s t u : State} (h : a.same s t) (k : a.same t u) : a.same s u := by
  cases a <;> exact Eq.trans k h
theorem Keeps.refl {L : Nat} (s : State) : Keeps L s s := ⟨rfl, rfl, .inl rfl, Nat.le_refl _, id, fun a _ => a.same_refl s⟩
theorem mask_false {m L i : Nat} (sub : m &&& L = m) (h : L.testBit i = false) : m.testBit i = false := by
  rw [← sub, Nat.testBit_and, h, Bool.and_false]
theorem Keeps.mono {L m : Nat} {a b : State} (h : Keeps m a b) (sub : m &&& L = m := by rfl) : Keeps L a b :=
  ⟨h.1, h.2, h.3, h.4, h.5, fun x hx => h.6 x (mask_false sub hx)⟩
theorem Keeps.trans {L m : Nat} {a b c : State} (h : Keeps L a b) (k : Keeps m b c) (sub : m &&& L = m := by rfl) : Keeps L a c := by
  obtain ⟨h1,h2,h3,h4,h5,h6⟩ := h; obtain ⟨k1,k2,k3,k4,k5,k6⟩ := k
  refine ⟨by rw [k1,h1], by rw [k2,h2], ?_, Nat.le_trans h4 k4, fun h => k5 (h5 h), fun x hx => x.same_trans (h6 x hx) (k6 x (mask_false sub hx))⟩
  rcases k3 with k3 | k3
  · rcases h3 with h3 | h3
    · exact .inl (by rw [k3,h3])
    · exact .inr (by rw [k3,h3])
  · exact .inr k3
theorem Keeps.upd {L : Nat} {s t u : State} (h : Keeps L s t) (h1 : u.part = t.part) (h2 : u.pending = t.pending) (h3 : u.raw = t.raw)
   (h4 : t.freeCount ≤ u.freeCount)
   (r1 : smWf regReset t.regs = true → smWf regReset u.regs = true := by exact id)
   (r2 : smWf (fun _ => 0#32) t.doc.iram = true → smWf (fun _ => 0#32) u.doc.iram = true := by exact id)
   (r3 : smWf (fun _ => 0#8) t.doc.dram = true → smWf (fun _ => 0#8) u.doc.dram = true := by exact id)
   (r4 : smWf (fun _ => 0#8) t.host.mram = true → smWf (fun _ => 0#8) u.host.mram = true := by exact id)
   (r5 : smWf (fun _ => 0#8) t.host.ddr = true → smWf (fun _ => 0#8) u.host.ddr = true := by exact id)
   (r6 : smWf (fun _ => 0#8) t.host.hostMem = true → smWf (fun _ => 0#8) u.host.hostMem = true := by exact id)
   (r7 : t.log.fifo.length ≤ 64 → u.log.fifo.length ≤ 64 := by exact id)
   (r8 : vcoreOk t.pce.vcore → vcoreOk t.pce.cap → vcoreOk u.pce.vcore := by exact fun h _ => h)
   (r9 : vcoreOk t.pce.cap → vcoreOk u.pce.cap := by exact id)
   (r10 : t.vlt.reserve ≤ 512 → u.vlt.reserve ≤ 512 := by exact id)
   (r11 : t.vlt.ex.all (fun p => decide (p.2.index = p.1)) = true → u.vlt.ex.all (fun p => decide (p.2.index = p.1)) = true := by exact id)
   (f : ∀ a : Area, L.testBit a.bit = false → a.same t u := by
     intro a h; cases a <;> first | rfl | exact absurd h (by decide)) : Keeps L s u := by
  obtain ⟨g1,g2,g3,g4,g5,g6⟩ := h
  exact ⟨h1.trans g1, h2.trans g2, by rw [h3]; exact g3, Nat.le_trans g4 h4,
    fun w => have w := g5 w; ⟨r1 w.1, r2 w.2, r3 w.3, r4 w.4, r5 w.5, r6 w.6, r7 w.7, r8 w.8 w.9, r9 w.9, r10 w.10, r11 w.11⟩,
    fun x hx => x.same_trans (g6 x hx) (f x hx)⟩
theorem Keeps.ite {L : Nat} {s a b : State} {c : Prop} [Decidable c] (h : Keeps L s a) (k : Keeps L s b) : Keeps L s (if c then a else b) := by split <;> assumption
theorem Keeps.foldl {L : Nat} {α : Type} {s i : State} {f : State → α → State} {l : List α} (h : Keeps L s i)
   (k : ∀ x a, Keeps L s x → Keeps L s (f x a)) : Keeps L s (l.foldl f i) := by
  induction l generalizing i with
  | nil => exact h
  | cons a r ih => exact ih (k i a h)
/-- A pair of a value and a state: the state it gives is one that Keeps relates to s. -/
def KeepsF {α : Type} (L : Nat) (s : State) (p : α × State) : Prop := Keeps L s p.2
/-- A pair of a state and a value: the state it gives is one that Keeps relates to s. -/
def KeepsL {α : Type} (L : Nat) (s : State) (p : State × α) : Prop := Keeps L s p.1
/-- An outcome: the state it gives is one that Keeps relates to s. -/
def KeepsO {φ ρ : Type} (L : Nat) (s : State) (o : Host.Outcome State φ ρ) : Prop := ∀ t, o = .next t → Keeps L s t
/-- A pair of a value and a state, if there is one: the state it gives is one that Keeps relates to s. -/
def KeepsOF {α : Type} (L : Nat) (s : State) (o : Option (α × State)) : Prop := ∀ a t, o = some (a, t) → Keeps L s t
/-- A state, if there is one: the state it gives is one that Keeps relates to s. -/
def KeepsOS (L : Nat) (s : State) (o : Option State) : Prop := ∀ t, o = some t → Keeps L s t
theorem KeepsF.ite {L : Nat} {α : Type} {s : State} {a b : α × State} {c : Prop} [Decidable c] (h : KeepsF L s a) (k : KeepsF L s b) : KeepsF L s (if c then a else b) := by split <;> assumption
theorem KeepsL.ite {L : Nat} {α : Type} {s : State} {a b : State × α} {c : Prop} [Decidable c] (h : KeepsL L s a) (k : KeepsL L s b) : KeepsL L s (if c then a else b) := by split <;> assumption
theorem KeepsO.ite {L : Nat} {φ ρ : Type} {s : State} {a b : Host.Outcome State φ ρ} {c : Prop} [Decidable c] (h : KeepsO L s a) (k : KeepsO L s b) : KeepsO L s (if c then a else b) := by split <;> assumption
theorem KeepsOF.ite {L : Nat} {α : Type} {s : State} {a b : Option (α × State)} {c : Prop} [Decidable c] (h : KeepsOF L s a) (k : KeepsOF L s b) : KeepsOF L s (if c then a else b) := by split <;> assumption
theorem KeepsOS.ite {L : Nat} {s : State} {a b : Option State} {c : Prop} [Decidable c] (h : KeepsOS L s a) (k : KeepsOS L s b) : KeepsOS L s (if c then a else b) := by split <;> assumption
theorem KeepsF.trans {L m : Nat} {α : Type} {s t : State} {p : α × State} (h : Keeps L s t) (k : KeepsF m t p) (sub : m &&& L = m := by rfl) : KeepsF L s p := Keeps.trans h k sub
theorem KeepsL.trans {L m : Nat} {α : Type} {s t : State} {p : State × α} (h : Keeps L s t) (k : KeepsL m t p) (sub : m &&& L = m := by rfl) : KeepsL L s p := Keeps.trans h k sub
theorem KeepsO.trans {L m : Nat} {φ ρ : Type} {s t : State} {p : Host.Outcome State φ ρ} (h : Keeps L s t) (k : KeepsO m t p) (sub : m &&& L = m := by rfl) : KeepsO L s p := fun u e => h.trans (k u e) sub
theorem KeepsOF.trans {L m : Nat} {α : Type} {s t : State} {p : Option (α × State)} (h : Keeps L s t) (k : KeepsOF m t p) (sub : m &&& L = m := by rfl) : KeepsOF L s p := fun a u e => h.trans (k a u e) sub
theorem KeepsOS.trans {L m : Nat} {s t : State} {p : Option State} (h : Keeps L s t) (k : KeepsOS m t p) (sub : m &&& L = m := by rfl) : KeepsOS L s p := fun u e => h.trans (k u e) sub
/-- The effect of a Weawen instruction: the state it gives is one that Keeps relates to s. -/
def KeepsE (L : Nat) (s : State) (e : Eff) : Prop := ∀ c t, e = .ok c t → Keeps L s t
theorem KeepsE.ok {L : Nat} {s t : State} {c : JobCtx} (h : Keeps L s t) : KeepsE L s (.ok c t) := by
  intro c' t' e; cases e; exact h
theorem KeepsE.other {L : Nat} {s : State} {e : Eff} (h : ∀ c t, e ≠ .ok c t) : KeepsE L s e := fun c t k => absurd k (h c t)
theorem KeepsE.ite {L : Nat} {s : State} {a b : Eff} {c : Prop} [Decidable c] (h : KeepsE L s a) (k : KeepsE L s b) : KeepsE L s (if c then a else b) := by split <;> assumption
theorem KeepsE.trans {L m : Nat} {s t : State} {p : Eff} (h : Keeps L s t) (k : KeepsE m t p) (sub : m &&& L = m := by rfl) : KeepsE L s p := fun c u e => h.trans (k c u e) sub
theorem KeepsE.of_eq {L : Nat} {s t : State} {c : JobCtx} {p : Eff} (e : p = .ok c t) (h : KeepsE L s p) : Keeps L s t := h c t e
theorem KeepsF.snd {L : Nat} {α : Type} {s : State} {p : α × State} (h : KeepsF L s p) : Keeps L s p.2 := h
theorem KeepsL.fst {L : Nat} {α : Type} {s : State} {p : State × α} (h : KeepsL L s p) : Keeps L s p.1 := h
theorem KeepsF.mk {L : Nat} {α : Type} {s t : State} {a : α} (h : Keeps L s t) : KeepsF L s (a, t) := h
theorem KeepsL.mk {L : Nat} {α : Type} {s t : State} {a : α} (h : Keeps L s t) : KeepsL L s (t, a) := h
theorem KeepsOF.none {L : Nat} {α : Type} {s : State} : KeepsOF (α := α) L s none := fun _ _ h => nomatch h
theorem KeepsOS.none {L : Nat} {s : State} : KeepsOS L s none := fun _ h => nomatch h
theorem KeepsOF.some {L : Nat} {α : Type} {s : State} {p : α × State} (h : KeepsF L s p) : KeepsOF L s (some p) := by
  intro a t e; cases e; exact h
theorem KeepsOS.some {L : Nat} {s t : State} (h : Keeps L s t) : KeepsOS L s (some t) := by
  intro t e; cases e; exact h
theorem KeepsO.done {L : Nat} {s t : State} (h : Keeps L s t) : KeepsO L s (done t) := by
  intro u e; cases e; exact h
theorem KeepsF.of_eq {L : Nat} {α : Type} {s t : State} {a : α} {p : α × State} (e : p = (a, t)) (h : KeepsF L s p) : Keeps L s t := by
  subst e; exact h
theorem KeepsL.of_eq {L : Nat} {α : Type} {s t : State} {a : α} {p : State × α} (e : p = (t, a)) (h : KeepsL L s p) : Keeps L s t := by
  subst e; exact h
theorem KeepsOF.of_eq {L : Nat} {α : Type} {s t : State} {a : α} {p : Option (α × State)} (e : p = .some (a, t)) (h : KeepsOF L s p) : Keeps L s t := h a t e
theorem KeepsOS.of_eq {L : Nat} {s t : State} {p : Option State} (e : p = .some t) (h : KeepsOS L s p) : Keeps L s t := h t e
theorem Keeps.nextOf {L m : Nat} {s t : State} {o : Host.Outcome State Fault Refusal} (h : Keeps L s t) (k : KeepsO m t o) (sub : m &&& L = m := by rfl) : Keeps L s (nextOf t o) := by
  unfold Sys2Proof.Machine.nextOf
  split
  · rename_i u; exact h.trans (k u rfl) sub
  · exact h
theorem KeepsF.foldl {L : Nat} {α β : Type} {s : State} {i : β × State} {f : β × State → α → β × State} {l : List α} (h : KeepsF L s i)
   (k : ∀ x a, KeepsF L s x → KeepsF L s (f x a)) : KeepsF L s (l.foldl f i) := by
  induction l generalizing i with
  | nil => exact h
  | cons a r ih => exact ih (k i a h)
theorem KeepsL.foldl {L : Nat} {α β : Type} {s : State} {i : State × β} {f : State × β → α → State × β} {l : List α} (h : KeepsL L s i)
   (k : ∀ x a, KeepsL L s x → KeepsL L s (f x a)) : KeepsL L s (l.foldl f i) := by
  induction l generalizing i with
  | nil => exact h
  | cons a r ih => exact ih (k i a h)

/-- A law with a mask gives the frame over a list of areas. -/
theorem Keeps.sameBut {L : Nat} {s t : State} (l : List Area) (h : Keeps L s t)
    (hl : ∀ a : Area, a ∉ l → L.testBit a.bit = false := by intro a; cases a <;> decide) : SameBut l s t :=
  ⟨h.part, h.q, fun a ha => h.frame a (hl a ha)⟩

end Sys2Proof.Machine
end

