-- ==== Sys2Proof/Laws/KeepsOps.lean ====
section
/-! SUPPORT. What each function of Machine/Ops.lean leaves unchanged (the mask names the areas it may change). -/

set_option Elab.async false

namespace Sys2Proof.Machine

theorem keeps_setReg (s : State) (p1 : Nat) (p2 : Word) : Keeps 1 s (setReg s p1 p2) :=
  Keeps.upd (Keeps.refl s) rfl rfl rfl (Nat.le_refl _) (r1 := smPut_wf _ _ _ _)

theorem keeps_setRegFld (s : State) (p1 : Nat) (p2 : Nat) (p3 : Nat) (p4 : Nat) : Keeps 1 s (setRegFld s p1 p2 p3 p4) := by
  unfold setRegFld
  refine Keeps.trans ?_ (keeps_setReg _ _ _)
  exact Keeps.refl _

theorem keeps_setRegN (s : State) (p1 : Nat) (p2 : Nat) : Keeps 1 s (setRegN s p1 p2) := by
  unfold setRegN
  refine Keeps.trans ?_ (keeps_setReg _ _ _)
  exact Keeps.refl _

theorem keeps_setReg64 (s : State) (p1 : Nat) (p2 : Nat) (p3 : Nat) : Keeps 1 s (setReg64 s p1 p2 p3) := by
  unfold setReg64
  refine Keeps.trans ?_ (keeps_setRegN _ _ _)
  refine Keeps.trans ?_ (keeps_setRegN _ _ _)
  exact Keeps.refl _

theorem keeps_refuse (s : State) (p1 : Nat) (p2 : Nat) : Keeps 1 s (refuse s p1 p2) := by
  unfold refuse
  refine Keeps.trans ?_ (keeps_setRegN _ _ _)
  exact Keeps.refl _

theorem keeps_refuseC (s : State) (p1 : Nat) (p2 : Nat) : Keeps 1 s (refuseC s p1 p2) := by
  unfold refuseC
  refine Keeps.trans ?_ (keeps_refuse _ _ _)
  exact Keeps.refl _

theorem keeps_nextFree (s : State) : Keeps 2097152 s (nextFree s) := by
  unfold nextFree
  refine Keeps.upd (t := s) ?_ rfl rfl rfl (Nat.le_add_right _ _)
  exact Keeps.refl _

theorem keeps_setDom (s : State) (p1 : Nat) (p2 : Domain) : Keeps 8 s (setDom s p1 p2) := by
  unfold setDom
  refine Keeps.upd (t := s) ?_ rfl rfl rfl (Nat.le_refl _)
  exact Keeps.refl _

theorem keeps_setQ (s : State) (p1 : Nat) (p2 : Queue) : Keeps 32 s (setQ s p1 p2) := by
  unfold setQ
  refine Keeps.upd (t := s) ?_ rfl rfl rfl (Nat.le_refl _)
  exact Keeps.refl _

theorem keeps_bumpQuiet (s : State) (p1 : Nat) : Keeps 1 s (bumpQuiet s p1) := by
  unfold bumpQuiet
  extract_lets -underBinder -merge -useContext +onlyGivenNames x1
  try clear_value x1
  refine Keeps.ite ?_ ?_
  · exact Keeps.refl _
  · extract_lets -underBinder -merge -useContext +onlyGivenNames x2
    have h2 : Keeps 1 s x2 := by
      unfold x2
      refine Keeps.trans ?_ (keeps_setRegN _ _ _)
      exact Keeps.refl _
    try clear_value x2
    refine Keeps.ite ?_ ?_
    · refine Keeps.trans ?_ (keeps_setReg _ _ _)
      assumption
    · assumption

theorem keeps_logPush (s : State) (p1 p2 : Nat) (p3 : List Byte) : Keeps 5 s (logPush s p1 p2 p3) := by
  unfold logPush
  split
  · extract_lets -underBinder -merge -useContext +onlyGivenNames x y
    have hx : Keeps 5 s x := (keeps_setReg _ _ _).mono
    have hy : Keeps 5 s y := Keeps.trans hx (keeps_bumpQuiet _ _)
    clear_value y
    exact Keeps.upd hy rfl rfl rfl (Nat.le_refl _)
  · rename_i h
    refine Keeps.upd (Keeps.refl s) rfl rfl rfl (Nat.le_refl _) (r7 := fun _ => ?_)
    simp only [List.length_append, List.length_singleton]
    omega

theorem keeps_bump (s : State) (p1 : Nat) : Keeps 5 s (bump s p1) := by
  unfold bump
  extract_lets -underBinder -merge -useContext +onlyGivenNames x1
  try clear_value x1
  extract_lets -underBinder -merge -useContext +onlyGivenNames x2
  have h2 : Keeps 5 s x2 := by
    unfold x2
    refine Keeps.trans ?_ (keeps_bumpQuiet _ _)
    exact Keeps.refl _
  try clear_value x2
  refine Keeps.ite ?_ ?_
  · refine Keeps.trans ?_ (keeps_logPush _ _ _ _)
    assumption
  · assumption

theorem keeps_lifeBump (s : State) (p1 : Nat) (p2 : Nat) : Keeps 5 s (lifeBump s p1 p2) := by
  unfold lifeBump
  extract_lets -underBinder -merge -useContext +onlyGivenNames x1
  try clear_value x1
  extract_lets -underBinder -merge -useContext +onlyGivenNames x2
  have h2 : Keeps 5 s x2 := by
    unfold x2
    refine Keeps.trans ?_ (keeps_setRegN _ _ _)
    exact Keeps.refl _
  try clear_value x2
  refine Keeps.ite ?_ ?_
  · refine Keeps.trans ?_ (keeps_logPush _ _ _ _)
    refine Keeps.upd (t := x2) ?_ rfl rfl rfl (Nat.le_refl _)
    assumption
  · assumption

theorem keeps_bumpBy (s : State) (p1 : Nat) (p2 : Nat) : Keeps 5 s (bumpBy s p1 p2) := by
  unfold bumpBy
  extract_lets -underBinder -merge -useContext +onlyGivenNames x1
  try clear_value x1
  refine Keeps.ite ?_ ?_
  · exact Keeps.refl _
  · refine Keeps.ite ?_ ?_
    · refine Keeps.trans ?_ (keeps_bump _ _)
      refine Keeps.trans ?_ (keeps_setRegN _ _ _)
      exact Keeps.refl _
    · refine Keeps.trans ?_ (keeps_setRegN _ _ _)
      exact Keeps.refl _

theorem keeps_sendMsi (s : State) (p1 : Nat) : Keeps 7 s (sendMsi s p1) := by
  unfold sendMsi
  refine Keeps.ite ?_ ?_
  · exact Keeps.refl _
  · refine Keeps.ite ?_ ?_
    · refine Keeps.upd (t := s) ?_ rfl rfl rfl (Nat.le_refl _)
      exact Keeps.refl _
    · refine Keeps.trans ?_ (keeps_bump _ _)
      refine Keeps.upd (t := s) ?_ rfl rfl rfl (Nat.le_refl _)
      exact Keeps.refl _

theorem keeps_irqEval (s : State) : Keeps 7 s (irqEval s) := by
  unfold irqEval
  extract_lets -underBinder -merge -useContext +onlyGivenNames x1
  try clear_value x1
  extract_lets -underBinder -merge -useContext +onlyGivenNames x2
  extract_lets -underBinder -merge -useContext +onlyGivenNames x3
  have h3 : Keeps 7 s x3 := by
    unfold x3
    refine Keeps.upd (t := s) ?_ rfl rfl rfl (Nat.le_refl _)
    exact Keeps.refl _
  try clear_value x3
  refine Keeps.foldl ?_ (fun y4 a4 hy4 => ?_)
  · assumption
  · refine Keeps.trans ?_ (keeps_sendMsi _ _)
    assumption

theorem keeps_evt (s : State) (p1 : Nat) (p2 : Nat) : Keeps 7 s (evt s p1 p2) := by
  unfold evt
  refine Keeps.trans ?_ (keeps_irqEval _)
  refine Keeps.trans ?_ (keeps_setReg _ _ _)
  exact Keeps.refl _

theorem keeps_logEvent (s : State) (p1 : Nat) (p2 : Nat) (p3 : List Byte) : Keeps 7 s (logEvent s p1 p2 p3) := by
  unfold logEvent
  extract_lets -underBinder -merge -useContext +onlyGivenNames x1
  have h1 : Keeps 7 s x1 := by
    unfold x1
    refine Keeps.trans ?_ (keeps_logPush _ _ _ _)
    exact Keeps.refl _
  try clear_value x1
  refine Keeps.ite ?_ ?_
  · assumption
  · refine Keeps.trans ?_ (keeps_irqEval _)
    assumption

theorem keeps_opStart (s : State) (p1 : Nat) : Keeps 1 s (opStart s p1) := by
  unfold opStart
  refine Keeps.trans ?_ (keeps_setRegN _ _ _)
  exact Keeps.refl _

theorem keeps_opProgress (s : State) (p1 : Nat) (p2 : Nat) : Keeps 1 s (opProgress s p1 p2) := by
  unfold opProgress
  refine Keeps.trans ?_ (keeps_setRegFld _ _ _ _ _)
  exact Keeps.refl _

theorem keeps_opEnd (s : State) (p1 : Nat) (p2 : Nat) (p3 : Nat) : Keeps 1 s (opEnd s p1 p2 p3) := by
  unfold opEnd
  extract_lets -underBinder -merge -useContext +onlyGivenNames x1
  have h1 : Keeps 1 s x1 := by
    unfold x1
    refine Keeps.trans ?_ (keeps_setRegN _ _ _)
    exact Keeps.refl _
  try clear_value x1
  refine Keeps.ite ?_ ?_
  · refine Keeps.trans ?_ (keeps_refuseC _ _ _)
    assumption
  · assumption

theorem keeps_opRefuseStart (s : State) (p1 : Nat) : Keeps 1 s (opRefuseStart s p1) := by
  unfold opRefuseStart
  refine Keeps.trans ?_ (keeps_refuseC _ _ _)
  exact Keeps.refl _

theorem keeps_opRefuseStop (s : State) (p1 : Nat) : Keeps 1 s (opRefuseStop s p1) := by
  unfold opRefuseStop
  refine Keeps.trans ?_ (keeps_refuseC _ _ _)
  exact Keeps.refl _

theorem keeps_opStop (s : State) (p1 : Nat) : Keeps 1 s (opStop s p1) := by
  unfold opStop
  refine Keeps.ite ?_ ?_
  · refine Keeps.trans ?_ (keeps_opEnd _ _ _ _)
    exact Keeps.refl _
  · refine Keeps.trans ?_ (keeps_opRefuseStop _ _)
    exact Keeps.refl _

theorem keeps_done (s : State) : KeepsO 0 s (done s) := by
  unfold done
  refine KeepsO.done ?_
  exact Keeps.refl _

end Sys2Proof.Machine
end

