-- ==== Sys2Proof/Laws/KeepsQueues.lean ====
section
/-! SUPPORT. What each function of Machine/Queues.lean leaves unchanged (the mask names the areas it may change). -/

set_option Elab.async false

namespace Sys2Proof.Machine

theorem keeps_setPort (s : State) (p1 : Nat) (p2 : PortSt) : Keeps 128 s (setPort s p1 p2) := by
  unfold setPort
  refine Keeps.upd (t := s) ?_ rfl rfl rfl (Nat.le_refl _)
  exact Keeps.refl _

theorem keeps_flowSet (s : State) (p1 : Nat) (p2 : Bool) : Keeps 128 s (flowSet s p1 p2) := by
  unfold flowSet
  extract_lets -underBinder -merge -useContext +onlyGivenNames x1
  try clear_value x1
  refine Keeps.trans ?_ (keeps_setPort _ _ _)
  exact Keeps.refl _

theorem keeps_setHeld (s : State) (p1 : Nat) (p2 : Nat) : Keeps 167 s (setHeld s p1 p2) := by
  unfold setHeld
  extract_lets -underBinder -merge -useContext +onlyGivenNames x1
  try clear_value x1
  extract_lets -underBinder -merge -useContext +onlyGivenNames x2
  try clear_value x2
  extract_lets -underBinder -merge -useContext +onlyGivenNames x3
  try clear_value x3
  extract_lets -underBinder -merge -useContext +onlyGivenNames x4
  have h4 : Keeps 167 s x4 := by
    unfold x4
    refine Keeps.trans ?_ (keeps_setQ _ _ _)
    exact Keeps.refl _
  try clear_value x4
  extract_lets -underBinder -merge -useContext +onlyGivenNames x5
  have h5 : Keeps 167 s x5 := by
    unfold x5
    refine Keeps.ite ?_ ?_
    · refine Keeps.trans ?_ (keeps_evt _ _ _)
      refine Keeps.trans ?_ (keeps_bump _ _)
      assumption
    · assumption
  try clear_value x5
  extract_lets -underBinder -merge -useContext +onlyGivenNames x6
  have h6 : Keeps 167 s x6 := by
    unfold x6
    refine Keeps.ite ?_ ?_
    · refine Keeps.trans ?_ (keeps_flowSet _ _ _)
      assumption
    · assumption
  try clear_value x6
  extract_lets -underBinder -merge -useContext +onlyGivenNames x7
  try clear_value x7
  extract_lets -underBinder -merge -useContext +onlyGivenNames x8
  have h8 : Keeps 167 s x8 := by
    unfold x8
    refine Keeps.ite ?_ ?_
    · refine Keeps.trans ?_ (keeps_setRegN _ _ _)
      assumption
    · assumption
  try clear_value x8
  refine Keeps.ite ?_ ?_
  · refine Keeps.trans ?_ (keeps_logEvent _ _ _ _)
    refine Keeps.trans ?_ (keeps_evt _ _ _)
    assumption
  · assumption

theorem keeps_takeCells (s : State) (p1 : Nat) (p2 : Nat) : Keeps 167 s (takeCells s p1 p2) := by
  unfold takeCells
  refine Keeps.trans ?_ (keeps_setHeld _ _ _)
  exact Keeps.refl _

theorem keeps_releaseCells (s : State) (p1 : Nat) (p2 : Nat) : Keeps 167 s (releaseCells s p1 p2) := by
  unfold releaseCells
  refine Keeps.trans ?_ (keeps_setHeld _ _ _)
  exact Keeps.refl _

theorem keeps_consumerRelease (s : State) (p1 : Nat) (p2 : Nat) : Keeps 167 s (consumerRelease s p1 p2) := by
  unfold consumerRelease
  extract_lets -underBinder -merge -useContext +onlyGivenNames x1
  try clear_value x1
  split
  · refine Keeps.trans ?_ (keeps_releaseCells _ _ _)
    refine Keeps.trans ?_ (keeps_setQ _ _ _)
    exact Keeps.refl _
  · exact Keeps.refl _

theorem keeps_linkPacket (s : State) (p1 : Nat) (p2 : Packet) : Keeps 39 s (linkPacket s p1 p2) := by
  unfold linkPacket
  extract_lets -underBinder -merge -useContext +onlyGivenNames x1
  try clear_value x1
  refine Keeps.trans ?_ (keeps_irqEval _)
  refine Keeps.trans ?_ (keeps_bump _ _)
  refine Keeps.trans ?_ (keeps_setQ _ _ _)
  exact Keeps.refl _

theorem keeps_commitPacket (s : State) (p1 : Nat) (p2 : Packet) : Keeps 167 s (commitPacket s p1 p2) := by
  unfold commitPacket
  refine Keeps.trans ?_ (keeps_linkPacket _ _ _)
  refine Keeps.trans ?_ (keeps_takeCells _ _ _)
  exact Keeps.refl _

theorem keeps_devPush (s : State) (p1 : Nat) (p2 : Packet) : Keeps 167 s (devPush s p1 p2) := by
  unfold devPush
  refine Keeps.ite ?_ ?_
  · refine Keeps.trans ?_ (keeps_commitPacket _ _ _)
    exact Keeps.refl _
  · refine Keeps.upd (t := s) ?_ rfl rfl rfl (Nat.le_refl _)
    exact Keeps.refl _

theorem keeps_queLast (s : State) (p1 : Nat) (p2 : Nat) : Keeps 1 s (queLast s p1 p2) := by
  unfold queLast
  refine Keeps.trans ?_ (keeps_setRegN _ _ _)
  exact Keeps.refl _

theorem keeps_queRefuse (s : State) (p1 : Nat) (p2 : Nat) : Keeps 1 s (queRefuse s p1 p2) := by
  unfold queRefuse
  refine Keeps.trans ?_ (keeps_queLast _ _ _)
  refine Keeps.trans ?_ (keeps_refuse _ _ _)
  exact Keeps.refl _

theorem keeps_devCopy (s : State) (p1 : Nat) (p2 : Packet) (p3 : Nat) : Keeps 167 s (devCopy s p1 p2 p3) := by
  unfold devCopy
  refine Keeps.ite ?_ ?_
  · refine Keeps.trans ?_ (keeps_commitPacket _ _ _)
    exact Keeps.refl _
  · extract_lets -underBinder -merge -useContext +onlyGivenNames x1
    have h1 : Keeps 167 s x1 := by
      unfold x1
      refine Keeps.trans ?_ (keeps_bump _ _)
      refine Keeps.trans ?_ (keeps_bump _ _)
      exact Keeps.refl _
    try clear_value x1
    refine Keeps.trans ?_ (keeps_logEvent _ _ _ _)
    refine Keeps.trans ?_ (keeps_evt _ _ _)
    refine Keeps.trans ?_ (keeps_queLast _ _ _)
    assumption

theorem keeps_qcfgStore (s : State) (p1 : Nat) (p2 : Word) : Keeps 33 s (qcfgStore s p1 p2) := by
  unfold qcfgStore
  extract_lets -underBinder -merge -useContext +onlyGivenNames x1
  try clear_value x1
  extract_lets -underBinder -merge -useContext +onlyGivenNames x2
  have h2 : Keeps 33 s x2 := by
    unfold x2
    refine Keeps.trans ?_ (keeps_setQ _ _ _)
    exact Keeps.refl _
  try clear_value x2
  refine Keeps.ite ?_ ?_
  · refine Keeps.trans ?_ (keeps_queRefuse _ _ _)
    assumption
  · assumption

theorem keeps_pushEndAbandon (s : State) (p1 : Nat) (p2 : Nat) : Keeps 167 s (pushEndAbandon s p1 p2) := by
  unfold pushEndAbandon
  extract_lets -underBinder -merge -useContext +onlyGivenNames x1
  try clear_value x1
  split
  · exact Keeps.refl _
  · extract_lets -underBinder -merge -useContext +onlyGivenNames x2
    have h2 : Keeps 167 s x2 := by
      unfold x2
      refine Keeps.trans ?_ (keeps_setQ _ _ _)
      exact Keeps.refl _
    try clear_value x2
    refine Keeps.ite ?_ ?_
    · refine Keeps.trans ?_ (keeps_releaseCells _ _ _)
      assumption
    · assumption

theorem keeps_queueDisable (s : State) (p1 : Nat) : Keeps 167 s (queueDisable s p1) := by
  unfold queueDisable
  extract_lets -underBinder -merge -useContext +onlyGivenNames x1
  have h1 : Keeps 167 s x1 := by
    unfold x1
    refine Keeps.trans ?_ (keeps_pushEndAbandon _ _ _)
    refine Keeps.trans ?_ (keeps_pushEndAbandon _ _ _)
    exact Keeps.refl _
  try clear_value x1
  extract_lets -underBinder -merge -useContext +onlyGivenNames x2
  try clear_value x2
  extract_lets -underBinder -merge -useContext +onlyGivenNames x3
  try clear_value x3
  extract_lets -underBinder -merge -useContext +onlyGivenNames x4
  have h4 : Keeps 167 s x4 := by
    unfold x4
    refine Keeps.trans ?_ (keeps_setQ _ _ _)
    assumption
  try clear_value x4
  extract_lets -underBinder -merge -useContext +onlyGivenNames x5
  have h5 : Keeps 167 s x5 := by
    unfold x5
    refine Keeps.trans ?_ (keeps_setHeld _ _ _)
    assumption
  try clear_value x5
  refine Keeps.trans ?_ (keeps_irqEval _)
  refine Keeps.foldl ?_ (fun y6 a6 hy6 => ?_)
  · assumption
  · refine Keeps.trans ?_ (keeps_bump _ _)
    assumption

theorem keeps_qcfgWrite (s : State) (p1 : Word) : Keeps 167 s (qcfgWrite s p1) := by
  unfold qcfgWrite
  extract_lets -underBinder -merge -useContext +onlyGivenNames x1
  try clear_value x1
  refine Keeps.ite ?_ ?_
  · refine Keeps.trans ?_ (keeps_qcfgStore _ _ _)
    exact Keeps.refl _
  · refine Keeps.ite ?_ ?_
    · extract_lets -underBinder -merge -useContext +onlyGivenNames x2
      try clear_value x2
      extract_lets -underBinder -merge -useContext +onlyGivenNames x3
      have h3 : Keeps 167 s x3 := by
        unfold x3
        refine Keeps.ite ?_ ?_
        · refine Keeps.trans ?_ (keeps_queRefuse _ _ _)
          exact Keeps.refl _
        · exact Keeps.refl _
      try clear_value x3
      refine Keeps.ite ?_ ?_
      · assumption
      · refine Keeps.trans ?_ (keeps_queueDisable _ _)
        assumption
    · extract_lets -underBinder -merge -useContext +onlyGivenNames x4
      have h4 : Keeps 167 s x4 := by
        unfold x4
        refine Keeps.trans ?_ (keeps_qcfgStore _ _ _)
        exact Keeps.refl _
      try clear_value x4
      refine Keeps.ite ?_ ?_
      · extract_lets -underBinder -merge -useContext +onlyGivenNames x5
        try clear_value x5
        refine Keeps.ite ?_ ?_
        · refine Keeps.trans ?_ (keeps_setQ _ _ _)
          assumption
        · refine Keeps.trans ?_ (keeps_queRefuse _ _ _)
          assumption
      · assumption

theorem keeps_qlimWrite (s : State) (p1 : Bool) (p2 : Word) : Keeps 33 s (qlimWrite s p1 p2) := by
  unfold qlimWrite
  extract_lets -underBinder -merge -useContext +onlyGivenNames x1
  try clear_value x1
  extract_lets -underBinder -merge -useContext +onlyGivenNames x2
  try clear_value x2
  extract_lets -underBinder -merge -useContext +onlyGivenNames x3
  try clear_value x3
  extract_lets -underBinder -merge -useContext +onlyGivenNames x4
  have h4 : Keeps 33 s x4 := by
    unfold x4
    refine Keeps.trans ?_ (keeps_setQ _ _ _)
    exact Keeps.refl _
  try clear_value x4
  refine Keeps.ite ?_ ?_
  · refine Keeps.ite ?_ ?_
    · refine Keeps.ite ?_ ?_
      · exact Keeps.refl _
      · refine Keeps.trans ?_ (keeps_queRefuse _ _ _)
        exact Keeps.refl _
    · assumption
  · refine Keeps.ite ?_ ?_
    · exact Keeps.refl _
    · refine Keeps.ite ?_ ?_
      · refine Keeps.trans ?_ (keeps_queRefuse _ _ _)
        exact Keeps.refl _
      · assumption

theorem keeps_releasePopped (s : State) (p1 : Nat) (p2 : Nat) : Keeps 167 s (releasePopped s p1 p2) := by
  unfold releasePopped
  extract_lets -underBinder -merge -useContext +onlyGivenNames x1
  try clear_value x1
  split
  · exact Keeps.refl _
  · refine Keeps.trans ?_ (keeps_releaseCells _ _ _)
    refine Keeps.trans ?_ (keeps_setQ _ _ _)
    exact Keeps.refl _

theorem keeps_respond (s : State) (p1 : List Word) : Keeps 2 s (respond s p1) := by
  unfold respond
  refine Keeps.upd (t := s) ?_ rfl rfl rfl (Nat.le_refl _)
  exact Keeps.refl _

theorem keeps_popNotValid (s : State) : Keeps 7 s (popNotValid s) := by
  unfold popNotValid
  refine Keeps.trans ?_ (keeps_respond _ _)
  refine Keeps.trans ?_ (keeps_bump _ _)
  exact Keeps.refl _

theorem keeps_popTake (s : State) (p1 : Nat) (p2 : Nat) : Keeps 39 s (popTake s p1 p2) := by
  unfold popTake
  extract_lets -underBinder -merge -useContext +onlyGivenNames x1
  try clear_value x1
  split
  · refine Keeps.trans ?_ (keeps_popNotValid _)
    exact Keeps.refl _
  · extract_lets -underBinder -merge -useContext +onlyGivenNames x2
    try clear_value x2
    extract_lets -underBinder -merge -useContext +onlyGivenNames x3
    have h3 : Keeps 39 s x3 := by
      unfold x3
      refine Keeps.trans ?_ (keeps_setQ _ _ _)
      exact Keeps.refl _
    try clear_value x3
    refine Keeps.trans ?_ (keeps_irqEval _)
    refine Keeps.trans ?_ (keeps_respond _ _)
    refine Keeps.trans ?_ (keeps_bump _ _)
    assumption

theorem keeps_queuePop (s : State) (p1 : Nat) (p2 : Nat) : Keeps 167 s (queuePop s p1 p2) := by
  unfold queuePop
  refine Keeps.ite ?_ ?_
  · extract_lets -underBinder -merge -useContext +onlyGivenNames x1
    try clear_value x1
    refine Keeps.trans ?_ (keeps_respond _ _)
    refine Keeps.trans ?_ (keeps_queRefuse _ _ _)
    refine Keeps.trans ?_ (keeps_setQ _ _ _)
    exact Keeps.refl _
  · extract_lets -underBinder -merge -useContext +onlyGivenNames x2
    have h2 : Keeps 167 s x2 := by
      unfold x2
      refine Keeps.trans ?_ (keeps_releasePopped _ _ _)
      exact Keeps.refl _
    try clear_value x2
    refine Keeps.ite ?_ ?_
    · refine Keeps.ite ?_ ?_
      · refine Keeps.upd (t := x2) ?_ rfl rfl rfl (Nat.le_refl _)
        assumption
      · extract_lets -underBinder -merge -useContext +onlyGivenNames x3
        try clear_value x3
        refine Keeps.trans ?_ (keeps_popNotValid _)
        refine Keeps.trans ?_ (keeps_setQ _ _ _)
        assumption
    · refine Keeps.trans ?_ (keeps_popTake _ _ _)
      assumption

theorem keeps_pushReason (s : State) (p1 : Nat) (p2 : Nat) (p3 : Nat) : Keeps 32 s (pushReason s p1 p2 p3) := by
  unfold pushReason
  extract_lets -underBinder -merge -useContext +onlyGivenNames x1
  try clear_value x1
  refine Keeps.trans ?_ (keeps_setQ _ _ _)
  exact Keeps.refl _

theorem keeps_pushRefuse (s : State) (p1 : Nat) (p2 : Nat) (p3 : Nat) : Keeps 33 s (pushRefuse s p1 p2 p3) := by
  unfold pushRefuse
  refine Keeps.trans ?_ (keeps_pushReason _ _ _ _)
  refine Keeps.trans ?_ (keeps_queRefuse _ _ _)
  exact Keeps.refl _

theorem keeps_pushOpen (s : State) (p1 : Nat) (p2 : Nat) (p3 : Nat) : Keeps 167 s (pushOpen s p1 p2 p3) := by
  unfold pushOpen
  refine Keeps.ite ?_ ?_
  · extract_lets -underBinder -merge -useContext +onlyGivenNames x1
    have h1 : Keeps 167 s x1 := by
      unfold x1
      refine Keeps.trans ?_ (keeps_takeCells _ _ _)
      exact Keeps.refl _
    try clear_value x1
    extract_lets -underBinder -merge -useContext +onlyGivenNames x2
    try clear_value x2
    refine Keeps.trans ?_ (keeps_setQ _ _ _)
    assumption
  · extract_lets -underBinder -merge -useContext +onlyGivenNames x3
    try clear_value x3
    refine Keeps.trans ?_ (keeps_setQ _ _ _)
    exact Keeps.refl _

theorem keeps_execPushStart (p0 : Nat) (p1 : Nat) (p2 : Nat) (s : State) : KeepsO 167 s (execPushStart p0 p1 p2 s) := by
  unfold execPushStart
  refine KeepsO.done ?_
  refine Keeps.ite ?_ ?_
  · refine Keeps.trans ?_ (keeps_queRefuse _ _ _)
    exact Keeps.refl _
  · refine Keeps.ite ?_ ?_
    · refine Keeps.trans ?_ (keeps_pushReason _ _ _ _)
      refine Keeps.trans ?_ (keeps_pushEndAbandon _ _ _)
      exact Keeps.refl _
    · refine Keeps.ite ?_ ?_
      · refine Keeps.trans ?_ (keeps_pushRefuse _ _ _ _)
        exact Keeps.refl _
      · refine Keeps.ite ?_ ?_
        · refine Keeps.trans ?_ (keeps_pushRefuse _ _ _ _)
          exact Keeps.refl _
        · refine Keeps.trans ?_ (keeps_pushReason _ _ _ _)
          refine Keeps.trans ?_ (keeps_pushOpen _ _ _ _)
          exact Keeps.refl _

theorem keeps_execPushReserved (p0 : Nat) (p1 : Nat) (s : State) : KeepsO 167 s (execPushReserved p0 p1 s) := by
  unfold execPushReserved
  refine KeepsO.done ?_
  split
  · refine Keeps.ite ?_ ?_
    · exact Keeps.refl _
    · refine Keeps.trans ?_ (keeps_pushOpen _ _ _ _)
      exact Keeps.refl _
  · exact Keeps.refl _

theorem keeps_execPushDataWrite (p0 : Nat) (p1 : Nat) (p2 : Word) (s : State) : KeepsO 33 s (execPushDataWrite p0 p1 p2 s) := by
  unfold execPushDataWrite
  refine KeepsO.done ?_
  refine Keeps.ite ?_ ?_
  · refine Keeps.trans ?_ (keeps_queRefuse _ _ _)
    exact Keeps.refl _
  · split
    · refine Keeps.ite ?_ ?_
      · extract_lets -underBinder -merge -useContext +onlyGivenNames x1
        try clear_value x1
        extract_lets -underBinder -merge -useContext +onlyGivenNames x2
        try clear_value x2
        refine Keeps.trans ?_ (keeps_setQ _ _ _)
        exact Keeps.refl _
      · refine Keeps.trans ?_ (keeps_pushRefuse _ _ _ _)
        exact Keeps.refl _
    · refine Keeps.trans ?_ (keeps_pushRefuse _ _ _ _)
      exact Keeps.refl _

theorem keeps_execPushEnd (p0 : Nat) (p1 : Nat) (s : State) : KeepsO 39 s (execPushEnd p0 p1 s) := by
  unfold execPushEnd
  refine KeepsO.done ?_
  refine Keeps.ite ?_ ?_
  · refine Keeps.trans ?_ (keeps_queRefuse _ _ _)
    exact Keeps.refl _
  · split
    · refine Keeps.ite ?_ ?_
      · extract_lets -underBinder -merge -useContext +onlyGivenNames x1
        try clear_value x1
        extract_lets -underBinder -merge -useContext +onlyGivenNames x2
        have h2 : Keeps 39 s x2 := by
          unfold x2
          refine Keeps.trans ?_ (keeps_pushReason _ _ _ _)
          refine Keeps.trans ?_ (keeps_setQ _ _ _)
          exact Keeps.refl _
        try clear_value x2
        refine Keeps.trans ?_ (keeps_linkPacket _ _ _)
        assumption
      · refine Keeps.trans ?_ (keeps_pushRefuse _ _ _ _)
        exact Keeps.refl _
    · refine Keeps.trans ?_ (keeps_pushRefuse _ _ _ _)
      exact Keeps.refl _

theorem keeps_execPop (p0 : Nat) (p1 : Nat) (s : State) : KeepsO 167 s (execPop p0 p1 s) := by
  unfold execPop
  refine KeepsO.done ?_
  refine Keeps.trans ?_ (keeps_queuePop _ _ _)
  exact Keeps.refl _

theorem keeps_execPopWaitEnd (s : State) : KeepsO 39 s (execPopWaitEnd s) := by
  unfold execPopWaitEnd
  refine KeepsO.done ?_
  split
  · exact Keeps.refl _
  · extract_lets -underBinder -merge -useContext +onlyGivenNames x1
    extract_lets -underBinder -merge -useContext +onlyGivenNames x2
    have h2 : Keeps 39 s x2 := by
      unfold x2
      refine Keeps.upd (t := s) ?_ rfl rfl rfl (Nat.le_refl _)
      exact Keeps.refl _
    try clear_value x2
    extract_lets -underBinder -merge -useContext +onlyGivenNames x3
    try clear_value x3
    refine Keeps.ite ?_ ?_
    · refine Keeps.trans ?_ (keeps_popTake _ _ _)
      assumption
    · refine Keeps.trans ?_ (keeps_popNotValid _)
      refine Keeps.trans ?_ (keeps_bump _ _)
      refine Keeps.trans ?_ (keeps_setQ _ _ _)
      assumption

theorem keeps_execPopDataRead (p0 : Nat) (p1 : Nat) (s : State) : KeepsO 35 s (execPopDataRead p0 p1 s) := by
  unfold execPopDataRead
  refine KeepsO.done ?_
  refine Keeps.ite ?_ ?_
  · refine Keeps.trans ?_ (keeps_respond _ _)
    refine Keeps.trans ?_ (keeps_queRefuse _ _ _)
    exact Keeps.refl _
  · split
    · refine Keeps.trans ?_ (keeps_respond _ _)
      exact Keeps.refl _
    · extract_lets -underBinder -merge -useContext +onlyGivenNames x1
      try clear_value x1
      extract_lets -underBinder -merge -useContext +onlyGivenNames x2
      try clear_value x2
      extract_lets -underBinder -merge -useContext +onlyGivenNames x3
      have h3 : Keeps 35 s x3 := by
        unfold x3
        refine Keeps.trans ?_ (keeps_setQ _ _ _)
        exact Keeps.refl _
      try clear_value x3
      refine Keeps.trans ?_ (keeps_respond _ _)
      assumption

theorem keeps_execQueueDone (p0 : Nat) (p1 : Nat) (s : State) : KeepsO 167 s (execQueueDone p0 p1 s) := by
  unfold execQueueDone
  refine KeepsO.done ?_
  refine Keeps.ite ?_ ?_
  · refine Keeps.trans ?_ (keeps_releasePopped _ _ _)
    exact Keeps.refl _
  · refine Keeps.trans ?_ (keeps_queRefuse _ _ _)
    exact Keeps.refl _

theorem keeps_execQueueEnable (p0 : Word) (s : State) : KeepsO 167 s (execQueueEnable p0 s) := by
  unfold execQueueEnable
  refine KeepsO.done ?_
  refine Keeps.trans ?_ (keeps_qcfgWrite _ _)
  exact Keeps.refl _

theorem keeps_execQueueDisable (p0 : Word) (s : State) : KeepsO 167 s (execQueueDisable p0 s) := by
  unfold execQueueDisable
  refine KeepsO.done ?_
  refine Keeps.trans ?_ (keeps_qcfgWrite _ _)
  exact Keeps.refl _

theorem keeps_execProducerWaitCommit (s : State) : KeepsO 167 s (execProducerWaitCommit s) := by
  unfold execProducerWaitCommit
  refine KeepsO.done ?_
  split
  · exact Keeps.refl _
  · refine Keeps.trans ?_ (keeps_commitPacket _ _ _)
    refine Keeps.upd (t := s) ?_ rfl rfl rfl (Nat.le_refl _)
    exact Keeps.refl _

end Sys2Proof.Machine
end

