-- ==== Sys2Proof/Laws/KeepsPlan.lean ====
section
/-! SUPPORT. What each function of Machine/Plan.lean leaves unchanged (the mask names the areas it may change). -/

set_option Elab.async false

namespace Sys2Proof.Machine

theorem keeps_setPlanSlot (s : State) (p1 : Nat) (p2 : PlanSlot) : Keeps 256 s (setPlanSlot s p1 p2) := by
  unfold setPlanSlot
  refine Keeps.upd (t := s) ?_ rfl rfl rfl (Nat.le_refl _)
  exact Keeps.refl _

end Sys2Proof.Machine
end

