-- ==== Sys2Proof/Laws/KeepsHiashMsg.lean ====
section
/-! SUPPORT. What each function of Machine/HiashMsg.lean leaves unchanged (the mask names the areas it may change). -/

set_option Elab.async false

namespace Sys2Proof.Machine

theorem keeps_txQueue (s : State) (p1 : Nat) (p2 : Bool) (p3 : Nat) (p4 : List Byte) : Keeps 167 s (txQueue s p1 p2 p3 p4) := by
  unfold txQueue
  refine Keeps.trans ?_ (keeps_devPush _ _ _)
  exact Keeps.refl _

theorem keeps_expressOr (s : State) (p1 : Nat) (p2 : Bool) (p3 : Nat) (p4 : List Byte) : Keeps 167 s (expressOr s p1 p2 p3 p4) := by
  unfold expressOr
  refine Keeps.ite ?_ ?_
  · refine Keeps.trans ?_ (keeps_bump _ _)
    exact Keeps.refl _
  · refine Keeps.trans ?_ (keeps_txQueue _ _ _ _ _)
    exact Keeps.refl _

theorem keeps_outFrame (s : State) (p1 : Nat) (p2 : Bool) (p3 : Nat) (p4 : List Byte) : Keeps 131239 s (outFrame s p1 p2 p3 p4) := by
  unfold outFrame
  refine Keeps.ite ?_ ?_
  · refine Keeps.trans ?_ (keeps_expressOr _ _ _ _ _)
    exact Keeps.refl _
  · refine Keeps.ite ?_ ?_
    · refine Keeps.upd (t := s) ?_ rfl rfl rfl (Nat.le_refl _)
      exact Keeps.refl _
    · exact Keeps.refl _

theorem keeps_takeSeq (s : State) (p1 : Nat) : Keeps 32768 s (takeSeq s p1) := by
  unfold takeSeq
  refine Keeps.upd (t := s) ?_ rfl rfl rfl (Nat.le_refl _)
  exact Keeps.refl _

theorem keeps_sendOn (s : State) (p1 : List Nat) (p2 : HMsg) : Keeps 2228391 s (sendOn s p1 p2) := by
  unfold sendOn
  extract_lets -underBinder -merge -useContext +onlyGivenNames x1
  try clear_value x1
  extract_lets -underBinder -merge -useContext +onlyGivenNames x2
  try clear_value x2
  extract_lets -underBinder -merge -useContext +onlyGivenNames x3
  try clear_value x3
  refine Keeps.trans ?_ (keeps_nextFree _)
  refine Keeps.foldl ?_ (fun y4 a4 hy4 => ?_)
  · exact Keeps.refl _
  · extract_lets -underBinder -merge -useContext +onlyGivenNames x5
    try clear_value x5
    refine Keeps.ite ?_ ?_
    · refine Keeps.trans ?_ (keeps_outFrame _ _ _ _ _)
      assumption
    · refine Keeps.trans ?_ (keeps_txQueue _ _ _ _ _)
      assumption

theorem keeps_hshSendPorts (s : State) (p1 : List Nat) (p2 : HMsg) : Keeps 2261159 s (hshSendPorts s p1 p2) := by
  unfold hshSendPorts
  refine Keeps.ite ?_ ?_
  · refine Keeps.trans ?_ (keeps_takeSeq _ _)
    refine Keeps.trans ?_ (keeps_bump _ _)
    refine Keeps.trans ?_ (keeps_sendOn _ _ _)
    exact Keeps.refl _
  · exact Keeps.refl _

theorem keeps_hshSend (s : State) (p1 : Nat) (p2 : Nat) (p3 : Nat) (p4 : Nat) (p5 : Nat) (p6 : Nat) (p7 : Nat) (p8 : List Byte) : Keeps 2261159 s (hshSend s p1 p2 p3 p4 p5 p6 p7 p8) := by
  unfold hshSend
  refine Keeps.trans ?_ (keeps_hshSendPorts _ _ _)
  exact Keeps.refl _

theorem keeps_twinMsg (s : State) (p1 : Nat) (p2 : List Byte) : Keeps 2130087 s (twinMsg s p1 p2) := by
  unfold twinMsg
  extract_lets -underBinder -merge -useContext +onlyGivenNames x1
  try clear_value x1
  refine Keeps.ite ?_ ?_
  · extract_lets -underBinder -merge -useContext +onlyGivenNames x2
    try clear_value x2
    extract_lets -underBinder -merge -useContext +onlyGivenNames x3
    try clear_value x3
    extract_lets -underBinder -merge -useContext +onlyGivenNames x4
    try clear_value x4
    extract_lets -underBinder -merge -useContext +onlyGivenNames x5
    have h5 : Keeps 2130087 s x5 := by
      unfold x5
      refine Keeps.trans ?_ (keeps_nextFree _)
      refine Keeps.trans ?_ (keeps_txQueue _ _ _ _ _)
      exact Keeps.refl _
    try clear_value x5
    extract_lets -underBinder -merge -useContext +onlyGivenNames x6
    have h6 : Keeps 2130087 s x6 := by
      unfold x6
      refine Keeps.ite ?_ ?_
      · refine Keeps.trans ?_ (keeps_setRegN _ _ _)
        assumption
      · assumption
    try clear_value x6
    refine Keeps.trans ?_ (keeps_takeSeq _ _)
    refine Keeps.trans ?_ (keeps_bump _ _)
    refine Keeps.trans ?_ (keeps_bump _ _)
    assumption
  · exact Keeps.refl _

theorem keeps_twinSend (s : State) (p1 : Nat) (p2 : List Byte) : Keeps 2130087 s (twinSend s p1 p2) := by
  unfold twinSend
  refine Keeps.ite ?_ ?_
  · refine Keeps.trans ?_ (keeps_twinMsg _ _ _)
    exact Keeps.refl _
  · exact Keeps.refl _

theorem keeps_twinMark (s : State) (p1 : Nat) (p2 : Nat) (p3 : Nat) : Keeps 2130087 s (twinMark s p1 p2 p3) := by
  unfold twinMark
  refine Keeps.trans ?_ (keeps_twinSend _ _ _)
  exact Keeps.refl _

theorem keeps_twinRefuse (s : State) : Keeps 1 s (twinRefuse s) := by
  unfold twinRefuse
  refine Keeps.trans ?_ (keeps_refuse _ _ _)
  exact Keeps.refl _

end Sys2Proof.Machine
end

