-- ==== Sys2Proof/Laws/KeepsJobs.lean ====
section
/-! SUPPORT. What each function of Machine/Jobs.lean leaves unchanged (the mask names the areas it may change). -/

set_option Elab.async false

namespace Sys2Proof.Machine

theorem keeps_setLevel (s : State) (p1 : Nat) (p2 : List Job) : Keeps 2048 s (setLevel s p1 p2) := by
  unfold setLevel
  refine Keeps.upd (t := s) ?_ rfl rfl rfl (Nat.le_refl _)
  exact Keeps.refl _

theorem keeps_markFull (s : State) (p1 : Nat) : Keeps 2055 s (markFull s p1) := by
  unfold markFull
  refine Keeps.ite ?_ ?_
  · exact Keeps.refl _
  · extract_lets -underBinder -merge -useContext +onlyGivenNames x1
    extract_lets -underBinder -merge -useContext +onlyGivenNames x2
    have h2 : Keeps 2055 s x2 := by
      unfold x2
      refine Keeps.upd (t := s) ?_ rfl rfl rfl (Nat.le_refl _)
      exact Keeps.refl _
    try clear_value x2
    refine Keeps.trans ?_ (keeps_logEvent _ _ _ _)
    refine Keeps.trans ?_ (keeps_evt _ _ _)
    refine Keeps.trans ?_ (keeps_bump _ _)
    assumption

theorem keeps_holdTick (s : State) (p1 : Nat) : Keeps 2053 s (holdTick s p1) := by
  unfold holdTick
  split
  · exact Keeps.refl _
  · extract_lets -underBinder -merge -useContext +onlyGivenNames x1
    try clear_value x1
    refine Keeps.trans ?_ (keeps_bumpBy _ _ _)
    refine Keeps.upd (t := s) ?_ rfl rfl rfl (Nat.le_refl _)
    exact Keeps.refl _

theorem keeps_clearFull (s : State) (p1 : Nat) (p2 : Landing → Nat) : Keeps 2055 s (clearFull s p1 p2) := by
  unfold clearFull
  split
  · exact Keeps.refl _
  · refine Keeps.ite ?_ ?_
    · exact Keeps.refl _
    · extract_lets -underBinder -merge -useContext +onlyGivenNames x1
      try clear_value x1
      extract_lets -underBinder -merge -useContext +onlyGivenNames x2
      have h2 : Keeps 2055 s x2 := by
        unfold x2
        refine Keeps.trans ?_ (keeps_holdTick _ _)
        exact Keeps.refl _
      try clear_value x2
      extract_lets -underBinder -merge -useContext +onlyGivenNames x3
      extract_lets -underBinder -merge -useContext +onlyGivenNames x4
      have h4 : Keeps 2055 s x4 := by
        unfold x4
        refine Keeps.upd (t := x2) ?_ rfl rfl rfl (Nat.le_refl _)
        assumption
      try clear_value x4
      refine Keeps.trans ?_ (keeps_logEvent _ _ _ _)
      refine Keeps.trans ?_ (keeps_evt _ _ _)
      assumption

theorem keeps_levelPeak (s : State) (p1 : Nat) : Keeps 2048 s (levelPeak s p1) := by
  unfold levelPeak
  refine Keeps.upd (t := s) ?_ rfl rfl rfl (Nat.le_refl _)
  exact Keeps.refl _

theorem keeps_enterJob (s : State) (p1 : Job) : Keeps 2132135 s (enterJob s p1) := by
  unfold enterJob
  extract_lets -underBinder -merge -useContext +onlyGivenNames x1
  have h1 : Keeps 2132135 s x1 := by
    unfold x1
    refine Keeps.trans ?_ (keeps_setLevel _ _ _)
    exact Keeps.refl _
  try clear_value x1
  extract_lets -underBinder -merge -useContext +onlyGivenNames x2
  have h2 : Keeps 2132135 s x2 := by
    unfold x2
    refine Keeps.trans ?_ (keeps_levelPeak _ _)
    refine Keeps.trans ?_ (keeps_bump _ _)
    assumption
  try clear_value x2
  refine Keeps.ite ?_ ?_
  · refine Keeps.trans ?_ (keeps_twinSend _ _ _)
    assumption
  · assumption

theorem keeps_raiseEvent (s : State) (p1 : Job) : Keeps 2132135 s (raiseEvent s p1) := by
  unfold raiseEvent
  refine Keeps.ite ?_ ?_
  · refine Keeps.trans ?_ (keeps_enterJob _ _)
    exact Keeps.refl _
  · extract_lets -underBinder -merge -useContext +onlyGivenNames x1
    extract_lets -underBinder -merge -useContext +onlyGivenNames x2
    have h2 : Keeps 2132135 s x2 := by
      unfold x2
      refine Keeps.upd (t := s) ?_ rfl rfl rfl (Nat.le_refl _)
      exact Keeps.refl _
    try clear_value x2
    refine Keeps.trans ?_ (keeps_markFull _ _)
    assumption

theorem keeps_raiseHiash (s : State) (p1 : Job) : Keeps 2132135 s (raiseHiash s p1) := by
  unfold raiseHiash
  refine Keeps.ite ?_ ?_
  · refine Keeps.trans ?_ (keeps_enterJob _ _)
    exact Keeps.refl _
  · refine Keeps.trans ?_ (keeps_markFull _ _)
    refine Keeps.upd (t := s) ?_ rfl rfl rfl (Nat.le_refl _)
    exact Keeps.refl _

theorem keeps_setDocent (s : State) (p1 : Nat) (p2 : Docent) : Keeps 4096 s (setDocent s p1 p2) := by
  unfold setDocent
  refine Keeps.upd (t := s) ?_ rfl rfl rfl (Nat.le_refl _)
  exact Keeps.refl _

end Sys2Proof.Machine
end

