-- ==== Sys2Proof/Laws/KeepsTwinOps.lean ====
section
/-! SUPPORT. What each function of Machine/TwinOps.lean leaves unchanged (the mask names the areas it may change). -/

set_option Elab.async false

namespace Sys2Proof.Machine

theorem keeps_digestCompare (s : State) (p1 : Nat) (p2 : Nat) (p3 : Nat) (p4 : Nat) : Keeps 7 s (digestCompare s p1 p2 p3 p4) := by
  unfold digestCompare
  refine Keeps.ite ?_ ?_
  · refine Keeps.trans ?_ (keeps_bump _ _)
    exact Keeps.refl _
  · extract_lets -underBinder -merge -useContext +onlyGivenNames x1
    have h1 : Keeps 7 s x1 := by
      unfold x1
      refine Keeps.trans ?_ (keeps_setRegN _ _ _)
      exact Keeps.refl _
    try clear_value x1
    extract_lets -underBinder -merge -useContext +onlyGivenNames x2
    have h2 : Keeps 7 s x2 := by
      unfold x2
      refine Keeps.trans ?_ (keeps_setRegN _ _ _)
      assumption
    try clear_value x2
    extract_lets -underBinder -merge -useContext +onlyGivenNames x3
    have h3 : Keeps 7 s x3 := by
      unfold x3
      refine Keeps.trans ?_ (keeps_setReg64 _ _ _ _)
      assumption
    try clear_value x3
    extract_lets -underBinder -merge -useContext +onlyGivenNames x4
    have h4 : Keeps 7 s x4 := by
      unfold x4
      refine Keeps.trans ?_ (keeps_setReg64 _ _ _ _)
      assumption
    try clear_value x4
    refine Keeps.trans ?_ (keeps_bump _ _)
    refine Keeps.trans ?_ (keeps_logEvent _ _ _ _)
    refine Keeps.trans ?_ (keeps_evt _ _ _)
    assumption

theorem keeps_digestOwn (s : State) (p1 : Nat) (p2 : Nat) (p3 : Nat) : Keeps 2261159 s (digestOwn s p1 p2 p3) := by
  unfold digestOwn
  refine Keeps.ite ?_ ?_
  · extract_lets -underBinder -merge -useContext +onlyGivenNames x1
    extract_lets -underBinder -merge -useContext +onlyGivenNames x2
    have h2 : Keeps 2261159 s x2 := by
      unfold x2
      refine Keeps.upd (t := s) ?_ rfl rfl rfl (Nat.le_refl _)
      exact Keeps.refl _
    try clear_value x2
    extract_lets -underBinder -merge -useContext +onlyGivenNames x3
    have h3 : Keeps 2261159 s x3 := by
      unfold x3
      refine Keeps.trans ?_ (keeps_twinMsg _ _ _)
      assumption
    try clear_value x3
    split
    · refine Keeps.trans ?_ (keeps_digestCompare _ _ _ _ _)
      assumption
    · assumption
  · exact Keeps.refl _

theorem keeps_digestPartner (s : State) (p1 : Nat) (p2 : Nat) (p3 : Nat) : Keeps 131079 s (digestPartner s p1 p2 p3) := by
  unfold digestPartner
  extract_lets -underBinder -merge -useContext +onlyGivenNames x1
  extract_lets -underBinder -merge -useContext +onlyGivenNames x2
  have h2 : Keeps 131079 s x2 := by
    unfold x2
    refine Keeps.upd (t := s) ?_ rfl rfl rfl (Nat.le_refl _)
    exact Keeps.refl _
  try clear_value x2
  split
  · refine Keeps.trans ?_ (keeps_digestCompare _ _ _ _ _)
    assumption
  · assumption

theorem keeps_digestRelease (s : State) (p1 : Nat) : Keeps 131079 s (digestRelease s p1) := by
  unfold digestRelease
  extract_lets -underBinder -merge -useContext +onlyGivenNames x1
  try clear_value x1
  extract_lets -underBinder -merge -useContext +onlyGivenNames x2
  have h2 : Keeps 131079 s x2 := by
    unfold x2
    refine Keeps.foldl ?_ (fun y3 a3 hy3 => ?_)
    · exact Keeps.refl _
    · refine Keeps.ite ?_ ?_
      · assumption
      · refine Keeps.trans ?_ (keeps_logEvent _ _ _ _)
        refine Keeps.trans ?_ (keeps_evt _ _ _)
        refine Keeps.trans ?_ (keeps_bump _ _)
        assumption
  try clear_value x2
  refine Keeps.upd (t := x2) ?_ rfl rfl rfl (Nat.le_refl _)
  assumption

end Sys2Proof.Machine
end

