-- ==== Sys2Proof/Laws/KeepsHiashOps.lean ====
section
/-! SUPPORT. What each function of Machine/HiashOps.lean leaves unchanged (the mask names the areas it may change). -/

set_option Elab.async false

namespace Sys2Proof.Machine

theorem keeps_bindJob (s : State) (p1 : Nat) (p2 : Nat) : Keeps 2132135 s (bindJob s p1 p2) := by
  unfold bindJob
  extract_lets -underBinder -merge -useContext +onlyGivenNames x1
  try clear_value x1
  refine Keeps.ite ?_ ?_
  · split
    · refine Keeps.ite ?_ ?_
      · refine Keeps.trans ?_ (keeps_raiseHiash _ _)
        exact Keeps.refl _
      · refine Keeps.trans ?_ (keeps_bump _ _)
        exact Keeps.refl _
    · refine Keeps.trans ?_ (keeps_bump _ _)
      exact Keeps.refl _
  · exact Keeps.refl _

theorem keeps_hostAndJob (s : State) (p1 : Nat) (p2 : Nat) (p3 : Nat) (p4 : Nat) (p5 : List Byte) : Keeps 2132135 s (hostAndJob s p1 p2 p3 p4 p5) := by
  unfold hostAndJob
  extract_lets -underBinder -merge -useContext +onlyGivenNames x1
  try clear_value x1
  extract_lets -underBinder -merge -useContext +onlyGivenNames x2
  try clear_value x2
  extract_lets -underBinder -merge -useContext +onlyGivenNames x3
  try clear_value x3
  extract_lets -underBinder -merge -useContext +onlyGivenNames x4
  have h4 : Keeps 2132135 s x4 := by
    unfold x4
    refine Keeps.ite ?_ ?_
    · refine Keeps.ite ?_ ?_
      · refine Keeps.trans ?_ (keeps_commitPacket _ _ _)
        exact Keeps.refl _
      · refine Keeps.trans ?_ (keeps_evt _ _ _)
        refine Keeps.trans ?_ (keeps_devCopy _ _ _ _)
        exact Keeps.refl _
    · exact Keeps.refl _
  try clear_value x4
  refine Keeps.trans ?_ (keeps_bindJob _ _ _)
  assumption

theorem keeps_hshDelivered (s : State) : Keeps 32773 s (hshDelivered s) := by
  unfold hshDelivered
  refine Keeps.trans ?_ (keeps_bump _ _)
  refine Keeps.upd (t := s) ?_ rfl rfl rfl (Nat.le_refl _)
  exact Keeps.refl _

theorem keeps_digestPort (s : State) (p1 : Nat) (p2 : Nat) : KeepsF 32773 s (digestPort s p1 p2) := by
  unfold digestPort
  extract_lets -underBinder -merge -useContext +onlyGivenNames x1
  try clear_value x1
  refine KeepsF.ite ?_ ?_
  · refine KeepsF.mk ?_
    refine Keeps.trans ?_ (keeps_bump _ _)
    exact Keeps.refl _
  · refine KeepsF.mk ?_
    refine Keeps.upd (t := s) ?_ rfl rfl rfl (Nat.le_refl _)
    exact Keeps.refl _

theorem keeps_digestPorts (s : State) (p1 : Nat) (p2 : List Nat) : KeepsF 32773 s (digestPorts s p1 p2) := by
  induction p2 generalizing s with
  | nil => exact Keeps.refl _
  | cons p r ih => exact Keeps.trans (keeps_digestPort s p p1).mono (ih _)

theorem keeps_sendDigest (s : State) (p1 : Nat) (p2 : Nat) (p3 : Nat) (p4 : Nat) (p5 : Nat) (p6 : Nat) : Keeps 2261159 s (sendDigest s p1 p2 p3 p4 p5 p6) := by
  unfold sendDigest
  refine Keeps.ite ?_ ?_
  · exact Keeps.refl _
  · extract_lets -underBinder -merge -useContext +onlyGivenNames x1
    have h1 : KeepsF 2261159 s x1 := by
      unfold x1
      refine KeepsF.trans ?_ (keeps_digestPorts _ _ _)
      exact Keeps.refl _
    try clear_value x1
    extract_lets -underBinder -merge -useContext +onlyGivenNames x2
    have h2 : Keeps 2261159 s x2 := by
      unfold x2
      refine KeepsF.snd ?_
      assumption
    try clear_value x2
    refine Keeps.ite ?_ ?_
    · assumption
    · extract_lets -underBinder -merge -useContext +onlyGivenNames x3
      try clear_value x3
      refine Keeps.trans ?_ (keeps_takeSeq _ _)
      refine Keeps.trans ?_ (keeps_bump _ _)
      refine Keeps.trans ?_ (keeps_sendOn _ _ _)
      assumption

theorem keeps_overReport (s : State) (p1 : Nat) (p2 : Nat) (p3 : Nat) (p4 : Nat) (p5 : Bool) : Keeps 2261159 s (overReport s p1 p2 p3 p4 p5) := by
  unfold overReport
  split
  · refine Keeps.upd (t := s) ?_ rfl rfl rfl (Nat.le_refl _)
    exact Keeps.refl _
  · extract_lets -underBinder -merge -useContext +onlyGivenNames x1
    try clear_value x1
    extract_lets -underBinder -merge -useContext +onlyGivenNames x2
    extract_lets -underBinder -merge -useContext +onlyGivenNames x3
    have h3 : Keeps 2261159 s x3 := by
      unfold x3
      refine Keeps.upd (t := s) ?_ rfl rfl rfl (Nat.le_refl _)
      exact Keeps.refl _
    try clear_value x3
    extract_lets -underBinder -merge -useContext +onlyGivenNames x4
    have h4 : Keeps 2261159 s x4 := by
      unfold x4
      refine Keeps.trans ?_ (keeps_logEvent _ _ _ _)
      refine Keeps.trans ?_ (keeps_evt _ _ _)
      assumption
    try clear_value x4
    refine Keeps.ite ?_ ?_
    · refine Keeps.trans ?_ (keeps_sendDigest _ _ _ _ _ _ _)
      assumption
    · assumption

theorem keeps_absReport (s : State) (p1 : Nat) (p2 : Nat) (p3 : Nat) (p4 : Nat) (p5 : Nat) (p6 : Bool) : Keeps 2263207 s (absReport s p1 p2 p3 p4 p5 p6) := by
  unfold absReport
  extract_lets -underBinder -merge -useContext +onlyGivenNames x1
  have h1 : Keeps 2263207 s x1 := by
    unfold x1
    refine Keeps.ite ?_ ?_
    · exact Keeps.refl _
    · refine Keeps.trans ?_ (keeps_bump _ _)
      exact Keeps.refl _
  try clear_value x1
  split
  · refine Keeps.trans ?_ (keeps_bump _ _)
    refine Keeps.upd (t := x1) ?_ rfl rfl rfl (Nat.le_refl _)
    assumption
  · split
    · refine Keeps.trans ?_ (keeps_overReport _ _ _ _ _ _)
      assumption
    · extract_lets -underBinder -merge -useContext +onlyGivenNames x2
      try clear_value x2
      extract_lets -underBinder -merge -useContext +onlyGivenNames x3
      try clear_value x3
      extract_lets -underBinder -merge -useContext +onlyGivenNames x4
      extract_lets -underBinder -merge -useContext +onlyGivenNames x5
      have h5 : Keeps 2263207 s x5 := by
        unfold x5
        refine Keeps.upd (t := x1) ?_ rfl rfl rfl (Nat.le_refl _)
        assumption
      try clear_value x5
      extract_lets -underBinder -merge -useContext +onlyGivenNames x6
      have h6 : Keeps 2263207 s x6 := by
        unfold x6
        refine Keeps.trans ?_ (keeps_evt _ _ _)
        refine Keeps.trans ?_ (keeps_logEvent _ _ _ _)
        assumption
      try clear_value x6
      extract_lets -underBinder -merge -useContext +onlyGivenNames x7
      have h7 : Keeps 2263207 s x7 := by
        unfold x7
        refine Keeps.trans ?_ (keeps_bindJob _ _ _)
        assumption
      try clear_value x7
      refine Keeps.ite ?_ ?_
      · refine Keeps.trans ?_ (keeps_sendDigest _ _ _ _ _ _ _)
        assumption
      · assumption

theorem keeps_absLeave (s : State) (p1 : Nat) (p2 : Nat) : Keeps 32768 s (absLeave s p1 p2) := by
  unfold absLeave
  split
  · refine Keeps.upd (t := s) ?_ rfl rfl rfl (Nat.le_refl _)
    exact Keeps.refl _
  · exact Keeps.refl _

end Sys2Proof.Machine
end

