-- ==== Sys2Proof/Laws/KeepsAccession.lean ====
section
/-! SUPPORT. What each function of Machine/Accession.lean leaves unchanged (the mask names the areas it may change). -/

set_option Elab.async false

namespace Sys2Proof.Machine

theorem keeps_setAcc (s : State) (p1 : Nat) (p2 : AccEntry) : Keeps 512 s (setAcc s p1 p2) := by
  unfold setAcc
  refine Keeps.upd (t := s) ?_ rfl rfl rfl (Nat.le_refl _)
  exact Keeps.refl _

theorem keeps_identRemove (s : State) (p1 : Nat) : Keeps 512 s (identRemove s p1) := by
  unfold identRemove
  refine Keeps.upd (t := s) ?_ rfl rfl rfl (Nat.le_refl _)
  exact Keeps.refl _

theorem keeps_reseed (s : State) : KeepsF 512 s (reseed s) := by
  unfold reseed
  extract_lets -underBinder -merge -useContext +onlyGivenNames x1
  try clear_value x1
  extract_lets -underBinder -merge -useContext +onlyGivenNames x2
  try clear_value x2
  split
  · refine KeepsF.mk ?_
    exact Keeps.refl _
  · refine KeepsF.mk ?_
    refine Keeps.upd (t := s) ?_ rfl rfl rfl (Nat.le_refl _)
    exact Keeps.refl _

theorem keeps_retireOne (s : State) (p1 : Nat) : Keeps 519 s (retireOne s p1) := by
  unfold retireOne
  extract_lets -underBinder -merge -useContext +onlyGivenNames x1
  try clear_value x1
  refine Keeps.ite ?_ ?_
  · extract_lets -underBinder -merge -useContext +onlyGivenNames x2
    have h2 : Keeps 519 s x2 := by
      unfold x2
      refine Keeps.ite ?_ ?_
      · refine Keeps.trans ?_ (keeps_identRemove _ _)
        exact Keeps.refl _
      · exact Keeps.refl _
    try clear_value x2
    refine Keeps.trans ?_ (keeps_evt _ _ _)
    refine Keeps.trans ?_ (keeps_setAcc _ _ _)
    assumption
  · exact Keeps.refl _

theorem keeps_retireScan (s : State) : Keeps 519 s (retireScan s) := by
  unfold retireScan
  refine Keeps.foldl ?_ (fun y1 a1 hy1 => ?_)
  · exact Keeps.refl _
  · refine Keeps.trans ?_ (keeps_retireOne _ _)
    assumption

theorem keeps_leaveSilent (s : State) (p1 : Nat) : Keeps 32768 s (leaveSilent s p1) := by
  unfold leaveSilent
  refine Keeps.ite ?_ ?_
  · refine Keeps.trans ?_ (keeps_absLeave _ _ _)
    exact Keeps.refl _
  · exact Keeps.refl _

theorem keeps_enterSilent (s : State) (p1 : Nat) (p2 : Nat) : Keeps 2263719 s (enterSilent s p1 p2) := by
  unfold enterSilent
  extract_lets -underBinder -merge -useContext +onlyGivenNames x1
  try clear_value x1
  extract_lets -underBinder -merge -useContext +onlyGivenNames x2
  have h2 : Keeps 2263719 s x2 := by
    unfold x2
    refine Keeps.trans ?_ (keeps_setAcc _ _ _)
    exact Keeps.refl _
  try clear_value x2
  extract_lets -underBinder -merge -useContext +onlyGivenNames x3
  have h3 : Keeps 2263719 s x3 := by
    unfold x3
    refine Keeps.trans ?_ (keeps_logEvent _ _ _ _)
    refine Keeps.trans ?_ (keeps_evt _ _ _)
    assumption
  try clear_value x3
  refine Keeps.ite ?_ ?_
  · refine Keeps.trans ?_ (keeps_absReport _ _ _ _ _ _ _)
    assumption
  · assumption

theorem keeps_accLanded (s : State) (p1 : Nat) : Keeps 33287 s (accLanded s p1) := by
  unfold accLanded
  extract_lets -underBinder -merge -useContext +onlyGivenNames x1
  try clear_value x1
  extract_lets -underBinder -merge -useContext +onlyGivenNames x2
  try clear_value x2
  extract_lets -underBinder -merge -useContext +onlyGivenNames x3
  have h3 : Keeps 33287 s x3 := by
    unfold x3
    refine Keeps.trans ?_ (keeps_setAcc _ _ _)
    exact Keeps.refl _
  try clear_value x3
  refine Keeps.ite ?_ ?_
  · refine Keeps.trans ?_ (keeps_leaveSilent _ _)
    refine Keeps.trans ?_ (keeps_evt _ _ _)
    assumption
  · assumption

theorem keeps_accRefuse (s : State) (p1 : Nat) (p2 : Nat) : Keeps 7 s (accRefuse s p1 p2) := by
  unfold accRefuse
  refine Keeps.trans ?_ (keeps_evt _ _ _)
  refine Keeps.trans ?_ (keeps_setRegN _ _ _)
  refine Keeps.trans ?_ (keeps_refuse _ _ _)
  exact Keeps.refl _

theorem keeps_twinCtrlAcc (s : State) (p1 : Nat) (p2 : Nat) : Keeps 2130087 s (twinCtrlAcc s p1 p2) := by
  unfold twinCtrlAcc
  refine Keeps.trans ?_ (keeps_twinSend _ _ _)
  exact Keeps.refl _

theorem keeps_accCommit (s : State) (p1 : Nat) : Keeps 512 s (accCommit s p1) := by
  unfold accCommit
  extract_lets -underBinder -merge -useContext +onlyGivenNames x1
  have h1 : Keeps 512 s x1 := by
    unfold x1
    refine Keeps.ite ?_ ?_
    · split
      · refine Keeps.upd (t := s) ?_ rfl rfl rfl (Nat.le_refl _)
        exact Keeps.refl _
      · exact Keeps.refl _
    · exact Keeps.refl _
  try clear_value x1
  extract_lets -underBinder -merge -useContext +onlyGivenNames x2
  try clear_value x2
  extract_lets -underBinder -merge -useContext +onlyGivenNames x3
  have h3 : Keeps 512 s x3 := by
    unfold x3
    refine Keeps.trans ?_ (keeps_setAcc _ _ _)
    assumption
  try clear_value x3
  refine Keeps.upd (t := x3) ?_ rfl rfl rfl (Nat.le_refl _)
  assumption

theorem keeps_accRetire (s : State) (p1 : Nat) : Keeps 2130599 s (accRetire s p1) := by
  unfold accRetire
  extract_lets -underBinder -merge -useContext +onlyGivenNames x1
  try clear_value x1
  extract_lets -underBinder -merge -useContext +onlyGivenNames x2
  have h2 : Keeps 2130599 s x2 := by
    unfold x2
    refine Keeps.ite ?_ ?_
    · refine Keeps.trans ?_ (keeps_leaveSilent _ _)
      exact Keeps.refl _
    · exact Keeps.refl _
  try clear_value x2
  extract_lets -underBinder -merge -useContext +onlyGivenNames x3
  extract_lets -underBinder -merge -useContext +onlyGivenNames x4
  have h4 : Keeps 2130599 s x4 := by
    unfold x4
    refine Keeps.trans ?_ (keeps_setAcc _ _ _)
    assumption
  try clear_value x4
  extract_lets -underBinder -merge -useContext +onlyGivenNames x5
  extract_lets -underBinder -merge -useContext +onlyGivenNames x6
  have h6 : Keeps 2130599 s x6 := by
    unfold x6
    refine Keeps.upd (t := x4) ?_ rfl rfl rfl (Nat.le_refl _)
    assumption
  try clear_value x6
  refine Keeps.trans ?_ (keeps_retireOne _ _)
  refine Keeps.trans ?_ (keeps_twinCtrlAcc _ _ _)
  assumption

theorem keeps_accCheckEnd (s : State) (p1 : Nat) : Keeps 2130599 s (accCheckEnd s p1) := by
  unfold accCheckEnd
  extract_lets -underBinder -merge -useContext +onlyGivenNames x1
  try clear_value x1
  refine Keeps.ite ?_ ?_
  · refine Keeps.trans ?_ (keeps_twinCtrlAcc _ _ _)
    refine Keeps.trans ?_ (keeps_accCommit _ _)
    exact Keeps.refl _
  · refine Keeps.trans ?_ (keeps_accRefuse _ _ _)
    refine Keeps.trans ?_ (keeps_setAcc _ _ _)
    exact Keeps.refl _

theorem keeps_setTimeBase (s : State) (p1 : Nat) (p2 : Word) : Keeps 1 s (setTimeBase s p1 p2) := by
  unfold setTimeBase
  refine Keeps.ite ?_ ?_
  · refine Keeps.trans ?_ (keeps_setRegFld _ _ _ _ _)
    exact Keeps.refl _
  · exact Keeps.refl _

theorem keeps_accCtlWrite (s : State) (p1 : Nat) (p2 : Word) : Keeps 2130599 s (accCtlWrite s p1 p2) := by
  unfold accCtlWrite
  extract_lets -underBinder -merge -useContext +onlyGivenNames x1
  try clear_value x1
  split
  · refine Keeps.trans ?_ (keeps_setAcc _ _ _)
    exact Keeps.refl _
  · extract_lets -underBinder -merge -useContext +onlyGivenNames x2
    have h2 : Keeps 2130599 s x2 := by
      unfold x2
      refine Keeps.trans ?_ (keeps_setTimeBase _ _ _)
      exact Keeps.refl _
    try clear_value x2
    refine Keeps.ite ?_ ?_
    · extract_lets -underBinder -merge -useContext +onlyGivenNames x3
      have h3 : Keeps 2130599 s x3 := by
        unfold x3
        refine Keeps.trans ?_ (keeps_setAcc _ _ _)
        assumption
      refine Keeps.upd (t := x3) ?_ rfl rfl rfl (Nat.le_refl _)
      assumption
    · assumption
  · refine Keeps.ite ?_ ?_
    · refine Keeps.trans ?_ (keeps_accRefuse _ _ _)
      exact Keeps.refl _
    · refine Keeps.ite ?_ ?_
      · refine Keeps.trans ?_ (keeps_refuse _ _ _)
        exact Keeps.refl _
      · exact Keeps.refl _
  · extract_lets -underBinder -merge -useContext +onlyGivenNames x4
    have h4 : Keeps 2130599 s x4 := by
      unfold x4
      refine Keeps.ite ?_ ?_
      · refine Keeps.trans ?_ (keeps_refuse _ _ _)
        exact Keeps.refl _
      · exact Keeps.refl _
    try clear_value x4
    refine Keeps.ite ?_ ?_
    · assumption
    · refine Keeps.trans ?_ (keeps_accRetire _ _)
      assumption

theorem keeps_accBodyWrite (s : State) (p1 : Nat) (p2 : Nat) (p3 : Word) : Keeps 1 s (accBodyWrite s p1 p2 p3) := by
  unfold accBodyWrite
  extract_lets -underBinder -merge -useContext +onlyGivenNames x1
  try clear_value x1
  refine Keeps.ite ?_ ?_
  · exact Keeps.refl _
  · refine Keeps.ite ?_ ?_
    · refine Keeps.trans ?_ (keeps_refuse _ _ _)
      exact Keeps.refl _
    · extract_lets -underBinder -merge -useContext +onlyGivenNames x2
      try clear_value x2
      refine Keeps.ite ?_ ?_
      · extract_lets -underBinder -merge -useContext +onlyGivenNames x3
        have h3 : Keeps 1 s x3 := by
          unfold x3
          refine Keeps.trans ?_ (keeps_setReg _ _ _)
          exact Keeps.refl _
        try clear_value x3
        refine Keeps.ite ?_ ?_
        · refine Keeps.trans ?_ (keeps_refuse _ _ _)
          assumption
        · assumption
      · refine Keeps.ite ?_ ?_
        · refine Keeps.trans ?_ (keeps_setReg _ _ _)
          exact Keeps.refl _
        · refine Keeps.trans ?_ (keeps_setReg _ _ _)
          exact Keeps.refl _

end Sys2Proof.Machine
end

