-- ==== Sys2Proof/Laws/KeepsRegWrite.lean ====
section
/-! SUPPORT. What each function of Machine/RegWrite.lean leaves unchanged (the mask names the areas it may change). -/

set_option Elab.async false

namespace Sys2Proof.Machine

theorem keeps_specWrite (s : State) (p1 : Nat) (p2 : Word) : Keeps 7 s (specWrite s p1 p2) := by
  unfold specWrite
  split
  · exact Keeps.refl _
  · extract_lets -underBinder -merge -useContext +onlyGivenNames x1
    try clear_value x1
    extract_lets -underBinder -merge -useContext +onlyGivenNames x2
    try clear_value x2
    extract_lets -underBinder -merge -useContext +onlyGivenNames x3
    try clear_value x3
    extract_lets -underBinder -merge -useContext +onlyGivenNames x4
    try clear_value x4
    extract_lets -underBinder -merge -useContext +onlyGivenNames x5
    try clear_value x5
    extract_lets -underBinder -merge -useContext +onlyGivenNames x6
    try clear_value x6
    extract_lets -underBinder -merge -useContext +onlyGivenNames x7
    try clear_value x7
    extract_lets -underBinder -merge -useContext +onlyGivenNames x8
    try clear_value x8
    extract_lets -underBinder -merge -useContext +onlyGivenNames x9
    have h9 : Keeps 7 s x9 := by
      unfold x9
      refine Keeps.trans ?_ (keeps_setReg _ _ _)
      exact Keeps.refl _
    try clear_value x9
    extract_lets -underBinder -merge -useContext +onlyGivenNames x10
    have h10 : Keeps 7 s x10 := by
      unfold x10
      refine Keeps.ite ?_ ?_
      · refine Keeps.trans ?_ (keeps_refuseC _ _ _)
        assumption
      · assumption
    try clear_value x10
    extract_lets -underBinder -merge -useContext +onlyGivenNames x11
    have h11 : Keeps 7 s x11 := by
      unfold x11
      refine Keeps.foldl ?_ (fun y12 a12 hy12 => ?_)
      · assumption
      · refine Keeps.trans ?_ (keeps_refuseC _ _ _)
        assumption
    try clear_value x11
    refine Keeps.ite ?_ ?_
    · assumption
    · refine Keeps.trans ?_ (keeps_irqEval _)
      assumption

end Sys2Proof.Machine
end

