-- ==== Sys2Proof/Laws/KeepsCaptureOps.lean ====
section
/-! SUPPORT. What each function of Machine/CaptureOps.lean leaves unchanged (the mask names the areas it may change). -/

set_option Elab.async false

namespace Sys2Proof.Machine

theorem keeps_setCapRing (s : State) (p1 : Nat) (p2 : CapRing) : Keeps 1048576 s (setCapRing s p1 p2) := by
  unfold setCapRing
  refine Keeps.upd (t := s) ?_ rfl rfl rfl (Nat.le_refl _)
  exact Keeps.refl _

theorem ringWrite_wf (m : SMap Byte) (p1 p2 p3 : Nat) (p4 : List Byte) (h : smWf (fun _ => 0#8) m = true) :
    smWf (fun _ => 0#8) (ringWrite m p1 p2 p3 p4) = true := by
  unfold ringWrite
  generalize p3 = o
  induction p4 generalizing m o with
  | nil => exact h
  | cons b r ih => exact ih _ (smPut_wf (fun _ => 0#8) _ _ _ h) _
theorem keeps_capWrite (s : State) (p1 : Nat) (p2 : List Byte) : Keeps 2 s (capWrite s p1 p2) := by
  unfold capWrite
  refine Keeps.ite ?_ ?_
  · exact Keeps.upd (Keeps.refl s) rfl rfl rfl (Nat.le_refl _) (r5 := ringWrite_wf _ _ _ _ _)
  · exact Keeps.upd (Keeps.refl s) rfl rfl rfl (Nat.le_refl _) (r4 := ringWrite_wf _ _ _ _ _)

theorem keeps_capRoom (s : State) (p1 : Nat) : KeepsF 1048576 s (capRoom s p1) := by
  unfold capRoom
  extract_lets -underBinder -merge -useContext +onlyGivenNames x1
  try clear_value x1
  extract_lets -underBinder -merge -useContext +onlyGivenNames x2
  try clear_value x2
  extract_lets -underBinder -merge -useContext +onlyGivenNames x3
  extract_lets -underBinder -merge -useContext +onlyGivenNames x4
  have h4 : Keeps 1048576 s x4 := by
    unfold x4
    refine Keeps.upd (t := s) ?_ rfl rfl rfl (Nat.le_refl _)
    exact Keeps.refl _
  try clear_value x4
  refine KeepsF.mk ?_
  assumption

theorem keeps_copyBlock (s : State) (p1 : Nat) (p2 : CapBlock) : KeepsF 1048578 s (copyBlock s p1 p2) := by
  unfold copyBlock
  split
  · refine KeepsF.mk ?_
    exact Keeps.refl _
  · refine KeepsF.ite ?_ ?_
    · refine KeepsF.mk ?_
      exact Keeps.refl _
    · extract_lets -underBinder -merge -useContext +onlyGivenNames x1
      have h1 : KeepsF 1048578 s x1 := by
        unfold x1
        refine KeepsF.trans ?_ (keeps_capRoom _ _)
        exact Keeps.refl _
      try clear_value x1
      refine KeepsF.ite ?_ ?_
      · refine KeepsF.mk ?_
        refine KeepsF.snd ?_
        assumption
      · extract_lets -underBinder -merge -useContext +onlyGivenNames x2
        try clear_value x2
        extract_lets -underBinder -merge -useContext +onlyGivenNames x3
        have h3 : Keeps 1048578 s x3 := by
          unfold x3
          refine Keeps.trans ?_ (keeps_capWrite _ _ _)
          refine KeepsF.snd ?_
          assumption
        try clear_value x3
        refine KeepsF.mk ?_
        refine Keeps.upd (t := x3) ?_ rfl rfl rfl (Nat.le_refl _)
        assumption

theorem keeps_closeOpen (s : State) (p1 : Nat) : KeepsF 1048576 s (closeOpen s p1) := by
  unfold closeOpen
  extract_lets -underBinder -merge -useContext +onlyGivenNames x1
  try clear_value x1
  split
  · refine KeepsF.mk ?_
    exact Keeps.refl _
  · refine KeepsF.ite ?_ ?_
    · extract_lets -underBinder -merge -useContext +onlyGivenNames x2
      try clear_value x2
      refine KeepsF.mk ?_
      refine Keeps.trans ?_ (keeps_setCapRing _ _ _)
      exact Keeps.refl _
    · refine KeepsF.mk ?_
      exact Keeps.refl _

theorem keeps_capEnd (s : State) (p1 : Nat) (p2 : Nat) (p3 : Bool) (p4 : Bool) : Keeps 1048583 s (capEnd s p1 p2 p3 p4) := by
  unfold capEnd
  split
  · exact Keeps.refl _
  · extract_lets -underBinder -merge -useContext +onlyGivenNames x1
    try clear_value x1
    extract_lets -underBinder -merge -useContext +onlyGivenNames x2
    have h2 : KeepsF 1048583 s x2 := by
      unfold x2
      refine KeepsF.foldl ?_ (fun y3 a3 hy3 => ?_)
      · refine KeepsF.mk ?_
        exact Keeps.refl _
      · extract_lets -underBinder -merge -useContext +onlyGivenNames x4
        have h4 : KeepsF 1048583 s x4 := by
          unfold x4
          refine KeepsF.trans ?_ (keeps_closeOpen _ _)
          refine KeepsF.snd ?_
          assumption
        try clear_value x4
        split
        · refine KeepsF.ite ?_ ?_
          · refine KeepsF.mk ?_
            refine KeepsF.snd ?_
            assumption
          · refine KeepsF.trans ?_ (keeps_copyBlock _ _ _)
            refine KeepsF.snd ?_
            assumption
        · refine KeepsF.mk ?_
          refine KeepsF.snd ?_
          assumption
    try clear_value x2
    extract_lets -underBinder -merge -useContext +onlyGivenNames x5
    have h5 : Keeps 1048583 s x5 := by
      unfold x5
      refine KeepsF.snd ?_
      assumption
    try clear_value x5
    extract_lets -underBinder -merge -useContext +onlyGivenNames x6
    try clear_value x6
    extract_lets -underBinder -merge -useContext +onlyGivenNames x7
    try clear_value x7
    split
    · assumption
    · extract_lets -underBinder -merge -useContext +onlyGivenNames x8
      try clear_value x8
      extract_lets -underBinder -merge -useContext +onlyGivenNames x9
      try clear_value x9
      extract_lets -underBinder -merge -useContext +onlyGivenNames x10
      try clear_value x10
      extract_lets -underBinder -merge -useContext +onlyGivenNames x11
      try clear_value x11
      extract_lets -underBinder -merge -useContext +onlyGivenNames x12
      try clear_value x12
      extract_lets -underBinder -merge -useContext +onlyGivenNames x13
      try clear_value x13
      extract_lets -underBinder -merge -useContext +onlyGivenNames x14
      try clear_value x14
      extract_lets -underBinder -merge -useContext +onlyGivenNames x15
      try clear_value x15
      extract_lets -underBinder -merge -useContext +onlyGivenNames x16
      try clear_value x16
      extract_lets -underBinder -merge -useContext +onlyGivenNames x17
      have h17 : Keeps 1048583 s x17 := by
        unfold x17
        refine Keeps.foldl ?_ (fun y18 a18 hy18 => ?_)
        · assumption
        · extract_lets -underBinder -merge -useContext +onlyGivenNames x19
          try clear_value x19
          refine Keeps.trans ?_ (keeps_setCapRing _ _ _)
          assumption
      try clear_value x17
      extract_lets -underBinder -merge -useContext +onlyGivenNames x20
      have h20 : KeepsF 1048583 s x20 := by
        unfold x20
        refine KeepsF.ite ?_ ?_
        · refine KeepsF.mk ?_
          assumption
        · refine KeepsF.trans ?_ (keeps_capRoom _ _)
          assumption
      try clear_value x20
      extract_lets -underBinder -merge -useContext +onlyGivenNames x21
      have h21 : Keeps 1048583 s x21 := by
        unfold x21
        refine KeepsF.snd ?_
        assumption
      try clear_value x21
      extract_lets -underBinder -merge -useContext +onlyGivenNames x22
      try clear_value x22
      extract_lets -underBinder -merge -useContext +onlyGivenNames x23
      have h23 : Keeps 1048583 s x23 := by
        unfold x23
        refine Keeps.ite ?_ ?_
        · refine Keeps.trans ?_ (keeps_capWrite _ _ _)
          assumption
        · assumption
      try clear_value x23
      extract_lets -underBinder -merge -useContext +onlyGivenNames x24
      try clear_value x24
      extract_lets -underBinder -merge -useContext +onlyGivenNames x25
      extract_lets -underBinder -merge -useContext +onlyGivenNames x26
      have h26 : Keeps 1048583 s x26 := by
        unfold x26
        refine Keeps.upd (t := x23) ?_ rfl rfl rfl (Nat.le_refl _)
        assumption
      try clear_value x26
      extract_lets -underBinder -merge -useContext +onlyGivenNames x27
      have h27 : Keeps 1048583 s x27 := by
        unfold x27
        refine Keeps.ite ?_ ?_
        · refine Keeps.trans ?_ (keeps_evt _ _ _)
          refine Keeps.trans ?_ (keeps_bump _ _)
          assumption
        · assumption
      try clear_value x27
      extract_lets -underBinder -merge -useContext +onlyGivenNames x28
      have h28 : Keeps 1048583 s x28 := by
        unfold x28
        refine Keeps.ite ?_ ?_
        · refine Keeps.trans ?_ (keeps_logEvent _ _ _ _)
          assumption
        · assumption
      try clear_value x28
      refine Keeps.ite ?_ ?_
      · refine Keeps.trans ?_ (keeps_evt _ _ _)
        assumption
      · assumption

theorem keeps_capFull (s : State) : Keeps 1048583 s (capFull s) := by
  unfold capFull
  refine Keeps.trans ?_ (keeps_capEnd _ _ _ _ _)
  exact Keeps.refl _

theorem keeps_capOpen (s : State) (p1 : Nat) (p2 : Nat) : Keeps 1048583 s (capOpen s p1 p2) := by
  unfold capOpen
  extract_lets -underBinder -merge -useContext +onlyGivenNames x1
  try clear_value x1
  extract_lets -underBinder -merge -useContext +onlyGivenNames x2
  try clear_value x2
  extract_lets -underBinder -merge -useContext +onlyGivenNames x3
  try clear_value x3
  extract_lets -underBinder -merge -useContext +onlyGivenNames x4
  try clear_value x4
  extract_lets -underBinder -merge -useContext +onlyGivenNames x5
  try clear_value x5
  extract_lets -underBinder -merge -useContext +onlyGivenNames x6
  try clear_value x6
  extract_lets -underBinder -merge -useContext +onlyGivenNames x7
  try clear_value x7
  extract_lets -underBinder -merge -useContext +onlyGivenNames x8
  try clear_value x8
  extract_lets -underBinder -merge -useContext +onlyGivenNames x9
  extract_lets -underBinder -merge -useContext +onlyGivenNames x10
  have h10 : Keeps 1048583 s x10 := by
    unfold x10
    refine Keeps.upd (t := s) ?_ rfl rfl rfl (Nat.le_refl _)
    exact Keeps.refl _
  try clear_value x10
  extract_lets -underBinder -merge -useContext +onlyGivenNames x11
  try clear_value x11
  extract_lets -underBinder -merge -useContext +onlyGivenNames x12
  try clear_value x12
  extract_lets -underBinder -merge -useContext +onlyGivenNames x13
  have h13 : KeepsF 1048583 s x13 := by
    unfold x13
    refine KeepsF.foldl ?_ (fun y14 a14 hy14 => ?_)
    · refine KeepsF.mk ?_
      assumption
    · refine KeepsF.ite ?_ ?_
      · assumption
      · refine KeepsF.trans ?_ (keeps_copyBlock _ _ _)
        refine KeepsF.snd ?_
        assumption
  try clear_value x13
  refine Keeps.ite ?_ ?_
  · refine Keeps.trans ?_ (keeps_capFull _)
    refine KeepsF.snd ?_
    assumption
  · refine KeepsF.snd ?_
    assumption

theorem keeps_capDrive (s : State) (p1 : Nat) (p2 : Nat) : Keeps 1048581 s (capDrive s p1 p2) := by
  unfold capDrive
  refine Keeps.ite ?_ ?_
  · extract_lets -underBinder -merge -useContext +onlyGivenNames x1
    try clear_value x1
    extract_lets -underBinder -merge -useContext +onlyGivenNames x2
    extract_lets -underBinder -merge -useContext +onlyGivenNames x3
    have h3 : Keeps 1048581 s x3 := by
      unfold x3
      refine Keeps.upd (t := s) ?_ rfl rfl rfl (Nat.le_refl _)
      exact Keeps.refl _
    try clear_value x3
    refine Keeps.ite ?_ ?_
    · split
      · refine Keeps.trans ?_ (keeps_bump _ _)
        refine Keeps.upd (t := x3) ?_ rfl rfl rfl (Nat.le_refl _)
        assumption
      · refine Keeps.trans ?_ (keeps_bump _ _)
        assumption
    · assumption
  · exact Keeps.refl _

theorem keeps_capMessage (s : State) (p1 : Nat) (p2 : Nat) : Keeps 2261159 s (capMessage s p1 p2) := by
  unfold capMessage
  refine Keeps.ite ?_ ?_
  · extract_lets -underBinder -merge -useContext +onlyGivenNames x1
    try clear_value x1
    extract_lets -underBinder -merge -useContext +onlyGivenNames x2
    try clear_value x2
    refine Keeps.trans ?_ (keeps_hshSend _ _ _ _ _ _ _ _ _)
    exact Keeps.refl _
  · exact Keeps.refl _

theorem keeps_capTrigger (s : State) (p1 : Nat) (p2 : Nat) : Keeps 3309735 s (capTrigger s p1 p2) := by
  unfold capTrigger
  refine Keeps.ite ?_ ?_
  · exact Keeps.refl _
  · refine Keeps.ite ?_ ?_
    · refine Keeps.trans ?_ (keeps_bump _ _)
      exact Keeps.refl _
    · extract_lets -underBinder -merge -useContext +onlyGivenNames x1
      have h1 : Keeps 3309735 s x1 := by
        unfold x1
        refine Keeps.trans ?_ (keeps_evt _ _ _)
        refine Keeps.trans ?_ (keeps_bump _ _)
        exact Keeps.refl _
      try clear_value x1
      extract_lets -underBinder -merge -useContext +onlyGivenNames x2
      have h2 : Keeps 3309735 s x2 := by
        unfold x2
        split
        · refine Keeps.trans ?_ (keeps_capOpen _ _ _)
          assumption
        · refine Keeps.upd (t := x1) ?_ rfl rfl rfl (Nat.le_refl _)
          assumption
      try clear_value x2
      refine Keeps.trans ?_ (keeps_capMessage _ _ _)
      refine Keeps.trans ?_ (keeps_capDrive _ _ _)
      assumption

theorem keeps_capVerdict (s : State) (p1 : Nat) (p2 : Nat) : Keeps 3309735 s (capVerdict s p1 p2) := by
  unfold capVerdict
  refine Keeps.ite ?_ ?_
  · refine Keeps.trans ?_ (keeps_capTrigger _ _ _)
    exact Keeps.refl _
  · exact Keeps.refl _

end Sys2Proof.Machine
end

