-- ==== Sys2Proof/Laws/KeepsVerdict.lean ====
section
/-! SUPPORT. What each function of Machine/Verdict.lean leaves unchanged (the mask names the areas it may change). -/

set_option Elab.async false

namespace Sys2Proof.Machine

theorem keeps_setBank (s : State) (p1 : Nat) (p2 : Bank) : Keeps 8192 s (setBank s p1 p2) := by
  unfold setBank
  refine Keeps.upd (t := s) ?_ rfl rfl rfl (Nat.le_refl _)
  exact Keeps.refl _

theorem keeps_takeBank (s : State) (p1 : Nat) (p2 : Nat) : Keeps 8192 s (takeBank s p1 p2) := by
  unfold takeBank
  refine Keeps.trans ?_ (keeps_setBank _ _ _)
  exact Keeps.refl _

theorem keeps_lgaStore (s : State) (p1 : Lga) : Keeps 8199 s (lgaStore s p1) := by
  unfold lgaStore
  extract_lets -underBinder -merge -useContext +onlyGivenNames x1
  have h1 : Keeps 8199 s x1 := by
    unfold x1
    refine Keeps.trans ?_ (keeps_evt _ _ _)
    refine Keeps.trans ?_ (keeps_bump _ _)
    exact Keeps.refl _
  try clear_value x1
  split
  · assumption
  · refine Keeps.ite ?_ ?_
    · extract_lets -underBinder -merge -useContext +onlyGivenNames x2
      try clear_value x2
      refine Keeps.trans ?_ (keeps_bump _ _)
      refine Keeps.upd (t := s) ?_ rfl rfl rfl (Nat.le_refl _)
      exact Keeps.refl _
    · assumption

theorem keeps_lgaPost (s : State) (p1 : Lga) : Keeps 8199 s (lgaPost s p1) := by
  unfold lgaPost
  refine Keeps.ite ?_ ?_
  · split
    · extract_lets -underBinder -merge -useContext +onlyGivenNames x1
      try clear_value x1
      refine Keeps.trans ?_ (keeps_setBank _ _ _)
      exact Keeps.refl _
    · exact Keeps.refl _
  · refine Keeps.ite ?_ ?_
    · refine Keeps.upd (t := s) ?_ rfl rfl rfl (Nat.le_refl _)
      exact Keeps.refl _
    · refine Keeps.trans ?_ (keeps_lgaStore _ _)
      exact Keeps.refl _

theorem keeps_pinEval (s : State) : Keeps 8197 s (pinEval s) := by
  unfold pinEval
  extract_lets -underBinder -merge -useContext +onlyGivenNames x1
  try clear_value x1
  extract_lets -underBinder -merge -useContext +onlyGivenNames x2
  try clear_value x2
  extract_lets -underBinder -merge -useContext +onlyGivenNames x3
  extract_lets -underBinder -merge -useContext +onlyGivenNames x4
  have h4 : Keeps 8197 s x4 := by
    unfold x4
    refine Keeps.upd (t := s) ?_ rfl rfl rfl (Nat.le_refl _)
    exact Keeps.refl _
  try clear_value x4
  refine Keeps.foldl ?_ (fun y5 a5 hy5 => ?_)
  · assumption
  · extract_lets -underBinder -merge -useContext +onlyGivenNames x6
    try clear_value x6
    refine Keeps.ite ?_ ?_
    · refine Keeps.upd (t := y5) ?_ rfl rfl rfl (Nat.le_refl _)
      assumption
    · refine Keeps.ite ?_ ?_
      · refine Keeps.trans ?_ (keeps_bump _ _)
        refine Keeps.upd (t := y5) ?_ rfl rfl rfl (Nat.le_refl _)
        assumption
      · assumption

theorem keeps_pinMapSet (s : State) (p1 : List (List Byte)) : Keeps 8192 s (pinMapSet s p1) := by
  unfold pinMapSet
  refine Keeps.ite ?_ ?_
  · refine Keeps.upd (t := s) ?_ rfl rfl rfl (Nat.le_refl _)
    exact Keeps.refl _
  · extract_lets -underBinder -merge -useContext +onlyGivenNames x1
    try clear_value x1
    refine Keeps.upd (t := s) ?_ rfl rfl rfl (Nat.le_refl _)
    exact Keeps.refl _

theorem keeps_tplNoKey (s : State) : Keeps 7 s (tplNoKey s) := by
  unfold tplNoKey
  refine Keeps.trans ?_ (keeps_evt _ _ _)
  refine Keeps.trans ?_ (keeps_bump _ _)
  exact Keeps.refl _

theorem keeps_tplSend (s : State) (p1 : Nat) (p2 : Template) (p3 : TplState) (p4 : Nat) : Keeps 2236583 s (tplSend s p1 p2 p3 p4) := by
  unfold tplSend
  extract_lets -underBinder -merge -useContext +onlyGivenNames x1
  try clear_value x1
  refine Keeps.ite ?_ ?_
  · refine Keeps.trans ?_ (keeps_tplNoKey _)
    exact Keeps.refl _
  · extract_lets -underBinder -merge -useContext +onlyGivenNames x2
    try clear_value x2
    extract_lets -underBinder -merge -useContext +onlyGivenNames x3
    try clear_value x3
    extract_lets -underBinder -merge -useContext +onlyGivenNames x4
    try clear_value x4
    extract_lets -underBinder -merge -useContext +onlyGivenNames x5
    try clear_value x5
    extract_lets -underBinder -merge -useContext +onlyGivenNames x6
    try clear_value x6
    extract_lets -underBinder -merge -useContext +onlyGivenNames x7
    have h7 : Keeps 2236583 s x7 := by
      unfold x7
      refine Keeps.ite ?_ ?_
      · refine Keeps.trans ?_ (keeps_nextFree _)
        exact Keeps.refl _
      · exact Keeps.refl _
    try clear_value x7
    extract_lets -underBinder -merge -useContext +onlyGivenNames x8
    try clear_value x8
    extract_lets -underBinder -merge -useContext +onlyGivenNames x9
    try clear_value x9
    extract_lets -underBinder -merge -useContext +onlyGivenNames x10
    have h10 : Keeps 2236583 s x10 := by
      unfold x10
      refine Keeps.foldl ?_ (fun y11 a11 hy11 => ?_)
      · assumption
      · refine Keeps.ite ?_ ?_
        · refine Keeps.trans ?_ (keeps_expressOr _ _ _ _ _)
          assumption
        · refine Keeps.trans ?_ (keeps_outFrame _ _ _ _ _)
          assumption
    try clear_value x10
    extract_lets -underBinder -merge -useContext +onlyGivenNames x12
    extract_lets -underBinder -merge -useContext +onlyGivenNames x13
    have h13 : Keeps 2236583 s x13 := by
      unfold x13
      refine Keeps.ite ?_ ?_
      · refine Keeps.upd (t := x10) ?_ rfl rfl rfl (Nat.le_refl _)
        assumption
      · assumption
    try clear_value x13
    refine Keeps.ite ?_ ?_
    · assumption
    · refine Keeps.trans ?_ (keeps_bump _ _)
      assumption

theorem keeps_setTpl (s : State) (p1 : Nat) (p2 : TplState) : Keeps 8192 s (setTpl s p1 p2) := by
  unfold setTpl
  refine Keeps.upd (t := s) ?_ rfl rfl rfl (Nat.le_refl _)
  exact Keeps.refl _

theorem keeps_tplTrigger (s : State) (p1 : Nat) (p2 : Template) (p3 : Patch) : Keeps 2236583 s (tplTrigger s p1 p2 p3) := by
  unfold tplTrigger
  extract_lets -underBinder -merge -useContext +onlyGivenNames x1
  try clear_value x1
  extract_lets -underBinder -merge -useContext +onlyGivenNames x2
  try clear_value x2
  refine Keeps.trans ?_ (keeps_tplSend _ _ _ _ _)
  refine Keeps.trans ?_ (keeps_setTpl _ _ _)
  exact Keeps.refl _

theorem keeps_tplStart (s : State) (p1 : Nat) (p2 : Template) (p3 : List Byte) (p4 : Patch) (p5 : Bool) : Keeps 2236583 s (tplStart s p1 p2 p3 p4 p5) := by
  unfold tplStart
  extract_lets -underBinder -merge -useContext +onlyGivenNames x1
  try clear_value x1
  extract_lets -underBinder -merge -useContext +onlyGivenNames x2
  try clear_value x2
  extract_lets -underBinder -merge -useContext +onlyGivenNames x3
  try clear_value x3
  refine Keeps.trans ?_ (keeps_tplSend _ _ _ _ _)
  refine Keeps.trans ?_ (keeps_setTpl _ _ _)
  refine Keeps.trans ?_ (keeps_nextFree _)
  refine Keeps.trans ?_ (keeps_nextFree _)
  exact Keeps.refl _

theorem keeps_tplUrgent (s : State) (p1 : Template) (p2 : Patch) : Keeps 2261159 s (tplUrgent s p1 p2) := by
  unfold tplUrgent
  refine Keeps.ite ?_ ?_
  · refine Keeps.trans ?_ (keeps_tplNoKey _)
    exact Keeps.refl _
  · extract_lets -underBinder -merge -useContext +onlyGivenNames x1
    try clear_value x1
    extract_lets -underBinder -merge -useContext +onlyGivenNames x2
    try clear_value x2
    refine Keeps.trans ?_ (keeps_bump _ _)
    refine Keeps.trans ?_ (keeps_hshSend _ _ _ _ _ _ _ _ _)
    refine Keeps.ite ?_ ?_
    · refine Keeps.trans ?_ (keeps_nextFree _)
      exact Keeps.refl _
    · exact Keeps.refl _

theorem keeps_templates (s : State) (p1 : Plan) (p2 : Nat) (p3 : Patch) (p4 : List (Nat × Bool × Nat)) : Keeps 2269351 s (templates s p1 p2 p3 p4) := by
  unfold templates
  extract_lets -underBinder -merge -useContext +onlyGivenNames x1
  try clear_value x1
  extract_lets -underBinder -merge -useContext +onlyGivenNames x2
  try clear_value x2
  extract_lets -underBinder -merge -useContext +onlyGivenNames x3
  extract_lets -underBinder -merge -useContext +onlyGivenNames x4
  have h4 : Keeps 2269351 s x4 := by
    unfold x4
    refine Keeps.ite ?_ ?_
    · refine Keeps.upd (t := s) ?_ rfl rfl rfl (Nat.le_refl _)
      exact Keeps.refl _
    · exact Keeps.refl _
  try clear_value x4
  extract_lets -underBinder -merge -useContext +onlyGivenNames x5
  try clear_value x5
  refine Keeps.foldl ?_ (fun y6 a6 hy6 => ?_)
  · assumption
  · split
    · assumption
    · extract_lets -underBinder -merge -useContext +onlyGivenNames x7
      try clear_value x7
      extract_lets -underBinder -merge -useContext +onlyGivenNames x8
      try clear_value x8
      refine Keeps.ite ?_ ?_
      · refine Keeps.ite ?_ ?_
        · refine Keeps.trans ?_ (keeps_tplUrgent _ _ _)
          assumption
        · assumption
      · refine Keeps.ite ?_ ?_
        · refine Keeps.trans ?_ (keeps_tplStart _ _ _ _ _ _)
          assumption
        · refine Keeps.ite ?_ ?_
          · refine Keeps.trans ?_ (keeps_tplTrigger _ _ _ _)
            assumption
          · assumption

theorem keeps_vrdRecord (s : State) (p1 : List Byte) : Keeps 167 s (vrdRecord s p1) := by
  unfold vrdRecord
  refine Keeps.ite ?_ ?_
  · extract_lets -underBinder -merge -useContext +onlyGivenNames x1
    try clear_value x1
    extract_lets -underBinder -merge -useContext +onlyGivenNames x2
    try clear_value x2
    refine Keeps.ite ?_ ?_
    · refine Keeps.trans ?_ (keeps_commitPacket _ _ _)
      exact Keeps.refl _
    · refine Keeps.trans ?_ (keeps_logEvent _ _ _ _)
      refine Keeps.trans ?_ (keeps_evt _ _ _)
      refine Keeps.trans ?_ (keeps_devCopy _ _ _ _)
      exact Keeps.refl _
  · exact Keeps.refl _

theorem keeps_upSend (s : State) (p1 : Nat) (p2 : Nat) (p3 : SMap DWord) (p4 : List LineVal) (p5 : Nat) (p6 : Bool) (p7 : Bool) (p8 : Nat) (p9 : Nat) (p10 : Nat) : Keeps 2261159 s (upSend s p1 p2 p3 p4 p5 p6 p7 p8 p9 p10) := by
  unfold upSend
  refine Keeps.ite ?_ ?_
  · extract_lets -underBinder -merge -useContext +onlyGivenNames x1
    try clear_value x1
    extract_lets -underBinder -merge -useContext +onlyGivenNames x2
    extract_lets -underBinder -merge -useContext +onlyGivenNames x3
    have h3 : Keeps 2261159 s x3 := by
      unfold x3
      refine Keeps.ite ?_ ?_
      · refine Keeps.upd (t := s) ?_ rfl rfl rfl (Nat.le_refl _)
        exact Keeps.refl _
      · exact Keeps.refl _
    try clear_value x3
    refine Keeps.trans ?_ (keeps_hshSend _ _ _ _ _ _ _ _ _)
    assumption
  · exact Keeps.refl _

theorem keeps_applyClose (s : State) (p1 : Plan) (p2 : Reduction) (p3 : Nat) (p4 : List (Nat × Bool × Nat)) : Keeps 3317927 s (applyClose s p1 p2 p3 p4) := by
  unfold applyClose
  extract_lets -underBinder -merge -useContext +onlyGivenNames x1
  try clear_value x1
  extract_lets -underBinder -merge -useContext +onlyGivenNames x2
  extract_lets -underBinder -merge -useContext +onlyGivenNames x3
  have h3 : Keeps 3317927 s x3 := by
    unfold x3
    refine Keeps.upd (t := s) ?_ rfl rfl rfl (Nat.le_refl _)
    exact Keeps.refl _
  try clear_value x3
  extract_lets -underBinder -merge -useContext +onlyGivenNames x4
  have h4 : Keeps 3317927 s x4 := by
    unfold x4
    refine Keeps.trans ?_ (keeps_pinEval _)
    refine Keeps.trans ?_ (keeps_pinMapSet _ _)
    assumption
  try clear_value x4
  extract_lets -underBinder -merge -useContext +onlyGivenNames x5
  try clear_value x5
  extract_lets -underBinder -merge -useContext +onlyGivenNames x6
  have h6 : Keeps 3317927 s x6 := by
    unfold x6
    refine Keeps.trans ?_ (keeps_templates _ _ _ _ _)
    assumption
  try clear_value x6
  refine Keeps.trans ?_ (keeps_capVerdict _ _ _)
  assumption

theorem keeps_setEx (s : State) (p1 : Exhibit) : Keeps 1024 s (setEx s p1) := by
  unfold setEx
  exact Keeps.upd (Keeps.refl s) rfl rfl rfl (Nat.le_refl _)
    (r11 := fun h => smInsert_all _ _ _ _ (smErase_all _ _ _ h) (decide_eq_true rfl))

theorem keeps_putDigest (s : State) (p1 : Nat) (p2 : Nat) (p3 : Nat) : Keeps 2262183 s (putDigest s p1 p2 p3) := by
  unfold putDigest
  split
  · refine Keeps.trans ?_ (keeps_digestOwn _ _ _ _)
    refine Keeps.trans ?_ (keeps_setEx _ _)
    exact Keeps.refl _
  · exact Keeps.refl _

theorem keeps_digestRevs (s : State) (p1 p2 p3 : Nat) : Keeps 2262183 s (digestRevs s p1 p2 p3) := by
  induction p3 generalizing s p2 with
  | zero => exact Keeps.refl _
  | succ n ih =>
    unfold digestRevs
    split
    · exact Keeps.refl _
    · exact Keeps.ite (Keeps.refl _) (Keeps.trans (keeps_putDigest _ _ _ _).mono (ih _ _))

theorem keeps_putLine (s : State) (p1 : Nat) (p2 : Nat) (p3 : LineState) (p4 : LineState) : Keeps 8199 s (putLine s p1 p2 p3 p4) := by
  unfold putLine
  extract_lets -underBinder -merge -useContext +onlyGivenNames x1
  try clear_value x1
  extract_lets -underBinder -merge -useContext +onlyGivenNames x2
  try clear_value x2
  extract_lets -underBinder -merge -useContext +onlyGivenNames x3
  extract_lets -underBinder -merge -useContext +onlyGivenNames x4
  have h4 : Keeps 8199 s x4 := by
    unfold x4
    refine Keeps.upd (t := s) ?_ rfl rfl rfl (Nat.le_refl _)
    exact Keeps.refl _
  try clear_value x4
  extract_lets -underBinder -merge -useContext +onlyGivenNames x5
  have h5 : Keeps 8199 s x5 := by
    unfold x5
    refine Keeps.ite ?_ ?_
    · refine Keeps.trans ?_ (keeps_logEvent _ _ _ _)
      refine Keeps.trans ?_ (keeps_setReg _ _ _)
      assumption
    · assumption
  try clear_value x5
  extract_lets -underBinder -merge -useContext +onlyGivenNames x6
  have h6 : Keeps 8199 s x6 := by
    unfold x6
    refine Keeps.ite ?_ ?_
    · refine Keeps.trans ?_ (keeps_bump _ _)
      assumption
    · assumption
  try clear_value x6
  refine Keeps.ite ?_ ?_
  · assumption
  · refine Keeps.ite ?_ ?_
    · refine Keeps.trans ?_ (keeps_logEvent _ _ _ _)
      refine Keeps.trans ?_ (keeps_evt _ _ _)
      refine Keeps.trans ?_ (keeps_bump _ _)
      assumption
    · refine Keeps.trans ?_ (keeps_logEvent _ _ _ _)
      refine Keeps.trans ?_ (keeps_evt _ _ _)
      refine Keeps.trans ?_ (keeps_bump _ _)
      assumption

theorem keeps_changeRecords (s : State) (p1 : List VLine) (p2 : Reduction) (p3 : List (Nat × Bool × Nat)) : Keeps 167 s (changeRecords s p1 p2 p3) := by
  unfold changeRecords
  refine Keeps.foldl ?_ (fun y1 a1 hy1 => ?_)
  · exact Keeps.refl _
  · extract_lets -underBinder -merge -useContext +onlyGivenNames x2
    try clear_value x2
    extract_lets -underBinder -merge -useContext +onlyGivenNames x3
    try clear_value x3
    refine Keeps.trans ?_ (keeps_vrdRecord _ _)
    assumption

theorem keeps_reduceShown (s : State) (p1 : Nat) (p2 : Nat) (p3 : Nat) : Keeps 8197 s (reduceShown s p1 p2 p3) := by
  unfold reduceShown
  extract_lets -underBinder -merge -useContext +onlyGivenNames x1
  try clear_value x1
  extract_lets -underBinder -merge -useContext +onlyGivenNames x2
  have h2 : Keeps 8197 s x2 := by
    unfold x2
    refine Keeps.trans ?_ (keeps_setReg64 _ _ _ _)
    exact Keeps.refl _
  try clear_value x2
  extract_lets -underBinder -merge -useContext +onlyGivenNames x3
  have h3 : Keeps 8197 s x3 := by
    unfold x3
    refine Keeps.trans ?_ (keeps_setRegN _ _ _)
    assumption
  try clear_value x3
  extract_lets -underBinder -merge -useContext +onlyGivenNames x4
  have h4 : Keeps 8197 s x4 := by
    unfold x4
    refine Keeps.ite ?_ ?_
    · refine Keeps.trans ?_ (keeps_setRegN _ _ _)
      assumption
    · assumption
  try clear_value x4
  refine Keeps.trans ?_ (keeps_bump _ _)
  refine Keeps.upd (t := x4) ?_ rfl rfl rfl (Nat.le_refl _)
  assumption

theorem keeps_reduceBank (s : State) (p1 : Plan) (p2 : Reduction) (p3 : Nat) (p4 : Nat) (p5 : Nat) : Keeps 3318951 s (reduceBank s p1 p2 p3 p4 p5) := by
  unfold reduceBank
  extract_lets -underBinder -merge -useContext +onlyGivenNames x1
  try clear_value x1
  extract_lets -underBinder -merge -useContext +onlyGivenNames x2
  try clear_value x2
  extract_lets -underBinder -merge -useContext +onlyGivenNames x3
  try clear_value x3
  extract_lets -underBinder -merge -useContext +onlyGivenNames x4
  try clear_value x4
  extract_lets -underBinder -merge -useContext +onlyGivenNames x5
  try clear_value x5
  extract_lets -underBinder -merge -useContext +onlyGivenNames x6
  have h6 : Keeps 3318951 s x6 := by
    unfold x6
    refine Keeps.foldl ?_ (fun y7 a7 hy7 => ?_)
    · exact Keeps.refl _
    · refine Keeps.trans ?_ (keeps_putLine _ _ _ _ _)
      assumption
  try clear_value x6
  extract_lets -underBinder -merge -useContext +onlyGivenNames x8
  try clear_value x8
  extract_lets -underBinder -merge -useContext +onlyGivenNames x9
  have h9 : Keeps 3318951 s x9 := by
    unfold x9
    refine Keeps.trans ?_ (keeps_applyClose _ _ _ _ _)
    assumption
  try clear_value x9
  extract_lets -underBinder -merge -useContext +onlyGivenNames x10
  try clear_value x10
  extract_lets -underBinder -merge -useContext +onlyGivenNames x11
  extract_lets -underBinder -merge -useContext +onlyGivenNames x12
  have h12 : Keeps 3318951 s x12 := by
    unfold x12
    refine Keeps.trans ?_ (keeps_setBank _ _ _)
    assumption
  try clear_value x12
  extract_lets -underBinder -merge -useContext +onlyGivenNames x13
  have h13 : Keeps 3318951 s x13 := by
    unfold x13
    refine Keeps.trans ?_ (keeps_changeRecords _ _ _ _)
    assumption
  try clear_value x13
  extract_lets -underBinder -merge -useContext +onlyGivenNames x14
  try clear_value x14
  extract_lets -underBinder -merge -useContext +onlyGivenNames x15
  have h15 : Keeps 3318951 s x15 := by
    unfold x15
    refine Keeps.trans ?_ (keeps_upSend _ _ _ _ _ _ _ _ _ _ _)
    assumption
  try clear_value x15
  extract_lets -underBinder -merge -useContext +onlyGivenNames x16
  have h16 : Keeps 3318951 s x16 := by
    unfold x16
    split
    · refine Keeps.trans ?_ (keeps_putDigest _ _ _ _)
      assumption
    · assumption
  try clear_value x16
  refine Keeps.trans ?_ (keeps_reduceShown _ _ _ _)
  assumption

theorem keeps_upAddendum (s : State) (p1 : Exhibit) (p2 : Nat) (p3 : Option RevEntry) (p4 : List LineVal) (p5 : List VLine) (p6 : List Notice) (p7 : Nat) : Keeps 2261159 s (upAddendum s p1 p2 p3 p4 p5 p6 p7) := by
  unfold upAddendum
  split
  · exact Keeps.refl _
  · extract_lets -underBinder -merge -useContext +onlyGivenNames x1
    try clear_value x1
    extract_lets -underBinder -merge -useContext +onlyGivenNames x2
    try clear_value x2
    extract_lets -underBinder -merge -useContext +onlyGivenNames x3
    try clear_value x3
    extract_lets -underBinder -merge -useContext +onlyGivenNames x4
    try clear_value x4
    extract_lets -underBinder -merge -useContext +onlyGivenNames x5
    try clear_value x5
    extract_lets -underBinder -merge -useContext +onlyGivenNames x6
    try clear_value x6
    extract_lets -underBinder -merge -useContext +onlyGivenNames x7
    try clear_value x7
    extract_lets -underBinder -merge -useContext +onlyGivenNames x8
    try clear_value x8
    extract_lets -underBinder -merge -useContext +onlyGivenNames x9
    try clear_value x9
    extract_lets -underBinder -merge -useContext +onlyGivenNames x10
    have h10 : Keeps 2261159 s x10 := by
      unfold x10
      refine Keeps.trans ?_ (keeps_bumpBy _ _ _)
      exact Keeps.refl _
    try clear_value x10
    refine Keeps.trans ?_ (keeps_hshSend _ _ _ _ _ _ _ _ _)
    assumption

theorem keeps_revEvaluate (s : State) (p1 : Nat) : Keeps 2270375 s (revEvaluate s p1) := by
  unfold revEvaluate
  split
  · exact Keeps.refl _
  · split
    · refine Keeps.trans ?_ (keeps_digestRevs _ _ _ _)
      exact Keeps.refl _
    · extract_lets -underBinder -merge -useContext +onlyGivenNames x1
      try clear_value x1
      split
      · refine Keeps.trans ?_ (keeps_upAddendum _ _ _ _ _ _ _ _)
        refine Keeps.trans ?_ (keeps_digestRevs _ _ _ _)
        exact Keeps.refl _
      · extract_lets -underBinder -merge -useContext +onlyGivenNames x2
        try clear_value x2
        extract_lets -underBinder -merge -useContext +onlyGivenNames x3
        try clear_value x3
        extract_lets -underBinder -merge -useContext +onlyGivenNames x4
        try clear_value x4
        extract_lets -underBinder -merge -useContext +onlyGivenNames x5
        try clear_value x5
        extract_lets -underBinder -merge -useContext +onlyGivenNames x6
        try clear_value x6
        extract_lets -underBinder -merge -useContext +onlyGivenNames x7
        extract_lets -underBinder -merge -useContext +onlyGivenNames x8
        have h8 : Keeps 2270375 s x8 := by
          unfold x8
          refine Keeps.trans ?_ (keeps_bump _ _)
          refine Keeps.upd (t := s) ?_ rfl rfl rfl (Nat.le_refl _)
          exact Keeps.refl _
        try clear_value x8
        extract_lets -underBinder -merge -useContext +onlyGivenNames x9
        try clear_value x9
        extract_lets -underBinder -merge -useContext +onlyGivenNames x10
        have h10 : Keeps 2270375 s x10 := by
          unfold x10
          refine Keeps.foldl ?_ (fun y11 a11 hy11 => ?_)
          · assumption
          · extract_lets -underBinder -merge -useContext +onlyGivenNames x12
            have h12 : Keeps 2270375 s x12 := by
              unfold x12
              refine Keeps.trans ?_ (keeps_evt _ _ _)
              refine Keeps.trans ?_ (keeps_bump _ _)
              assumption
            try clear_value x12
            refine Keeps.trans ?_ (keeps_vrdRecord _ _)
            assumption
        try clear_value x10
        extract_lets -underBinder -merge -useContext +onlyGivenNames x13
        have h13 : Keeps 2270375 s x13 := by
          unfold x13
          refine Keeps.trans ?_ (keeps_digestRevs _ _ _ _)
          assumption
        try clear_value x13
        refine Keeps.trans ?_ (keeps_upAddendum _ _ _ _ _ _ _ _)
        assumption

theorem keeps_revisionDone (s : State) (p1 : Nat) : Keeps 2270375 s (revisionDone s p1) := by
  unfold revisionDone
  split
  · exact Keeps.refl _
  · refine Keeps.ite ?_ ?_
    · refine Keeps.ite ?_ ?_
      · refine Keeps.trans ?_ (keeps_digestRevs _ _ _ _)
        exact Keeps.refl _
      · refine Keeps.trans ?_ (keeps_revEvaluate _ _)
        exact Keeps.refl _
    · exact Keeps.refl _

theorem keeps_keepCopied (s : State) (p1 : Nat) : Keeps 8199 s (keepCopied s p1) := by
  unfold keepCopied
  extract_lets -underBinder -merge -useContext +onlyGivenNames x1
  try clear_value x1
  extract_lets -underBinder -merge -useContext +onlyGivenNames x2
  try clear_value x2
  extract_lets -underBinder -merge -useContext +onlyGivenNames x3
  have h3 : Keeps 8199 s x3 := by
    unfold x3
    split
    · exact Keeps.refl _
    · extract_lets -underBinder -merge -useContext +onlyGivenNames x4
      try clear_value x4
      extract_lets -underBinder -merge -useContext +onlyGivenNames x5
      try clear_value x5
      refine Keeps.ite ?_ ?_
      · extract_lets -underBinder -merge -useContext +onlyGivenNames x6
        try clear_value x6
        refine Keeps.upd (t := s) ?_ rfl rfl rfl (Nat.le_refl _)
        exact Keeps.refl _
      · exact Keeps.refl _
  try clear_value x3
  extract_lets -underBinder -merge -useContext +onlyGivenNames x7
  have h7 : Keeps 8199 s x7 := by
    unfold x7
    refine Keeps.trans ?_ (keeps_setBank _ _ _)
    assumption
  try clear_value x7
  extract_lets -underBinder -merge -useContext +onlyGivenNames x8
  try clear_value x8
  extract_lets -underBinder -merge -useContext +onlyGivenNames x9
  extract_lets -underBinder -merge -useContext +onlyGivenNames x10
  have h10 : Keeps 8199 s x10 := by
    unfold x10
    refine Keeps.upd (t := x7) ?_ rfl rfl rfl (Nat.le_refl _)
    assumption
  try clear_value x10
  refine Keeps.foldl ?_ (fun y11 a11 hy11 => ?_)
  · assumption
  · refine Keeps.trans ?_ (keeps_lgaStore _ _)
    assumption

theorem keeps_bankFreed (s : State) (p1 : Nat) : Keeps 8192 s (bankFreed s p1) := by
  unfold bankFreed
  refine Keeps.ite ?_ ?_
  · refine Keeps.trans ?_ (keeps_setBank _ _ _)
    exact Keeps.refl _
  · exact Keeps.refl _

end Sys2Proof.Machine
end

