-- ==== Sys2Proof/Laws/KeepsPace.lean ====
section
/-! SUPPORT. What each function of Machine/Pace.lean leaves unchanged (the mask names the areas it may change). -/

set_option Elab.async false

namespace Sys2Proof.Machine

theorem keeps_windowEnds (s : State) (p1 : Nat) : Keeps 16 s (windowEnds s p1) := by
  unfold windowEnds
  refine Keeps.ite ?_ ?_
  · exact Keeps.refl _
  · refine Keeps.upd (t := s) ?_ rfl rfl rfl (Nat.le_refl _)
    exact Keeps.refl _

theorem keeps_paceEdgeEval (s : State) : Keeps 16 s (paceEdgeEval s) := by
  unfold paceEdgeEval
  extract_lets -underBinder -merge -useContext +onlyGivenNames x1
  try clear_value x1
  refine Keeps.trans ?_ (keeps_windowEnds _ _)
  refine Keeps.upd (t := s) ?_ rfl rfl rfl (Nat.le_refl _)
  exact Keeps.refl _

theorem keeps_paceRetarget (s : State) : Keeps 17 s (paceRetarget s) := by
  unfold paceRetarget
  extract_lets -underBinder -merge -useContext +onlyGivenNames x1
  try clear_value x1
  extract_lets -underBinder -merge -useContext +onlyGivenNames x2
  have h2 : Keeps 17 s x2 := by
    unfold x2
    refine Keeps.trans ?_ (keeps_setRegN _ _ _)
    exact Keeps.refl _
  try clear_value x2
  extract_lets -underBinder -merge -useContext +onlyGivenNames x3
  have h3 : Keeps 17 s x3 := by
    unfold x3
    refine Keeps.trans ?_ (keeps_setRegN _ _ _)
    assumption
  try clear_value x3
  refine Keeps.trans ?_ (keeps_paceEdgeEval _)
  assumption

theorem keeps_setRings (s : State) (p1 : List Nat) (p2 : Nat) : Keeps 1 s (setRings s p1 p2) := by
  unfold setRings
  extract_lets -underBinder -merge -useContext +onlyGivenNames x1
  try clear_value x1
  extract_lets -underBinder -merge -useContext +onlyGivenNames x2
  have h2 : Keeps 1 s x2 := by
    unfold x2
    refine Keeps.foldl ?_ (fun y3 a3 hy3 => ?_)
    · exact Keeps.refl _
    · refine Keeps.trans ?_ (keeps_setRegN _ _ _)
      assumption
  try clear_value x2
  extract_lets -underBinder -merge -useContext +onlyGivenNames x4
  try clear_value x4
  extract_lets -underBinder -merge -useContext +onlyGivenNames x5
  have h5 : Keeps 1 s x5 := by
    unfold x5
    refine Keeps.trans ?_ (keeps_setRegN _ _ _)
    assumption
  try clear_value x5
  refine Keeps.ite ?_ ?_
  · refine Keeps.trans ?_ (keeps_setRegN _ _ _)
    assumption
  · assumption

theorem keeps_showVcore (s : State) : Keeps 1 s (showVcore s) := by
  unfold showVcore
  extract_lets -underBinder -merge -useContext +onlyGivenNames x1
  have h1 : Keeps 1 s x1 := by
    unfold x1
    refine Keeps.trans ?_ (keeps_setRegN _ _ _)
    exact Keeps.refl _
  try clear_value x1
  refine Keeps.trans ?_ (keeps_setReg _ _ _)
  assumption

theorem vcoreOk_min : vcoreOk 1200 := ⟨by omega, by omega, rfl⟩
theorem vcoreOk_max : vcoreOk 1700 := ⟨by omega, by omega, rfl⟩
theorem vcoreOk_cal (k : Nat) (h : k ≤ 10) : vcoreOk (calVcore k) := by
  unfold vcoreOk calVcore
  omega
theorem keeps_vcoreStep (s : State) (p1 : Nat) : Keeps 17 s (vcoreStep s p1) := by
  unfold vcoreStep
  extract_lets -underBinder -merge -useContext +onlyGivenNames v w
  refine Keeps.trans ?_ (keeps_showVcore _)
  refine Keeps.upd (t := s) (Keeps.refl _) rfl rfl rfl (Nat.le_refl _) (r8 := fun h k => ?_)
  show vcoreOk w
  unfold w v
  unfold vcoreOk at h k ⊢
  split
  · rename_i e
    unfold canRaise at e
    simp only [Bool.and_eq_true, decide_eq_true_eq] at e
    omega
  · split
    · rename_i e
      simp only [Bool.and_eq_true, decide_eq_true_eq] at e
      omega
    · split <;> omega

theorem keeps_shortTick (s : State) : Keeps 21 s (shortTick s) := by
  unfold shortTick
  refine Keeps.ite ?_ ?_
  · extract_lets -underBinder -merge -useContext +onlyGivenNames x1
    try clear_value x1
    refine Keeps.trans ?_ (keeps_bumpBy _ _ _)
    refine Keeps.upd (t := s) ?_ rfl rfl rfl (Nat.le_refl _)
    exact Keeps.refl _
  · exact Keeps.refl _

theorem keeps_setStatusBit (s : State) (p1 : Nat) (p2 : Bool) : Keeps 1 s (setStatusBit s p1 p2) := by
  unfold setStatusBit
  refine Keeps.trans ?_ (keeps_setReg _ _ _)
  exact Keeps.refl _

theorem keeps_paceShort (s : State) (p1 : Nat) (p2 : Bool) : Keeps 23 s (paceShort s p1 p2) := by
  unfold paceShort
  extract_lets -underBinder -merge -useContext +onlyGivenNames x1
  try clear_value x1
  refine Keeps.ite ?_ ?_
  · extract_lets -underBinder -merge -useContext +onlyGivenNames x2
    have h2 : Keeps 23 s x2 := by
      unfold x2
      refine Keeps.trans ?_ (keeps_shortTick _)
      exact Keeps.refl _
    try clear_value x2
    extract_lets -underBinder -merge -useContext +onlyGivenNames x3
    try clear_value x3
    extract_lets -underBinder -merge -useContext +onlyGivenNames x4
    extract_lets -underBinder -merge -useContext +onlyGivenNames x5
    have h5 : Keeps 23 s x5 := by
      unfold x5
      refine Keeps.upd (t := x2) ?_ rfl rfl rfl (Nat.le_refl _)
      assumption
    try clear_value x5
    refine Keeps.ite ?_ ?_
    · extract_lets -underBinder -merge -useContext +onlyGivenNames x6
      have h6 : Keeps 23 s x6 := by
        unfold x6
        refine Keeps.trans ?_ (keeps_evt _ _ _)
        refine Keeps.trans ?_ (keeps_setStatusBit _ _ _)
        assumption
      try clear_value x6
      refine Keeps.trans ?_ (keeps_logEvent _ _ _ _)
      refine Keeps.upd (t := x6) ?_ rfl rfl rfl (Nat.le_refl _)
      assumption
    · assumption
  · extract_lets -underBinder -merge -useContext +onlyGivenNames x7
    try clear_value x7
    extract_lets -underBinder -merge -useContext +onlyGivenNames x8
    extract_lets -underBinder -merge -useContext +onlyGivenNames x9
    have h9 : Keeps 23 s x9 := by
      unfold x9
      refine Keeps.upd (t := s) ?_ rfl rfl rfl (Nat.le_refl _)
      exact Keeps.refl _
    try clear_value x9
    refine Keeps.ite ?_ ?_
    · extract_lets -underBinder -merge -useContext +onlyGivenNames x10
      have h10 : Keeps 23 s x10 := by
        unfold x10
        refine Keeps.trans ?_ (keeps_bump _ _)
        refine Keeps.trans ?_ (keeps_evt _ _ _)
        refine Keeps.trans ?_ (keeps_setStatusBit _ _ _)
        assumption
      try clear_value x10
      extract_lets -underBinder -merge -useContext +onlyGivenNames x11
      extract_lets -underBinder -merge -useContext +onlyGivenNames x12
      have h12 : Keeps 23 s x12 := by
        unfold x12
        refine Keeps.upd (t := x10) ?_ rfl rfl rfl (Nat.le_refl _)
        assumption
      try clear_value x12
      refine Keeps.trans ?_ (keeps_logEvent _ _ _ _)
      assumption
    · assumption

theorem keeps_paceBelow (s : State) (p1 : Nat) : Keeps 23 s (paceBelow s p1) := by
  unfold paceBelow
  extract_lets -underBinder -merge -useContext +onlyGivenNames x1
  try clear_value x1
  refine Keeps.ite ?_ ?_
  · extract_lets -underBinder -merge -useContext +onlyGivenNames x2
    try clear_value x2
    extract_lets -underBinder -merge -useContext +onlyGivenNames x3
    extract_lets -underBinder -merge -useContext +onlyGivenNames x4
    have h4 : Keeps 23 s x4 := by
      unfold x4
      refine Keeps.upd (t := s) ?_ rfl rfl rfl (Nat.le_refl _)
      exact Keeps.refl _
    try clear_value x4
    refine Keeps.ite ?_ ?_
    · refine Keeps.trans ?_ (keeps_logEvent _ _ _ _)
      refine Keeps.trans ?_ (keeps_evt _ _ _)
      refine Keeps.trans ?_ (keeps_setStatusBit _ _ _)
      assumption
    · assumption
  · refine Keeps.ite ?_ ?_
    · extract_lets -underBinder -merge -useContext +onlyGivenNames x5
      have h5 : Keeps 23 s x5 := by
        unfold x5
        refine Keeps.trans ?_ (keeps_evt _ _ _)
        refine Keeps.trans ?_ (keeps_setStatusBit _ _ _)
        exact Keeps.refl _
      try clear_value x5
      extract_lets -underBinder -merge -useContext +onlyGivenNames x6
      extract_lets -underBinder -merge -useContext +onlyGivenNames x7
      have h7 : Keeps 23 s x7 := by
        unfold x7
        refine Keeps.upd (t := x5) ?_ rfl rfl rfl (Nat.le_refl _)
        assumption
      try clear_value x7
      refine Keeps.trans ?_ (keeps_logEvent _ _ _ _)
      assumption
    · exact Keeps.refl _

theorem keeps_setTj (s : State) (p1 : Nat) : Keeps 1 s (setTj s p1) := by
  unfold setTj
  extract_lets -underBinder -merge -useContext +onlyGivenNames x1
  have h1 : Keeps 1 s x1 := by
    unfold x1
    refine Keeps.trans ?_ (keeps_setRegN _ _ _)
    exact Keeps.refl _
  try clear_value x1
  refine Keeps.ite ?_ ?_
  · refine Keeps.trans ?_ (keeps_setRegN _ _ _)
    assumption
  · assumption

theorem keeps_execPaceWindowEnd (p0 : List Nat) (p1 : Nat) (s : State) : KeepsO 8215 s (execPaceWindowEnd p0 p1 s) := by
  unfold execPaceWindowEnd
  refine KeepsO.done ?_
  refine Keeps.ite ?_ ?_
  · exact Keeps.refl _
  · extract_lets -underBinder -merge -useContext +onlyGivenNames x1
    try clear_value x1
    extract_lets -underBinder -merge -useContext +onlyGivenNames x2
    have h2 : Keeps 8215 s x2 := by
      unfold x2
      refine Keeps.trans ?_ (keeps_setRings _ _ _)
      exact Keeps.refl _
    try clear_value x2
    extract_lets -underBinder -merge -useContext +onlyGivenNames x3
    have h3 : Keeps 8215 s x3 := by
      unfold x3
      refine Keeps.trans ?_ (keeps_setTj _ _)
      assumption
    try clear_value x3
    extract_lets -underBinder -merge -useContext +onlyGivenNames x4
    try clear_value x4
    extract_lets -underBinder -merge -useContext +onlyGivenNames x5
    try clear_value x5
    extract_lets -underBinder -merge -useContext +onlyGivenNames x6
    have h6 : Keeps 8215 s x6 := by
      unfold x6
      refine Keeps.trans ?_ (keeps_paceEdgeEval _)
      assumption
    try clear_value x6
    extract_lets -underBinder -merge -useContext +onlyGivenNames x7
    have h7 : Keeps 8215 s x7 := by
      unfold x7
      refine Keeps.trans ?_ (keeps_vcoreStep _ _)
      assumption
    try clear_value x7
    extract_lets -underBinder -merge -useContext +onlyGivenNames x8
    extract_lets -underBinder -merge -useContext +onlyGivenNames x9
    have h9 : Keeps 8215 s x9 := by
      unfold x9
      refine Keeps.ite ?_ ?_
      · refine Keeps.upd (t := x7) ?_ rfl rfl rfl (Nat.le_refl _)
        assumption
      · assumption
    try clear_value x9
    refine Keeps.ite ?_ ?_
    · refine Keeps.upd (t := x9) ?_ rfl rfl rfl (Nat.le_refl _)
      assumption
    · refine Keeps.trans ?_ (keeps_pinEval _)
      refine Keeps.trans ?_ (keeps_paceBelow _ _)
      refine Keeps.trans ?_ (keeps_paceShort _ _ _)
      refine Keeps.trans ?_ (keeps_setStatusBit _ _ _)
      assumption

theorem keeps_pceCfgStore (s : State) (p1 : Word) : Keeps 23 s (pceCfgStore s p1) := by
  unfold pceCfgStore
  refine Keeps.trans ?_ (keeps_windowEnds _ _)
  refine Keeps.trans ?_ (keeps_specWrite _ _ _)
  exact Keeps.refl _

theorem keeps_execPceCfgWrite (p0 : Word) (s : State) : KeepsO 23 s (execPceCfgWrite p0 s) := by
  unfold execPceCfgWrite
  refine KeepsO.done ?_
  refine Keeps.trans ?_ (keeps_pceCfgStore _ _)
  exact Keeps.refl _

theorem keeps_pceCapStore (s : State) (p1 : Word) : Keeps 17 s (pceCapStore s p1) := by
  unfold pceCapStore
  extract_lets -underBinder -merge -useContext +onlyGivenNames mv
  split
  · exact (keeps_refuse _ _ _).mono
  · rename_i h
    simp only [Bool.or_eq_true, decide_eq_true_eq] at h
    extract_lets -underBinder -merge -useContext +onlyGivenNames half
    refine Keeps.trans (Keeps.trans ?_ (keeps_setRegN _ _ _)) (keeps_showVcore _)
    refine Keeps.upd (t := s) (Keeps.refl _) rfl rfl rfl (Nat.le_refl _) (r9 := fun _ => ?_)
    show vcoreOk half
    unfold half vcoreOk
    clear_value mv
    omega

theorem keeps_pceCalStart (s : State) : Keeps 17 s (pceCalStart s) := by
  unfold pceCalStart
  refine Keeps.ite (keeps_opRefuseStart ..).mono (Keeps.ite (keeps_refuse ..).mono ?_)
  refine Keeps.trans (Keeps.trans ?_ (keeps_opStart ..)) (keeps_showVcore _)
  exact Keeps.upd (Keeps.refl s) rfl rfl rfl (Nat.le_refl _) (r8 := fun _ _ => vcoreOk_cal 0 (Nat.zero_le _))

theorem keeps_execPceCalStart (s : State) : KeepsO 17 s (execPceCalStart s) := by
  unfold execPceCalStart
  refine KeepsO.done ?_
  refine Keeps.trans ?_ (keeps_pceCalStart _)
  exact Keeps.refl _

theorem keeps_calPoints (s : State) (p1 : List (List Nat)) : Keeps 17 s (calPoints s p1) := by
  unfold calPoints
  extract_lets -underBinder -merge -useContext +onlyGivenNames x1
  extract_lets -underBinder -merge -useContext +onlyGivenNames x2
  have h2 : Keeps 17 s x2 := by
    unfold x2
    refine Keeps.upd (t := s) ?_ rfl rfl rfl (Nat.le_refl _)
    exact Keeps.refl _
  try clear_value x2
  refine Keeps.foldl ?_ (fun y3 a3 hy3 => ?_)
  · refine Keeps.trans ?_ (keeps_opProgress _ _ _)
    assumption
  · refine Keeps.trans ?_ (keeps_setRings _ _ _)
    assumption

theorem firstBelow_lt (n : Nat) (p : Nat → Bool) (k : Nat) (h : firstBelow n p = some k) : k < n :=
  List.mem_range.1 (List.mem_of_find?_eq_some h)

theorem paceCalSeed_le (s : State) (lows : List Nat) : paceCalSeed s lows ≤ 10 := by
  unfold paceCalSeed
  extract_lets -underBinder -merge -useContext +onlyGivenNames tgt
  split
  · rename_i k h
    exact Nat.le_of_lt_succ (firstBelow_lt _ _ _ h)
  · exact Nat.le_refl _

theorem keeps_paceCalRun (s : State) (p1 : List (List Nat)) : Keeps 17 s (paceCalRun s p1) := by
  unfold paceCalRun
  refine Keeps.ite (Keeps.refl _) ?_
  extract_lets -underBinder -merge -useContext +onlyGivenNames n t cause
  have ht : Keeps 17 s t := (keeps_calPoints ..).mono
  clear_value t
  refine Keeps.ite ?_ (Keeps.ite ?_ ?_)
  · refine Keeps.trans (Keeps.trans ?_ (keeps_showVcore _)) (keeps_opEnd ..)
    exact Keeps.upd ht rfl rfl rfl (Nat.le_refl _) (r8 := fun _ _ => vcoreOk_max)
  · refine Keeps.trans ?_ (keeps_showVcore _)
    exact Keeps.upd ht rfl rfl rfl (Nat.le_refl _) (r8 := fun _ _ => vcoreOk_cal _ (Nat.min_le_left ..))
  · extract_lets -underBinder -merge -useContext +onlyGivenNames y u
    have hu : Keeps 17 s u := by
      refine Keeps.trans ?_ (keeps_showVcore _)
      exact Keeps.upd ht rfl rfl rfl (Nat.le_refl _) (r8 := fun _ _ => vcoreOk_cal _ (paceCalSeed_le _ _))
    clear_value u
    exact Keeps.trans (Keeps.trans hu (keeps_setStatusBit ..)) (keeps_opEnd ..)

theorem keeps_pceCalStop (s : State) (p1 : List (List Nat)) : Keeps 17 s (pceCalStop s p1) := by
  unfold pceCalStop
  extract_lets -underBinder -merge -useContext +onlyGivenNames x1
  have h1 : Keeps 17 s x1 := by
    unfold x1
    refine Keeps.trans ?_ (keeps_paceCalRun _ _)
    exact Keeps.refl _
  try clear_value x1
  refine Keeps.ite ?_ ?_
  · refine Keeps.trans ?_ (keeps_opEnd _ _ _ _)
    assumption
  · refine Keeps.trans ?_ (keeps_opRefuseStop _ _)
    assumption

theorem keeps_execPceCalStop (p0 : List (List Nat)) (s : State) : KeepsO 17 s (execPceCalStop p0 s) := by
  unfold execPceCalStop
  refine KeepsO.done ?_
  refine Keeps.trans ?_ (keeps_pceCalStop _ _)
  exact Keeps.refl _

theorem keeps_execPceCalEnd (p0 : List (List Nat)) (s : State) : KeepsO 17 s (execPceCalEnd p0 s) := by
  unfold execPceCalEnd
  refine KeepsO.done ?_
  refine Keeps.trans ?_ (keeps_paceCalRun _ _)
  exact Keeps.refl _

end Sys2Proof.Machine
end

