-- ==== Sys2Proof/Laws/KeepsVault.lean ====
section
/-! SUPPORT. What each function of Machine/Vault.lean leaves unchanged (the mask names the areas it may change). -/

set_option Elab.async false

namespace Sys2Proof.Machine

theorem keeps_setGeneral (s : State) (p1 : Nat) : Keeps 1025 s (setGeneral s p1) := by
  unfold setGeneral
  extract_lets -underBinder -merge -useContext +onlyGivenNames x1
  extract_lets -underBinder -merge -useContext +onlyGivenNames x2
  have h2 : Keeps 1025 s x2 := by
    unfold x2
    refine Keeps.upd (t := s) ?_ rfl rfl rfl (Nat.le_refl _)
    exact Keeps.refl _
  try clear_value x2
  refine Keeps.ite ?_ ?_
  · refine Keeps.trans ?_ (keeps_setRegN _ _ _)
    assumption
  · assumption

theorem keeps_takePages (s : State) (p1 : Nat) : Keeps 1031 s (takePages s p1) := by
  unfold takePages
  extract_lets -underBinder -merge -useContext +onlyGivenNames g x
  have hx : Keeps 1031 s x := (keeps_setGeneral _ _).mono
  clear_value x
  refine Keeps.ite ?_ hx
  refine Keeps.trans ?_ (keeps_evt _ _ _)
  exact Keeps.upd hx rfl rfl rfl (Nat.le_refl _) (r10 := fun h => Nat.le_trans (Nat.sub_le ..) h)

theorem keeps_returnPages (s : State) (p1 : Nat) : Keeps 1024 s (returnPages s p1) := by
  unfold returnPages
  extract_lets -underBinder -merge -useContext +onlyGivenNames r
  refine Keeps.upd (Keeps.refl s) rfl rfl rfl (Nat.le_refl _) (r10 := fun h => ?_)
  show s.vlt.reserve + r ≤ 512
  have : r ≤ 512 - s.vlt.reserve := Nat.min_le_right ..
  clear_value r
  omega

theorem keeps_lapseSlot (s : State) (p1 : Nat) : Keeps 1287 s (lapseSlot s p1) := by
  unfold lapseSlot
  extract_lets -underBinder -merge -useContext +onlyGivenNames x1
  try clear_value x1
  extract_lets -underBinder -merge -useContext +onlyGivenNames x2
  try clear_value x2
  refine Keeps.ite ?_ ?_
  · exact Keeps.refl _
  · extract_lets -underBinder -merge -useContext +onlyGivenNames x3
    try clear_value x3
    extract_lets -underBinder -merge -useContext +onlyGivenNames x4
    have h4 : Keeps 1287 s x4 := by
      unfold x4
      refine Keeps.trans ?_ (keeps_setPlanSlot _ _ _)
      exact Keeps.refl _
    try clear_value x4
    extract_lets -underBinder -merge -useContext +onlyGivenNames x5
    extract_lets -underBinder -merge -useContext +onlyGivenNames x6
    have h6 : Keeps 1287 s x6 := by
      unfold x6
      refine Keeps.upd (t := x4) ?_ rfl rfl rfl (Nat.le_refl _)
      assumption
    try clear_value x6
    refine Keeps.ite ?_ ?_
    · refine Keeps.trans ?_ (keeps_evt _ _ _)
      assumption
    · assumption

theorem keeps_lapsePast (s : State) : Keeps 1287 s (lapsePast s) := by
  unfold lapsePast
  refine Keeps.ite ?_ ?_
  · refine Keeps.trans ?_ (keeps_lapseSlot _ _)
    refine Keeps.trans ?_ (keeps_lapseSlot _ _)
    exact Keeps.refl _
  · exact Keeps.refl _

theorem keeps_closeCond (s : State) (p1 : Nat) (p2 : Nat) : Keeps 2131111 s (closeCond s p1 p2) := by
  unfold closeCond
  split
  · exact Keeps.refl _
  · refine Keeps.ite ?_ ?_
    · exact Keeps.refl _
    · extract_lets -underBinder -merge -useContext +onlyGivenNames x1
      have h1 : Keeps 2131111 s x1 := by
        unfold x1
        refine Keeps.trans ?_ (keeps_bump _ _)
        refine Keeps.trans ?_ (keeps_setEx _ _)
        exact Keeps.refl _
      try clear_value x1
      refine Keeps.ite ?_ ?_
      · assumption
      · refine Keeps.trans ?_ (keeps_twinMark _ _ _ _)
        assumption

theorem keeps_checkEarly (s : State) (p1 : Nat) : Keeps 2131111 s (checkEarly s p1) := by
  unfold checkEarly
  split
  · exact Keeps.refl _
  · split
    · exact Keeps.refl _
    · refine Keeps.ite ?_ ?_
      · refine Keeps.trans ?_ (keeps_closeCond _ _ _)
        exact Keeps.refl _
      · exact Keeps.refl _

theorem keeps_sealCond (s : State) (p1 : Nat) (p2 : Nat) : Keeps 2131111 s (sealCond s p1 p2) := by
  unfold sealCond
  split
  · exact Keeps.refl _
  · refine Keeps.ite ?_ ?_
    · exact Keeps.refl _
    · extract_lets -underBinder -merge -useContext +onlyGivenNames x1
      have h1 : Keeps 2131111 s x1 := by
        unfold x1
        refine Keeps.trans ?_ (keeps_setEx _ _)
        exact Keeps.refl _
      try clear_value x1
      extract_lets -underBinder -merge -useContext +onlyGivenNames x2
      have h2 : Keeps 2131111 s x2 := by
        unfold x2
        refine Keeps.trans ?_ (keeps_twinMark _ _ _ _)
        assumption
      try clear_value x2
      refine Keeps.ite ?_ ?_
      · refine Keeps.trans ?_ (keeps_logEvent _ _ _ _)
        refine Keeps.trans ?_ (keeps_evt _ _ _)
        assumption
      · refine Keeps.ite ?_ ?_
        · refine Keeps.trans ?_ (keeps_logEvent _ _ _ _)
          refine Keeps.trans ?_ (keeps_evt _ _ _)
          assumption
        · assumption

theorem keeps_timeLostClose (s : State) : Keeps 2131111 s (timeLostClose s) := by
  unfold timeLostClose
  refine Keeps.ite ?_ ?_
  · exact Keeps.refl _
  · extract_lets -underBinder -merge -useContext +onlyGivenNames x1
    try clear_value x1
    extract_lets -underBinder -merge -useContext +onlyGivenNames x2
    have h2 : Keeps 2131111 s x2 := by
      unfold x2
      refine Keeps.foldl ?_ (fun y3 a3 hy3 => ?_)
      · exact Keeps.refl _
      · split
        · refine Keeps.ite ?_ ?_
          · refine Keeps.trans ?_ (keeps_closeCond _ _ _)
            assumption
          · assumption
        · assumption
    try clear_value x2
    extract_lets -underBinder -merge -useContext +onlyGivenNames x4
    try clear_value x4
    refine Keeps.ite ?_ ?_
    · assumption
    · refine Keeps.trans ?_ (keeps_logEvent _ _ _ _)
      refine Keeps.trans ?_ (keeps_evt _ _ _)
      refine Keeps.foldl ?_ (fun y5 a5 hy5 => ?_)
      · assumption
      · refine Keeps.trans ?_ (keeps_sealCond _ _ _)
        assumption

theorem keeps_openExhibit (s : State) (p1 : Nat) (p2 : Plan) (p3 : Nat) : Keeps 2139831 s (openExhibit s p1 p2 p3) := by
  unfold openExhibit
  extract_lets -underBinder -merge -useContext +onlyGivenNames x1
  try clear_value x1
  extract_lets -underBinder -merge -useContext +onlyGivenNames x2
  try clear_value x2
  extract_lets -underBinder -merge -useContext +onlyGivenNames x3
  try clear_value x3
  extract_lets -underBinder -merge -useContext +onlyGivenNames x4
  try clear_value x4
  extract_lets -underBinder -merge -useContext +onlyGivenNames x5
  have h5 : Keeps 2139831 s x5 := by
    unfold x5
    split
    · refine Keeps.trans ?_ (keeps_takeBank _ _ _)
      exact Keeps.refl _
    · exact Keeps.refl _
  try clear_value x5
  extract_lets -underBinder -merge -useContext +onlyGivenNames x6
  have h6 : Keeps 2139831 s x6 := by
    unfold x6
    refine Keeps.trans ?_ (keeps_setGeneral _ _)
    assumption
  try clear_value x6
  extract_lets -underBinder -merge -useContext +onlyGivenNames x7
  try clear_value x7
  extract_lets -underBinder -merge -useContext +onlyGivenNames x8
  have h8 : Keeps 2139831 s x8 := by
    unfold x8
    refine Keeps.trans ?_ (keeps_setEx _ _)
    assumption
  try clear_value x8
  extract_lets -underBinder -merge -useContext +onlyGivenNames x9
  extract_lets -underBinder -merge -useContext +onlyGivenNames x10
  extract_lets -underBinder -merge -useContext +onlyGivenNames x11
  have h11 : Keeps 2139831 s x11 := by
    unfold x11
    refine Keeps.upd (t := x8) ?_ rfl rfl rfl (Nat.le_refl _)
    assumption
  try clear_value x11
  refine Keeps.trans ?_ (keeps_paceEdgeEval _)
  refine Keeps.trans ?_ (keeps_twinMark _ _ _ _)
  refine Keeps.trans ?_ (keeps_bump _ _)
  assumption

theorem keeps_retryOpen (s : State) : Keeps 2139831 s (retryOpen s) := by
  unfold retryOpen
  refine Keeps.foldl ?_ (fun y1 a1 hy1 => ?_)
  · exact Keeps.refl _
  · split
    · refine Keeps.upd (t := y1) ?_ rfl rfl rfl (Nat.le_refl _)
      assumption
    · refine Keeps.ite ?_ ?_
      · refine Keeps.trans ?_ (keeps_checkEarly _ _)
        refine Keeps.trans ?_ (keeps_openExhibit _ _ _ _)
        assumption
      · assumption

theorem keeps_arcDrop (s : State) (p1 : Nat) : Keeps 65543 s (arcDrop s p1) := by
  unfold arcDrop
  refine Keeps.ite ?_ ?_
  · extract_lets -underBinder -merge -useContext +onlyGivenNames x1
    extract_lets -underBinder -merge -useContext +onlyGivenNames x2
    have h2 : Keeps 65543 s x2 := by
      unfold x2
      refine Keeps.upd (t := s) ?_ rfl rfl rfl (Nat.le_refl _)
      exact Keeps.refl _
    try clear_value x2
    refine Keeps.trans ?_ (keeps_logEvent _ _ _ _)
    refine Keeps.trans ?_ (keeps_evt _ _ _)
    refine Keeps.trans ?_ (keeps_bump _ _)
    assumption
  · refine Keeps.upd (t := s) ?_ rfl rfl rfl (Nat.le_refl _)
    exact Keeps.refl _

theorem keeps_releaseRaw (s : State) (p1 : Nat) : Keeps 197655 s (releaseRaw s p1) := by
  unfold releaseRaw
  split
  · exact Keeps.refl _
  · extract_lets -underBinder -merge -useContext +onlyGivenNames x2
    extract_lets -underBinder -merge -useContext +onlyGivenNames x3
    have h3 : Keeps 197655 s x3 := by
      unfold x3
      exact Keeps.upd (Keeps.refl s) rfl rfl rfl (Nat.le_refl _) (r11 := fun h => smErase_all _ _ _ h)
    try clear_value x3
    extract_lets -underBinder -merge -useContext +onlyGivenNames x4
    have h4 : Keeps 197655 s x4 := by
      unfold x4
      refine Keeps.trans ?_ (keeps_returnPages _ _)
      first | exact Keeps.refl _ | assumption
    try clear_value x4
    refine Keeps.trans ?_ (keeps_paceEdgeEval _)
    refine Keeps.trans ?_ (keeps_digestRelease _ _)
    refine Keeps.trans ?_ (keeps_arcDrop _ _)
    first | exact Keeps.refl _ | assumption

theorem keeps_slotRetireAt (s : State) (p1 : Nat) : Keeps 1303 s (slotRetireAt s p1) := by
  unfold slotRetireAt
  extract_lets -underBinder -merge -useContext +onlyGivenNames x1
  try clear_value x1
  refine Keeps.ite ?_ ?_
  · extract_lets -underBinder -merge -useContext +onlyGivenNames x2
    try clear_value x2
    extract_lets -underBinder -merge -useContext +onlyGivenNames x3
    extract_lets -underBinder -merge -useContext +onlyGivenNames x4
    have h4 : Keeps 1303 s x4 := by
      unfold x4
      refine Keeps.upd (t := s) ?_ rfl rfl rfl (Nat.le_refl _)
      exact Keeps.refl _
    try clear_value x4
    refine Keeps.trans ?_ (keeps_paceRetarget _)
    refine Keeps.trans ?_ (keeps_evt _ _ _)
    refine Keeps.trans ?_ (keeps_setPlanSlot _ _ _)
    assumption
  · exact Keeps.refl _

theorem keeps_slotRetire (s : State) : Keeps 1303 s (slotRetire s) := by
  unfold slotRetire
  refine Keeps.trans ?_ (keeps_slotRetireAt _ _)
  refine Keeps.trans ?_ (keeps_slotRetireAt _ _)
  exact Keeps.refl _

theorem keeps_freeEx (s : State) (p1 : Nat) : Keeps 2336695 s (freeEx s p1) := by
  unfold freeEx
  refine Keeps.trans ?_ (keeps_slotRetire _)
  refine Keeps.trans ?_ (keeps_retryOpen _)
  refine Keeps.trans ?_ (keeps_releaseRaw _ _)
  exact Keeps.refl _

theorem keeps_reclaimDrop (s : State) : Keeps 2336695 s (reclaimDrop s) := by
  unfold reclaimDrop
  refine Keeps.ite ?_ ?_
  · split
    · refine Keeps.trans ?_ (keeps_freeEx _ _)
      refine Keeps.trans ?_ (keeps_logEvent _ _ _ _)
      refine Keeps.trans ?_ (keeps_evt _ _ _)
      refine Keeps.trans ?_ (keeps_bump _ _)
      exact Keeps.refl _
    · exact Keeps.refl _
  · exact Keeps.refl _

theorem keeps_reclaimStep (s : State) : Keeps 2336695 s (reclaimStep s) := by
  unfold reclaimStep
  refine Keeps.ite ?_ ?_
  · exact Keeps.refl _
  · refine Keeps.ite ?_ ?_
    · exact Keeps.refl _
    · refine Keeps.ite ?_ ?_
      · refine Keeps.upd (t := s) ?_ rfl rfl rfl (Nat.le_refl _)
        exact Keeps.refl _
      · split
        · refine Keeps.ite ?_ ?_
          · refine Keeps.trans ?_ (keeps_sealCond _ _ _)
            exact Keeps.refl _
          · exact Keeps.refl _
        · extract_lets -underBinder -merge -useContext +onlyGivenNames x1
          have h1 : Keeps 2336695 s x1 := by
            unfold x1
            refine Keeps.trans ?_ (keeps_reclaimDrop _)
            exact Keeps.refl _
          try clear_value x1
          refine Keeps.upd (t := x1) ?_ rfl rfl rfl (Nat.le_refl _)
          assumption

theorem keeps_reclaimStart (s : State) : Keeps 2336695 s (reclaimStart s) := by
  unfold reclaimStart
  refine Keeps.trans ?_ (keeps_reclaimStep _)
  refine Keeps.upd (t := s) ?_ rfl rfl rfl (Nat.le_refl _)
  exact Keeps.refl _

theorem keeps_releaseEx (s : State) (p1 : Nat) : Keeps 2336695 s (releaseEx s p1) := by
  unfold releaseEx
  refine Keeps.trans ?_ (keeps_reclaimStep _)
  refine Keeps.trans ?_ (keeps_freeEx _ _)
  exact Keeps.refl _

theorem keeps_lastDiscard (s : State) (p1 : Nat) (p2 : Nat) (p3 : Nat) (p4 : Nat) (p5 : Nat) (p6 : Nat) : Keeps 1 s (lastDiscard s p1 p2 p3 p4 p5 p6) := by
  unfold lastDiscard
  extract_lets -underBinder -merge -useContext +onlyGivenNames x1
  have h1 : Keeps 1 s x1 := by
    unfold x1
    refine Keeps.trans ?_ (keeps_setRegN _ _ _)
    exact Keeps.refl _
  try clear_value x1
  extract_lets -underBinder -merge -useContext +onlyGivenNames x2
  have h2 : Keeps 1 s x2 := by
    unfold x2
    refine Keeps.trans ?_ (keeps_setRegN _ _ _)
    assumption
  try clear_value x2
  extract_lets -underBinder -merge -useContext +onlyGivenNames x3
  have h3 : Keeps 1 s x3 := by
    unfold x3
    refine Keeps.trans ?_ (keeps_setReg64 _ _ _ _)
    assumption
  try clear_value x3
  refine Keeps.trans ?_ (keeps_setRegN _ _ _)
  assumption

theorem keeps_vaultRefuse (s : State) (p1 : Landing) (p2 : Nat) : Keeps 7 s (vaultRefuse s p1 p2) := by
  unfold vaultRefuse
  extract_lets -underBinder -merge -useContext +onlyGivenNames x1
  have h1 : Keeps 7 s x1 := by
    unfold x1
    refine Keeps.trans ?_ (keeps_bump _ _)
    exact Keeps.refl _
  try clear_value x1
  extract_lets -underBinder -merge -useContext +onlyGivenNames x2
  have h2 : Keeps 7 s x2 := by
    unfold x2
    refine Keeps.trans ?_ (keeps_setRegN _ _ _)
    assumption
  try clear_value x2
  extract_lets -underBinder -merge -useContext +onlyGivenNames x3
  have h3 : Keeps 7 s x3 := by
    unfold x3
    refine Keeps.trans ?_ (keeps_setReg64 _ _ _ _)
    assumption
  try clear_value x3
  refine Keeps.trans ?_ (keeps_evt _ _ _)
  refine Keeps.trans ?_ (keeps_lastDiscard _ _ _ _ _ _ _)
  assumption

theorem keeps_lateClass (s : State) (p1 : Landing) (p2 : Nat) : Keeps 5 s (lateClass s p1 p2) := by
  unfold lateClass
  extract_lets -underBinder -merge -useContext +onlyGivenNames x1
  try clear_value x1
  refine Keeps.ite ?_ ?_
  · refine Keeps.trans ?_ (keeps_bump _ _)
    exact Keeps.refl _
  · exact Keeps.refl _

theorem keeps_landWrite (s : State) (p1 : Exhibit) (p2 : Nat) (p3 : Nat) (p4 : List Byte) (p5 : List Nat) : Keeps 1029 s (landWrite s p1 p2 p3 p4 p5) := by
  unfold landWrite
  extract_lets -underBinder -merge -useContext +onlyGivenNames x1
  try clear_value x1
  extract_lets -underBinder -merge -useContext +onlyGivenNames x2
  try clear_value x2
  extract_lets -underBinder -merge -useContext +onlyGivenNames x3
  try clear_value x3
  extract_lets -underBinder -merge -useContext +onlyGivenNames x4
  try clear_value x4
  extract_lets -underBinder -merge -useContext +onlyGivenNames x5
  have h5 : Keeps 1029 s x5 := by
    unfold x5
    refine Keeps.trans ?_ (keeps_setEx _ _)
    exact Keeps.refl _
  try clear_value x5
  refine Keeps.ite ?_ ?_
  · assumption
  · refine Keeps.trans ?_ (keeps_bump _ _)
    assumption

theorem keeps_landJob (s : State) (p1 : Exhibit) (p2 : Nat) (p3 : Nat) (p4 : Nat) : Keeps 2132135 s (landJob s p1 p2 p3 p4) := by
  unfold landJob
  extract_lets -underBinder -merge -useContext +onlyGivenNames x1
  try clear_value x1
  refine Keeps.ite ?_ ?_
  · refine Keeps.trans ?_ (keeps_levelPeak _ _)
    refine Keeps.trans ?_ (keeps_bump _ _)
    refine Keeps.upd (t := s) ?_ rfl rfl rfl (Nat.le_refl _)
    exact Keeps.refl _
  · refine Keeps.trans ?_ (keeps_enterJob _ _)
    exact Keeps.refl _

theorem keeps_landIn (s : State) (p1 : Landing) (p2 : Exhibit) (p3 : Plan) : Keeps 2338743 s (landIn s p1 p2 p3) := by
  unfold landIn
  split
  · exact Keeps.refl _
  · extract_lets -underBinder -merge -useContext +onlyGivenNames x1
    try clear_value x1
    extract_lets -underBinder -merge -useContext +onlyGivenNames x2
    have h2 : Keeps 2338743 s x2 := by
      unfold x2
      refine Keeps.ite ?_ ?_
      · refine Keeps.trans ?_ (keeps_reclaimStart _)
        exact Keeps.refl _
      · exact Keeps.refl _
    try clear_value x2
    split
    · assumption
    · refine Keeps.ite ?_ ?_
      · refine Keeps.trans ?_ (keeps_vaultRefuse _ _ _)
        refine Keeps.trans ?_ (keeps_setEx _ _)
        assumption
      · extract_lets -underBinder -merge -useContext +onlyGivenNames x3
        have h3 : Keeps 2338743 s x3 := by
          unfold x3
          refine Keeps.trans ?_ (keeps_takePages _ _)
          assumption
        try clear_value x3
        extract_lets -underBinder -merge -useContext +onlyGivenNames x4
        try clear_value x4
        extract_lets -underBinder -merge -useContext +onlyGivenNames x5
        try clear_value x5
        extract_lets -underBinder -merge -useContext +onlyGivenNames x6
        try clear_value x6
        extract_lets -underBinder -merge -useContext +onlyGivenNames x7
        extract_lets -underBinder -merge -useContext +onlyGivenNames x8
        have h8 : Keeps 2338743 s x8 := by
          unfold x8
          refine Keeps.trans ?_ (keeps_landWrite _ _ _ _ _ _)
          refine Keeps.upd (t := x3) ?_ rfl rfl rfl (Nat.le_refl _)
          assumption
        try clear_value x8
        extract_lets -underBinder -merge -useContext +onlyGivenNames x9
        have h9 : Keeps 2338743 s x9 := by
          unfold x9
          refine Keeps.trans ?_ (keeps_lateClass _ _ _)
          refine Keeps.trans ?_ (keeps_accLanded _ _)
          assumption
        try clear_value x9
        extract_lets -underBinder -merge -useContext +onlyGivenNames x10
        have h10 : Keeps 2338743 s x10 := by
          unfold x10
          refine Keeps.trans ?_ (keeps_twinSend _ _ _)
          assumption
        try clear_value x10
        extract_lets -underBinder -merge -useContext +onlyGivenNames x11
        have h11 : Keeps 2338743 s x11 := by
          unfold x11
          refine Keeps.trans ?_ (keeps_landJob _ _ _ _ _)
          assumption
        try clear_value x11
        refine Keeps.trans ?_ (keeps_pinEval _)
        refine Keeps.trans ?_ (keeps_checkEarly _ _)
        assumption

theorem keeps_landFrame (s : State) (p1 : Landing) : Keeps 2338743 s (landFrame s p1) := by
  unfold landFrame
  split
  · split
    · refine Keeps.trans ?_ (keeps_landIn _ _ _ _)
      exact Keeps.refl _
    · exact Keeps.refl _
  · refine Keeps.ite ?_ ?_
    · refine Keeps.trans ?_ (keeps_vaultRefuse _ _ _)
      exact Keeps.refl _
    · split
      · exact Keeps.refl _
      · split
        · exact Keeps.refl _
        · split
          · refine Keeps.trans ?_ (keeps_vaultRefuse _ _ _)
            refine Keeps.ite ?_ ?_
            · exact Keeps.refl _
            · refine Keeps.trans ?_ (keeps_reclaimStart _)
              exact Keeps.refl _
          · extract_lets -underBinder -merge -useContext +onlyGivenNames x1
            have h1 : Keeps 2338743 s x1 := by
              unfold x1
              refine Keeps.trans ?_ (keeps_openExhibit _ _ _ _)
              exact Keeps.refl _
            try clear_value x1
            split
            · refine Keeps.trans ?_ (keeps_landIn _ _ _ _)
              assumption
            · assumption

theorem keeps_reserveLand (s : State) (p1 : Landing) : Keeps 2338743 s (reserveLand s p1) := by
  unfold reserveLand
  extract_lets -underBinder -merge -useContext +onlyGivenNames x1
  try clear_value x1
  extract_lets -underBinder -merge -useContext +onlyGivenNames x2
  extract_lets -underBinder -merge -useContext +onlyGivenNames x3
  have h3 : Keeps 2338743 s x3 := by
    unfold x3
    refine Keeps.upd (t := s) ?_ rfl rfl rfl (Nat.le_refl _)
    exact Keeps.refl _
  try clear_value x3
  refine Keeps.ite ?_ ?_
  · assumption
  · refine Keeps.ite ?_ ?_
    · refine Keeps.trans ?_ (keeps_landFrame _ _)
      exact Keeps.refl _
    · refine Keeps.trans ?_ (keeps_markFull _ _)
      assumption

theorem keeps_execExhibitTimeReached (p0 : Nat) (s : State) : KeepsO 2336695 s (execExhibitTimeReached p0 s) := by
  unfold execExhibitTimeReached
  refine KeepsO.done ?_
  extract_lets -underBinder -merge -useContext +onlyGivenNames x1
  have h1 : Keeps 2336695 s x1 := by
    unfold x1
    refine Keeps.trans ?_ (keeps_lapsePast _)
    exact Keeps.refl _
  try clear_value x1
  refine Keeps.ite ?_ ?_
  · refine Keeps.trans ?_ (keeps_checkEarly _ _)
    assumption
  · refine Keeps.ite ?_ ?_
    · assumption
    · split
      · assumption
      · split
        · refine Keeps.trans ?_ (keeps_checkEarly _ _)
          refine Keeps.trans ?_ (keeps_openExhibit _ _ _ _)
          assumption
        · extract_lets -underBinder -merge -useContext +onlyGivenNames x2
          extract_lets -underBinder -merge -useContext +onlyGivenNames x3
          have h3 : Keeps 2336695 s x3 := by
            unfold x3
            refine Keeps.ite ?_ ?_
            · assumption
            · refine Keeps.upd (t := x1) ?_ rfl rfl rfl (Nat.le_refl _)
              assumption
          try clear_value x3
          refine Keeps.ite ?_ ?_
          · assumption
          · refine Keeps.trans ?_ (keeps_reclaimStart _)
            assumption

theorem keeps_execClosingTimeReached (p0 : Nat) (s : State) : KeepsO 2131383 s (execClosingTimeReached p0 s) := by
  unfold execClosingTimeReached
  refine KeepsO.done ?_
  extract_lets -underBinder -merge -useContext +onlyGivenNames x1
  have h1 : Keeps 2131383 s x1 := by
    unfold x1
    refine Keeps.trans ?_ (keeps_slotRetire _)
    refine Keeps.trans ?_ (keeps_lapsePast _)
    exact Keeps.refl _
  try clear_value x1
  split
  · assumption
  · split
    · assumption
    · refine Keeps.ite ?_ ?_
      · refine Keeps.trans ?_ (keeps_closeCond _ _ _)
        assumption
      · assumption

theorem keeps_silenceRun (s : State) (p1 : Plan) (p2 : Exhibit) : Keeps 2263719 s (silenceRun s p1 p2) := by
  unfold silenceRun
  extract_lets -underBinder -merge -useContext +onlyGivenNames x1
  have h1 : ∀ z2 z3 z4, Keeps 2263719 z2 (x1 z2 z3 z4) := by
    intro z2 z3 z4
    unfold x1
    extract_lets -underBinder -merge -useContext +onlyGivenNames x5
    try clear_value x5
    refine Keeps.ite ?_ ?_
    · exact Keeps.refl _
    · extract_lets -underBinder -merge -useContext +onlyGivenNames x6
      try clear_value x6
      extract_lets -underBinder -merge -useContext +onlyGivenNames x7
      have h7 : Keeps 2263719 z2 x7 := by
        unfold x7
        refine Keeps.trans ?_ (keeps_setAcc _ _ _)
        exact Keeps.refl _
      try clear_value x7
      refine Keeps.ite ?_ ?_
      · refine Keeps.trans ?_ (keeps_enterSilent _ _ _)
        assumption
      · assumption
  try clear_value x1
  extract_lets -underBinder -merge -useContext +onlyGivenNames x8
  have h8 : Keeps 2263719 s x8 := by
    unfold x8
    refine Keeps.foldl ?_ (fun y9 a9 hy9 => ?_)
    · exact Keeps.refl _
    · refine Keeps.trans ?_ (h1 ..)
      assumption
  try clear_value x8
  refine Keeps.foldl ?_ (fun y10 a10 hy10 => ?_)
  · assumption
  · refine Keeps.trans ?_ (h1 ..)
    assumption

theorem keeps_holdPorts (s : State) : Keeps 133 s (holdPorts s) := by
  unfold holdPorts
  refine Keeps.foldl ?_ (fun y1 a1 hy1 => ?_)
  · exact Keeps.refl _
  · extract_lets -underBinder -merge -useContext +onlyGivenNames x2
    try clear_value x2
    refine Keeps.ite ?_ ?_
    · refine Keeps.trans ?_ (keeps_bump _ _)
      refine Keeps.trans ?_ (keeps_setPort _ _ _)
      assumption
    · assumption

theorem keeps_raiseHeld (s : State) (p1 : Nat) : Keeps 2048 s (raiseHeld s p1) := by
  unfold raiseHeld
  extract_lets -underBinder -merge -useContext +onlyGivenNames x1
  try clear_value x1
  extract_lets -underBinder -merge -useContext +onlyGivenNames x2
  extract_lets -underBinder -merge -useContext +onlyGivenNames x3
  have h3 : Keeps 2048 s x3 := by
    unfold x3
    refine Keeps.upd (t := s) ?_ rfl rfl rfl (Nat.le_refl _)
    exact Keeps.refl _
  try clear_value x3
  refine Keeps.foldl ?_ (fun y4 a4 hy4 => ?_)
  · assumption
  · refine Keeps.trans ?_ (keeps_setLevel _ _ _)
    assumption

theorem keeps_closeHandOver (s : State) (p1 : Plan) (p2 : Exhibit) : Keeps 3318951 s (closeHandOver s p1 p2) := by
  unfold closeHandOver
  extract_lets -underBinder -merge -useContext +onlyGivenNames x1
  try clear_value x1
  extract_lets -underBinder -merge -useContext +onlyGivenNames x2
  try clear_value x2
  extract_lets -underBinder -merge -useContext +onlyGivenNames x3
  extract_lets -underBinder -merge -useContext +onlyGivenNames x4
  have h4 : Keeps 3318951 s x4 := by
    unfold x4
    refine Keeps.upd (t := s) ?_ rfl rfl rfl (Nat.le_refl _)
    exact Keeps.refl _
  try clear_value x4
  refine Keeps.ite ?_ ?_
  · extract_lets -underBinder -merge -useContext +onlyGivenNames x5
    extract_lets -underBinder -merge -useContext +onlyGivenNames x6
    have h6 : Keeps 3318951 s x6 := by
      unfold x6
      refine Keeps.trans ?_ (keeps_setBank _ _ _)
      assumption
    try clear_value x6
    refine Keeps.upd (t := x6) ?_ rfl rfl rfl (Nat.le_refl _)
    assumption
  · extract_lets -underBinder -merge -useContext +onlyGivenNames x7
    have h7 : Keeps 3318951 s x7 := by
      unfold x7
      refine Keeps.trans ?_ (keeps_applyClose _ _ _ _ _)
      assumption
    try clear_value x7
    extract_lets -underBinder -merge -useContext +onlyGivenNames x8
    have h8 : Keeps 3318951 s x8 := by
      unfold x8
      refine Keeps.ite ?_ ?_
      · refine Keeps.trans ?_ (keeps_bump _ _)
        assumption
      · assumption
    try clear_value x8
    refine Keeps.trans ?_ (keeps_putDigest _ _ _ _)
    assumption

theorem keeps_docResume (s : State) (p1 : Nat) : Keeps 4096 s (docResume s p1) := by
  unfold docResume
  extract_lets -underBinder -merge -useContext +onlyGivenNames x1
  try clear_value x1
  extract_lets -underBinder -merge -useContext +onlyGivenNames x2
  try clear_value x2
  refine Keeps.foldl ?_ (fun y3 a3 hy3 => ?_)
  · exact Keeps.refl _
  · extract_lets -underBinder -merge -useContext +onlyGivenNames x4
    try clear_value x4
    extract_lets -underBinder -merge -useContext +onlyGivenNames x5
    try clear_value x5
    extract_lets -underBinder -merge -useContext +onlyGivenNames x6
    try clear_value x6
    extract_lets -underBinder -merge -useContext +onlyGivenNames x7
    try clear_value x7
    refine Keeps.trans ?_ (keeps_setDocent _ _ _)
    assumption

theorem keeps_closeEvent (s : State) (p1 : Nat) (p2 : Exhibit) (p3 : Plan) : Keeps 3391415 s (closeEvent s p1 p2 p3) := by
  unfold closeEvent
  extract_lets -underBinder -merge -useContext +onlyGivenNames x1
  try clear_value x1
  extract_lets -underBinder -merge -useContext +onlyGivenNames x2
  try clear_value x2
  extract_lets -underBinder -merge -useContext +onlyGivenNames x3
  have h3 : Keeps 3391415 s x3 := by
    unfold x3
    refine Keeps.trans ?_ (keeps_setEx _ _)
    exact Keeps.refl _
  try clear_value x3
  extract_lets -underBinder -merge -useContext +onlyGivenNames x4
  have h4 : Keeps 3391415 s x4 := by
    unfold x4
    refine Keeps.ite ?_ ?_
    · refine Keeps.trans ?_ (keeps_evt _ _ _)
      refine Keeps.trans ?_ (keeps_bump _ _)
      assumption
    · assumption
  try clear_value x4
  extract_lets -underBinder -merge -useContext +onlyGivenNames x5
  have h5 : Keeps 3391415 s x5 := by
    unfold x5
    refine Keeps.trans ?_ (keeps_holdPorts _)
    assumption
  try clear_value x5
  extract_lets -underBinder -merge -useContext +onlyGivenNames x6
  have h6 : Keeps 3391415 s x6 := by
    unfold x6
    refine Keeps.trans ?_ (keeps_closeHandOver _ _ _)
    assumption
  try clear_value x6
  extract_lets -underBinder -merge -useContext +onlyGivenNames x7
  have h7 : Keeps 3391415 s x7 := by
    unfold x7
    refine Keeps.trans ?_ (keeps_silenceRun _ _ _)
    assumption
  try clear_value x7
  extract_lets -underBinder -merge -useContext +onlyGivenNames x8
  have h8 : Keeps 3391415 s x8 := by
    unfold x8
    refine Keeps.trans ?_ (keeps_raiseHeld _ _)
    assumption
  try clear_value x8
  extract_lets -underBinder -merge -useContext +onlyGivenNames x9
  have h9 : Keeps 3391415 s x9 := by
    unfold x9
    refine Keeps.ite ?_ ?_
    · assumption
    · refine Keeps.trans ?_ (keeps_raiseEvent _ _)
      assumption
  try clear_value x9
  refine Keeps.trans ?_ (keeps_reclaimStep _)
  refine Keeps.trans ?_ (keeps_pinEval _)
  refine Keeps.trans ?_ (keeps_docResume _ _)
  assumption

theorem keeps_execCloseEvent (p0 : Nat) (s : State) : KeepsO 3391415 s (execCloseEvent p0 s) := by
  unfold execCloseEvent
  refine KeepsO.done ?_
  split
  · exact Keeps.refl _
  · split
    · exact Keeps.refl _
    · refine Keeps.ite ?_ ?_
      · refine Keeps.trans ?_ (keeps_closeEvent _ _ _ _)
        exact Keeps.refl _
      · exact Keeps.refl _

theorem keeps_execSealTimeReached (p0 : Nat) (s : State) : KeepsO 2131111 s (execSealTimeReached p0 s) := by
  unfold execSealTimeReached
  refine KeepsO.done ?_
  split
  · exact Keeps.refl _
  · split
    · exact Keeps.refl _
    · refine Keeps.ite ?_ ?_
      · refine Keeps.trans ?_ (keeps_sealCond _ _ _)
        exact Keeps.refl _
      · exact Keeps.refl _

theorem keeps_forceResult (s : State) (p1 : Nat) : Keeps 1 s (forceResult s p1) := by
  unfold forceResult
  extract_lets -underBinder -merge -useContext +onlyGivenNames x1
  have h1 : Keeps 1 s x1 := by
    unfold x1
    refine Keeps.trans ?_ (keeps_setRegN _ _ _)
    exact Keeps.refl _
  try clear_value x1
  refine Keeps.ite ?_ ?_
  · assumption
  · refine Keeps.trans ?_ (keeps_refuse _ _ _)
    assumption

theorem keeps_forceCmd (s : State) (p1 : Nat) : Keeps 2131111 s (forceCmd s p1) := by
  unfold forceCmd
  refine Keeps.ite ?_ ?_
  · refine Keeps.trans ?_ (keeps_twinRefuse _)
    exact Keeps.refl _
  · refine Keeps.ite ?_ ?_
    · exact Keeps.refl _
    · extract_lets -underBinder -merge -useContext +onlyGivenNames x1
      try clear_value x1
      split
      · refine Keeps.trans ?_ (keeps_forceResult _ _)
        exact Keeps.refl _
      · refine Keeps.ite ?_ ?_
        · refine Keeps.ite ?_ ?_
          · refine Keeps.trans ?_ (keeps_closeCond _ _ _)
            refine Keeps.trans ?_ (keeps_forceResult _ _)
            exact Keeps.refl _
          · refine Keeps.trans ?_ (keeps_forceResult _ _)
            exact Keeps.refl _
        · refine Keeps.ite ?_ ?_
          · refine Keeps.trans ?_ (keeps_forceResult _ _)
            exact Keeps.refl _
          · refine Keeps.trans ?_ (keeps_sealCond _ _ _)
            refine Keeps.trans ?_ (keeps_forceResult _ _)
            exact Keeps.refl _

theorem keeps_execForceClose (s : State) : KeepsO 2131111 s (execForceClose s) := by
  unfold execForceClose
  refine KeepsO.done ?_
  refine Keeps.trans ?_ (keeps_forceCmd _ _)
  exact Keeps.refl _

theorem keeps_execForceSeal (s : State) : KeepsO 2131111 s (execForceSeal s) := by
  unfold execForceSeal
  refine KeepsO.done ?_
  refine Keeps.trans ?_ (keeps_forceCmd _ _)
  exact Keeps.refl _

theorem keeps_setView (s : State) (p1 : Nat) (p2 : VaultView) : Keeps 1024 s (setView s p1 p2) := by
  unfold setView
  refine Keeps.upd (t := s) ?_ rfl rfl rfl (Nat.le_refl _)
  exact Keeps.refl _

theorem keeps_vaultRead (s : State) (p1 : Nat) (p2 : Nat) : KeepsF 1024 s (vaultRead s p1 p2) := by
  unfold vaultRead
  extract_lets -underBinder -merge -useContext +onlyGivenNames x1
  try clear_value x1
  extract_lets -underBinder -merge -useContext +onlyGivenNames x2
  try clear_value x2
  extract_lets -underBinder -merge -useContext +onlyGivenNames x3
  try clear_value x3
  refine KeepsF.ite ?_ ?_
  · refine KeepsF.mk ?_
    exact Keeps.refl _
  · split
    · refine KeepsF.mk ?_
      exact Keeps.refl _
    · refine KeepsF.ite ?_ ?_
      · extract_lets -underBinder -merge -useContext +onlyGivenNames x4
        try clear_value x4
        refine KeepsF.mk ?_
        refine Keeps.trans ?_ (keeps_setView _ _ _)
        exact Keeps.refl _
      · refine KeepsF.ite ?_ ?_
        · split
          · refine KeepsF.mk ?_
            exact Keeps.refl _
          · refine KeepsF.mk ?_
            exact Keeps.refl _
        · refine KeepsF.mk ?_
          exact Keeps.refl _

theorem keeps_viewBind (s : State) (p1 : Nat) (p2 : Nat) : Keeps 1025 s (viewBind s p1 p2) := by
  unfold viewBind
  refine Keeps.ite ?_ ?_
  · refine Keeps.trans ?_ (keeps_setView _ _ _)
    exact Keeps.refl _
  · refine Keeps.trans ?_ (keeps_refuse _ _ _)
    refine Keeps.trans ?_ (keeps_setView _ _ _)
    exact Keeps.refl _

theorem keeps_viewIndexHi (s : State) (p1 : Nat) (p2 : Word) : Keeps 1025 s (viewIndexHi s p1 p2) := by
  unfold viewIndexHi
  extract_lets -underBinder -merge -useContext +onlyGivenNames x1
  have h1 : Keeps 1025 s x1 := by
    unfold x1
    refine Keeps.trans ?_ (keeps_setRegFld _ _ _ _ _)
    exact Keeps.refl _
  try clear_value x1
  refine Keeps.trans ?_ (keeps_viewBind _ _ _)
  assumption

theorem keeps_execViewBind (p0 : Nat) (p1 : Word) (s : State) : KeepsO 1025 s (execViewBind p0 p1 s) := by
  unfold execViewBind
  refine KeepsO.done ?_
  refine Keeps.trans ?_ (keeps_viewIndexHi _ _ _)
  exact Keeps.refl _

theorem keeps_execViewHeaderLatch (p0 : Nat) (p1 : Nat) (s : State) : KeepsO 1026 s (execViewHeaderLatch p0 p1 s) := by
  unfold execViewHeaderLatch
  refine KeepsO.done ?_
  extract_lets -underBinder -merge -useContext +onlyGivenNames x1
  have h1 : KeepsF 1026 s x1 := by
    unfold x1
    refine KeepsF.trans ?_ (keeps_vaultRead _ _ _)
    exact Keeps.refl _
  try clear_value x1
  refine Keeps.trans ?_ (keeps_respond _ _)
  refine KeepsF.snd ?_
  assumption

theorem keeps_execVaultWindowWrite (p0 : Nat) (p1 : Word) (s : State) : KeepsO 1 s (execVaultWindowWrite p0 p1 s) := by
  unfold execVaultWindowWrite
  refine KeepsO.done ?_
  refine Keeps.trans ?_ (keeps_refuse _ _ _)
  exact Keeps.refl _

theorem keeps_vltStatClr (s : State) : Keeps 1024 s (vltStatClr s) := by
  unfold vltStatClr
  refine Keeps.upd (t := s) ?_ rfl rfl rfl (Nat.le_refl _)
  exact Keeps.refl _

end Sys2Proof.Machine
end

