-- ==== Sys2Proof/Laws/KeepsOperands.lean ====
section
/-! SUPPORT. What each function of Machine/Operands.lean leaves unchanged (the mask names the areas it may change). -/

set_option Elab.async false

namespace Sys2Proof.Machine

theorem keeps_iramPut (s : State) (p1 p2 p3 : Nat) (p4 : Word) : Keeps 4096 s (iramPut s p1 p2 p3 p4) :=
  Keeps.upd (Keeps.refl s) rfl rfl rfl (Nat.le_refl _) (r2 := smPut_wf (fun _ => 0#32) _ _ _)

theorem putBytes_wf (f : Nat → Nat) (m : SMap Byte) (a : Nat) (bs : List Byte) (h : smWf (fun _ => 0#8) m = true) :
    smWf (fun _ => 0#8) (bs.foldl (fun (x : SMap Byte × Nat) b => (smPut 0#8 x.1 (f x.2) b, x.2 + 1)) (m, a)).1 = true := by
  induction bs generalizing m a with
  | nil => exact h
  | cons b r ih => exact ih _ _ (smPut_wf (fun _ => 0#8) _ _ _ h)
theorem keeps_dramWrite (s : State) (p1 p2 p3 : Nat) (p4 : List Byte) : Keeps 4096 s (dramWrite s p1 p2 p3 p4) :=
  Keeps.upd (Keeps.refl s) rfl rfl rfl (Nat.le_refl _) (r3 := putBytes_wf _ _ _ _)

end Sys2Proof.Machine
end

