-- ==== Sys2Proof/Laws/KeepsDocOps.lean ====
section
/-! SUPPORT. What each function of Machine/DocOps.lean leaves unchanged (the mask names the areas it may change). -/

set_option Elab.async false

namespace Sys2Proof.Machine

theorem keeps_docRetire (s : State) (p1 : Nat) (p2 : Nat) (p3 : Job) : Keeps 2274743 s (docRetire s p1 p2 p3) := by
  unfold docRetire
  extract_lets -underBinder -merge -useContext +onlyGivenNames x1
  try clear_value x1
  extract_lets -underBinder -merge -useContext +onlyGivenNames x2
  have h2 : Keeps 2274743 s x2 := by
    unfold x2
    refine Keeps.trans ?_ (keeps_bump _ _)
    refine Keeps.trans ?_ (keeps_setDocent _ _ _)
    exact Keeps.refl _
  try clear_value x2
  extract_lets -underBinder -merge -useContext +onlyGivenNames x3
  have h3 : Keeps 2274743 s x3 := by
    unfold x3
    refine Keeps.ite ?_ ?_
    · refine Keeps.trans ?_ (keeps_revisionDone _ _)
      assumption
    · assumption
  try clear_value x3
  refine Keeps.trans ?_ (keeps_slotRetire _)
  assumption

theorem keeps_setWords (s : State) (p1 : Nat) (p2 : List Nat) : Keeps 1 s (setWords s p1 p2) := by
  unfold setWords
  refine Keeps.foldl ?_ (fun y1 a1 hy1 => ?_)
  · exact Keeps.refl _
  · refine Keeps.trans ?_ (keeps_setRegN _ _ _)
    assumption

theorem keeps_memCorrected (s : State) : Keeps 7 s (memCorrected s) := by
  unfold memCorrected
  refine Keeps.trans ?_ (keeps_evt _ _ _)
  refine Keeps.trans ?_ (keeps_bump _ _)
  exact Keeps.refl _

theorem keeps_eccCorrect (s : State) (p1 : List Nat) : Keeps 7 s (eccCorrect s p1) := by
  unfold eccCorrect
  refine Keeps.foldl ?_ (fun y1 a1 hy1 => ?_)
  · exact Keeps.refl _
  · refine Keeps.ite ?_ ?_
    · refine Keeps.trans ?_ (keeps_memCorrected _)
      assumption
    · assumption

theorem keeps_memFailed (s : State) : Keeps 7 s (memFailed s) := by
  unfold memFailed
  refine Keeps.trans ?_ (keeps_evt _ _ _)
  exact Keeps.refl _

theorem keeps_docFault (s : State) (p1 : Nat) (p2 : Nat) (p3 : JobCtx) (p4 : Nat) (p5 : Option Nat) (p6 : Nat) : Keeps 2274743 s (docFault s p1 p2 p3 p4 p5 p6) := by
  unfold docFault
  refine Keeps.ite ?_ ?_
  · refine Keeps.trans ?_ (keeps_setDocent _ _ _)
    exact Keeps.refl _
  · extract_lets -underBinder -merge -useContext +onlyGivenNames x1
    try clear_value x1
    extract_lets -underBinder -merge -useContext +onlyGivenNames x2
    have h2 : Keeps 2274743 s x2 := by
      unfold x2
      split
      · exact Keeps.refl _
      · refine Keeps.trans ?_ (keeps_nextFree _)
        exact Keeps.refl _
    try clear_value x2
    extract_lets -underBinder -merge -useContext +onlyGivenNames x3
    try clear_value x3
    extract_lets -underBinder -merge -useContext +onlyGivenNames x4
    have h4 : Keeps 2274743 s x4 := by
      unfold x4
      refine Keeps.trans ?_ (keeps_setWords _ _ _)
      refine Keeps.trans ?_ (keeps_setWords _ _ _)
      assumption
    try clear_value x4
    extract_lets -underBinder -merge -useContext +onlyGivenNames x5
    have h5 : Keeps 2274743 s x5 := by
      unfold x5
      refine Keeps.trans ?_ (keeps_bump _ _)
      refine Keeps.trans ?_ (keeps_bump _ _)
      refine Keeps.trans ?_ (keeps_bump _ _)
      assumption
    try clear_value x5
    extract_lets -underBinder -merge -useContext +onlyGivenNames x6
    have h6 : Keeps 2274743 s x6 := by
      unfold x6
      refine Keeps.trans ?_ (keeps_evt _ _ _)
      assumption
    try clear_value x6
    extract_lets -underBinder -merge -useContext +onlyGivenNames x7
    have h7 : Keeps 2274743 s x7 := by
      unfold x7
      refine Keeps.ite ?_ ?_
      · refine Keeps.trans ?_ (keeps_memFailed _)
        assumption
      · assumption
    try clear_value x7
    extract_lets -underBinder -merge -useContext +onlyGivenNames x8
    have h8 : Keeps 2274743 s x8 := by
      unfold x8
      refine Keeps.trans ?_ (keeps_logEvent _ _ _ _)
      assumption
    try clear_value x8
    refine Keeps.trans ?_ (keeps_docRetire _ _ _ _)
    assumption

theorem keeps_docStore (s : State) (p1 : Nat) (p2 : Nat) (p3 : JobCtx) (p4 : Nat) : Keeps 4096 s (docStore s p1 p2 p3 p4) := by
  unfold docStore
  extract_lets -underBinder -merge -useContext +onlyGivenNames x1
  try clear_value x1
  refine Keeps.trans ?_ (keeps_setDocent _ _ _)
  exact Keeps.refl _

theorem keeps_docCharge (s : State) (p1 : Nat) (p2 : Nat) : Keeps 4096 s (docCharge s p1 p2) := by
  unfold docCharge
  extract_lets -underBinder -merge -useContext +onlyGivenNames x1
  try clear_value x1
  refine Keeps.trans ?_ (keeps_setDocent _ _ _)
  exact Keeps.refl _

theorem keeps_docApply {L : Nat} (s : State) (p1 p2 p3 : Nat) (p4 : JobCtx) (p5 : Eff) (he : KeepsE L s p5)
    (sub : 2274743 &&& L = 2274743 := by rfl) : Keeps L s (docApply s p1 p2 p3 p4 p5) := by
  unfold docApply
  have hs (t : State) (d : Nat) (x : Docent) : Keeps 2274743 t (setDocent t d x) := (keeps_setDocent _ _ _).mono
  have hf (t : State) (d k : Nat) (c : JobCtx) (a : Nat) (b : Option Nat) (u : Nat) : Keeps 2274743 t (docFault t d k c a b u) :=
    (keeps_docFault _ _ _ _ _ _ _).mono
  have hd (t : State) (d k : Nat) (c : JobCtx) (n : Nat) : Keeps 2274743 t (docStore t d k c n) := (keeps_docStore _ _ _ _ _).mono
  split
  · refine Keeps.mono (m := 2274743) ?_ sub
    extract_lets -underBinder -merge -useContext +onlyGivenNames u
    have hu : Keeps 2274743 s u := Keeps.ite (Keeps.refl _) (keeps_docCharge ..).mono
    clear_value u
    split
    · exact Keeps.trans hu (hf _ _ _ _ _ _ _)
    · exact hu
  · exact (hs _ _ _).mono sub
  · exact Keeps.trans (he _ _ rfl) (hd _ _ _ _ _) sub
  · refine Keeps.mono (m := 2274743) ?_ sub
    refine Keeps.ite (hs _ _ _) ?_
    exact Keeps.ite (Keeps.trans (hd _ _ _ _ _) (hs _ _ _)) (hd _ _ _ _ _)
  · refine Keeps.mono (m := 2274743) ?_ sub
    refine Keeps.ite (hs _ _ _) ?_
    split
    · exact Keeps.trans (hd _ _ _ _ _) (hf _ _ _ _ _ _ _)
    · exact Keeps.trans (Keeps.trans (hd _ _ _ _ _) (keeps_bump _ _)) (keeps_docRetire _ _ _ _)

theorem keeps_docRun {L : Nat} (s : State) (p1 p2 : Nat) (p3 : Nat → Bool) (p4 : JobCtx → Nat → Nat) (p5 : State → JobCtx → Nat → Eff)
    (he : ∀ s c w, KeepsE L s (p5 s c w)) (sub : 2274743 &&& L = 2274743 := by rfl) : Keeps L s (docRun s p1 p2 p3 p4 p5) := by
  unfold docRun
  extract_lets -underBinder -merge -useContext +onlyGivenNames x
  have hf (t : State) (d k : Nat) (c : JobCtx) (a : Nat) (b : Option Nat) (u : Nat) : Keeps L t (docFault t d k c a b u) :=
    Keeps.mono (m := 2274743) (keeps_docFault _ _ _ _ _ _ _).mono sub
  have hm (t : State) : Keeps L t (memCorrected t) := Keeps.mono (m := 2274743) (keeps_memCorrected _).mono sub
  split
  · exact Keeps.refl _
  · refine Keeps.ite (Keeps.refl _) (Keeps.ite (hf _ _ _ _ _ _ _) (Keeps.ite (hf _ _ _ _ _ _ _) ?_))
    extract_lets -underBinder -merge -useContext +onlyGivenNames w
    refine Keeps.ite (Keeps.refl _) ?_
    extract_lets -underBinder -merge -useContext +onlyGivenNames t
    have ht : Keeps L s t := Keeps.ite (hm _) (Keeps.refl _)
    clear_value t
    extract_lets -underBinder -merge -useContext +onlyGivenNames n
    extract_lets -underBinder -merge -useContext +onlyGivenNames e
    have hf : ∀ fs, KeepsE L t (.fault fs) := fun fs => KeepsE.other (by intro c t h; cases h)
    have hx : KeepsE L t e := he _ _ _
    clear_value e
    extract_lets -underBinder -merge -useContext +onlyGivenNames ovr
    clear_value ovr
    have ha (e : Eff) (h : KeepsE L t e) (d k n : Nat) (c : JobCtx) : Keeps L s (docApply t d k n c e) :=
      Keeps.trans ht (keeps_docApply _ _ _ _ _ _ h sub) (Nat.and_self L)
    split
    · exact ha _ (hf _) _ _ _ _
    · exact Keeps.ite (ha _ hx _ _ _ _) (ha _ (hf _) _ _ _ _)

theorem keeps_okG (s : State) (p1 : JobCtx) (p2 : Nat) (p3 : DWord) : KeepsE 0 s (okG s p1 p2 p3) := by
  unfold okG
  refine KeepsE.ok ?_
  exact Keeps.refl _

theorem keeps_okP (s : State) (p1 : JobCtx) (p2 : Nat) (p3 : Bool) : KeepsE 0 s (okP s p1 p2 p3) := by
  unfold okP
  refine KeepsE.ok ?_
  exact Keeps.refl _

theorem keeps_okV (s : State) (p1 : JobCtx) (p2 : Nat) (p3 : VWord) : KeepsE 0 s (okV s p1 p2 p3) := by
  unfold okV
  refine KeepsE.ok ?_
  exact Keeps.refl _

theorem keeps_okS (s : State) (p1 : JobCtx) (p2 : Nat) (p3 : Nat) : KeepsE 0 s (okS s p1 p2 p3) := by
  unfold okS
  refine KeepsE.trans ?_ (keeps_okG _ _ _ _)
  exact Keeps.refl _

theorem keeps_jumpTo (s : State) (p1 : JobCtx) (p2 : Int) : KeepsE 0 s (jumpTo s p1 p2) := by
  unfold jumpTo
  refine KeepsE.ite ?_ ?_
  · refine KeepsE.ok ?_
    exact Keeps.refl _
  · exact KeepsE.other (fun _ _ h => by cases h)

theorem keeps_docIllegal (s : State) (p1 : Nat) (p2 : Nat) : Keeps 2274743 s (docIllegal s p1 p2) := by
  unfold docIllegal
  refine keeps_docRun (L := 2274743) _ _ _ _ _ _ (fun u1 u2 u3 => ?_)
  exact KeepsE.other (fun _ _ h => by cases h)

theorem keeps_docFix {L : Nat} (s : State) (p1 p2 : Nat) (p3 : Nat → Bool) (p4 : Nat) (p5 : State → JobCtx → Nat → Eff)
    (he : ∀ s c w, KeepsE L s (p5 s c w)) (sub : 2274743 &&& L = 2274743 := by rfl) : Keeps L s (docFix s p1 p2 p3 p4 p5) :=
  keeps_docRun _ _ _ _ _ _ he sub

end Sys2Proof.Machine
end

