-- ==== Sys2Proof/Laws/KeepsDocFloat.lean ====
section
/-! SUPPORT. What each function of Machine/DocFloat.lean leaves unchanged (the mask names the areas it may change). -/

set_option Elab.async false

namespace Sys2Proof.Machine

theorem keeps_fpOp (s : State) (p1 : Nat) (p2 : Nat) (p3 : Nat) (p4 : Nat) (p5 : Nat) (p6 : FFmt → Nat → Nat → Nat → Nat) : Keeps 2274743 s (fpOp s p1 p2 p3 p4 p5 p6) := by
  unfold fpOp
  refine keeps_docRun (L := 2274743) _ _ _ _ _ _ (fun u1 u2 u3 => ?_)
  extract_lets -underBinder -merge -useContext +onlyGivenNames x4
  try clear_value x4
  extract_lets -underBinder -merge -useContext +onlyGivenNames x5
  try clear_value x5
  refine KeepsE.trans ?_ (keeps_okG _ _ _ _)
  exact Keeps.refl _

theorem keeps_execFadd (p0 : Nat) (p1 : Nat) (s : State) : KeepsO 2274743 s (execFadd p0 p1 s) := by
  unfold execFadd
  refine KeepsO.done ?_
  refine Keeps.trans ?_ (keeps_fpOp _ _ _ _ _ _ _)
  exact Keeps.refl _

theorem keeps_execFsub (p0 : Nat) (p1 : Nat) (s : State) : KeepsO 2274743 s (execFsub p0 p1 s) := by
  unfold execFsub
  refine KeepsO.done ?_
  refine Keeps.trans ?_ (keeps_fpOp _ _ _ _ _ _ _)
  exact Keeps.refl _

theorem keeps_execFmul (p0 : Nat) (p1 : Nat) (s : State) : KeepsO 2274743 s (execFmul p0 p1 s) := by
  unfold execFmul
  refine KeepsO.done ?_
  refine Keeps.trans ?_ (keeps_fpOp _ _ _ _ _ _ _)
  exact Keeps.refl _

theorem keeps_execFdiv (p0 : Nat) (p1 : Nat) (s : State) : KeepsO 2274743 s (execFdiv p0 p1 s) := by
  unfold execFdiv
  refine KeepsO.done ?_
  refine Keeps.trans ?_ (keeps_fpOp _ _ _ _ _ _ _)
  exact Keeps.refl _

theorem keeps_execFsqrt (p0 : Nat) (p1 : Nat) (s : State) : KeepsO 2274743 s (execFsqrt p0 p1 s) := by
  unfold execFsqrt
  refine KeepsO.done ?_
  refine Keeps.trans ?_ (keeps_fpOp _ _ _ _ _ _ _)
  exact Keeps.refl _

theorem keeps_execFmin (p0 : Nat) (p1 : Nat) (s : State) : KeepsO 2274743 s (execFmin p0 p1 s) := by
  unfold execFmin
  refine KeepsO.done ?_
  refine Keeps.trans ?_ (keeps_fpOp _ _ _ _ _ _ _)
  exact Keeps.refl _

theorem keeps_execFmax (p0 : Nat) (p1 : Nat) (s : State) : KeepsO 2274743 s (execFmax p0 p1 s) := by
  unfold execFmax
  refine KeepsO.done ?_
  refine Keeps.trans ?_ (keeps_fpOp _ _ _ _ _ _ _)
  exact Keeps.refl _

theorem keeps_execFmac (p0 : Nat) (p1 : Nat) (s : State) : KeepsO 2274743 s (execFmac p0 p1 s) := by
  unfold execFmac
  refine KeepsO.done ?_
  refine Keeps.trans ?_ (keeps_fpOp _ _ _ _ _ _ _)
  exact Keeps.refl _

theorem keeps_execFabs (p0 : Nat) (p1 : Nat) (s : State) : KeepsO 2274743 s (execFabs p0 p1 s) := by
  unfold execFabs
  refine KeepsO.done ?_
  refine Keeps.trans ?_ (keeps_fpOp _ _ _ _ _ _ _)
  exact Keeps.refl _

theorem keeps_execFneg (p0 : Nat) (p1 : Nat) (s : State) : KeepsO 2274743 s (execFneg p0 p1 s) := by
  unfold execFneg
  refine KeepsO.done ?_
  refine Keeps.trans ?_ (keeps_fpOp _ _ _ _ _ _ _)
  exact Keeps.refl _

theorem keeps_cvtOp (s : State) (p1 : Nat) (p2 : Nat) (p3 : Nat) (p4 : DWord → DWord) : Keeps 2274743 s (cvtOp s p1 p2 p3 p4) := by
  unfold cvtOp
  refine keeps_docFix (L := 2274743) _ _ _ _ _ _ (fun u1 u2 u3 => ?_)
  refine KeepsE.trans ?_ (keeps_okG _ _ _ _)
  exact Keeps.refl _

theorem keeps_execFcvtDS (p0 : Nat) (p1 : Nat) (s : State) : KeepsO 2274743 s (execFcvtDS p0 p1 s) := by
  unfold execFcvtDS
  refine KeepsO.done ?_
  refine Keeps.trans ?_ (keeps_cvtOp _ _ _ _ _)
  exact Keeps.refl _

theorem keeps_execFcvtSD (p0 : Nat) (p1 : Nat) (s : State) : KeepsO 2274743 s (execFcvtSD p0 p1 s) := by
  unfold execFcvtSD
  refine KeepsO.done ?_
  refine Keeps.trans ?_ (keeps_cvtOp _ _ _ _ _)
  exact Keeps.refl _

theorem keeps_execFcvtSL (p0 : Nat) (p1 : Nat) (s : State) : KeepsO 2274743 s (execFcvtSL p0 p1 s) := by
  unfold execFcvtSL
  refine KeepsO.done ?_
  refine Keeps.trans ?_ (keeps_cvtOp _ _ _ _ _)
  exact Keeps.refl _

theorem keeps_execFcvtDL (p0 : Nat) (p1 : Nat) (s : State) : KeepsO 2274743 s (execFcvtDL p0 p1 s) := by
  unfold execFcvtDL
  refine KeepsO.done ?_
  refine Keeps.trans ?_ (keeps_cvtOp _ _ _ _ _)
  exact Keeps.refl _

theorem keeps_execFcvtLS (p0 : Nat) (p1 : Nat) (s : State) : KeepsO 2274743 s (execFcvtLS p0 p1 s) := by
  unfold execFcvtLS
  refine KeepsO.done ?_
  refine Keeps.trans ?_ (keeps_cvtOp _ _ _ _ _)
  exact Keeps.refl _

theorem keeps_execFcvtLD (p0 : Nat) (p1 : Nat) (s : State) : KeepsO 2274743 s (execFcvtLD p0 p1 s) := by
  unfold execFcvtLD
  refine KeepsO.done ?_
  refine Keeps.trans ?_ (keeps_cvtOp _ _ _ _ _)
  exact Keeps.refl _

theorem keeps_vecOp (s : State) (p1 : Nat) (p2 : Nat) (p3 : Nat) (p4 : Nat) (p5 : Nat → Nat → Nat → Nat) : Keeps 2274743 s (vecOp s p1 p2 p3 p4 p5) := by
  unfold vecOp
  refine keeps_docFix (L := 2274743) _ _ _ _ _ _ (fun u1 u2 u3 => ?_)
  extract_lets -underBinder -merge -useContext +onlyGivenNames x4
  try clear_value x4
  extract_lets -underBinder -merge -useContext +onlyGivenNames x5
  try clear_value x5
  extract_lets -underBinder -merge -useContext +onlyGivenNames x6
  try clear_value x6
  refine KeepsE.trans ?_ (keeps_okV _ _ _ _)
  exact Keeps.refl _

theorem keeps_execVadd (p0 : Nat) (p1 : Nat) (s : State) : KeepsO 2274743 s (execVadd p0 p1 s) := by
  unfold execVadd
  refine KeepsO.done ?_
  refine Keeps.trans ?_ (keeps_vecOp _ _ _ _ _ _)
  exact Keeps.refl _

theorem keeps_execVsub (p0 : Nat) (p1 : Nat) (s : State) : KeepsO 2274743 s (execVsub p0 p1 s) := by
  unfold execVsub
  refine KeepsO.done ?_
  refine Keeps.trans ?_ (keeps_vecOp _ _ _ _ _ _)
  exact Keeps.refl _

theorem keeps_execVmul (p0 : Nat) (p1 : Nat) (s : State) : KeepsO 2274743 s (execVmul p0 p1 s) := by
  unfold execVmul
  refine KeepsO.done ?_
  refine Keeps.trans ?_ (keeps_vecOp _ _ _ _ _ _)
  exact Keeps.refl _

theorem keeps_execVmac (p0 : Nat) (p1 : Nat) (s : State) : KeepsO 2274743 s (execVmac p0 p1 s) := by
  unfold execVmac
  refine KeepsO.done ?_
  refine Keeps.trans ?_ (keeps_vecOp _ _ _ _ _ _)
  exact Keeps.refl _

theorem keeps_execVmin (p0 : Nat) (p1 : Nat) (s : State) : KeepsO 2274743 s (execVmin p0 p1 s) := by
  unfold execVmin
  refine KeepsO.done ?_
  refine Keeps.trans ?_ (keeps_vecOp _ _ _ _ _ _)
  exact Keeps.refl _

theorem keeps_execVmax (p0 : Nat) (p1 : Nat) (s : State) : KeepsO 2274743 s (execVmax p0 p1 s) := by
  unfold execVmax
  refine KeepsO.done ?_
  refine Keeps.trans ?_ (keeps_vecOp _ _ _ _ _ _)
  exact Keeps.refl _

theorem keeps_execVsum (p0 : Nat) (p1 : Nat) (s : State) : KeepsO 2274743 s (execVsum p0 p1 s) := by
  unfold execVsum
  refine KeepsO.done ?_
  refine keeps_docFix (L := 2274743) _ _ _ _ _ _ (fun u1 u2 u3 => ?_)
  extract_lets -underBinder -merge -useContext +onlyGivenNames x4
  try clear_value x4
  extract_lets -underBinder -merge -useContext +onlyGivenNames x5
  try clear_value x5
  refine KeepsE.trans ?_ (keeps_okS _ _ _ _)
  exact Keeps.refl _

theorem keeps_execVbcast (p0 : Nat) (p1 : Nat) (s : State) : KeepsO 2274743 s (execVbcast p0 p1 s) := by
  unfold execVbcast
  refine KeepsO.done ?_
  refine keeps_docFix (L := 2274743) _ _ _ _ _ _ (fun u1 u2 u3 => ?_)
  refine KeepsE.trans ?_ (keeps_okV _ _ _ _)
  exact Keeps.refl _

theorem keeps_execVext (p0 : Nat) (p1 : Nat) (s : State) : KeepsO 2274743 s (execVext p0 p1 s) := by
  unfold execVext
  refine KeepsO.done ?_
  refine keeps_docFix (L := 2274743) _ _ _ _ _ _ (fun u1 u2 u3 => ?_)
  refine KeepsE.trans ?_ (keeps_okS _ _ _ _)
  exact Keeps.refl _

theorem keeps_execVins (p0 : Nat) (p1 : Nat) (s : State) : KeepsO 2274743 s (execVins p0 p1 s) := by
  unfold execVins
  refine KeepsO.done ?_
  refine keeps_docFix (L := 2274743) _ _ _ _ _ _ (fun u1 u2 u3 => ?_)
  refine KeepsE.trans ?_ (keeps_okV _ _ _ _)
  exact Keeps.refl _

theorem keeps_execVzero (p0 : Nat) (p1 : Nat) (s : State) : KeepsO 2274743 s (execVzero p0 p1 s) := by
  unfold execVzero
  refine KeepsO.done ?_
  refine keeps_docFix (L := 2274743) _ _ _ _ _ _ (fun u1 u2 u3 => ?_)
  refine KeepsE.trans ?_ (keeps_okV _ _ _ _)
  exact Keeps.refl _

theorem keeps_execVmov (p0 : Nat) (p1 : Nat) (s : State) : KeepsO 2274743 s (execVmov p0 p1 s) := by
  unfold execVmov
  refine KeepsO.done ?_
  refine keeps_docFix (L := 2274743) _ _ _ _ _ _ (fun u1 u2 u3 => ?_)
  refine KeepsE.trans ?_ (keeps_okV _ _ _ _)
  exact Keeps.refl _

theorem keeps_execVscale (p0 : Nat) (p1 : Nat) (s : State) : KeepsO 2274743 s (execVscale p0 p1 s) := by
  unfold execVscale
  refine KeepsO.done ?_
  refine keeps_docFix (L := 2274743) _ _ _ _ _ _ (fun u1 u2 u3 => ?_)
  refine KeepsE.trans ?_ (keeps_okV _ _ _ _)
  exact Keeps.refl _

theorem keeps_cplxOp (s : State) (p1 : Nat) (p2 : Nat) (p3 : Nat) (p4 : Nat) (p5 : Nat → Nat × Nat → Nat × Nat → Nat × Nat → Nat × Nat) : Keeps 2274743 s (cplxOp s p1 p2 p3 p4 p5) := by
  unfold cplxOp
  refine keeps_docFix (L := 2274743) _ _ _ _ _ _ (fun u1 u2 u3 => ?_)
  extract_lets -underBinder -merge -useContext +onlyGivenNames x4
  try clear_value x4
  extract_lets -underBinder -merge -useContext +onlyGivenNames x5
  try clear_value x5
  extract_lets -underBinder -merge -useContext +onlyGivenNames x6
  try clear_value x6
  refine KeepsE.trans ?_ (keeps_okV _ _ _ _)
  exact Keeps.refl _

theorem keeps_execCadd (p0 : Nat) (p1 : Nat) (s : State) : KeepsO 2274743 s (execCadd p0 p1 s) := by
  unfold execCadd
  refine KeepsO.done ?_
  refine Keeps.trans ?_ (keeps_cplxOp _ _ _ _ _ _)
  exact Keeps.refl _

theorem keeps_execCsub (p0 : Nat) (p1 : Nat) (s : State) : KeepsO 2274743 s (execCsub p0 p1 s) := by
  unfold execCsub
  refine KeepsO.done ?_
  refine Keeps.trans ?_ (keeps_cplxOp _ _ _ _ _ _)
  exact Keeps.refl _

theorem keeps_execCmul (p0 : Nat) (p1 : Nat) (s : State) : KeepsO 2274743 s (execCmul p0 p1 s) := by
  unfold execCmul
  refine KeepsO.done ?_
  refine Keeps.trans ?_ (keeps_cplxOp _ _ _ _ _ _)
  exact Keeps.refl _

theorem keeps_execCmulj (p0 : Nat) (p1 : Nat) (s : State) : KeepsO 2274743 s (execCmulj p0 p1 s) := by
  unfold execCmulj
  refine KeepsO.done ?_
  refine Keeps.trans ?_ (keeps_cplxOp _ _ _ _ _ _)
  exact Keeps.refl _

theorem keeps_execCmac (p0 : Nat) (p1 : Nat) (s : State) : KeepsO 2274743 s (execCmac p0 p1 s) := by
  unfold execCmac
  refine KeepsO.done ?_
  refine Keeps.trans ?_ (keeps_cplxOp _ _ _ _ _ _)
  exact Keeps.refl _

theorem keeps_execCconj (p0 : Nat) (p1 : Nat) (s : State) : KeepsO 2274743 s (execCconj p0 p1 s) := by
  unfold execCconj
  refine KeepsO.done ?_
  refine Keeps.trans ?_ (keeps_cplxOp _ _ _ _ _ _)
  exact Keeps.refl _

theorem keeps_execCabs (p0 : Nat) (p1 : Nat) (s : State) : KeepsO 2274743 s (execCabs p0 p1 s) := by
  unfold execCabs
  refine KeepsO.done ?_
  refine Keeps.trans ?_ (keeps_cplxOp _ _ _ _ _ _)
  exact Keeps.refl _

theorem keeps_execCarg (p0 : Nat) (p1 : Nat) (s : State) : KeepsO 2274743 s (execCarg p0 p1 s) := by
  unfold execCarg
  refine KeepsO.done ?_
  refine Keeps.trans ?_ (keeps_cplxOp _ _ _ _ _ _)
  exact Keeps.refl _

theorem keeps_execCrot (p0 : Nat) (p1 : Nat) (s : State) : KeepsO 2274743 s (execCrot p0 p1 s) := by
  unfold execCrot
  refine KeepsO.done ?_
  refine Keeps.trans ?_ (keeps_cplxOp _ _ _ _ _ _)
  exact Keeps.refl _

theorem keeps_execCsum (p0 : Nat) (p1 : Nat) (s : State) : KeepsO 2274743 s (execCsum p0 p1 s) := by
  unfold execCsum
  refine KeepsO.done ?_
  refine keeps_docFix (L := 2274743) _ _ _ _ _ _ (fun u1 u2 u3 => ?_)
  extract_lets -underBinder -merge -useContext +onlyGivenNames x4
  try clear_value x4
  extract_lets -underBinder -merge -useContext +onlyGivenNames x5
  try clear_value x5
  refine KeepsE.trans ?_ (keeps_okV _ _ _ _)
  exact Keeps.refl _

end Sys2Proof.Machine
end

