-- ==== Sys2Proof/Laws/KeepsDocInt.lean ====
section
/-! SUPPORT. What each function of Machine/DocInt.lean leaves unchanged (the mask names the areas it may change). -/

set_option Elab.async false

namespace Sys2Proof.Machine

theorem keeps_intOp (s : State) (p1 : Nat) (p2 : Nat) (p3 : Nat) (p4 : Nat) (p5 : DWord → DWord → DWord) : Keeps 2274743 s (intOp s p1 p2 p3 p4 p5) := by
  unfold intOp
  refine keeps_docFix (L := 2274743) _ _ _ _ _ _ (fun u1 u2 u3 => ?_)
  refine KeepsE.trans ?_ (keeps_okG _ _ _ _)
  exact Keeps.refl _

theorem keeps_execAdd (p0 : Nat) (p1 : Nat) (s : State) : KeepsO 2274743 s (execAdd p0 p1 s) := by
  unfold execAdd
  refine KeepsO.done ?_
  refine Keeps.trans ?_ (keeps_intOp _ _ _ _ _ _)
  exact Keeps.refl _

theorem keeps_execSub (p0 : Nat) (p1 : Nat) (s : State) : KeepsO 2274743 s (execSub p0 p1 s) := by
  unfold execSub
  refine KeepsO.done ?_
  refine Keeps.trans ?_ (keeps_intOp _ _ _ _ _ _)
  exact Keeps.refl _

theorem keeps_execAnd (p0 : Nat) (p1 : Nat) (s : State) : KeepsO 2274743 s (execAnd p0 p1 s) := by
  unfold execAnd
  refine KeepsO.done ?_
  refine Keeps.trans ?_ (keeps_intOp _ _ _ _ _ _)
  exact Keeps.refl _

theorem keeps_execOr (p0 : Nat) (p1 : Nat) (s : State) : KeepsO 2274743 s (execOr p0 p1 s) := by
  unfold execOr
  refine KeepsO.done ?_
  refine Keeps.trans ?_ (keeps_intOp _ _ _ _ _ _)
  exact Keeps.refl _

theorem keeps_execXor (p0 : Nat) (p1 : Nat) (s : State) : KeepsO 2274743 s (execXor p0 p1 s) := by
  unfold execXor
  refine KeepsO.done ?_
  refine Keeps.trans ?_ (keeps_intOp _ _ _ _ _ _)
  exact Keeps.refl _

theorem keeps_execAndn (p0 : Nat) (p1 : Nat) (s : State) : KeepsO 2274743 s (execAndn p0 p1 s) := by
  unfold execAndn
  refine KeepsO.done ?_
  refine Keeps.trans ?_ (keeps_intOp _ _ _ _ _ _)
  exact Keeps.refl _

theorem keeps_execShl (p0 : Nat) (p1 : Nat) (s : State) : KeepsO 2274743 s (execShl p0 p1 s) := by
  unfold execShl
  refine KeepsO.done ?_
  refine Keeps.trans ?_ (keeps_intOp _ _ _ _ _ _)
  exact Keeps.refl _

theorem keeps_execShr (p0 : Nat) (p1 : Nat) (s : State) : KeepsO 2274743 s (execShr p0 p1 s) := by
  unfold execShr
  refine KeepsO.done ?_
  refine Keeps.trans ?_ (keeps_intOp _ _ _ _ _ _)
  exact Keeps.refl _

theorem keeps_execSar (p0 : Nat) (p1 : Nat) (s : State) : KeepsO 2274743 s (execSar p0 p1 s) := by
  unfold execSar
  refine KeepsO.done ?_
  refine Keeps.trans ?_ (keeps_intOp _ _ _ _ _ _)
  exact Keeps.refl _

theorem keeps_execMul (p0 : Nat) (p1 : Nat) (s : State) : KeepsO 2274743 s (execMul p0 p1 s) := by
  unfold execMul
  refine KeepsO.done ?_
  refine Keeps.trans ?_ (keeps_intOp _ _ _ _ _ _)
  exact Keeps.refl _

theorem keeps_execMulh (p0 : Nat) (p1 : Nat) (s : State) : KeepsO 2274743 s (execMulh p0 p1 s) := by
  unfold execMulh
  refine KeepsO.done ?_
  refine Keeps.trans ?_ (keeps_intOp _ _ _ _ _ _)
  exact Keeps.refl _

theorem keeps_execMulhu (p0 : Nat) (p1 : Nat) (s : State) : KeepsO 2274743 s (execMulhu p0 p1 s) := by
  unfold execMulhu
  refine KeepsO.done ?_
  refine Keeps.trans ?_ (keeps_intOp _ _ _ _ _ _)
  exact Keeps.refl _

theorem keeps_execDiv (p0 : Nat) (p1 : Nat) (s : State) : KeepsO 2274743 s (execDiv p0 p1 s) := by
  unfold execDiv
  refine KeepsO.done ?_
  refine Keeps.trans ?_ (keeps_intOp _ _ _ _ _ _)
  exact Keeps.refl _

theorem keeps_execDivu (p0 : Nat) (p1 : Nat) (s : State) : KeepsO 2274743 s (execDivu p0 p1 s) := by
  unfold execDivu
  refine KeepsO.done ?_
  refine Keeps.trans ?_ (keeps_intOp _ _ _ _ _ _)
  exact Keeps.refl _

theorem keeps_execRem (p0 : Nat) (p1 : Nat) (s : State) : KeepsO 2274743 s (execRem p0 p1 s) := by
  unfold execRem
  refine KeepsO.done ?_
  refine Keeps.trans ?_ (keeps_intOp _ _ _ _ _ _)
  exact Keeps.refl _

theorem keeps_execRemu (p0 : Nat) (p1 : Nat) (s : State) : KeepsO 2274743 s (execRemu p0 p1 s) := by
  unfold execRemu
  refine KeepsO.done ?_
  refine Keeps.trans ?_ (keeps_intOp _ _ _ _ _ _)
  exact Keeps.refl _

theorem keeps_execMin (p0 : Nat) (p1 : Nat) (s : State) : KeepsO 2274743 s (execMin p0 p1 s) := by
  unfold execMin
  refine KeepsO.done ?_
  refine Keeps.trans ?_ (keeps_intOp _ _ _ _ _ _)
  exact Keeps.refl _

theorem keeps_execMax (p0 : Nat) (p1 : Nat) (s : State) : KeepsO 2274743 s (execMax p0 p1 s) := by
  unfold execMax
  refine KeepsO.done ?_
  refine Keeps.trans ?_ (keeps_intOp _ _ _ _ _ _)
  exact Keeps.refl _

theorem keeps_execMinu (p0 : Nat) (p1 : Nat) (s : State) : KeepsO 2274743 s (execMinu p0 p1 s) := by
  unfold execMinu
  refine KeepsO.done ?_
  refine Keeps.trans ?_ (keeps_intOp _ _ _ _ _ _)
  exact Keeps.refl _

theorem keeps_execMaxu (p0 : Nat) (p1 : Nat) (s : State) : KeepsO 2274743 s (execMaxu p0 p1 s) := by
  unfold execMaxu
  refine KeepsO.done ?_
  refine Keeps.trans ?_ (keeps_intOp _ _ _ _ _ _)
  exact Keeps.refl _

theorem keeps_execClz (p0 : Nat) (p1 : Nat) (s : State) : KeepsO 2274743 s (execClz p0 p1 s) := by
  unfold execClz
  refine KeepsO.done ?_
  refine Keeps.trans ?_ (keeps_intOp _ _ _ _ _ _)
  exact Keeps.refl _

theorem keeps_execCtz (p0 : Nat) (p1 : Nat) (s : State) : KeepsO 2274743 s (execCtz p0 p1 s) := by
  unfold execCtz
  refine KeepsO.done ?_
  refine Keeps.trans ?_ (keeps_intOp _ _ _ _ _ _)
  exact Keeps.refl _

theorem keeps_execPopc (p0 : Nat) (p1 : Nat) (s : State) : KeepsO 2274743 s (execPopc p0 p1 s) := by
  unfold execPopc
  refine KeepsO.done ?_
  refine Keeps.trans ?_ (keeps_intOp _ _ _ _ _ _)
  exact Keeps.refl _

theorem keeps_execSext32 (p0 : Nat) (p1 : Nat) (s : State) : KeepsO 2274743 s (execSext32 p0 p1 s) := by
  unfold execSext32
  refine KeepsO.done ?_
  refine Keeps.trans ?_ (keeps_intOp _ _ _ _ _ _)
  exact Keeps.refl _

theorem keeps_execZext32 (p0 : Nat) (p1 : Nat) (s : State) : KeepsO 2274743 s (execZext32 p0 p1 s) := by
  unfold execZext32
  refine KeepsO.done ?_
  refine Keeps.trans ?_ (keeps_intOp _ _ _ _ _ _)
  exact Keeps.refl _

theorem keeps_cmpOp (s : State) (p1 : Nat) (p2 : Nat) (p3 : Nat) : Keeps 2274743 s (cmpOp s p1 p2 p3) := by
  unfold cmpOp
  refine keeps_docFix (L := 2274743) _ _ _ _ _ _ (fun u1 u2 u3 => ?_)
  refine KeepsE.trans ?_ (keeps_okP _ _ _ _)
  exact Keeps.refl _

theorem keeps_execEq (p0 : Nat) (p1 : Nat) (s : State) : KeepsO 2274743 s (execEq p0 p1 s) := by
  unfold execEq
  refine KeepsO.done ?_
  refine Keeps.trans ?_ (keeps_cmpOp _ _ _ _)
  exact Keeps.refl _

theorem keeps_execNe (p0 : Nat) (p1 : Nat) (s : State) : KeepsO 2274743 s (execNe p0 p1 s) := by
  unfold execNe
  refine KeepsO.done ?_
  refine Keeps.trans ?_ (keeps_cmpOp _ _ _ _)
  exact Keeps.refl _

theorem keeps_execLt (p0 : Nat) (p1 : Nat) (s : State) : KeepsO 2274743 s (execLt p0 p1 s) := by
  unfold execLt
  refine KeepsO.done ?_
  refine Keeps.trans ?_ (keeps_cmpOp _ _ _ _)
  exact Keeps.refl _

theorem keeps_execGe (p0 : Nat) (p1 : Nat) (s : State) : KeepsO 2274743 s (execGe p0 p1 s) := by
  unfold execGe
  refine KeepsO.done ?_
  refine Keeps.trans ?_ (keeps_cmpOp _ _ _ _)
  exact Keeps.refl _

theorem keeps_execLtu (p0 : Nat) (p1 : Nat) (s : State) : KeepsO 2274743 s (execLtu p0 p1 s) := by
  unfold execLtu
  refine KeepsO.done ?_
  refine Keeps.trans ?_ (keeps_cmpOp _ _ _ _)
  exact Keeps.refl _

theorem keeps_execGeu (p0 : Nat) (p1 : Nat) (s : State) : KeepsO 2274743 s (execGeu p0 p1 s) := by
  unfold execGeu
  refine KeepsO.done ?_
  refine Keeps.trans ?_ (keeps_cmpOp _ _ _ _)
  exact Keeps.refl _

theorem keeps_fcmpOp (s : State) (p1 : Nat) (p2 : Nat) (p3 : Nat) : Keeps 2274743 s (fcmpOp s p1 p2 p3) := by
  unfold fcmpOp
  refine keeps_docFix (L := 2274743) _ _ _ _ _ _ (fun u1 u2 u3 => ?_)
  extract_lets -underBinder -merge -useContext +onlyGivenNames x4
  try clear_value x4
  refine KeepsE.trans ?_ (keeps_okP _ _ _ _)
  exact Keeps.refl _

theorem keeps_execFeq (p0 : Nat) (p1 : Nat) (s : State) : KeepsO 2274743 s (execFeq p0 p1 s) := by
  unfold execFeq
  refine KeepsO.done ?_
  refine Keeps.trans ?_ (keeps_fcmpOp _ _ _ _)
  exact Keeps.refl _

theorem keeps_execFlt (p0 : Nat) (p1 : Nat) (s : State) : KeepsO 2274743 s (execFlt p0 p1 s) := by
  unfold execFlt
  refine KeepsO.done ?_
  refine Keeps.trans ?_ (keeps_fcmpOp _ _ _ _)
  exact Keeps.refl _

theorem keeps_execFle (p0 : Nat) (p1 : Nat) (s : State) : KeepsO 2274743 s (execFle p0 p1 s) := by
  unfold execFle
  refine KeepsO.done ?_
  refine Keeps.trans ?_ (keeps_fcmpOp _ _ _ _)
  exact Keeps.refl _

theorem keeps_execFun (p0 : Nat) (p1 : Nat) (s : State) : KeepsO 2274743 s (execFun p0 p1 s) := by
  unfold execFun
  refine KeepsO.done ?_
  refine Keeps.trans ?_ (keeps_fcmpOp _ _ _ _)
  exact Keeps.refl _

theorem keeps_predOp (s : State) (p1 : Nat) (p2 : Nat) (p3 : Nat) (p4 : Bool → Bool → Bool) : Keeps 2274743 s (predOp s p1 p2 p3 p4) := by
  unfold predOp
  refine keeps_docFix (L := 2274743) _ _ _ _ _ _ (fun u1 u2 u3 => ?_)
  refine KeepsE.trans ?_ (keeps_okP _ _ _ _)
  exact Keeps.refl _

theorem keeps_execPand (p0 : Nat) (p1 : Nat) (s : State) : KeepsO 2274743 s (execPand p0 p1 s) := by
  unfold execPand
  refine KeepsO.done ?_
  refine Keeps.trans ?_ (keeps_predOp _ _ _ _ _)
  exact Keeps.refl _

theorem keeps_execPor (p0 : Nat) (p1 : Nat) (s : State) : KeepsO 2274743 s (execPor p0 p1 s) := by
  unfold execPor
  refine KeepsO.done ?_
  refine Keeps.trans ?_ (keeps_predOp _ _ _ _ _)
  exact Keeps.refl _

theorem keeps_execPxor (p0 : Nat) (p1 : Nat) (s : State) : KeepsO 2274743 s (execPxor p0 p1 s) := by
  unfold execPxor
  refine KeepsO.done ?_
  refine Keeps.trans ?_ (keeps_predOp _ _ _ _ _)
  exact Keeps.refl _

theorem keeps_execPandn (p0 : Nat) (p1 : Nat) (s : State) : KeepsO 2274743 s (execPandn p0 p1 s) := by
  unfold execPandn
  refine KeepsO.done ?_
  refine Keeps.trans ?_ (keeps_predOp _ _ _ _ _)
  exact Keeps.refl _

theorem keeps_execPnot (p0 : Nat) (p1 : Nat) (s : State) : KeepsO 2274743 s (execPnot p0 p1 s) := by
  unfold execPnot
  refine KeepsO.done ?_
  refine Keeps.trans ?_ (keeps_predOp _ _ _ _ _)
  exact Keeps.refl _

theorem keeps_execPget (p0 : Nat) (p1 : Nat) (s : State) : KeepsO 2274743 s (execPget p0 p1 s) := by
  unfold execPget
  refine KeepsO.done ?_
  refine keeps_docFix (L := 2274743) _ _ _ _ _ _ (fun u1 u2 u3 => ?_)
  refine KeepsE.trans ?_ (keeps_okG _ _ _ _)
  exact Keeps.refl _

theorem keeps_execPset (p0 : Nat) (p1 : Nat) (s : State) : KeepsO 2274743 s (execPset p0 p1 s) := by
  unfold execPset
  refine KeepsO.done ?_
  refine keeps_docFix (L := 2274743) _ _ _ _ _ _ (fun u1 u2 u3 => ?_)
  refine KeepsE.trans ?_ (keeps_okP _ _ _ _)
  exact Keeps.refl _

theorem keeps_execSel (p0 : Nat) (p1 : Nat) (s : State) : KeepsO 2274743 s (execSel p0 p1 s) := by
  unfold execSel
  refine KeepsO.done ?_
  refine keeps_docFix (L := 2274743) _ _ _ _ _ _ (fun u1 u2 u3 => ?_)
  refine KeepsE.trans ?_ (keeps_okG _ _ _ _)
  exact Keeps.refl _

theorem keeps_immOp (s : State) (p1 : Nat) (p2 : Nat) (p3 : Nat) (p4 : DWord → Nat → DWord) : Keeps 2274743 s (immOp s p1 p2 p3 p4) := by
  unfold immOp
  refine keeps_docFix (L := 2274743) _ _ _ _ _ _ (fun u1 u2 u3 => ?_)
  refine KeepsE.trans ?_ (keeps_okG _ _ _ _)
  exact Keeps.refl _

theorem keeps_execAddi (p0 : Nat) (p1 : Nat) (s : State) : KeepsO 2274743 s (execAddi p0 p1 s) := by
  unfold execAddi
  refine KeepsO.done ?_
  refine Keeps.trans ?_ (keeps_immOp _ _ _ _ _)
  exact Keeps.refl _

theorem keeps_execAndi (p0 : Nat) (p1 : Nat) (s : State) : KeepsO 2274743 s (execAndi p0 p1 s) := by
  unfold execAndi
  refine KeepsO.done ?_
  refine Keeps.trans ?_ (keeps_immOp _ _ _ _ _)
  exact Keeps.refl _

theorem keeps_execOri (p0 : Nat) (p1 : Nat) (s : State) : KeepsO 2274743 s (execOri p0 p1 s) := by
  unfold execOri
  refine KeepsO.done ?_
  refine Keeps.trans ?_ (keeps_immOp _ _ _ _ _)
  exact Keeps.refl _

theorem keeps_execXori (p0 : Nat) (p1 : Nat) (s : State) : KeepsO 2274743 s (execXori p0 p1 s) := by
  unfold execXori
  refine KeepsO.done ?_
  refine Keeps.trans ?_ (keeps_immOp _ _ _ _ _)
  exact Keeps.refl _

theorem keeps_execShli (p0 : Nat) (p1 : Nat) (s : State) : KeepsO 2274743 s (execShli p0 p1 s) := by
  unfold execShli
  refine KeepsO.done ?_
  refine Keeps.trans ?_ (keeps_immOp _ _ _ _ _)
  exact Keeps.refl _

theorem keeps_execShri (p0 : Nat) (p1 : Nat) (s : State) : KeepsO 2274743 s (execShri p0 p1 s) := by
  unfold execShri
  refine KeepsO.done ?_
  refine Keeps.trans ?_ (keeps_immOp _ _ _ _ _)
  exact Keeps.refl _

theorem keeps_execSari (p0 : Nat) (p1 : Nat) (s : State) : KeepsO 2274743 s (execSari p0 p1 s) := by
  unfold execSari
  refine KeepsO.done ?_
  refine Keeps.trans ?_ (keeps_immOp _ _ _ _ _)
  exact Keeps.refl _

theorem keeps_execMovi (p0 : Nat) (p1 : Nat) (s : State) : KeepsO 2274743 s (execMovi p0 p1 s) := by
  unfold execMovi
  refine KeepsO.done ?_
  refine Keeps.trans ?_ (keeps_immOp _ _ _ _ _)
  exact Keeps.refl _

theorem keeps_execMovk (p0 : Nat) (p1 : Nat) (s : State) : KeepsO 2274743 s (execMovk p0 p1 s) := by
  unfold execMovk
  refine KeepsO.done ?_
  refine keeps_docFix (L := 2274743) _ _ _ _ _ _ (fun u1 u2 u3 => ?_)
  refine KeepsE.trans ?_ (keeps_okG _ _ _ _)
  exact Keeps.refl _

theorem keeps_cmpiOp (s : State) (p1 : Nat) (p2 : Nat) (p3 : Nat) (p4 : DWord → Nat → Bool) : Keeps 2274743 s (cmpiOp s p1 p2 p3 p4) := by
  unfold cmpiOp
  refine keeps_docFix (L := 2274743) _ _ _ _ _ _ (fun u1 u2 u3 => ?_)
  refine KeepsE.trans ?_ (keeps_okP _ _ _ _)
  exact Keeps.refl _

theorem keeps_execCmpiEq (p0 : Nat) (p1 : Nat) (s : State) : KeepsO 2274743 s (execCmpiEq p0 p1 s) := by
  unfold execCmpiEq
  refine KeepsO.done ?_
  refine Keeps.trans ?_ (keeps_cmpiOp _ _ _ _ _)
  exact Keeps.refl _

theorem keeps_execCmpiLt (p0 : Nat) (p1 : Nat) (s : State) : KeepsO 2274743 s (execCmpiLt p0 p1 s) := by
  unfold execCmpiLt
  refine KeepsO.done ?_
  refine Keeps.trans ?_ (keeps_cmpiOp _ _ _ _ _)
  exact Keeps.refl _

theorem keeps_execCmpiLtu (p0 : Nat) (p1 : Nat) (s : State) : KeepsO 2274743 s (execCmpiLtu p0 p1 s) := by
  unfold execCmpiLtu
  refine KeepsO.done ?_
  refine Keeps.trans ?_ (keeps_cmpiOp _ _ _ _ _)
  exact Keeps.refl _

end Sys2Proof.Machine
end

