-- ==== Sys2Proof/Laws/KeepsDocMem.lean ====
section
/-! SUPPORT. What each function of Machine/DocMem.lean leaves unchanged (the mask names the areas it may change). -/

set_option Elab.async false

namespace Sys2Proof.Machine

theorem keeps_loadOp {L : Nat} (s : State) (p1 p2 p3 p4 p5 p6 : Nat) (p7 : State → JobCtx → Nat → Nat → Eff)
    (he : ∀ s c w n, KeepsE L s (p7 s c w n)) (sub : 2274743 &&& L = 2274743 := by rfl) : Keeps L s (loadOp s p1 p2 p3 p4 p5 p6 p7) := by
  unfold loadOp
  refine keeps_docFix _ _ _ _ _ _ (fun s c w => ?_) sub
  extract_lets a fs
  refine KeepsE.ite (KeepsE.other (by intro c t h; cases h)) (KeepsE.ite (KeepsE.other (by intro c t h; cases h)) ?_)
  exact KeepsE.trans (Keeps.mono (m := 2274743) (keeps_eccCorrect _ _).mono sub) (he _ _ _ _) (Nat.and_self L)

theorem keeps_storeOp (s : State) (p1 : Nat) (p2 : Nat) (p3 : Nat) (p4 : Nat) (p5 : Nat) (p6 : JobCtx → Nat → Nat) : Keeps 2274743 s (storeOp s p1 p2 p3 p4 p5 p6) := by
  unfold storeOp
  refine keeps_docFix (L := 2274743) _ _ _ _ _ _ (fun u1 u2 u3 => ?_)
  extract_lets -underBinder -merge -useContext +onlyGivenNames x4
  try clear_value x4
  extract_lets -underBinder -merge -useContext +onlyGivenNames x5
  try clear_value x5
  refine KeepsE.ite ?_ ?_
  · exact KeepsE.other (fun _ _ h => by cases h)
  · refine KeepsE.ok ?_
    refine Keeps.trans ?_ (keeps_dramWrite _ _ _ _ _)
    exact Keeps.refl _

theorem keeps_execLdb (p0 : Nat) (p1 : Nat) (p2 : Nat) (s : State) : KeepsO 2274743 s (execLdb p0 p1 p2 s) := by
  unfold execLdb
  refine KeepsO.done ?_
  refine keeps_loadOp (L := 2274743) _ _ _ _ _ _ _ _ (fun u1 u2 u3 u4 => ?_)
  refine KeepsE.trans ?_ (keeps_okG _ _ _ _)
  exact Keeps.refl _

theorem keeps_execLdh (p0 : Nat) (p1 : Nat) (p2 : Nat) (s : State) : KeepsO 2274743 s (execLdh p0 p1 p2 s) := by
  unfold execLdh
  refine KeepsO.done ?_
  refine keeps_loadOp (L := 2274743) _ _ _ _ _ _ _ _ (fun u1 u2 u3 u4 => ?_)
  refine KeepsE.trans ?_ (keeps_okG _ _ _ _)
  exact Keeps.refl _

theorem keeps_execLdw (p0 : Nat) (p1 : Nat) (p2 : Nat) (s : State) : KeepsO 2274743 s (execLdw p0 p1 p2 s) := by
  unfold execLdw
  refine KeepsO.done ?_
  refine keeps_loadOp (L := 2274743) _ _ _ _ _ _ _ _ (fun u1 u2 u3 u4 => ?_)
  refine KeepsE.trans ?_ (keeps_okG _ _ _ _)
  exact Keeps.refl _

theorem keeps_execLdd (p0 : Nat) (p1 : Nat) (p2 : Nat) (s : State) : KeepsO 2274743 s (execLdd p0 p1 p2 s) := by
  unfold execLdd
  refine KeepsO.done ?_
  refine keeps_loadOp (L := 2274743) _ _ _ _ _ _ _ _ (fun u1 u2 u3 u4 => ?_)
  refine KeepsE.trans ?_ (keeps_okG _ _ _ _)
  exact Keeps.refl _

theorem keeps_execLdbs (p0 : Nat) (p1 : Nat) (p2 : Nat) (s : State) : KeepsO 2274743 s (execLdbs p0 p1 p2 s) := by
  unfold execLdbs
  refine KeepsO.done ?_
  refine keeps_loadOp (L := 2274743) _ _ _ _ _ _ _ _ (fun u1 u2 u3 u4 => ?_)
  refine KeepsE.trans ?_ (keeps_okG _ _ _ _)
  exact Keeps.refl _

theorem keeps_execLdhs (p0 : Nat) (p1 : Nat) (p2 : Nat) (s : State) : KeepsO 2274743 s (execLdhs p0 p1 p2 s) := by
  unfold execLdhs
  refine KeepsO.done ?_
  refine keeps_loadOp (L := 2274743) _ _ _ _ _ _ _ _ (fun u1 u2 u3 u4 => ?_)
  refine KeepsE.trans ?_ (keeps_okG _ _ _ _)
  exact Keeps.refl _

theorem keeps_execLdws (p0 : Nat) (p1 : Nat) (p2 : Nat) (s : State) : KeepsO 2274743 s (execLdws p0 p1 p2 s) := by
  unfold execLdws
  refine KeepsO.done ?_
  refine keeps_loadOp (L := 2274743) _ _ _ _ _ _ _ _ (fun u1 u2 u3 u4 => ?_)
  refine KeepsE.trans ?_ (keeps_okG _ _ _ _)
  exact Keeps.refl _

theorem keeps_execVldl (p0 : Nat) (p1 : Nat) (p2 : Nat) (s : State) : KeepsO 2274743 s (execVldl p0 p1 p2 s) := by
  unfold execVldl
  refine KeepsO.done ?_
  refine keeps_loadOp (L := 2274743) _ _ _ _ _ _ _ _ (fun u1 u2 u3 u4 => ?_)
  refine KeepsE.trans ?_ (keeps_okV _ _ _ _)
  exact Keeps.refl _

theorem keeps_execStb (p0 : Nat) (p1 : Nat) (s : State) : KeepsO 2274743 s (execStb p0 p1 s) := by
  unfold execStb
  refine KeepsO.done ?_
  refine Keeps.trans ?_ (keeps_storeOp _ _ _ _ _ _ _)
  exact Keeps.refl _

theorem keeps_execSth (p0 : Nat) (p1 : Nat) (s : State) : KeepsO 2274743 s (execSth p0 p1 s) := by
  unfold execSth
  refine KeepsO.done ?_
  refine Keeps.trans ?_ (keeps_storeOp _ _ _ _ _ _ _)
  exact Keeps.refl _

theorem keeps_execStw (p0 : Nat) (p1 : Nat) (s : State) : KeepsO 2274743 s (execStw p0 p1 s) := by
  unfold execStw
  refine KeepsO.done ?_
  refine Keeps.trans ?_ (keeps_storeOp _ _ _ _ _ _ _)
  exact Keeps.refl _

theorem keeps_execStd (p0 : Nat) (p1 : Nat) (s : State) : KeepsO 2274743 s (execStd p0 p1 s) := by
  unfold execStd
  refine KeepsO.done ?_
  refine Keeps.trans ?_ (keeps_storeOp _ _ _ _ _ _ _)
  exact Keeps.refl _

theorem keeps_execVstl (p0 : Nat) (p1 : Nat) (s : State) : KeepsO 2274743 s (execVstl p0 p1 s) := by
  unfold execVstl
  refine KeepsO.done ?_
  refine Keeps.trans ?_ (keeps_storeOp _ _ _ _ _ _ _)
  exact Keeps.refl _

end Sys2Proof.Machine
end

