-- ==== Sys2Proof/Laws/KeepsDocCtl.lean ====
section
/-! SUPPORT. What each function of Machine/DocCtl.lean leaves unchanged (the mask names the areas it may change). -/

set_option Elab.async false

namespace Sys2Proof.Machine

theorem keeps_execBrp (p0 : Nat) (p1 : Nat) (s : State) : KeepsO 2274743 s (execBrp p0 p1 s) := by
  unfold execBrp
  refine KeepsO.done ?_
  refine keeps_docRun (L := 2274743) _ _ _ _ _ _ (fun u1 u2 u3 => ?_)
  refine KeepsE.ite ?_ ?_
  · refine KeepsE.trans ?_ (keeps_jumpTo _ _ _)
    exact Keeps.refl _
  · refine KeepsE.ok ?_
    exact Keeps.refl _

theorem keeps_execJal (p0 : Nat) (p1 : Nat) (s : State) : KeepsO 2274743 s (execJal p0 p1 s) := by
  unfold execJal
  refine KeepsO.done ?_
  refine keeps_docFix (L := 2274743) _ _ _ _ _ _ (fun u1 u2 u3 => ?_)
  refine KeepsE.trans ?_ (keeps_jumpTo _ _ _)
  exact Keeps.refl _

theorem keeps_execJr (p0 : Nat) (p1 : Nat) (s : State) : KeepsO 2274743 s (execJr p0 p1 s) := by
  unfold execJr
  refine KeepsO.done ?_
  refine keeps_docFix (L := 2274743) _ _ _ _ _ _ (fun u1 u2 u3 => ?_)
  refine KeepsE.trans ?_ (keeps_jumpTo _ _ _)
  exact Keeps.refl _

theorem keeps_vldOp (s : State) (p1 : Nat) (p2 : Nat) (p3 : Nat) (p4 : Nat) (p5 : Nat) (p6 : JobCtx → Nat → Nat → JobCtx) : Keeps 2274743 s (vldOp s p1 p2 p3 p4 p5 p6) := by
  unfold vldOp
  refine keeps_docFix (L := 2274743) _ _ _ _ _ _ (fun u1 u2 u3 => ?_)
  extract_lets -underBinder -merge -useContext +onlyGivenNames x4
  try clear_value x4
  refine KeepsE.ite ?_ ?_
  · exact KeepsE.other (fun _ _ h => by cases h)
  · extract_lets -underBinder -merge -useContext +onlyGivenNames x5
    try clear_value x5
    split
    · exact KeepsE.other (fun _ _ h => by cases h)
    · refine KeepsE.ite ?_ ?_
      · exact KeepsE.other (fun _ _ h => by cases h)
      · extract_lets -underBinder -merge -useContext +onlyGivenNames x6
        try clear_value x6
        extract_lets -underBinder -merge -useContext +onlyGivenNames x7
        try clear_value x7
        extract_lets -underBinder -merge -useContext +onlyGivenNames x8
        try clear_value x8
        extract_lets -underBinder -merge -useContext +onlyGivenNames x9
        try clear_value x9
        refine KeepsE.ok ?_
        exact Keeps.refl _

theorem keeps_execVldd (p0 : Nat) (p1 : Nat) (s : State) : KeepsO 2274743 s (execVldd p0 p1 s) := by
  unfold execVldd
  refine KeepsO.done ?_
  refine Keeps.trans ?_ (keeps_vldOp _ _ _ _ _ _ _)
  exact Keeps.refl _

theorem keeps_execVldv (p0 : Nat) (p1 : Nat) (s : State) : KeepsO 2274743 s (execVldv p0 p1 s) := by
  unfold execVldv
  refine KeepsO.done ?_
  refine Keeps.trans ?_ (keeps_vldOp _ _ _ _ _ _ _)
  exact Keeps.refl _

theorem keeps_tblOp (s : State) (p1 : Nat) (p2 : Nat) (p3 : Nat) (p4 : Nat) (p5 : Nat) (p6 : JobCtx → Nat → Nat → JobCtx) : Keeps 2274743 s (tblOp s p1 p2 p3 p4 p5 p6) := by
  unfold tblOp
  refine keeps_docFix (L := 2274743) _ _ _ _ _ _ (fun u1 u2 u3 => ?_)
  extract_lets -underBinder -merge -useContext +onlyGivenNames x4
  try clear_value x4
  extract_lets -underBinder -merge -useContext +onlyGivenNames x5
  try clear_value x5
  split
  · exact KeepsE.other (fun _ _ h => by cases h)
  · refine KeepsE.ite ?_ ?_
    · exact KeepsE.other (fun _ _ h => by cases h)
    · refine KeepsE.ite ?_ ?_
      · exact KeepsE.other (fun _ _ h => by cases h)
      · refine KeepsE.ok ?_
        exact Keeps.refl _

theorem keeps_execTblw (p0 : Nat) (p1 : Nat) (s : State) : KeepsO 2274743 s (execTblw p0 p1 s) := by
  unfold execTblw
  refine KeepsO.done ?_
  refine Keeps.trans ?_ (keeps_tblOp _ _ _ _ _ _ _)
  exact Keeps.refl _

theorem keeps_execTbld (p0 : Nat) (p1 : Nat) (s : State) : KeepsO 2274743 s (execTbld p0 p1 s) := by
  unfold execTbld
  refine KeepsO.done ?_
  refine Keeps.trans ?_ (keeps_tblOp _ _ _ _ _ _ _)
  exact Keeps.refl _

theorem keeps_execTblv (p0 : Nat) (p1 : Nat) (s : State) : KeepsO 2274743 s (execTblv p0 p1 s) := by
  unfold execTblv
  refine KeepsO.done ?_
  refine Keeps.trans ?_ (keeps_tblOp _ _ _ _ _ _ _)
  exact Keeps.refl _

theorem keeps_lgaOp (s : State) (p1 : Nat) (p2 : Nat) (p3 : Nat) (p4 : JobCtx → Nat → DWord × Bool) : Keeps 2274743 s (lgaOp s p1 p2 p3 p4) := by
  unfold lgaOp
  refine keeps_docFix (L := 2274743) _ _ _ _ _ _ (fun u1 u2 u3 => ?_)
  extract_lets -underBinder -merge -useContext +onlyGivenNames x4
  try clear_value x4
  extract_lets -underBinder -merge -useContext +onlyGivenNames x5
  try clear_value x5
  extract_lets -underBinder -merge -useContext +onlyGivenNames x6
  try clear_value x6
  extract_lets -underBinder -merge -useContext +onlyGivenNames x7
  try clear_value x7
  refine KeepsE.ite ?_ ?_
  · exact KeepsE.other (fun _ _ h => by cases h)
  · extract_lets -underBinder -merge -useContext +onlyGivenNames x8
    have h8 : Keeps 2274743 u1 x8 := by
      unfold x8
      refine Keeps.ite ?_ ?_
      · refine Keeps.trans ?_ (keeps_evt _ _ _)
        refine Keeps.trans ?_ (keeps_bump _ _)
        exact Keeps.refl _
      · exact Keeps.refl _
    try clear_value x8
    refine KeepsE.ok ?_
    refine Keeps.trans ?_ (keeps_lgaPost _ _)
    assumption

theorem keeps_execLga (p0 : Nat) (p1 : Nat) (s : State) : KeepsO 2274743 s (execLga p0 p1 s) := by
  unfold execLga
  refine KeepsO.done ?_
  refine Keeps.trans ?_ (keeps_lgaOp _ _ _ _ _)
  exact Keeps.refl _

theorem keeps_execLgaf (p0 : Nat) (p1 : Nat) (s : State) : KeepsO 2274743 s (execLgaf p0 p1 s) := by
  unfold execLgaf
  refine KeepsO.done ?_
  refine Keeps.trans ?_ (keeps_lgaOp _ _ _ _ _)
  exact Keeps.refl _

theorem keeps_execLgas (p0 : Nat) (p1 : Nat) (s : State) : KeepsO 2274743 s (execLgas p0 p1 s) := by
  unfold execLgas
  refine KeepsO.done ?_
  refine Keeps.trans ?_ (keeps_lgaOp _ _ _ _ _)
  exact Keeps.refl _

theorem keeps_execRaise (p0 : Nat) (p1 : Nat) (s : State) : KeepsO 2274743 s (execRaise p0 p1 s) := by
  unfold execRaise
  refine KeepsO.done ?_
  refine keeps_docFix (L := 2274743) _ _ _ _ _ _ (fun u1 u2 u3 => ?_)
  refine KeepsE.ite ?_ ?_
  · refine KeepsE.ok ?_
    refine Keeps.trans ?_ (keeps_evt _ _ _)
    refine Keeps.trans ?_ (keeps_bump _ _)
    exact Keeps.refl _
  · extract_lets -underBinder -merge -useContext +onlyGivenNames x4
    try clear_value x4
    refine KeepsE.ok ?_
    refine Keeps.upd (t := u1) ?_ rfl rfl rfl (Nat.le_refl _)
    exact Keeps.refl _

theorem keeps_execNop (p0 : Nat) (p1 : Nat) (s : State) : KeepsO 2274743 s (execNop p0 p1 s) := by
  unfold execNop
  refine KeepsO.done ?_
  refine keeps_docFix (L := 2274743) _ _ _ _ _ _ (fun u1 u2 u3 => ?_)
  refine KeepsE.ok ?_
  exact Keeps.refl _

theorem keeps_execYield (p0 : Nat) (p1 : Nat) (s : State) : KeepsO 2274743 s (execYield p0 p1 s) := by
  unfold execYield
  refine KeepsO.done ?_
  refine keeps_docFix (L := 2274743) _ _ _ _ _ _ (fun u1 u2 u3 => ?_)
  exact KeepsE.other (fun _ _ h => by cases h)

theorem keeps_execDone (p0 : Nat) (p1 : Nat) (s : State) : KeepsO 2274743 s (execDone p0 p1 s) := by
  unfold execDone
  refine KeepsO.done ?_
  refine keeps_docFix (L := 2274743) _ _ _ _ _ _ (fun u1 u2 u3 => ?_)
  exact KeepsE.other (fun _ _ h => by cases h)

theorem keeps_execFence (p0 : Nat) (p1 : Nat) (s : State) : KeepsO 2274743 s (execFence p0 p1 s) := by
  unfold execFence
  refine KeepsO.done ?_
  refine keeps_docFix (L := 2274743) _ _ _ _ _ _ (fun u1 u2 u3 => ?_)
  refine KeepsE.ite ?_ ?_
  · exact KeepsE.other (fun _ _ h => by cases h)
  · refine KeepsE.ok ?_
    exact Keeps.refl _

theorem keeps_execAbort (p0 : Nat) (p1 : Nat) (s : State) : KeepsO 2274743 s (execAbort p0 p1 s) := by
  unfold execAbort
  refine KeepsO.done ?_
  refine keeps_docFix (L := 2274743) _ _ _ _ _ _ (fun u1 u2 u3 => ?_)
  exact KeepsE.other (fun _ _ h => by cases h)

theorem keeps_execRdsys (p0 : Nat) (p1 : Nat) (s : State) : KeepsO 2274743 s (execRdsys p0 p1 s) := by
  unfold execRdsys
  refine KeepsO.done ?_
  refine keeps_docFix (L := 2274743) _ _ _ _ _ _ (fun u1 u2 u3 => ?_)
  refine KeepsE.trans ?_ (keeps_okG _ _ _ _)
  exact Keeps.refl _

theorem keeps_execIllegalInstruction (p0 : Nat) (p1 : Nat) (s : State) : KeepsO 2274743 s (execIllegalInstruction p0 p1 s) := by
  unfold execIllegalInstruction
  refine KeepsO.done ?_
  refine Keeps.trans ?_ (keeps_docIllegal _ _ _)
  exact Keeps.refl _

theorem keeps_latchWords (s : State) (p1 : Nat) (p2 : Nat) (p3 : SMap Word) : Keeps 2 s (latchWords s p1 p2 p3) := by
  unfold latchWords
  refine Keeps.upd (t := s) ?_ rfl rfl rfl (Nat.le_refl _)
  exact Keeps.refl _

theorem keeps_dramWinRead (s : State) (p1 : Nat) (p2 : Nat) (p3 : Nat) : KeepsF 7 s (dramWinRead s p1 p2 p3) := by
  unfold dramWinRead
  extract_lets -underBinder -merge -useContext +onlyGivenNames x1
  try clear_value x1
  refine KeepsF.ite ?_ ?_
  · refine KeepsF.mk ?_
    refine Keeps.trans ?_ (keeps_refuse _ _ _)
    exact Keeps.refl _
  · extract_lets -underBinder -merge -useContext +onlyGivenNames x2
    try clear_value x2
    extract_lets -underBinder -merge -useContext +onlyGivenNames x3
    have h3 : Keeps 7 s x3 := by
      unfold x3
      refine Keeps.ite ?_ ?_
      · refine Keeps.trans ?_ (keeps_memCorrected _)
        exact Keeps.refl _
      · refine Keeps.ite ?_ ?_
        · refine Keeps.trans ?_ (keeps_memFailed _)
          exact Keeps.refl _
        · exact Keeps.refl _
    try clear_value x3
    extract_lets -underBinder -merge -useContext +onlyGivenNames x4
    have h4 : Keeps 7 s x4 := by
      unfold x4
      refine Keeps.trans ?_ (keeps_setRegN _ _ _)
      assumption
    try clear_value x4
    refine KeepsF.mk ?_
    refine Keeps.trans ?_ (keeps_latchWords _ _ _ _)
    assumption

theorem keeps_dramWinWrite (s : State) (p1 : Nat) (p2 : Word) : Keeps 4097 s (dramWinWrite s p1 p2) := by
  unfold dramWinWrite
  extract_lets -underBinder -merge -useContext +onlyGivenNames x1
  try clear_value x1
  refine Keeps.ite ?_ ?_
  · refine Keeps.trans ?_ (keeps_refuse _ _ _)
    exact Keeps.refl _
  · refine Keeps.ite ?_ ?_
    · refine Keeps.trans ?_ (keeps_refuse _ _ _)
      exact Keeps.refl _
    · extract_lets -underBinder -merge -useContext +onlyGivenNames x2
      have h2 : Keeps 4097 s x2 := by
        unfold x2
        refine Keeps.trans ?_ (keeps_dramWrite _ _ _ _ _)
        exact Keeps.refl _
      try clear_value x2
      refine Keeps.trans ?_ (keeps_setRegN _ _ _)
      assumption

theorem keeps_iramWinRead (s : State) (p1 : Nat) (p2 : Nat) : KeepsF 7 s (iramWinRead s p1 p2) := by
  unfold iramWinRead
  extract_lets -underBinder -merge -useContext +onlyGivenNames x1
  try clear_value x1
  refine KeepsF.ite ?_ ?_
  · refine KeepsF.mk ?_
    refine Keeps.trans ?_ (keeps_refuse _ _ _)
    exact Keeps.refl _
  · extract_lets -underBinder -merge -useContext +onlyGivenNames x2
    have h2 : Keeps 7 s x2 := by
      unfold x2
      refine Keeps.ite ?_ ?_
      · refine Keeps.trans ?_ (keeps_memCorrected _)
        exact Keeps.refl _
      · refine Keeps.ite ?_ ?_
        · refine Keeps.trans ?_ (keeps_memFailed _)
          exact Keeps.refl _
        · exact Keeps.refl _
    try clear_value x2
    refine KeepsF.mk ?_
    refine Keeps.trans ?_ (keeps_setRegN _ _ _)
    assumption

theorem keeps_execDramWindowRead (p0 : Nat) (p1 : Nat) (p2 : Nat) (s : State) : KeepsO 7 s (execDramWindowRead p0 p1 p2 s) := by
  unfold execDramWindowRead
  refine KeepsO.done ?_
  extract_lets -underBinder -merge -useContext +onlyGivenNames x1
  have h1 : KeepsF 7 s x1 := by
    unfold x1
    refine KeepsF.trans ?_ (keeps_dramWinRead _ _ _ _)
    exact Keeps.refl _
  try clear_value x1
  refine Keeps.trans ?_ (keeps_respond _ _)
  refine KeepsF.snd ?_
  assumption

theorem keeps_execDramWindowWrite (p0 : Nat) (p1 : Word) (s : State) : KeepsO 4097 s (execDramWindowWrite p0 p1 s) := by
  unfold execDramWindowWrite
  refine KeepsO.done ?_
  refine Keeps.trans ?_ (keeps_dramWinWrite _ _ _)
  exact Keeps.refl _

theorem keeps_execIramWindowRead (p0 : Nat) (p1 : Nat) (s : State) : KeepsO 7 s (execIramWindowRead p0 p1 s) := by
  unfold execIramWindowRead
  refine KeepsO.done ?_
  extract_lets -underBinder -merge -useContext +onlyGivenNames x1
  have h1 : KeepsF 7 s x1 := by
    unfold x1
    refine KeepsF.trans ?_ (keeps_iramWinRead _ _ _)
    exact Keeps.refl _
  try clear_value x1
  refine Keeps.trans ?_ (keeps_respond _ _)
  refine KeepsF.snd ?_
  assumption

theorem keeps_execBackgroundScrub (p0 : Nat) (p1 : Nat) (s : State) : KeepsO 7 s (execBackgroundScrub p0 p1 s) := by
  unfold execBackgroundScrub
  refine KeepsO.done ?_
  extract_lets -underBinder -merge -useContext +onlyGivenNames x1
  try clear_value x1
  refine Keeps.ite ?_ ?_
  · refine Keeps.trans ?_ (keeps_memCorrected _)
    exact Keeps.refl _
  · exact Keeps.refl _

theorem keeps_placeJob (s : State) (p1 : Nat) (p2 : Job) : Keeps 4097 s (placeJob s p1 p2) := by
  unfold placeJob
  extract_lets -underBinder -merge -useContext +onlyGivenNames x1
  try clear_value x1
  extract_lets -underBinder -merge -useContext +onlyGivenNames x2
  try clear_value x2
  extract_lets -underBinder -merge -useContext +onlyGivenNames x3
  have h3 : Keeps 4097 s x3 := by
    unfold x3
    refine Keeps.trans ?_ (keeps_setDocent _ _ _)
    exact Keeps.refl _
  try clear_value x3
  extract_lets -underBinder -merge -useContext +onlyGivenNames x4
  try clear_value x4
  refine Keeps.ite ?_ ?_
  · refine Keeps.trans ?_ (keeps_setRegN _ _ _)
    assumption
  · assumption

theorem keeps_execJobPlace (s : State) : KeepsO 6145 s (execJobPlace s) := by
  unfold execJobPlace
  refine KeepsO.done ?_
  refine Keeps.ite ?_ ?_
  · exact Keeps.refl _
  · split
    · exact Keeps.refl _
    · refine Keeps.trans ?_ (keeps_placeJob _ _ _)
      refine Keeps.trans ?_ (keeps_setLevel _ _ _)
      exact Keeps.refl _

end Sys2Proof.Machine
end

