-- ==== Sys2Proof/Laws/KeepsDispatchCmds.lean ====
section
/-! SUPPORT. What each function of Machine/DispatchCmds.lean leaves unchanged (the mask names the areas it may change). -/

set_option Elab.async false

namespace Sys2Proof.Machine

theorem keeps_accDiscard (s : State) (p1 : Nat) (p2 : Nat) (p3 : Nat) (p4 : Nat) (p5 : Nat) (p6 : Nat) : Keeps 5 s (accDiscard s p1 p2 p3 p4 p5 p6) := by
  unfold accDiscard
  refine Keeps.trans ?_ (keeps_lastDiscard _ _ _ _ _ _ _)
  refine Keeps.trans ?_ (keeps_bump _ _)
  exact Keeps.refl _

theorem keeps_levelEval (s : State) (p1 : Nat) : Keeps 2055 s (levelEval s p1) := by
  unfold levelEval
  refine Keeps.trans ?_ (keeps_clearFull _ _ _)
  exact Keeps.refl _

theorem keeps_execEventFifoRaise (p0 : Nat) (s : State) : KeepsO 2132135 s (execEventFifoRaise p0 s) := by
  unfold execEventFifoRaise
  refine KeepsO.done ?_
  refine Keeps.ite ?_ ?_
  · exact Keeps.refl _
  · split
    · exact Keeps.refl _
    · refine Keeps.trans ?_ (keeps_levelEval _ _)
      refine Keeps.trans ?_ (keeps_enterJob _ _)
      refine Keeps.upd (t := s) ?_ rfl rfl rfl (Nat.le_refl _)
      exact Keeps.refl _

theorem keeps_timerEnter (s : State) (p1 : Nat) (p2 : Nat) (p3 : Nat) (p4 : Nat) : Keeps 2132135 s (timerEnter s p1 p2 p3 p4) := by
  unfold timerEnter
  refine Keeps.trans ?_ (keeps_enterJob _ _)
  refine Keeps.trans ?_ (keeps_bump _ _)
  exact Keeps.refl _

theorem keeps_timersFrom (s : State) (p1 : Plan) (p2 : Int) : Keeps 2048 s (timersFrom s p1 p2) := by
  unfold timersFrom
  refine Keeps.foldl ?_ (fun y1 a1 hy1 => ?_)
  · exact Keeps.refl _
  · split
    · refine Keeps.upd (t := y1) ?_ rfl rfl rfl (Nat.le_refl _)
      assumption
    · assumption

theorem keeps_execTimerFire (p0 : Nat) (s : State) : KeepsO 2132135 s (execTimerFire p0 s) := by
  unfold execTimerFire
  refine KeepsO.done ?_
  split
  · extract_lets -underBinder -merge -useContext +onlyGivenNames x1
    try clear_value x1
    refine Keeps.ite ?_ ?_
    · exact Keeps.refl _
    · extract_lets -underBinder -merge -useContext +onlyGivenNames x2
      extract_lets -underBinder -merge -useContext +onlyGivenNames x3
      have h3 : Keeps 2132135 s x3 := by
        unfold x3
        refine Keeps.upd (t := s) ?_ rfl rfl rfl (Nat.le_refl _)
        exact Keeps.refl _
      try clear_value x3
      refine Keeps.ite ?_ ?_
      · assumption
      · refine Keeps.ite ?_ ?_
        · refine Keeps.trans ?_ (keeps_bump _ _)
          assumption
        · refine Keeps.ite ?_ ?_
          · refine Keeps.trans ?_ (keeps_logEvent _ _ _ _)
            refine Keeps.trans ?_ (keeps_evt _ _ _)
            refine Keeps.trans ?_ (keeps_bump _ _)
            assumption
          · refine Keeps.ite ?_ ?_
            · refine Keeps.trans ?_ (keeps_timerEnter _ _ _ _ _)
              assumption
            · refine Keeps.trans ?_ (keeps_markFull _ _)
              refine Keeps.upd (t := x3) ?_ rfl rfl rfl (Nat.le_refl _)
              assumption
  · exact Keeps.refl _

theorem keeps_execTimerPendingRaise (p0 : Nat) (s : State) : KeepsO 2132135 s (execTimerPendingRaise p0 s) := by
  unfold execTimerPendingRaise
  refine KeepsO.done ?_
  refine Keeps.ite ?_ ?_
  · exact Keeps.refl _
  · split
    · split
      · refine Keeps.trans ?_ (keeps_levelEval _ _)
        refine Keeps.trans ?_ (keeps_timerEnter _ _ _ _ _)
        refine Keeps.upd (t := s) ?_ rfl rfl rfl (Nat.le_refl _)
        exact Keeps.refl _
      · exact Keeps.refl _
    · exact Keeps.refl _

theorem keeps_execHeldHiashJobRaise (p0 : Nat) (s : State) : KeepsO 2132135 s (execHeldHiashJobRaise p0 s) := by
  unfold execHeldHiashJobRaise
  refine KeepsO.done ?_
  refine Keeps.ite ?_ ?_
  · exact Keeps.refl _
  · split
    · exact Keeps.refl _
    · refine Keeps.trans ?_ (keeps_levelEval _ _)
      refine Keeps.trans ?_ (keeps_enterJob _ _)
      refine Keeps.upd (t := s) ?_ rfl rfl rfl (Nat.le_refl _)
      exact Keeps.refl _

theorem keeps_landHeld (s : State) (p1 : Landing) : Keeps 2338743 s (landHeld s p1) := by
  unfold landHeld
  extract_lets -underBinder -merge -useContext +onlyGivenNames x1
  have h1 : Keeps 2338743 s x1 := by
    unfold x1
    refine Keeps.trans ?_ (keeps_lapsePast _)
    exact Keeps.refl _
  try clear_value x1
  extract_lets -underBinder -merge -useContext +onlyGivenNames x2
  try clear_value x2
  refine Keeps.ite ?_ ?_
  · refine Keeps.trans ?_ (keeps_accDiscard _ _ _ _ _ _ _)
    assumption
  · refine Keeps.trans ?_ (keeps_landFrame _ _)
    assumption

theorem keeps_nextLocalOf (s : State) (p1 : Nat) (p2 : List Landing) : Keeps 2338743 s (nextLocalOf s p1 p2) := by
  induction p2 generalizing s with
  | nil =>
    refine Keeps.upd (t := s) ?_ rfl rfl rfl (Nat.le_refl _)
    exact Keeps.refl _
  | cons l r ih =>
    unfold nextLocalOf
    extract_lets -underBinder -merge -useContext +onlyGivenNames c
    clear_value c
    refine Keeps.ite ?_ ?_
    · exact Keeps.trans (keeps_accDiscard ..).mono (ih _)
    · refine Keeps.trans ?_ (keeps_reserveLand ..)
      refine Keeps.upd (t := s) ?_ rfl rfl rfl (Nat.le_refl _)
      exact Keeps.refl _

theorem keeps_nextLocal (s : State) (p1 : Nat) : Keeps 2338743 s (nextLocal s p1) := by
  unfold nextLocal
  refine Keeps.trans ?_ (keeps_nextLocalOf _ _ _)
  exact Keeps.refl _

theorem keeps_heldCells (s : State) (p1 : Nat) : Keeps 167 s (heldCells s p1) := by
  unfold heldCells
  refine Keeps.ite ?_ ?_
  · refine Keeps.trans ?_ (keeps_consumerRelease _ _ _)
    exact Keeps.refl _
  · exact Keeps.refl _

theorem keeps_laneNext (s : State) (p1 : Landing) : Keeps 2055 s (laneNext s p1) := by
  unfold laneNext
  split
  · refine Keeps.ite ?_ ?_
    · exact Keeps.refl _
    · refine Keeps.trans ?_ (keeps_markFull _ _)
      exact Keeps.refl _
  · exact Keeps.refl _

theorem keeps_execHeldLandingCommit (p0 : Nat) (s : State) : KeepsO 2338743 s (execHeldLandingCommit p0 s) := by
  unfold execHeldLandingCommit
  refine KeepsO.done ?_
  refine Keeps.ite ?_ ?_
  · exact Keeps.refl _
  · split
    · exact Keeps.refl _
    · extract_lets -underBinder -merge -useContext +onlyGivenNames x1
      extract_lets -underBinder -merge -useContext +onlyGivenNames x2
      have h2 : Keeps 2338743 s x2 := by
        unfold x2
        refine Keeps.trans ?_ (keeps_heldCells _ _)
        refine Keeps.trans ?_ (keeps_landHeld _ _)
        refine Keeps.upd (t := s) ?_ rfl rfl rfl (Nat.le_refl _)
        exact Keeps.refl _
      try clear_value x2
      extract_lets -underBinder -merge -useContext +onlyGivenNames x3
      have h3 : Keeps 2338743 s x3 := by
        unfold x3
        refine Keeps.ite ?_ ?_
        · refine Keeps.trans ?_ (keeps_nextLocal _ _)
          assumption
        · assumption
      try clear_value x3
      refine Keeps.trans ?_ (keeps_levelEval _ _)
      refine Keeps.trans ?_ (keeps_laneNext _ _)
      assumption

theorem keeps_doorbellRefuse (s : State) (p1 : Nat) (p2 : Nat) (p3 : Nat) : Keeps 7 s (doorbellRefuse s p1 p2 p3) := by
  unfold doorbellRefuse
  refine Keeps.trans ?_ (keeps_evt _ _ _)
  refine Keeps.trans ?_ (keeps_bump _ _)
  refine Keeps.trans ?_ (keeps_refuse _ _ _)
  refine Keeps.trans ?_ (keeps_setRegN _ _ _)
  exact Keeps.refl _

theorem keeps_doorbellRing (s : State) (p1 : Nat) (p2 : Nat) : Keeps 2132135 s (doorbellRing s p1 p2) := by
  unfold doorbellRing
  refine Keeps.ite ?_ ?_
  · refine Keeps.trans ?_ (keeps_doorbellRefuse _ _ _ _)
    exact Keeps.refl _
  · extract_lets -underBinder -merge -useContext +onlyGivenNames x1
    try clear_value x1
    refine Keeps.ite ?_ ?_
    · extract_lets -underBinder -merge -useContext +onlyGivenNames x2
      have h2 : Keeps 2132135 s x2 := by
        unfold x2
        refine Keeps.trans ?_ (keeps_setRegN _ _ _)
        exact Keeps.refl _
      try clear_value x2
      split
      · refine Keeps.trans ?_ (keeps_enterJob _ _)
        assumption
      · assumption
    · refine Keeps.trans ?_ (keeps_doorbellRefuse _ _ _ _)
      exact Keeps.refl _

theorem keeps_execDoorbell (p0 : Nat) (p1 : Nat) (s : State) : KeepsO 2132135 s (execDoorbell p0 p1 s) := by
  unfold execDoorbell
  refine KeepsO.done ?_
  refine Keeps.trans ?_ (keeps_doorbellRing _ _ _)
  exact Keeps.refl _

theorem keeps_swapDiscard (s : State) (p1 : Nat) : Keeps 2055 s (swapDiscard s p1) := by
  unfold swapDiscard
  extract_lets -underBinder -merge -useContext +onlyGivenNames x1
  try clear_value x1
  extract_lets -underBinder -merge -useContext +onlyGivenNames x2
  try clear_value x2
  extract_lets -underBinder -merge -useContext +onlyGivenNames x3
  have h3 : Keeps 2055 s x3 := by
    unfold x3
    refine Keeps.foldl ?_ (fun y4 a4 hy4 => ?_)
    · exact Keeps.refl _
    · refine Keeps.trans ?_ (keeps_setLevel _ _ _)
      assumption
  try clear_value x3
  extract_lets -underBinder -merge -useContext +onlyGivenNames x5
  extract_lets -underBinder -merge -useContext +onlyGivenNames x6
  have h6 : Keeps 2055 s x6 := by
    unfold x6
    refine Keeps.upd (t := x3) ?_ rfl rfl rfl (Nat.le_refl _)
    assumption
  try clear_value x6
  refine Keeps.trans ?_ (keeps_bumpBy _ _ _)
  refine Keeps.foldl ?_ (fun y7 a7 hy7 => ?_)
  · assumption
  · refine Keeps.trans ?_ (keeps_levelEval _ _)
    assumption

end Sys2Proof.Machine
end

