-- ==== Sys2Proof/Laws/KeepsEthernet.lean ====
section
/-! SUPPORT. What each function of Machine/Ethernet.lean leaves unchanged (the mask names the areas it may change). -/

set_option Elab.async false

namespace Sys2Proof.Machine

theorem keeps_ethEvt (s : State) (p1 : Nat) (p2 : Nat) : Keeps 7 s (ethEvt s p1 p2) := by
  unfold ethEvt
  refine Keeps.trans ?_ (keeps_evt _ _ _)
  exact Keeps.refl _

theorem keeps_addOctets (s : State) (p1 : Nat) (p2 : Nat) : Keeps 1 s (addOctets s p1 p2) := by
  unfold addOctets
  refine Keeps.trans ?_ (keeps_setReg64 _ _ _ _)
  exact Keeps.refl _

theorem keeps_rxFree (s : State) (p1 : Nat) : Keeps 167 s (rxFree s p1) := by
  unfold rxFree
  split
  · exact Keeps.refl _
  · extract_lets -underBinder -merge -useContext +onlyGivenNames x1
    extract_lets -underBinder -merge -useContext +onlyGivenNames x2
    have h2 : Keeps 167 s x2 := by
      unfold x2
      refine Keeps.trans ?_ (keeps_setPort _ _ _)
      exact Keeps.refl _
    try clear_value x2
    refine Keeps.ite ?_ ?_
    · assumption
    · refine Keeps.trans ?_ (keeps_releaseCells _ _ _)
      assumption

theorem keeps_ethDisabled (s : State) (p1 : Nat) : Keeps 167 s (ethDisabled s p1) := by
  unfold ethDisabled
  extract_lets -underBinder -merge -useContext +onlyGivenNames x1
  have h1 : Keeps 167 s x1 := by
    unfold x1
    refine Keeps.trans ?_ (keeps_rxFree _ _)
    exact Keeps.refl _
  try clear_value x1
  refine Keeps.trans ?_ (keeps_setPort _ _ _)
  assumption

theorem keeps_saAdvance (s : State) (p1 : Nat) : Keeps 135 s (saAdvance s p1) := by
  unfold saAdvance
  extract_lets -underBinder -merge -useContext +onlyGivenNames x1
  try clear_value x1
  extract_lets -underBinder -merge -useContext +onlyGivenNames x2
  have h2 : Keeps 135 s x2 := by
    unfold x2
    refine Keeps.trans ?_ (keeps_setPort _ _ _)
    exact Keeps.refl _
  try clear_value x2
  refine Keeps.trans ?_ (keeps_logEvent _ _ _ _)
  refine Keeps.trans ?_ (keeps_ethEvt _ _ _)
  refine Keeps.trans ?_ (keeps_bump _ _)
  refine Keeps.trans ?_ (keeps_bump _ _)
  assumption

theorem keeps_wireOf (s : State) (p1 : Nat) (p2 : List Byte) : KeepsF 135 s (wireOf s p1 p2) := by
  unfold wireOf
  extract_lets -underBinder -merge -useContext +onlyGivenNames x1
  try clear_value x1
  refine KeepsF.ite ?_ ?_
  · refine KeepsF.mk ?_
    exact Keeps.refl _
  · extract_lets -underBinder -merge -useContext +onlyGivenNames x2
    have h2 : Keeps 135 s x2 := by
      unfold x2
      refine Keeps.ite ?_ ?_
      · refine Keeps.trans ?_ (keeps_saAdvance _ _)
        exact Keeps.refl _
      · exact Keeps.refl _
    try clear_value x2
    extract_lets -underBinder -merge -useContext +onlyGivenNames x3
    try clear_value x3
    split
    · refine KeepsF.mk ?_
      assumption
    · extract_lets -underBinder -merge -useContext +onlyGivenNames x4
      try clear_value x4
      extract_lets -underBinder -merge -useContext +onlyGivenNames x5
      try clear_value x5
      extract_lets -underBinder -merge -useContext +onlyGivenNames x6
      try clear_value x6
      extract_lets -underBinder -merge -useContext +onlyGivenNames x7
      try clear_value x7
      extract_lets -underBinder -merge -useContext +onlyGivenNames x8
      try clear_value x8
      extract_lets -underBinder -merge -useContext +onlyGivenNames x9
      try clear_value x9
      extract_lets -underBinder -merge -useContext +onlyGivenNames x10
      try clear_value x10
      extract_lets -underBinder -merge -useContext +onlyGivenNames x11
      try clear_value x11
      extract_lets -underBinder -merge -useContext +onlyGivenNames x12
      try clear_value x12
      extract_lets -underBinder -merge -useContext +onlyGivenNames x13
      have h13 : Keeps 135 s x13 := by
        unfold x13
        refine Keeps.trans ?_ (keeps_setPort _ _ _)
        assumption
      try clear_value x13
      extract_lets -underBinder -merge -useContext +onlyGivenNames x14
      try clear_value x14
      refine KeepsF.mk ?_
      refine Keeps.ite ?_ ?_
      · refine Keeps.trans ?_ (keeps_saAdvance _ _)
        assumption
      · assumption

theorem keeps_pauseSet (s : State) (p1 : Nat) (p2 : Option Nat) (p3 : Option Nat) : Keeps 133 s (pauseSet s p1 p2 p3) := by
  unfold pauseSet
  extract_lets -underBinder -merge -useContext +onlyGivenNames x1
  have h1 : Keeps 133 s x1 := by
    unfold x1
    refine Keeps.trans ?_ (keeps_bump _ _)
    exact Keeps.refl _
  try clear_value x1
  refine Keeps.ite ?_ ?_
  · assumption
  · extract_lets -underBinder -merge -useContext +onlyGivenNames x2
    try clear_value x2
    extract_lets -underBinder -merge -useContext +onlyGivenNames x3
    try clear_value x3
    extract_lets -underBinder -merge -useContext +onlyGivenNames x4
    try clear_value x4
    refine Keeps.trans ?_ (keeps_setPort _ _ _)
    assumption

theorem keeps_pfcSet (s : State) (p1 : Nat) (p2 : Nat) (p3 : List Nat) : Keeps 133 s (pfcSet s p1 p2 p3) := by
  unfold pfcSet
  extract_lets -underBinder -merge -useContext +onlyGivenNames x1
  try clear_value x1
  refine Keeps.trans ?_ (keeps_pauseSet _ _ _ _)
  exact Keeps.refl _

theorem keeps_macControl (s : State) (p1 : Nat) (p2 : List Byte) : Keeps 133 s (macControl s p1 p2) := by
  unfold macControl
  refine Keeps.ite ?_ ?_
  · refine Keeps.trans ?_ (keeps_pauseSet _ _ _ _)
    exact Keeps.refl _
  · refine Keeps.ite ?_ ?_
    · refine Keeps.trans ?_ (keeps_pfcSet _ _ _ _)
      exact Keeps.refl _
    · exact Keeps.refl _

theorem keeps_rxWhole (s : State) (p1 : Nat) (p2 : Nat) (p3 : RxFrag) : Keeps 167 s (rxWhole s p1 p2 p3) := by
  unfold rxWhole
  extract_lets -underBinder -merge -useContext +onlyGivenNames x1
  have h1 : ∀ z2, Keeps 167 z2 (x1 z2) := by
    intro z2
    unfold x1
    refine Keeps.ite ?_ ?_
    · exact Keeps.refl _
    · refine Keeps.trans ?_ (keeps_releaseCells _ _ _)
      exact Keeps.refl _
  try clear_value x1
  refine Keeps.ite ?_ ?_
  · refine Keeps.trans ?_ (keeps_macControl _ _ _)
    refine Keeps.trans ?_ (h1 ..)
    exact Keeps.refl _
  · refine Keeps.ite ?_ ?_
    · refine Keeps.trans ?_ (keeps_bump _ _)
      refine Keeps.trans ?_ (h1 ..)
      exact Keeps.refl _
    · split
      · refine Keeps.trans ?_ (keeps_bump _ _)
        refine Keeps.trans ?_ (h1 ..)
        exact Keeps.refl _
      · extract_lets -underBinder -merge -useContext +onlyGivenNames x3
        have h3 : Keeps 167 s x3 := by
          unfold x3
          refine Keeps.trans ?_ (keeps_setPort _ _ _)
          exact Keeps.refl _
        try clear_value x3
        extract_lets -underBinder -merge -useContext +onlyGivenNames x4
        try clear_value x4
        refine Keeps.ite ?_ ?_
        · extract_lets -underBinder -merge -useContext +onlyGivenNames x5
          have h5 : Keeps 167 s x5 := by
            unfold x5
            refine Keeps.trans ?_ (keeps_addOctets _ _ _)
            refine Keeps.trans ?_ (keeps_bump _ _)
            assumption
          try clear_value x5
          extract_lets -underBinder -merge -useContext +onlyGivenNames x6
          have h6 : Keeps 167 s x6 := by
            unfold x6
            refine Keeps.ite ?_ ?_
            · refine Keeps.trans ?_ (keeps_releaseCells _ _ _)
              assumption
            · refine Keeps.ite ?_ ?_
              · refine Keeps.trans ?_ (keeps_takeCells _ _ _)
                assumption
              · assumption
          try clear_value x6
          refine Keeps.trans ?_ (keeps_linkPacket _ _ _)
          assumption
        · refine Keeps.trans ?_ (keeps_bump _ _)
          refine Keeps.trans ?_ (keeps_bump _ _)
          refine Keeps.trans ?_ (h1 ..)
          assumption

theorem keeps_rxFail (s : State) (p1 : Nat) (p2 : Nat) (p3 : Nat) : Keeps 167 s (rxFail s p1 p2 p3) := by
  unfold rxFail
  extract_lets -underBinder -merge -useContext +onlyGivenNames x1
  have h1 : Keeps 167 s x1 := by
    unfold x1
    refine Keeps.trans ?_ (keeps_bump _ _)
    exact Keeps.refl _
  try clear_value x1
  refine Keeps.ite ?_ ?_
  · assumption
  · extract_lets -underBinder -merge -useContext +onlyGivenNames x2
    have h2 : Keeps 167 s x2 := by
      unfold x2
      refine Keeps.trans ?_ (keeps_rxFree _ _)
      assumption
    try clear_value x2
    extract_lets -underBinder -merge -useContext +onlyGivenNames x3
    try clear_value x3
    refine Keeps.ite ?_ ?_
    · assumption
    · refine Keeps.trans ?_ (keeps_setPort _ _ _)
      assumption

theorem keeps_rxKeep (s : State) (p1 : Nat) (p2 : RxFrag) : Keeps 167 s (rxKeep s p1 p2) := by
  unfold rxKeep
  extract_lets -underBinder -merge -useContext +onlyGivenNames x1
  try clear_value x1
  extract_lets -underBinder -merge -useContext +onlyGivenNames x2
  try clear_value x2
  extract_lets -underBinder -merge -useContext +onlyGivenNames x3
  try clear_value x3
  extract_lets -underBinder -merge -useContext +onlyGivenNames x4
  have h4 : Keeps 167 s x4 := by
    unfold x4
    refine Keeps.ite ?_ ?_
    · refine Keeps.trans ?_ (keeps_takeCells _ _ _)
      exact Keeps.refl _
    · exact Keeps.refl _
  try clear_value x4
  extract_lets -underBinder -merge -useContext +onlyGivenNames x5
  try clear_value x5
  refine Keeps.trans ?_ (keeps_bump _ _)
  refine Keeps.trans ?_ (keeps_setPort _ _ _)
  assumption

theorem keeps_rxUnfinished (s : State) (p1 : Nat) : Keeps 167 s (rxUnfinished s p1) := by
  unfold rxUnfinished
  split
  · exact Keeps.refl _
  · refine Keeps.ite ?_ ?_
    · refine Keeps.trans ?_ (keeps_rxFree _ _)
      exact Keeps.refl _
    · refine Keeps.trans ?_ (keeps_bump _ _)
      refine Keeps.trans ?_ (keeps_rxFree _ _)
      exact Keeps.refl _

theorem keeps_rxPart (s : State) (p1 : Nat) (p2 : Nat) (p3 : Nat) (p4 : Nat) (p5 : Nat) (p6 : Nat) (p7 : Nat) (p8 : List Byte) : Keeps 167 s (rxPart s p1 p2 p3 p4 p5 p6 p7 p8) := by
  unfold rxPart
  extract_lets -underBinder -merge -useContext +onlyGivenNames x1
  try clear_value x1
  extract_lets -underBinder -merge -useContext +onlyGivenNames x2
  try clear_value x2
  refine Keeps.ite ?_ ?_
  · refine Keeps.ite ?_ ?_
    · refine Keeps.trans ?_ (keeps_rxFail _ _ _ _)
      exact Keeps.refl _
    · refine Keeps.ite ?_ ?_
      · refine Keeps.trans ?_ (keeps_rxWhole _ _ _ _)
        exact Keeps.refl _
      · refine Keeps.trans ?_ (keeps_rxKeep _ _ _)
        exact Keeps.refl _
  · split
    · refine Keeps.trans ?_ (keeps_bump _ _)
      exact Keeps.refl _
    · extract_lets -underBinder -merge -useContext +onlyGivenNames x3
      try clear_value x3
      refine Keeps.ite ?_ ?_
      · refine Keeps.trans ?_ (keeps_rxFail _ _ _ _)
        exact Keeps.refl _
      · refine Keeps.ite ?_ ?_
        · refine Keeps.trans ?_ (keeps_rxFail _ _ _ _)
          exact Keeps.refl _
        · refine Keeps.ite ?_ ?_
          · refine Keeps.trans ?_ (keeps_rxKeep _ _ _)
            exact Keeps.refl _
          · refine Keeps.trans ?_ (keeps_rxWhole _ _ _ _)
            refine Keeps.trans ?_ (keeps_setPort _ _ _)
            exact Keeps.refl _

theorem keeps_execFrameReceive (p0 : Nat) (p1 : Nat) (p2 : Nat) (p3 : Nat) (p4 : FragMarks) (p5 : Nat) (p6 : Nat) (p7 : List Byte) (s : State) : KeepsO 167 s (execFrameReceive p0 p1 p2 p3 p4 p5 p6 p7 s) := by
  unfold execFrameReceive
  refine KeepsO.done ?_
  refine Keeps.ite ?_ ?_
  · exact Keeps.refl _
  · refine Keeps.ite ?_ ?_
    · refine Keeps.trans ?_ (keeps_setPort _ _ _)
      exact Keeps.refl _
    · extract_lets -underBinder -merge -useContext +onlyGivenNames x1
      have h1 : Keeps 167 s x1 := by
        unfold x1
        refine Keeps.ite ?_ ?_
        · refine Keeps.trans ?_ (keeps_rxUnfinished _ _)
          exact Keeps.refl _
        · exact Keeps.refl _
      try clear_value x1
      extract_lets -underBinder -merge -useContext +onlyGivenNames x2
      try clear_value x2
      refine Keeps.ite ?_ ?_
      · refine Keeps.ite ?_ ?_
        · refine Keeps.trans ?_ (keeps_rxFree _ _)
          assumption
        · assumption
      · split
        · refine Keeps.trans ?_ (keeps_rxFail _ _ _ _)
          assumption
        · refine Keeps.trans ?_ (keeps_rxPart _ _ _ _ _ _ _ _ _)
          assumption

theorem keeps_setTx (s : State) (p1 : Nat) (p2 : Nat) (p3 : Option TxPart) : Keeps 128 s (setTx s p1 p2 p3) := by
  unfold setTx
  refine Keeps.trans ?_ (keeps_setPort _ _ _)
  exact Keeps.refl _

theorem keeps_dropTx (s : State) (p1 : Nat) (p2 : Nat) : Keeps 167 s (dropTx s p1 p2) := by
  unfold dropTx
  split
  · exact Keeps.refl _
  · refine Keeps.trans ?_ (keeps_consumerRelease _ _ _)
    refine Keeps.trans ?_ (keeps_setTx _ _ _ _)
    exact Keeps.refl _

theorem keeps_abortTx (s : State) (p1 : Nat) (p2 : Nat) : Keeps 167 s (abortTx s p1 p2) := by
  unfold abortTx
  refine Keeps.ite ?_ ?_
  · refine Keeps.trans ?_ (keeps_bump _ _)
    refine Keeps.trans ?_ (keeps_dropTx _ _ _)
    exact Keeps.refl _
  · exact Keeps.refl _

theorem keeps_portReset (s : State) (p1 : Nat) : Keeps 167 s (portReset s p1) := by
  unfold portReset
  refine Keeps.trans ?_ (keeps_setPort _ _ _)
  refine Keeps.trans ?_ (keeps_dropTx _ _ _)
  refine Keeps.trans ?_ (keeps_dropTx _ _ _)
  refine Keeps.trans ?_ (keeps_rxFree _ _)
  exact Keeps.refl _

theorem keeps_execLinkDown (p0 : Nat) (s : State) : KeepsO 167 s (execLinkDown p0 s) := by
  unfold execLinkDown
  refine KeepsO.done ?_
  refine Keeps.ite ?_ ?_
  · exact Keeps.refl _
  · extract_lets -underBinder -merge -useContext +onlyGivenNames x1
    have h1 : Keeps 167 s x1 := by
      unfold x1
      split
      · refine Keeps.ite ?_ ?_
        · refine Keeps.trans ?_ (keeps_rxFree _ _)
          exact Keeps.refl _
        · refine Keeps.trans ?_ (keeps_bump _ _)
          refine Keeps.trans ?_ (keeps_rxFree _ _)
          exact Keeps.refl _
      · exact Keeps.refl _
    try clear_value x1
    extract_lets -underBinder -merge -useContext +onlyGivenNames x2
    have h2 : Keeps 167 s x2 := by
      unfold x2
      refine Keeps.trans ?_ (keeps_abortTx _ _ _)
      refine Keeps.trans ?_ (keeps_abortTx _ _ _)
      assumption
    try clear_value x2
    extract_lets -underBinder -merge -useContext +onlyGivenNames x3
    extract_lets -underBinder -merge -useContext +onlyGivenNames x4
    have h4 : Keeps 167 s x4 := by
      unfold x4
      refine Keeps.trans ?_ (keeps_setPort _ _ _)
      assumption
    try clear_value x4
    refine Keeps.trans ?_ (keeps_logEvent _ _ _ _)
    refine Keeps.trans ?_ (keeps_ethEvt _ _ _)
    refine Keeps.trans ?_ (keeps_bump _ _)
    assumption

theorem keeps_execLinkUp (p0 : Nat) (s : State) : KeepsO 135 s (execLinkUp p0 s) := by
  unfold execLinkUp
  refine KeepsO.done ?_
  refine Keeps.ite ?_ ?_
  · exact Keeps.refl _
  · extract_lets -underBinder -merge -useContext +onlyGivenNames x1
    try clear_value x1
    extract_lets -underBinder -merge -useContext +onlyGivenNames x2
    extract_lets -underBinder -merge -useContext +onlyGivenNames x3
    have h3 : Keeps 135 s x3 := by
      unfold x3
      refine Keeps.trans ?_ (keeps_setPort _ _ _)
      exact Keeps.refl _
    try clear_value x3
    refine Keeps.trans ?_ (keeps_logEvent _ _ _ _)
    refine Keeps.trans ?_ (keeps_ethEvt _ _ _)
    assumption

theorem keeps_execVerifyMpacketTimer (p0 : Nat) (s : State) : KeepsO 135 s (execVerifyMpacketTimer p0 s) := by
  unfold execVerifyMpacketTimer
  refine KeepsO.done ?_
  extract_lets -underBinder -merge -useContext +onlyGivenNames x1
  try clear_value x1
  extract_lets -underBinder -merge -useContext +onlyGivenNames x2
  try clear_value x2
  refine Keeps.ite ?_ ?_
  · exact Keeps.refl _
  · refine Keeps.ite ?_ ?_
    · refine Keeps.trans ?_ (keeps_setPort _ _ _)
      exact Keeps.refl _
    · refine Keeps.trans ?_ (keeps_logEvent _ _ _ _)
      refine Keeps.trans ?_ (keeps_ethEvt _ _ _)
      refine Keeps.trans ?_ (keeps_bump _ _)
      refine Keeps.trans ?_ (keeps_setPort _ _ _)
      exact Keeps.refl _

theorem keeps_execRespondMpacketReceived (p0 : Nat) (s : State) : KeepsO 128 s (execRespondMpacketReceived p0 s) := by
  unfold execRespondMpacketReceived
  refine KeepsO.done ?_
  extract_lets -underBinder -merge -useContext +onlyGivenNames x1
  try clear_value x1
  refine Keeps.ite ?_ ?_
  · refine Keeps.trans ?_ (keeps_setPort _ _ _)
    exact Keeps.refl _
  · exact Keeps.refl _

theorem keeps_execPauseReceived (p0 : Nat) (p1 : Nat) (s : State) : KeepsO 133 s (execPauseReceived p0 p1 s) := by
  unfold execPauseReceived
  refine KeepsO.done ?_
  refine Keeps.ite ?_ ?_
  · refine Keeps.trans ?_ (keeps_pauseSet _ _ _ _)
    exact Keeps.refl _
  · exact Keeps.refl _

theorem keeps_execPfcReceived (p0 : Nat) (p1 : Nat) (p2 : List Nat) (s : State) : KeepsO 133 s (execPfcReceived p0 p1 p2 s) := by
  unfold execPfcReceived
  refine KeepsO.done ?_
  refine Keeps.ite ?_ ?_
  · refine Keeps.trans ?_ (keeps_pfcSet _ _ _ _)
    exact Keeps.refl _
  · exact Keeps.refl _

theorem keeps_execPauseExpire (p0 : Nat) (s : State) : KeepsO 128 s (execPauseExpire p0 s) := by
  unfold execPauseExpire
  refine KeepsO.done ?_
  extract_lets -underBinder -merge -useContext +onlyGivenNames x1
  try clear_value x1
  refine Keeps.trans ?_ (keeps_setPort _ _ _)
  exact Keeps.refl _

theorem keeps_execPauseRenew (p0 : Nat) (s : State) : KeepsO 128 s (execPauseRenew p0 s) := by
  unfold execPauseRenew
  refine KeepsO.done ?_
  extract_lets -underBinder -merge -useContext +onlyGivenNames x1
  try clear_value x1
  extract_lets -underBinder -merge -useContext +onlyGivenNames x2
  try clear_value x2
  refine Keeps.ite ?_ ?_
  · refine Keeps.trans ?_ (keeps_setPort _ _ _)
    exact Keeps.refl _
  · exact Keeps.refl _

theorem keeps_execHoldEnd (p0 : Nat) (s : State) : KeepsO 128 s (execHoldEnd p0 s) := by
  unfold execHoldEnd
  refine KeepsO.done ?_
  extract_lets -underBinder -merge -useContext +onlyGivenNames x1
  try clear_value x1
  refine Keeps.ite ?_ ?_
  · refine Keeps.trans ?_ (keeps_setPort _ _ _)
    exact Keeps.refl _
  · exact Keeps.refl _

theorem keeps_txTake (s : State) (p1 : Nat) (p2 : Nat) (p3 : Nat) : KeepsOF 167 s (txTake s p1 p2 p3) := by
  unfold txTake
  extract_lets -underBinder -merge -useContext +onlyGivenNames x1
  try clear_value x1
  split
  · exact KeepsOF.none
  · extract_lets -underBinder -merge -useContext +onlyGivenNames x2
    have h2 : Keeps 167 s x2 := by
      unfold x2
      refine Keeps.trans ?_ (keeps_setQ _ _ _)
      exact Keeps.refl _
    try clear_value x2
    extract_lets -underBinder -merge -useContext +onlyGivenNames x3
    try clear_value x3
    refine KeepsOF.some ?_
    refine KeepsF.mk ?_
    refine Keeps.trans ?_ (keeps_irqEval _)
    refine Keeps.trans ?_ (keeps_setPort _ _ _)
    assumption

theorem keeps_stampTx (s : State) (p1 : Nat) (p2 : Nat) (p3 : List Byte) : Keeps 15 s (stampTx s p1 p2 p3) := by
  unfold stampTx
  extract_lets -underBinder -merge -useContext +onlyGivenNames x1
  try clear_value x1
  refine Keeps.ite ?_ ?_
  · extract_lets -underBinder -merge -useContext +onlyGivenNames x2
    try clear_value x2
    refine Keeps.ite ?_ ?_
    · extract_lets -underBinder -merge -useContext +onlyGivenNames x3
      try clear_value x3
      refine Keeps.upd (t := s) ?_ rfl rfl rfl (Nat.le_refl _)
      exact Keeps.refl _
    · extract_lets -underBinder -merge -useContext +onlyGivenNames x4
      have h4 : Keeps 15 s x4 := by
        unfold x4
        refine Keeps.trans ?_ (keeps_bump _ _)
        exact Keeps.refl _
      try clear_value x4
      refine Keeps.ite ?_ ?_
      · assumption
      · extract_lets -underBinder -merge -useContext +onlyGivenNames x5
        have h5 : Keeps 15 s x5 := by
          unfold x5
          refine Keeps.trans ?_ (keeps_setReg _ _ _)
          assumption
        try clear_value x5
        refine Keeps.trans ?_ (keeps_logEvent _ _ _ _)
        refine Keeps.trans ?_ (keeps_evt _ _ _)
        assumption
  · exact Keeps.refl _

theorem keeps_txDone (s : State) (p1 : Nat) (p2 : Nat) (p3 : TxPart) (p4 : Sent) : Keeps 143 s (txDone s p1 p2 p3 p4) := by
  unfold txDone
  extract_lets -underBinder -merge -useContext +onlyGivenNames x1
  try clear_value x1
  extract_lets -underBinder -merge -useContext +onlyGivenNames x2
  have h2 : Keeps 143 s x2 := by
    unfold x2
    refine Keeps.trans ?_ (keeps_setPort _ _ _)
    exact Keeps.refl _
  try clear_value x2
  refine Keeps.ite ?_ ?_
  · assumption
  · extract_lets -underBinder -merge -useContext +onlyGivenNames x3
    have h3 : Keeps 143 s x3 := by
      unfold x3
      refine Keeps.trans ?_ (keeps_bump _ _)
      assumption
    try clear_value x3
    extract_lets -underBinder -merge -useContext +onlyGivenNames x4
    have h4 : Keeps 143 s x4 := by
      unfold x4
      refine Keeps.ite ?_ ?_
      · refine Keeps.trans ?_ (keeps_bump _ _)
        assumption
      · assumption
    try clear_value x4
    extract_lets -underBinder -merge -useContext +onlyGivenNames x5
    have h5 : Keeps 143 s x5 := by
      unfold x5
      refine Keeps.trans ?_ (keeps_addOctets _ _ _)
      assumption
    try clear_value x5
    extract_lets -underBinder -merge -useContext +onlyGivenNames x6
    have h6 : Keeps 143 s x6 := by
      unfold x6
      refine Keeps.ite ?_ ?_
      · refine Keeps.trans ?_ (keeps_bump _ _)
        assumption
      · refine Keeps.ite ?_ ?_
        · refine Keeps.trans ?_ (keeps_bump _ _)
          assumption
        · assumption
    try clear_value x6
    refine Keeps.trans ?_ (keeps_stampTx _ _ _ _)
    assumption

theorem keeps_txFlow (s : State) (p1 : Nat) : Keeps 133 s (txFlow s p1) := by
  unfold txFlow
  extract_lets -underBinder -merge -useContext +onlyGivenNames x1
  try clear_value x1
  split
  · exact Keeps.refl _
  · extract_lets -underBinder -merge -useContext +onlyGivenNames x2
    try clear_value x2
    refine Keeps.trans ?_ (keeps_bump _ _)
    refine Keeps.trans ?_ (keeps_setPort _ _ _)
    exact Keeps.refl _

theorem keeps_txDiscard (s : State) (p1 : Nat) (p2 : Nat) : Keeps 167 s (txDiscard s p1 p2) := by
  unfold txDiscard
  split
  · exact Keeps.refl _
  · split
    · rename_i v1 v2 e3
      have h3 : Keeps 167 s v2 := by
        refine KeepsOF.of_eq e3 ?_
        refine KeepsOF.trans ?_ (keeps_txTake _ _ _ _)
        exact Keeps.refl _
      refine Keeps.trans ?_ (keeps_bump _ _)
      refine Keeps.trans ?_ (keeps_consumerRelease _ _ _)
      assumption
    · exact Keeps.refl _

theorem keeps_txBegin (s : State) (p1 : Nat) (p2 : Nat) (p3 : Nat) : Keeps 167 s (txBegin s p1 p2 p3) := by
  unfold txBegin
  split
  · refine Keeps.trans ?_ (keeps_setTx _ _ _ _)
    exact Keeps.refl _
  · split
    · exact Keeps.refl _
    · refine Keeps.ite ?_ ?_
      · exact Keeps.refl _
      · split
        · exact Keeps.refl _
        · rename_i v1 v2 e3
          have h3 : Keeps 167 s v2 := by
            refine KeepsOF.of_eq e3 ?_
            refine KeepsOF.trans ?_ (keeps_txTake _ _ _ _)
            exact Keeps.refl _
          extract_lets -underBinder -merge -useContext +onlyGivenNames x4
          have h4 : KeepsF 167 s x4 := by
            unfold x4
            refine KeepsF.trans ?_ (keeps_wireOf _ _ _)
            assumption
          try clear_value x4
          extract_lets -underBinder -merge -useContext +onlyGivenNames x5
          have h5 : Keeps 167 s x5 := by
            unfold x5
            refine KeepsF.snd ?_
            assumption
          try clear_value x5
          extract_lets -underBinder -merge -useContext +onlyGivenNames x6
          try clear_value x6
          extract_lets -underBinder -merge -useContext +onlyGivenNames x7
          have h7 : Keeps 167 s x7 := by
            unfold x7
            refine Keeps.ite ?_ ?_
            · refine Keeps.trans ?_ (keeps_setPort _ _ _)
              assumption
            · assumption
          try clear_value x7
          refine Keeps.trans ?_ (keeps_setTx _ _ _ _)
          assumption

theorem keeps_txFragment (s : State) (p1 : Nat) (p2 : Nat) (p3 : TxPart) : Keeps 133 s (txFragment s p1 p2 p3) := by
  unfold txFragment
  extract_lets -underBinder -merge -useContext +onlyGivenNames x1
  have h1 : Keeps 133 s x1 := by
    unfold x1
    refine Keeps.trans ?_ (keeps_setTx _ _ _ _)
    refine Keeps.trans ?_ (keeps_bump _ _)
    exact Keeps.refl _
  try clear_value x1
  extract_lets -underBinder -merge -useContext +onlyGivenNames x2
  try clear_value x2
  refine Keeps.trans ?_ (keeps_setPort _ _ _)
  assumption

theorem keeps_txFinish (s : State) (p1 : Nat) (p2 : Nat) : Keeps 175 s (txFinish s p1 p2) := by
  unfold txFinish
  split
  · exact Keeps.refl _
  · split
    · refine Keeps.trans ?_ (keeps_txFragment _ _ _ _)
      exact Keeps.refl _
    · extract_lets -underBinder -merge -useContext +onlyGivenNames x1
      try clear_value x1
      refine Keeps.trans ?_ (keeps_consumerRelease _ _ _)
      refine Keeps.trans ?_ (keeps_txDone _ _ _ _ _)
      refine Keeps.trans ?_ (keeps_setTx _ _ _ _)
      exact Keeps.refl _

theorem keeps_execFrameTransmit (p0 : Nat) (p1 : Nat) (p2 : Bool) (p3 : Nat) (s : State) : KeepsO 175 s (execFrameTransmit p0 p1 p2 p3 s) := by
  unfold execFrameTransmit
  refine KeepsO.done ?_
  extract_lets -underBinder -merge -useContext +onlyGivenNames x1
  try clear_value x1
  extract_lets -underBinder -merge -useContext +onlyGivenNames x2
  try clear_value x2
  refine Keeps.ite ?_ ?_
  · exact Keeps.refl _
  · refine Keeps.ite ?_ ?_
    · refine Keeps.trans ?_ (keeps_txDiscard _ _ _)
      exact Keeps.refl _
    · refine Keeps.ite ?_ ?_
      · refine Keeps.trans ?_ (keeps_txFlow _ _)
        exact Keeps.refl _
      · refine Keeps.ite ?_ ?_
        · refine Keeps.ite ?_ ?_
          · exact Keeps.refl _
          · refine Keeps.trans ?_ (keeps_txFinish _ _ _)
            exact Keeps.refl _
        · refine Keeps.ite ?_ ?_
          · extract_lets -underBinder -merge -useContext +onlyGivenNames x3
            have h3 : Keeps 175 s x3 := by
              unfold x3
              refine Keeps.trans ?_ (keeps_txBegin _ _ _ _)
              exact Keeps.refl _
            try clear_value x3
            refine Keeps.ite ?_ ?_
            · assumption
            · refine Keeps.ite ?_ ?_
              · refine Keeps.trans ?_ (keeps_txFinish _ _ _)
                assumption
              · assumption
          · exact Keeps.refl _

theorem keeps_txUnsend (s : State) (p1 : Nat) (p2 : Nat) : Keeps 167 s (txUnsend s p1 p2) := by
  unfold txUnsend
  split
  · exact Keeps.refl _
  · extract_lets -underBinder -merge -useContext +onlyGivenNames x1
    have h1 : Keeps 167 s x1 := by
      unfold x1
      refine Keeps.trans ?_ (keeps_setTx _ _ _ _)
      exact Keeps.refl _
    try clear_value x1
    extract_lets -underBinder -merge -useContext +onlyGivenNames x2
    try clear_value x2
    extract_lets -underBinder -merge -useContext +onlyGivenNames x3
    have h3 : Keeps 167 s x3 := by
      unfold x3
      refine Keeps.trans ?_ (keeps_setPort _ _ _)
      assumption
    try clear_value x3
    extract_lets -underBinder -merge -useContext +onlyGivenNames x4
    try clear_value x4
    refine Keeps.ite ?_ ?_
    · refine Keeps.trans ?_ (keeps_setQ _ _ _)
      assumption
    · refine Keeps.trans ?_ (keeps_consumerRelease _ _ _)
      assumption

theorem keeps_collDrop (s : State) (p1 : Nat) (p2 : Nat) : Keeps 167 s (collDrop s p1 p2) := by
  unfold collDrop
  extract_lets -underBinder -merge -useContext +onlyGivenNames x1
  have h1 : Keeps 167 s x1 := by
    unfold x1
    split
    · exact Keeps.refl _
    · split
      · rename_i v2 v3 e4
        have h4 : Keeps 167 s v3 := by
          refine KeepsOF.of_eq e4 ?_
          refine KeepsOF.trans ?_ (keeps_txTake _ _ _ _)
          exact Keeps.refl _
        refine Keeps.trans ?_ (keeps_consumerRelease _ _ _)
        assumption
      · exact Keeps.refl _
  try clear_value x1
  refine Keeps.trans ?_ (keeps_setPort _ _ _)
  assumption

theorem keeps_execT1sCollision (p0 : Nat) (p1 : Nat) (p2 : Bool) (s : State) : KeepsO 2097319 s (execT1sCollision p0 p1 p2 s) := by
  unfold execT1sCollision
  refine KeepsO.done ?_
  refine Keeps.ite ?_ ?_
  · exact Keeps.refl _
  · extract_lets -underBinder -merge -useContext +onlyGivenNames x1
    have h1 : Keeps 2097319 s x1 := by
      unfold x1
      refine Keeps.trans ?_ (keeps_txUnsend _ _ _)
      exact Keeps.refl _
    try clear_value x1
    extract_lets -underBinder -merge -useContext +onlyGivenNames x2
    try clear_value x2
    refine Keeps.ite ?_ ?_
    · assumption
    · refine Keeps.ite ?_ ?_
      · refine Keeps.trans ?_ (keeps_bump _ _)
        refine Keeps.trans ?_ (keeps_collDrop _ _ _)
        assumption
      · refine Keeps.ite ?_ ?_
        · refine Keeps.trans ?_ (keeps_bump _ _)
          refine Keeps.trans ?_ (keeps_collDrop _ _ _)
          assumption
        · extract_lets -underBinder -merge -useContext +onlyGivenNames x3
          try clear_value x3
          refine Keeps.trans ?_ (keeps_nextFree _)
          refine Keeps.trans ?_ (keeps_setPort _ _ _)
          assumption

theorem keeps_execPlcaBeacon (p0 : Nat) (s : State) : KeepsO 128 s (execPlcaBeacon p0 s) := by
  unfold execPlcaBeacon
  refine KeepsO.done ?_
  extract_lets -underBinder -merge -useContext +onlyGivenNames x1
  try clear_value x1
  refine Keeps.ite ?_ ?_
  · exact Keeps.refl _
  · extract_lets -underBinder -merge -useContext +onlyGivenNames x2
    try clear_value x2
    refine Keeps.trans ?_ (keeps_setPort _ _ _)
    exact Keeps.refl _

theorem keeps_execPlcaInactive (p0 : Nat) (s : State) : KeepsO 135 s (execPlcaInactive p0 s) := by
  unfold execPlcaInactive
  refine KeepsO.done ?_
  extract_lets -underBinder -merge -useContext +onlyGivenNames x1
  try clear_value x1
  extract_lets -underBinder -merge -useContext +onlyGivenNames x2
  try clear_value x2
  refine Keeps.ite ?_ ?_
  · refine Keeps.trans ?_ (keeps_ethEvt _ _ _)
    refine Keeps.trans ?_ (keeps_bump _ _)
    refine Keeps.trans ?_ (keeps_setPort _ _ _)
    exact Keeps.refl _
  · exact Keeps.refl _

end Sys2Proof.Machine
end

