-- ==== Sys2Proof/Laws/KeepsAdmission.lean ====
section
/-! SUPPORT. What each function of Machine/Admission.lean leaves unchanged (the mask names the areas it may change). -/

set_option Elab.async false

namespace Sys2Proof.Machine

theorem keeps_parserCopy (s : State) (p1 : Packet) (p2 : Bool) : Keeps 167 s (parserCopy s p1 p2) := by
  unfold parserCopy
  extract_lets -underBinder -merge -useContext +onlyGivenNames x1
  try clear_value x1
  refine Keeps.ite ?_ ?_
  · refine Keeps.trans ?_ (keeps_bump _ _)
    refine Keeps.trans ?_ (keeps_commitPacket _ _ _)
    exact Keeps.refl _
  · refine Keeps.trans ?_ (keeps_devCopy _ _ _ _)
    exact Keeps.refl _

theorem keeps_unknownCopy (s : State) (p1 : Packet) : Keeps 167 s (unknownCopy s p1) := by
  unfold unknownCopy
  extract_lets -underBinder -merge -useContext +onlyGivenNames x1
  try clear_value x1
  refine Keeps.ite ?_ ?_
  · refine Keeps.trans ?_ (keeps_commitPacket _ _ _)
    exact Keeps.refl _
  · refine Keeps.trans ?_ (keeps_logEvent _ _ _ _)
    refine Keeps.trans ?_ (keeps_evt _ _ _)
    refine Keeps.trans ?_ (keeps_queLast _ _ _)
    refine Keeps.trans ?_ (keeps_bump _ _)
    exact Keeps.refl _

theorem keeps_admitTimed (s : State) (p1 : Nat) (p2 : Nat) (p3 : Nat) (p4 : Nat) (p5 : Int) (p6 : Landing) (p7 : Bool) : KeepsF 2338743 s (admitTimed s p1 p2 p3 p4 p5 p6 p7) := by
  unfold admitTimed
  refine KeepsF.ite ?_ ?_
  · refine KeepsF.mk ?_
    refine Keeps.trans ?_ (keeps_accDiscard _ _ _ _ _ _ _)
    exact Keeps.refl _
  · extract_lets -underBinder -merge -useContext +onlyGivenNames x1
    have h1 : Keeps 2338743 s x1 := by
      unfold x1
      refine Keeps.trans ?_ (keeps_lapsePast _)
      exact Keeps.refl _
    try clear_value x1
    extract_lets -underBinder -merge -useContext +onlyGivenNames x2
    try clear_value x2
    extract_lets -underBinder -merge -useContext +onlyGivenNames x3
    try clear_value x3
    refine KeepsF.ite ?_ ?_
    · refine KeepsF.mk ?_
      refine Keeps.trans ?_ (keeps_accDiscard _ _ _ _ _ _ _)
      assumption
    · extract_lets -underBinder -merge -useContext +onlyGivenNames x4
      try clear_value x4
      refine KeepsF.ite ?_ ?_
      · refine KeepsF.mk ?_
        refine Keeps.trans ?_ (keeps_accDiscard _ _ _ _ _ _ _)
        assumption
      · refine KeepsF.ite ?_ ?_
        · refine KeepsF.mk ?_
          assumption
        · split
          · refine KeepsF.mk ?_
            assumption
          · extract_lets -underBinder -merge -useContext +onlyGivenNames x5
            try clear_value x5
            refine KeepsF.mk ?_
            refine Keeps.trans ?_ (keeps_reserveLand _ _)
            assumption

theorem keeps_skipFree (s : State) (p1 : Nat) : Keeps 2097152 s (skipFree s p1) := by
  unfold skipFree
  refine Keeps.upd (t := s) ?_ rfl rfl rfl (Nat.le_add_right _ _)
  exact Keeps.refl _

theorem keeps_discardUnknown (s : State) (p1 : Packet) (p2 : Nat) : Keeps 5 s (discardUnknown s p1 p2) := by
  unfold discardUnknown
  refine Keeps.trans ?_ (keeps_accDiscard _ _ _ _ _ _ _)
  exact Keeps.refl _

theorem keeps_unknownId (s : State) (p1 : Packet) : Keeps 167 s (unknownId s p1) := by
  unfold unknownId
  extract_lets -underBinder -merge -useContext +onlyGivenNames x1
  have h1 : Keeps 167 s x1 := by
    unfold x1
    refine Keeps.trans ?_ (keeps_discardUnknown _ _ _)
    exact Keeps.refl _
  try clear_value x1
  refine Keeps.ite ?_ ?_
  · refine Keeps.trans ?_ (keeps_unknownCopy _ _)
    assumption
  · assumption

theorem keeps_admitC37 (s : State) (p1 : Packet) (p2 : RxFrame) : Keeps 2338743 s (admitC37 s p1 p2) := by
  unfold admitC37
  extract_lets -underBinder -merge -useContext +onlyGivenNames x1
  try clear_value x1
  extract_lets -underBinder -merge -useContext +onlyGivenNames x2
  try clear_value x2
  refine Keeps.ite ?_ ?_
  · refine Keeps.trans ?_ (keeps_discardUnknown _ _ _)
    exact Keeps.refl _
  · refine Keeps.ite ?_ ?_
    · refine Keeps.trans ?_ (keeps_discardUnknown _ _ _)
      exact Keeps.refl _
    · refine Keeps.ite ?_ ?_
      · refine Keeps.trans ?_ (keeps_discardUnknown _ _ _)
        exact Keeps.refl _
      · split
        · refine Keeps.trans ?_ (keeps_unknownId _ _)
          exact Keeps.refl _
        · extract_lets -underBinder -merge -useContext +onlyGivenNames x3
          try clear_value x3
          refine Keeps.ite ?_ ?_
          · refine Keeps.trans ?_ (keeps_accDiscard _ _ _ _ _ _ _)
            exact Keeps.refl _
          · split
            · refine Keeps.trans ?_ (keeps_accDiscard _ _ _ _ _ _ _)
              exact Keeps.refl _
            · refine Keeps.trans ?_ (keeps_skipFree _ _)
              refine KeepsF.snd ?_
              refine KeepsF.trans ?_ (keeps_admitTimed _ _ _ _ _ _ _ _)
              exact Keeps.refl _

theorem keeps_admitApdu (s : State) (p1 : Packet) (p2 : RxFrame) (p3 : SvApdu) : Keeps 2338743 s (admitApdu s p1 p2 p3) := by
  unfold admitApdu
  split
  · refine Keeps.trans ?_ (keeps_unknownId _ _)
    exact Keeps.refl _
  · extract_lets -underBinder -merge -useContext +onlyGivenNames x1
    try clear_value x1
    refine Keeps.ite ?_ ?_
    · refine Keeps.trans ?_ (keeps_accDiscard _ _ _ _ _ _ _)
      exact Keeps.refl _
    · split
      · refine Keeps.trans ?_ (keeps_accDiscard _ _ _ _ _ _ _)
        exact Keeps.refl _
      · extract_lets -underBinder -merge -useContext +onlyGivenNames x2
        try clear_value x2
        refine Keeps.trans ?_ (keeps_skipFree _ _)
        refine KeepsF.snd ?_
        refine KeepsF.trans ?_ (keeps_admitTimed _ _ _ _ _ _ _ _)
        exact Keeps.refl _

theorem keeps_admitSv (s : State) (p1 : Packet) (p2 : RxFrame) (p3 : SvPacket) (p4 : Bool) : Keeps 2338743 s (admitSv s p1 p2 p3 p4) := by
  unfold admitSv
  refine Keeps.ite ?_ ?_
  · refine Keeps.trans ?_ (keeps_parserCopy _ _ _)
    exact Keeps.refl _
  · refine Keeps.ite ?_ ?_
    · refine Keeps.trans ?_ (keeps_discardUnknown _ _ _)
      exact Keeps.refl _
    · refine Keeps.ite ?_ ?_
      · refine Keeps.trans ?_ (keeps_discardUnknown _ _ _)
        exact Keeps.refl _
      · refine Keeps.ite ?_ ?_
        · refine Keeps.trans ?_ (keeps_discardUnknown _ _ _)
          exact Keeps.refl _
        · refine Keeps.foldl ?_ (fun y1 a1 hy1 => ?_)
          · exact Keeps.refl _
          · refine Keeps.trans ?_ (keeps_admitApdu _ _ _ _)
            assumption

theorem keeps_admitHiash (s : State) (p1 : Packet) (p2 : RxFrame) (p3 : Bool) (p4 : Bool) : KeepsF 2338743 s (admitHiash s p1 p2 p3 p4) := by
  unfold admitHiash
  extract_lets -underBinder -merge -useContext +onlyGivenNames x1
  try clear_value x1
  extract_lets -underBinder -merge -useContext +onlyGivenNames x2
  try clear_value x2
  extract_lets -underBinder -merge -useContext +onlyGivenNames x3
  try clear_value x3
  refine KeepsF.ite ?_ ?_
  · refine KeepsF.mk ?_
    refine Keeps.trans ?_ (keeps_discardUnknown _ _ _)
    exact Keeps.refl _
  · refine KeepsF.ite ?_ ?_
    · refine KeepsF.mk ?_
      refine Keeps.trans ?_ (keeps_discardUnknown _ _ _)
      exact Keeps.refl _
    · refine KeepsF.ite ?_ ?_
      · refine KeepsF.mk ?_
        refine Keeps.trans ?_ (keeps_discardUnknown _ _ _)
        exact Keeps.refl _
      · refine KeepsF.ite ?_ ?_
        · refine KeepsF.mk ?_
          refine Keeps.trans ?_ (keeps_discardUnknown _ _ _)
          exact Keeps.refl _
        · split
          · refine KeepsF.mk ?_
            refine Keeps.trans ?_ (keeps_unknownId _ _)
            exact Keeps.refl _
          · extract_lets -underBinder -merge -useContext +onlyGivenNames x4
            try clear_value x4
            refine KeepsF.ite ?_ ?_
            · refine KeepsF.mk ?_
              refine Keeps.trans ?_ (keeps_accDiscard _ _ _ _ _ _ _)
              exact Keeps.refl _
            · refine KeepsF.ite ?_ ?_
              · refine KeepsF.mk ?_
                refine Keeps.trans ?_ (keeps_accDiscard _ _ _ _ _ _ _)
                exact Keeps.refl _
              · refine KeepsF.trans ?_ (keeps_admitTimed _ _ _ _ _ _ _ _)
                exact Keeps.refl _

end Sys2Proof.Machine
end

