-- ==== Sys2Proof/Laws/KeepsHiashCmds.lean ====
section
/-! SUPPORT. What each function of Machine/HiashCmds.lean leaves unchanged (the mask names the areas it may change). -/

set_option Elab.async false

namespace Sys2Proof.Machine

theorem keeps_takeHead (s : State) (p1 : Nat) (p2 : Packet) : Keeps 167 s (takeHead s p1 p2) := by
  unfold takeHead
  extract_lets -underBinder -merge -useContext +onlyGivenNames x1
  try clear_value x1
  extract_lets -underBinder -merge -useContext +onlyGivenNames x2
  try clear_value x2
  extract_lets -underBinder -merge -useContext +onlyGivenNames x3
  have h3 : Keeps 167 s x3 := by
    unfold x3
    refine Keeps.trans ?_ (keeps_bump _ _)
    refine Keeps.trans ?_ (keeps_setQ _ _ _)
    exact Keeps.refl _
  try clear_value x3
  refine Keeps.ite ?_ ?_
  · extract_lets -underBinder -merge -useContext +onlyGivenNames x4
    try clear_value x4
    refine Keeps.trans ?_ (keeps_setQ _ _ _)
    assumption
  · refine Keeps.trans ?_ (keeps_releaseCells _ _ _)
    assumption

theorem keeps_withHead {L : Nat} (s : State) (p1 : Nat) (p2 : Packet → Bool) (p3 : Packet → State → State) (h : ∀ k s, Keeps L s (p3 k s))
    (sub : 167 &&& L = 167 := by rfl) : Keeps L s (withHead s p1 p2 p3) := by
  unfold withHead
  have ht (t : State) (p : Nat) (k : Packet) : Keeps 167 t (takeHead t p k) := (keeps_takeHead _ _ _).mono
  split
  · exact Keeps.refl _
  · refine Keeps.ite (Keeps.refl _) (Keeps.ite ?_ ?_)
    · exact Keeps.mono (m := 167) (Keeps.trans (keeps_bump _ _).mono (ht _ _ _)) sub
    · exact Keeps.trans (h _ _) (ht _ _ _) sub

theorem keeps_dupEvent (s : State) (p1 : Nat) (p2 : Nat) (p3 : Bool) : Keeps 32775 s (dupEvent s p1 p2 p3) := by
  unfold dupEvent
  extract_lets -underBinder -merge -useContext +onlyGivenNames x1
  have h1 : Keeps 32775 s x1 := by
    unfold x1
    refine Keeps.trans ?_ (keeps_setRegN _ _ _)
    exact Keeps.refl _
  try clear_value x1
  extract_lets -underBinder -merge -useContext +onlyGivenNames x2
  have h2 : Keeps 32775 s x2 := by
    unfold x2
    refine Keeps.trans ?_ (keeps_setReg64 _ _ _ _)
    assumption
  try clear_value x2
  extract_lets -underBinder -merge -useContext +onlyGivenNames x3
  extract_lets -underBinder -merge -useContext +onlyGivenNames x4
  have h4 : Keeps 32775 s x4 := by
    unfold x4
    refine Keeps.upd (t := x2) ?_ rfl rfl rfl (Nat.le_refl _)
    assumption
  try clear_value x4
  extract_lets -underBinder -merge -useContext +onlyGivenNames x5
  have h5 : Keeps 32775 s x5 := by
    unfold x5
    refine Keeps.trans ?_ (keeps_logEvent _ _ _ _)
    refine Keeps.trans ?_ (keeps_evt _ _ _)
    assumption
  try clear_value x5
  refine Keeps.ite ?_ ?_
  · refine Keeps.trans ?_ (keeps_logEvent _ _ _ _)
    refine Keeps.trans ?_ (keeps_evt _ _ _)
    refine Keeps.upd (t := x5) ?_ rfl rfl rfl (Nat.le_refl _)
    assumption
  · assumption

theorem keeps_helloRx (s : State) (p1 : Packet) (p2 : HMsg) : Keeps 2261159 s (helloRx s p1 p2) := by
  unfold helloRx
  extract_lets -underBinder -merge -useContext +onlyGivenNames x1
  try clear_value x1
  extract_lets -underBinder -merge -useContext +onlyGivenNames x2
  try clear_value x2
  extract_lets -underBinder -merge -useContext +onlyGivenNames x3
  try clear_value x3
  extract_lets -underBinder -merge -useContext +onlyGivenNames x4
  try clear_value x4
  extract_lets -underBinder -merge -useContext +onlyGivenNames x5
  try clear_value x5
  extract_lets -underBinder -merge -useContext +onlyGivenNames x6
  extract_lets -underBinder -merge -useContext +onlyGivenNames x7
  have h7 : Keeps 2261159 s x7 := by
    unfold x7
    refine Keeps.upd (t := s) ?_ rfl rfl rfl (Nat.le_refl _)
    exact Keeps.refl _
  try clear_value x7
  refine Keeps.ite ?_ ?_
  · refine Keeps.trans ?_ (keeps_dupEvent _ _ _ _)
    assumption
  · split
    · refine Keeps.ite ?_ ?_
      · extract_lets -underBinder -merge -useContext +onlyGivenNames x8
        try clear_value x8
        extract_lets -underBinder -merge -useContext +onlyGivenNames x9
        try clear_value x9
        extract_lets -underBinder -merge -useContext +onlyGivenNames x10
        try clear_value x10
        extract_lets -underBinder -merge -useContext +onlyGivenNames x11
        try clear_value x11
        extract_lets -underBinder -merge -useContext +onlyGivenNames x12
        extract_lets -underBinder -merge -useContext +onlyGivenNames x13
        have h13 : Keeps 2261159 s x13 := by
          unfold x13
          refine Keeps.upd (t := x7) ?_ rfl rfl rfl (Nat.le_refl _)
          assumption
        try clear_value x13
        refine Keeps.trans ?_ (keeps_hshSendPorts _ _ _)
        assumption
      · assumption
    · assumption

theorem keeps_noticeRx (s : State) (p1 : HMsg) : Keeps 32775 s (noticeRx s p1) := by
  unfold noticeRx
  extract_lets -underBinder -merge -useContext +onlyGivenNames x1
  try clear_value x1
  extract_lets -underBinder -merge -useContext +onlyGivenNames x2
  try clear_value x2
  refine Keeps.ite ?_ ?_
  · refine Keeps.trans ?_ (keeps_dupEvent _ _ _ _)
    exact Keeps.refl _
  · refine Keeps.ite ?_ ?_
    · refine Keeps.trans ?_ (keeps_dupEvent _ _ _ _)
      exact Keeps.refl _
    · exact Keeps.refl _

theorem keeps_originDup (s : State) (p1 : Packet) (p2 : HMsg) : Keeps 2129927 s (originDup s p1 p2) := by
  unfold originDup
  extract_lets -underBinder -merge -useContext +onlyGivenNames x1
  try clear_value x1
  extract_lets -underBinder -merge -useContext +onlyGivenNames x2
  try clear_value x2
  refine Keeps.ite ?_ ?_
  · split
    · refine Keeps.trans ?_ (keeps_dupEvent _ _ _ _)
      exact Keeps.refl _
    · refine Keeps.trans ?_ (keeps_dupEvent _ _ _ _)
      refine Keeps.trans ?_ (keeps_nextFree _)
      exact Keeps.refl _
  · exact Keeps.refl _

theorem keeps_relay (s : State) (p1 : Packet) (p2 : RxFrame) (p3 : HMsg) (p4 : Bool) : Keeps 2261159 s (relay s p1 p2 p3 p4) := by
  unfold relay
  extract_lets -underBinder -merge -useContext +onlyGivenNames x1
  try clear_value x1
  split
  · refine Keeps.trans ?_ (keeps_bump _ _)
    exact Keeps.refl _
  · refine Keeps.ite ?_ ?_
    · exact Keeps.refl _
    · extract_lets -underBinder -merge -useContext +onlyGivenNames x2
      try clear_value x2
      extract_lets -underBinder -merge -useContext +onlyGivenNames x3
      have h3 : KeepsF 2261159 s x3 := by
        unfold x3
        refine KeepsF.ite ?_ ?_
        · refine KeepsF.trans ?_ (keeps_digestPorts _ _ _)
          exact Keeps.refl _
        · refine KeepsF.mk ?_
          exact Keeps.refl _
      try clear_value x3
      extract_lets -underBinder -merge -useContext +onlyGivenNames x4
      have h4 : Keeps 2261159 s x4 := by
        unfold x4
        refine KeepsF.snd ?_
        assumption
      try clear_value x4
      refine Keeps.ite ?_ ?_
      · assumption
      · extract_lets -underBinder -merge -useContext +onlyGivenNames x5
        try clear_value x5
        extract_lets -underBinder -merge -useContext +onlyGivenNames x6
        extract_lets -underBinder -merge -useContext +onlyGivenNames x7
        have h7 : Keeps 2261159 s x7 := by
          unfold x7
          refine Keeps.upd (t := x4) ?_ rfl rfl rfl (Nat.le_refl _)
          assumption
        try clear_value x7
        extract_lets -underBinder -merge -useContext +onlyGivenNames x8
        try clear_value x8
        extract_lets -underBinder -merge -useContext +onlyGivenNames x9
        have h9 : Keeps 2261159 s x9 := by
          unfold x9
          refine Keeps.foldl ?_ (fun y10 a10 hy10 => ?_)
          · assumption
          · refine Keeps.ite ?_ ?_
            · refine Keeps.trans ?_ (keeps_outFrame _ _ _ _ _)
              assumption
            · refine Keeps.trans ?_ (keeps_txQueue _ _ _ _ _)
              assumption
        try clear_value x9
        refine Keeps.trans ?_ (keeps_bump _ _)
        refine Keeps.trans ?_ (keeps_nextFree _)
        assumption

theorem keeps_relayAddendum (s : State) (p1 : Packet) (p2 : RxFrame) (p3 : HMsg) : Keeps 2261159 s (relayAddendum s p1 p2 p3) := by
  unfold relayAddendum
  refine Keeps.ite ?_ ?_
  · split
    · refine Keeps.ite ?_ ?_
      · refine Keeps.trans ?_ (keeps_bump _ _)
        exact Keeps.refl _
      · refine Keeps.ite ?_ ?_
        · refine Keeps.trans ?_ (keeps_relay _ _ _ _ _)
          exact Keeps.refl _
        · extract_lets -underBinder -merge -useContext +onlyGivenNames x1
          extract_lets -underBinder -merge -useContext +onlyGivenNames x2
          have h2 : Keeps 2261159 s x2 := by
            unfold x2
            refine Keeps.upd (t := s) ?_ rfl rfl rfl (Nat.le_refl _)
            exact Keeps.refl _
          try clear_value x2
          refine Keeps.trans ?_ (keeps_relay _ _ _ _ _)
          assumption
    · extract_lets -underBinder -merge -useContext +onlyGivenNames x3
      extract_lets -underBinder -merge -useContext +onlyGivenNames x4
      have h4 : Keeps 2261159 s x4 := by
        unfold x4
        refine Keeps.ite ?_ ?_
        · refine Keeps.upd (t := s) ?_ rfl rfl rfl (Nat.le_refl _)
          exact Keeps.refl _
        · exact Keeps.refl _
      try clear_value x4
      refine Keeps.trans ?_ (keeps_relay _ _ _ _ _)
      assumption
  · exact Keeps.refl _

theorem keeps_badCopy (s : State) (p1 : Nat) (p2 : List Byte) : Keeps 167 s (badCopy s p1 p2) := by
  unfold badCopy
  refine Keeps.ite ?_ ?_
  · refine Keeps.trans ?_ (keeps_bump _ _)
    exact Keeps.refl _
  · refine Keeps.trans ?_ (keeps_devPush _ _ _)
    exact Keeps.refl _

theorem keeps_badRelay (s : State) (p1 : Packet) (p2 : RxFrame) (p3 : HMsg) : Keeps 2097319 s (badRelay s p1 p2 p3) := by
  unfold badRelay
  extract_lets -underBinder -merge -useContext +onlyGivenNames x1
  try clear_value x1
  extract_lets -underBinder -merge -useContext +onlyGivenNames x2
  try clear_value x2
  extract_lets -underBinder -merge -useContext +onlyGivenNames x3
  try clear_value x3
  refine Keeps.ite ?_ ?_
  · extract_lets -underBinder -merge -useContext +onlyGivenNames x4
    try clear_value x4
    extract_lets -underBinder -merge -useContext +onlyGivenNames x5
    have h5 : Keeps 2097319 s x5 := by
      unfold x5
      refine Keeps.foldl ?_ (fun y6 a6 hy6 => ?_)
      · exact Keeps.refl _
      · refine Keeps.trans ?_ (keeps_badCopy _ _ _)
        assumption
    try clear_value x5
    refine Keeps.ite ?_ ?_
    · refine Keeps.trans ?_ (keeps_logEvent _ _ _ _)
      refine Keeps.trans ?_ (keeps_evt _ _ _)
      refine Keeps.trans ?_ (keeps_bump _ _)
      refine Keeps.trans ?_ (keeps_nextFree _)
      assumption
    · assumption
  · exact Keeps.refl _

theorem keeps_hshReceive {L : Nat} (s : State) (p1 : Packet) (p2 : Bool) (p3 : RxFrame → HMsg → State → State)
    (h : ∀ f m s, Keeps L s (p3 f m s)) (sub : 2261159 &&& L = 2261159 := by rfl) : Keeps L s (hshReceive s p1 p2 p3) := by
  unfold hshReceive
  have hr (t : State) (k : Packet) (f : RxFrame) (m : HMsg) (b : Bool) : Keeps 2261159 t (relay t k f m b) := (keeps_relay _ _ _ _ _).mono
  have hb (t : State) (a : Nat) : Keeps 2261159 t (bump t a) := (keeps_bump _ _).mono
  split
  · exact Keeps.refl _
  · rename_i f _
    extract_lets -underBinder -merge -useContext +onlyGivenNames m
    clear_value m
    split
    · extract_lets -underBinder -merge -useContext +onlyGivenNames t
      have ht : Keeps 2261159 s t := hb _ _
      clear_value t
      exact Keeps.mono (m := 2261159) (Keeps.ite (Keeps.trans ht (keeps_badRelay _ _ _ _)) ht) sub
    · refine Keeps.ite (h _ _ _) ?_
      extract_lets -underBinder -merge -useContext +onlyGivenNames t u
      have ht : Keeps L s t := Keeps.mono (m := 2261159) (keeps_originDup _ _ _).mono sub
      have hu : Keeps L s u := Keeps.trans ht (h _ _ _) (Nat.and_self L)
      clear_value u
      clear_value t
      refine Keeps.ite ?_ ?_
      · exact Keeps.ite hu (Keeps.ite (Keeps.ite (Keeps.trans hu (hr _ _ _ _ _) sub) hu)
          (Keeps.ite (Keeps.trans hu (hr _ _ _ _ _) sub) hu))
      · exact Keeps.ite (Keeps.trans ht (hb _ _) sub) (Keeps.ite ht (Keeps.trans ht (hr _ _ _ _ _) sub))

theorem keeps_deliverHost (p0 : Packet) (p1 : RxFrame) (p2 : HMsg) (s : State) : Keeps 2132135 s (deliverHost p0 p1 p2 s) := by
  unfold deliverHost
  refine Keeps.trans ?_ (keeps_hostAndJob _ _ _ _ _ _)
  refine Keeps.trans ?_ (keeps_hshDelivered _)
  exact Keeps.refl _

theorem keeps_admitMsg (s : State) (p1 : Packet) (p2 : RxFrame) (p3 : Bool) : Keeps 2338743 s (admitMsg s p1 p2 p3) := by
  unfold admitMsg
  extract_lets -underBinder -merge -useContext +onlyGivenNames x1
  try clear_value x1
  refine Keeps.ite ?_ ?_
  · refine KeepsF.snd ?_
    refine KeepsF.trans ?_ (keeps_admitHiash _ _ _ _ _)
    exact Keeps.refl _
  · extract_lets -underBinder -merge -useContext +onlyGivenNames x2
    have h2 : KeepsF 2338743 s x2 := by
      unfold x2
      refine KeepsF.trans ?_ (keeps_admitHiash _ _ _ _ _)
      exact Keeps.refl _
    try clear_value x2
    refine Keeps.ite ?_ ?_
    · refine Keeps.trans ?_ (keeps_deliverHost _ _ _ _)
      refine Keeps.trans ?_ (keeps_bump _ _)
      refine KeepsF.snd ?_
      assumption
    · refine KeepsF.snd ?_
      assumption

theorem keeps_admitFrame (s : State) (p1 : Packet) (p2 : Bool) (p3 : Option SvPacket) : Keeps 2338743 s (admitFrame s p1 p2 p3) := by
  unfold admitFrame
  split
  · refine Keeps.trans ?_ (keeps_admitC37 _ _ _)
    exact Keeps.refl _
  · refine Keeps.trans ?_ (keeps_admitSv _ _ _ _ _)
    exact Keeps.refl _
  · split
    · refine Keeps.trans ?_ (keeps_admitMsg _ _ _ _)
      exact Keeps.refl _
    · exact Keeps.refl _
  · exact Keeps.refl _

theorem keeps_admitOwn (s : State) (p1 : Packet) (p2 : Bool) (p3 : Option SvPacket) : Keeps 2338743 s (admitOwn s p1 p2 p3) := by
  unfold admitOwn
  refine Keeps.ite ?_ ?_
  · refine Keeps.upd (t := s) ?_ rfl rfl rfl (Nat.le_refl _)
    exact Keeps.refl _
  · refine Keeps.ite ?_ ?_
    · exact Keeps.refl _
    · refine Keeps.trans ?_ (keeps_admitFrame _ _ _ _)
      exact Keeps.refl _

theorem keeps_execAdmission (p0 : Nat) (p1 : Bool) (p2 : Option SvPacket) (s : State) : KeepsO 2338743 s (execAdmission p0 p1 p2 s) := by
  unfold execAdmission
  refine KeepsO.done ?_
  refine keeps_withHead (L := 2338743) _ _ _ _ (fun u1 u2 => ?_)
  split
  · refine Keeps.trans ?_ (keeps_parserCopy _ _ _)
    exact Keeps.refl _
  · refine Keeps.trans ?_ (keeps_parserCopy _ _ _)
    exact Keeps.refl _
  · refine keeps_hshReceive (L := 2338743) _ _ _ _ (fun u3 u4 u5 => ?_)
    exact Keeps.refl _
  · refine Keeps.trans ?_ (keeps_admitOwn _ _ _ _)
    exact Keeps.refl _

theorem keeps_rxRow {L : Nat} (s : State) (p1 p2 : Nat) (p3 : Packet → State → State) (h : ∀ k s, Keeps L s (p3 k s))
    (sub : 167 &&& L = 167 := by rfl) : Keeps L s (rxRow s p1 p2 p3) := keeps_withHead _ _ _ _ h sub

theorem keeps_execUrgentAlarmReceived (p0 : Nat) (p1 : Bool) (s : State) : KeepsO 2263207 s (execUrgentAlarmReceived p0 p1 s) := by
  unfold execUrgentAlarmReceived
  refine KeepsO.done ?_
  refine keeps_rxRow (L := 2263207) _ _ _ _ (fun u1 u2 => ?_)
  refine keeps_hshReceive (L := 2263207) _ _ _ _ (fun u3 u4 u5 => ?_)
  refine Keeps.trans ?_ (keeps_deliverHost _ _ _ _)
  exact Keeps.refl _

theorem keeps_triggerRx (p0 : HMsg) (s : State) : Keeps 3309735 s (triggerRx p0 s) := by
  unfold triggerRx
  refine Keeps.ite ?_ ?_
  · refine Keeps.trans ?_ (keeps_capTrigger _ _ _)
    refine Keeps.trans ?_ (keeps_bump _ _)
    exact Keeps.refl _
  · exact Keeps.refl _

theorem keeps_execUrgentTriggerReceived (p0 : Nat) (p1 : Bool) (s : State) : KeepsO 3311783 s (execUrgentTriggerReceived p0 p1 s) := by
  unfold execUrgentTriggerReceived
  refine KeepsO.done ?_
  refine keeps_rxRow (L := 3311783) _ _ _ _ (fun u1 u2 => ?_)
  refine keeps_hshReceive (L := 3311783) _ _ _ _ (fun u3 u4 u5 => ?_)
  refine Keeps.trans ?_ (keeps_deliverHost _ _ _ _)
  refine Keeps.trans ?_ (keeps_triggerRx _ _)
  exact Keeps.refl _

theorem keeps_digestRx (p0 : HMsg) (s : State) : Keeps 2263207 s (digestRx p0 s) := by
  unfold digestRx
  extract_lets -underBinder -merge -useContext +onlyGivenNames x1
  try clear_value x1
  extract_lets -underBinder -merge -useContext +onlyGivenNames x2
  try clear_value x2
  extract_lets -underBinder -merge -useContext +onlyGivenNames x3
  try clear_value x3
  extract_lets -underBinder -merge -useContext +onlyGivenNames x4
  try clear_value x4
  extract_lets -underBinder -merge -useContext +onlyGivenNames x5
  have h5 : Keeps 2263207 s x5 := by
    unfold x5
    refine Keeps.trans ?_ (keeps_hshDelivered _)
    exact Keeps.refl _
  try clear_value x5
  refine Keeps.ite ?_ ?_
  · refine Keeps.trans ?_ (keeps_absReport _ _ _ _ _ _ _)
    assumption
  · refine Keeps.ite ?_ ?_
    · refine Keeps.trans ?_ (keeps_overReport _ _ _ _ _ _)
      refine Keeps.trans ?_ (keeps_bump _ _)
      assumption
    · assumption

theorem keeps_execAbsenceDigestReceived (p0 : Nat) (p1 : Bool) (s : State) : KeepsO 2263207 s (execAbsenceDigestReceived p0 p1 s) := by
  unfold execAbsenceDigestReceived
  refine KeepsO.done ?_
  refine keeps_rxRow (L := 2263207) _ _ _ _ (fun u1 u2 => ?_)
  refine keeps_hshReceive (L := 2263207) _ _ _ _ (fun u3 u4 u5 => ?_)
  refine Keeps.trans ?_ (keeps_digestRx _ _)
  exact Keeps.refl _

theorem keeps_exhibitRx (s : State) (p1 : Packet) (p2 : Bool) : Keeps 2338743 s (exhibitRx s p1 p2) := by
  unfold exhibitRx
  split
  · exact Keeps.refl _
  · extract_lets -underBinder -merge -useContext +onlyGivenNames x1
    try clear_value x1
    refine Keeps.ite ?_ ?_
    · extract_lets -underBinder -merge -useContext +onlyGivenNames x2
      have h2 : Keeps 2338743 s x2 := by
        unfold x2
        refine Keeps.trans ?_ (keeps_originDup _ _ _)
        exact Keeps.refl _
      try clear_value x2
      extract_lets -underBinder -merge -useContext +onlyGivenNames x3
      try clear_value x3
      extract_lets -underBinder -merge -useContext +onlyGivenNames x4
      have h4 : Keeps 2338743 s x4 := by
        unfold x4
        refine Keeps.trans ?_ (keeps_admitOwn _ _ _ _)
        assumption
      try clear_value x4
      refine Keeps.ite ?_ ?_
      · assumption
      · refine Keeps.ite ?_ ?_
        · refine Keeps.ite ?_ ?_
          · refine Keeps.trans ?_ (keeps_relayAddendum _ _ _ _)
            assumption
          · assumption
        · refine Keeps.ite ?_ ?_
          · refine Keeps.trans ?_ (keeps_relay _ _ _ _ _)
            assumption
          · assumption
    · refine keeps_hshReceive (L := 2338743) _ _ _ _ (fun u5 u6 u7 => ?_)
      refine Keeps.ite ?_ ?_
      · refine Keeps.trans ?_ (keeps_admitOwn _ _ _ _)
        exact Keeps.refl _
      · refine Keeps.trans ?_ (keeps_relayAddendum _ _ _ _)
        refine Keeps.trans ?_ (keeps_deliverHost _ _ _ _)
        exact Keeps.refl _

theorem keeps_execExhibitCloseReceived (p0 : Nat) (p1 : Bool) (s : State) : KeepsO 2338743 s (execExhibitCloseReceived p0 p1 s) := by
  unfold execExhibitCloseReceived
  refine KeepsO.done ?_
  refine keeps_rxRow (L := 2338743) _ _ _ _ (fun u1 u2 => ?_)
  refine Keeps.trans ?_ (keeps_exhibitRx _ _ _)
  exact Keeps.refl _

theorem keeps_execExhibitSealedReceived (p0 : Nat) (p1 : Bool) (s : State) : KeepsO 2263207 s (execExhibitSealedReceived p0 p1 s) := by
  unfold execExhibitSealedReceived
  refine KeepsO.done ?_
  refine keeps_rxRow (L := 2263207) _ _ _ _ (fun u1 u2 => ?_)
  refine keeps_hshReceive (L := 2263207) _ _ _ _ (fun u3 u4 u5 => ?_)
  refine Keeps.trans ?_ (keeps_deliverHost _ _ _ _)
  exact Keeps.refl _

theorem keeps_execAddendumReceived (p0 : Nat) (p1 : Bool) (s : State) : KeepsO 2338743 s (execAddendumReceived p0 p1 s) := by
  unfold execAddendumReceived
  refine KeepsO.done ?_
  refine keeps_rxRow (L := 2338743) _ _ _ _ (fun u1 u2 => ?_)
  refine Keeps.trans ?_ (keeps_exhibitRx _ _ _)
  exact Keeps.refl _

theorem keeps_execArchiveMessageReceived (p0 : Nat) (p1 : Bool) (s : State) : KeepsO 2263207 s (execArchiveMessageReceived p0 p1 s) := by
  unfold execArchiveMessageReceived
  refine KeepsO.done ?_
  refine keeps_rxRow (L := 2263207) _ _ _ _ (fun u1 u2 => ?_)
  refine keeps_hshReceive (L := 2263207) _ _ _ _ (fun u3 u4 u5 => ?_)
  refine Keeps.trans ?_ (keeps_deliverHost _ _ _ _)
  exact Keeps.refl _

theorem keeps_execHelloReceived (p0 : Nat) (p1 : Bool) (s : State) : KeepsO 2261159 s (execHelloReceived p0 p1 s) := by
  unfold execHelloReceived
  refine KeepsO.done ?_
  refine keeps_rxRow (L := 2261159) _ _ _ _ (fun u1 u2 => ?_)
  refine keeps_hshReceive (L := 2261159) _ _ _ _ (fun u3 u4 u5 => ?_)
  refine Keeps.trans ?_ (keeps_helloRx _ _ _)
  refine Keeps.ite ?_ ?_
  · refine Keeps.trans ?_ (keeps_hshDelivered _)
    exact Keeps.refl _
  · exact Keeps.refl _

theorem keeps_execDupNoticeReceived (p0 : Nat) (p1 : Bool) (s : State) : KeepsO 2261159 s (execDupNoticeReceived p0 p1 s) := by
  unfold execDupNoticeReceived
  refine KeepsO.done ?_
  refine keeps_rxRow (L := 2261159) _ _ _ _ (fun u1 u2 => ?_)
  refine keeps_hshReceive (L := 2261159) _ _ _ _ (fun u3 u4 u5 => ?_)
  refine Keeps.trans ?_ (keeps_noticeRx _ _)
  refine Keeps.trans ?_ (keeps_hshDelivered _)
  exact Keeps.refl _

theorem keeps_execControlMessageReceived (p0 : Nat) (p1 : Bool) (s : State) : KeepsO 2263207 s (execControlMessageReceived p0 p1 s) := by
  unfold execControlMessageReceived
  refine KeepsO.done ?_
  refine keeps_rxRow (L := 2263207) _ _ _ _ (fun u1 u2 => ?_)
  refine keeps_hshReceive (L := 2263207) _ _ _ _ (fun u3 u4 u5 => ?_)
  refine Keeps.trans ?_ (keeps_deliverHost _ _ _ _)
  exact Keeps.refl _

theorem keeps_execHelloSend (s : State) : KeepsO 2261159 s (execHelloSend s) := by
  unfold execHelloSend
  refine KeepsO.done ?_
  extract_lets -underBinder -merge -useContext +onlyGivenNames x1
  try clear_value x1
  extract_lets -underBinder -merge -useContext +onlyGivenNames x2
  try clear_value x2
  extract_lets -underBinder -merge -useContext +onlyGivenNames x3
  try clear_value x3
  refine Keeps.ite ?_ ?_
  · exact Keeps.refl _
  · refine Keeps.ite ?_ ?_
    · refine Keeps.upd (t := s) ?_ rfl rfl rfl (Nat.le_refl _)
      exact Keeps.refl _
    · refine Keeps.trans ?_ (keeps_hshSend _ _ _ _ _ _ _ _ _)
      refine Keeps.upd (t := s) ?_ rfl rfl rfl (Nat.le_refl _)
      exact Keeps.refl _

theorem keeps_execAbsenceEntryFree (p0 : Nat) (s : State) : KeepsO 32768 s (execAbsenceEntryFree p0 s) := by
  unfold execAbsenceEntryFree
  refine KeepsO.done ?_
  split
  · refine Keeps.ite ?_ ?_
    · refine Keeps.upd (t := s) ?_ rfl rfl rfl (Nat.le_refl _)
      exact Keeps.refl _
    · exact Keeps.refl _
  · exact Keeps.refl _

theorem keeps_execAbsenceOverflowWindow (s : State) : KeepsO 2261159 s (execAbsenceOverflowWindow s) := by
  unfold execAbsenceOverflowWindow
  refine KeepsO.done ?_
  split
  · exact Keeps.refl _
  · refine Keeps.ite ?_ ?_
    · exact Keeps.refl _
    · refine Keeps.ite ?_ ?_
      · extract_lets -underBinder -merge -useContext +onlyGivenNames x1
        extract_lets -underBinder -merge -useContext +onlyGivenNames x2
        have h2 : Keeps 2261159 s x2 := by
          unfold x2
          refine Keeps.upd (t := s) ?_ rfl rfl rfl (Nat.le_refl _)
          exact Keeps.refl _
        try clear_value x2
        refine Keeps.ite ?_ ?_
        · refine Keeps.trans ?_ (keeps_sendDigest _ _ _ _ _ _ _)
          assumption
        · assumption
      · refine Keeps.ite ?_ ?_
        · refine Keeps.upd (t := s) ?_ rfl rfl rfl (Nat.le_refl _)
          exact Keeps.refl _
        · refine Keeps.upd (t := s) ?_ rfl rfl rfl (Nat.le_refl _)
          exact Keeps.refl _

theorem keeps_execRelayEntryFree (s : State) : KeepsO 32768 s (execRelayEntryFree s) := by
  unfold execRelayEntryFree
  refine KeepsO.done ?_
  refine Keeps.upd (t := s) ?_ rfl rfl rfl (Nat.le_refl _)
  exact Keeps.refl _

theorem keeps_absClear (s : State) : Keeps 32768 s (absClear s) := by
  unfold absClear
  refine Keeps.upd (t := s) ?_ rfl rfl rfl (Nat.le_refl _)
  exact Keeps.refl _

theorem keeps_execAbsenceClear (s : State) : KeepsO 32768 s (execAbsenceClear s) := by
  unfold execAbsenceClear
  refine KeepsO.done ?_
  refine Keeps.trans ?_ (keeps_absClear _)
  exact Keeps.refl _

theorem keeps_hshEnabledNow (s : State) : Keeps 32769 s (hshEnabledNow s) := by
  unfold hshEnabledNow
  extract_lets -underBinder -merge -useContext +onlyGivenNames x1
  try clear_value x1
  refine Keeps.trans ?_ (keeps_setReg64 _ _ _ _)
  refine Keeps.upd (t := s) ?_ rfl rfl rfl (Nat.le_refl _)
  exact Keeps.refl _

end Sys2Proof.Machine
end

