-- ==== Sys2Proof/Laws/KeepsPlanCmds.lean ====
section
/-! SUPPORT. What each function of Machine/PlanCmds.lean leaves unchanged (the mask names the areas it may change). -/

set_option Elab.async false

namespace Sys2Proof.Machine

theorem keeps_twinHelloSend (s : State) : Keeps 2130087 s (twinHelloSend s) := by
  unfold twinHelloSend
  refine Keeps.trans ?_ (keeps_twinMsg _ _ _)
  exact Keeps.refl _

theorem keeps_execAccessionEnable (p0 : Nat) (p1 : Word) (s : State) : KeepsO 2130599 s (execAccessionEnable p0 p1 s) := by
  unfold execAccessionEnable
  refine KeepsO.done ?_
  refine Keeps.ite ?_ ?_
  · refine Keeps.trans ?_ (keeps_twinRefuse _)
    exact Keeps.refl _
  · refine Keeps.trans ?_ (keeps_accCtlWrite _ _ _)
    exact Keeps.refl _

theorem keeps_heldCtlApply (s : State) (p1 : Nat) (p2 : List Word) : Keeps 2130599 s (heldCtlApply s p1 p2) := by
  unfold heldCtlApply
  refine Keeps.foldl ?_ (fun y1 a1 hy1 => ?_)
  · exact Keeps.refl _
  · refine Keeps.ite ?_ ?_
    · assumption
    · refine Keeps.trans ?_ (keeps_accCtlWrite _ _ _)
      assumption

theorem keeps_execRegistrationCheckEnd (s : State) : KeepsO 2130599 s (execRegistrationCheckEnd s) := by
  unfold execRegistrationCheckEnd
  refine KeepsO.done ?_
  split
  · exact Keeps.refl _
  · extract_lets -underBinder -merge -useContext +onlyGivenNames x1
    try clear_value x1
    refine Keeps.trans ?_ (keeps_heldCtlApply _ _ _)
    refine Keeps.trans ?_ (keeps_accCheckEnd _ _)
    refine Keeps.upd (t := s) ?_ rfl rfl rfl (Nat.le_refl _)
    exact Keeps.refl _

theorem keeps_execAccessionRetire (p0 : Nat) (p1 : Word) (s : State) : KeepsO 2138791 s (execAccessionRetire p0 p1 s) := by
  unfold execAccessionRetire
  refine KeepsO.done ?_
  refine Keeps.ite ?_ ?_
  · refine Keeps.trans ?_ (keeps_twinRefuse _)
    exact Keeps.refl _
  · refine Keeps.trans ?_ (keeps_pinEval _)
    refine Keeps.trans ?_ (keeps_accCtlWrite _ _ _)
    exact Keeps.refl _

theorem keeps_accAllocRead (s : State) : KeepsF 1 s (accAllocRead s) := by
  unfold accAllocRead
  split
  · refine KeepsF.mk ?_
    exact Keeps.refl _
  · refine KeepsF.mk ?_
    refine Keeps.trans ?_ (keeps_refuse _ _ _)
    exact Keeps.refl _

theorem keeps_execAccAllocRead (s : State) : KeepsO 3 s (execAccAllocRead s) := by
  unfold execAccAllocRead
  refine KeepsO.done ?_
  extract_lets -underBinder -merge -useContext +onlyGivenNames x1
  have h1 : KeepsF 3 s x1 := by
    unfold x1
    refine KeepsF.trans ?_ (keeps_accAllocRead _)
    exact Keeps.refl _
  try clear_value x1
  refine Keeps.trans ?_ (keeps_respond _ _)
  refine KeepsF.snd ?_
  assumption

theorem keeps_plnOpShow (s : State) (p1 : Nat) (p2 : Nat) (p3 : Nat) : Keeps 1 s (plnOpShow s p1 p2 p3) := by
  unfold plnOpShow
  refine Keeps.trans ?_ (keeps_setRegN _ _ _)
  exact Keeps.refl _

theorem keeps_plnFailRegs (s : State) (p1 : PlanFail) : Keeps 1 s (plnFailRegs s p1) := by
  unfold plnFailRegs
  refine Keeps.trans ?_ (keeps_setRegN _ _ _)
  refine Keeps.trans ?_ (keeps_setRegN _ _ _)
  refine Keeps.trans ?_ (keeps_setRegN _ _ _)
  exact Keeps.refl _

theorem keeps_plnFailed (s : State) (p1 : Nat) : Keeps 7 s (plnFailed s p1) := by
  unfold plnFailed
  refine Keeps.trans ?_ (keeps_evt _ _ _)
  refine Keeps.trans ?_ (keeps_opEnd _ _ _ _)
  exact Keeps.refl _

theorem keeps_plnLoadStart (s : State) (p1 : Nat) (p2 : Nat) : Keeps 263 s (plnLoadStart s p1 p2) := by
  unfold plnLoadStart
  refine Keeps.ite ?_ ?_
  · refine Keeps.trans ?_ (keeps_opRefuseStart _ _)
    exact Keeps.refl _
  · extract_lets -underBinder -merge -useContext +onlyGivenNames x1
    try clear_value x1
    extract_lets -underBinder -merge -useContext +onlyGivenNames x2
    have h2 : Keeps 263 s x2 := by
      unfold x2
      refine Keeps.trans ?_ (keeps_plnFailRegs _ _)
      refine Keeps.trans ?_ (keeps_plnOpShow _ _ _ _)
      refine Keeps.trans ?_ (keeps_opStart _ _)
      exact Keeps.refl _
    try clear_value x2
    extract_lets -underBinder -merge -useContext +onlyGivenNames x3
    try clear_value x3
    refine Keeps.ite ?_ ?_
    · refine Keeps.trans ?_ (keeps_plnFailed _ _)
      assumption
    · refine Keeps.ite ?_ ?_
      · refine Keeps.trans ?_ (keeps_plnFailed _ _)
        assumption
      · refine Keeps.ite ?_ ?_
        · refine Keeps.trans ?_ (keeps_plnFailed _ _)
          assumption
        · extract_lets -underBinder -merge -useContext +onlyGivenNames x4
          extract_lets -underBinder -merge -useContext +onlyGivenNames x5
          have h5 : Keeps 263 s x5 := by
            unfold x5
            refine Keeps.trans ?_ (keeps_setPlanSlot _ _ _)
            assumption
          try clear_value x5
          refine Keeps.upd (t := x5) ?_ rfl rfl rfl (Nat.le_refl _)
          assumption

theorem keeps_plnDataStore (s : State) (p1 : Word) : Keeps 257 s (plnDataStore s p1) := by
  unfold plnDataStore
  extract_lets -underBinder -merge -useContext +onlyGivenNames x1
  try clear_value x1
  refine Keeps.ite ?_ ?_
  · extract_lets -underBinder -merge -useContext +onlyGivenNames x2
    try clear_value x2
    refine Keeps.trans ?_ (keeps_opProgress _ _ _)
    refine Keeps.upd (t := s) ?_ rfl rfl rfl (Nat.le_refl _)
    exact Keeps.refl _
  · refine Keeps.trans ?_ (keeps_refuse _ _ _)
    exact Keeps.refl _

theorem keeps_execPlnDataWrite (p0 : Word) (s : State) : KeepsO 257 s (execPlnDataWrite p0 s) := by
  unfold execPlnDataWrite
  refine KeepsO.done ?_
  refine Keeps.trans ?_ (keeps_plnDataStore _ _)
  exact Keeps.refl _

theorem keeps_placePlan (s : State) (p1 : Nat) (p2 : Plan) : Keeps 4096 s (placePlan s p1 p2) := by
  unfold placePlan
  extract_lets -underBinder -merge -useContext +onlyGivenNames m0 m1
  refine Keeps.upd (Keeps.refl s) rfl rfl rfl (Nat.le_refl _) (r2 := ?_) (r3 := smFilter_wf _ _ _)
  intro h
  have h0 : smWf (fun _ => 0#32) m0 = true := smFilter_wf _ _ _ h
  suffices hs : ∀ (l : List Nat) (m : SMap Word), smWf (fun _ => 0#32) m = true →
      smWf (fun _ => 0#32) (l.foldl (fun m d => p2.tours.foldl (fun m t =>
        if t.affinity.testBit d then (tourWords p2 t p1).foldl (fun m w => smPut 0#32 m (d * 8192 + w.1) w.2) m else m) m) m) = true
    from hs _ _ h0
  intro l
  induction l with
  | nil => exact fun m h => h
  | cons d r ih =>
    intro m h
    refine ih _ ?_
    generalize p2.tours = ts
    induction ts generalizing m with
    | nil => exact h
    | cons t ts iht =>
      refine iht _ ?_
      dsimp only
      split
      · generalize tourWords p2 t p1 = ws
        induction ws generalizing m with
        | nil => exact h
        | cons w ws ihw => exact ihw _ (smPut_wf (fun _ => 0#32) _ _ _ h)
      · exact h

theorem keeps_plnLoadFail (s : State) (p1 : Nat) (p2 : Nat) (p3 : Nat) (p4 : PlanFail) : Keeps 263 s (plnLoadFail s p1 p2 p3 p4) := by
  unfold plnLoadFail
  extract_lets -underBinder -merge -useContext +onlyGivenNames x1
  have h1 : Keeps 263 s x1 := by
    unfold x1
    refine Keeps.trans ?_ (keeps_plnFailRegs _ _)
    refine Keeps.trans ?_ (keeps_plnOpShow _ _ _ _)
    refine Keeps.trans ?_ (keeps_setPlanSlot _ _ _)
    exact Keeps.refl _
  try clear_value x1
  refine Keeps.trans ?_ (keeps_plnFailed _ _)
  refine Keeps.trans ?_ (keeps_opProgress _ _ _)
  assumption

theorem keeps_plnLoadDone (s : State) (p1 : Nat) : Keeps 2134439 s (plnLoadDone s p1) := by
  unfold plnLoadDone
  extract_lets -underBinder -merge -useContext +onlyGivenNames x1
  try clear_value x1
  extract_lets -underBinder -merge -useContext +onlyGivenNames x2
  try clear_value x2
  extract_lets -underBinder -merge -useContext +onlyGivenNames x3
  have h3 : Keeps 2134439 s x3 := by
    unfold x3
    refine Keeps.trans ?_ (keeps_placePlan _ _ _)
    exact Keeps.refl _
  try clear_value x3
  extract_lets -underBinder -merge -useContext +onlyGivenNames x4
  extract_lets -underBinder -merge -useContext +onlyGivenNames x5
  have h5 : Keeps 2134439 s x5 := by
    unfold x5
    refine Keeps.trans ?_ (keeps_setPlanSlot _ _ _)
    assumption
  try clear_value x5
  extract_lets -underBinder -merge -useContext +onlyGivenNames x6
  have h6 : Keeps 2134439 s x6 := by
    unfold x6
    refine Keeps.ite ?_ ?_
    · assumption
    · refine Keeps.trans ?_ (keeps_setRegN _ _ _)
      assumption
  try clear_value x6
  extract_lets -underBinder -merge -useContext +onlyGivenNames x7
  have h7 : Keeps 2134439 s x7 := by
    unfold x7
    refine Keeps.trans ?_ (keeps_lifeBump _ _ _)
    refine Keeps.trans ?_ (keeps_evt _ _ _)
    refine Keeps.trans ?_ (keeps_opEnd _ _ _ _)
    assumption
  try clear_value x7
  refine Keeps.ite ?_ ?_
  · refine Keeps.trans ?_ (keeps_twinHelloSend _)
    assumption
  · assumption

theorem keeps_loadRun (p0 p1 p2 p3 : Nat) (s : State) : Keeps 2134439 s (loadRun p0 p1 p2 p3 s) := by
  induction p3 generalizing s with
  | zero => exact Keeps.refl _
  | succ k ih =>
    unfold loadRun
    extract_lets -underBinder -merge -useContext +onlyGivenNames q whole m
    refine Keeps.ite (Keeps.refl _) ?_
    split
    · exact (keeps_plnLoadFail ..).mono
    · extract_lets -underBinder -merge -useContext +onlyGivenNames t
      have ht : Keeps 2134439 s t := (keeps_opProgress ..).mono
      clear_value t
      refine Keeps.ite ht (Keeps.ite (Keeps.trans ht (keeps_plnLoadDone ..)) ?_)
      exact Keeps.trans (Keeps.trans (Keeps.trans ht (keeps_plnOpShow ..)) (keeps_opProgress ..)) (ih _)

theorem keeps_loadCopied (s : State) (p1 : Nat) (p2 : List Byte) : Keeps 257 s (loadCopied s p1 p2) := by
  unfold loadCopied
  extract_lets -underBinder -merge -useContext +onlyGivenNames x1
  extract_lets -underBinder -merge -useContext +onlyGivenNames x2
  have h2 : Keeps 257 s x2 := by
    unfold x2
    refine Keeps.trans ?_ (keeps_setPlanSlot _ _ _)
    exact Keeps.refl _
  try clear_value x2
  refine Keeps.trans ?_ (keeps_opProgress _ _ _)
  refine Keeps.trans ?_ (keeps_plnOpShow _ _ _ _)
  refine Keeps.upd (t := x2) ?_ rfl rfl rfl (Nat.le_refl _)
  assumption

theorem keeps_execPlnLoadEnd (p0 : List Byte) (p1 : Bool) (p2 : LoadReach) (s : State) : KeepsO 2134439 s (execPlnLoadEnd p0 p1 p2 s) := by
  unfold execPlnLoadEnd
  refine KeepsO.done ?_
  extract_lets -underBinder -merge -useContext +onlyGivenNames x1
  try clear_value x1
  extract_lets -underBinder -merge -useContext +onlyGivenNames x2
  try clear_value x2
  extract_lets -underBinder -merge -useContext +onlyGivenNames x3
  try clear_value x3
  extract_lets -underBinder -merge -useContext +onlyGivenNames x4
  try clear_value x4
  refine Keeps.ite ?_ ?_
  · exact Keeps.refl _
  · refine Keeps.ite ?_ ?_
    · refine Keeps.trans ?_ (keeps_loadRun _ _ _ _ _)
      exact Keeps.refl _
    · refine Keeps.ite ?_ ?_
      · exact Keeps.refl _
      · refine Keeps.ite ?_ ?_
        · refine Keeps.trans ?_ (keeps_plnLoadFail _ _ _ _ _)
          exact Keeps.refl _
        · refine Keeps.ite ?_ ?_
          · refine Keeps.ite ?_ ?_
            · exact Keeps.refl _
            · refine Keeps.trans ?_ (keeps_opProgress _ _ _)
              exact Keeps.refl _
          · refine Keeps.ite ?_ ?_
            · exact Keeps.refl _
            · refine Keeps.trans ?_ (keeps_loadRun _ _ _ _ _)
              refine Keeps.trans ?_ (keeps_loadCopied _ _ _)
              exact Keeps.refl _

theorem keeps_vaultPlan (s : State) (p1 : Plan) (p2 : Nat) (p3 : Bool) (p4 : Bool) : Keeps 1280 s (vaultPlan s p1 p2 p3 p4) := by
  unfold vaultPlan
  extract_lets -underBinder -merge -useContext +onlyGivenNames x1
  try clear_value x1
  extract_lets -underBinder -merge -useContext +onlyGivenNames x2
  extract_lets -underBinder -merge -useContext +onlyGivenNames x3
  have h3 : Keeps 1280 s x3 := by
    unfold x3
    refine Keeps.ite ?_ ?_
    · refine Keeps.upd (t := s) ?_ rfl rfl rfl (Nat.le_refl _)
      exact Keeps.refl _
    · exact Keeps.refl _
  try clear_value x3
  extract_lets -underBinder -merge -useContext +onlyGivenNames x4
  extract_lets -underBinder -merge -useContext +onlyGivenNames x5
  have h5 : Keeps 1280 s x5 := by
    unfold x5
    refine Keeps.upd (t := x3) ?_ rfl rfl rfl (Nat.le_refl _)
    assumption
  try clear_value x5
  refine Keeps.ite ?_ ?_
  · refine Keeps.upd (t := x5) ?_ rfl rfl rfl (Nat.le_refl _)
    assumption
  · assumption

theorem keeps_swapAccept (s : State) (p1 : Nat) (p2 : Nat) (p3 : Plan) (p4 : Bool) : Keeps 2141623 s (swapAccept s p1 p2 p3 p4) := by
  unfold swapAccept
  extract_lets -underBinder -merge -useContext +onlyGivenNames x1
  try clear_value x1
  extract_lets -underBinder -merge -useContext +onlyGivenNames x2
  try clear_value x2
  extract_lets -underBinder -merge -useContext +onlyGivenNames x3
  try clear_value x3
  extract_lets -underBinder -merge -useContext +onlyGivenNames x4
  try clear_value x4
  extract_lets -underBinder -merge -useContext +onlyGivenNames x5
  extract_lets -underBinder -merge -useContext +onlyGivenNames x6
  have h6 : Keeps 2141623 s x6 := by
    unfold x6
    refine Keeps.ite ?_ ?_
    · refine Keeps.trans ?_ (keeps_swapDiscard _ _)
      refine Keeps.trans ?_ (keeps_setPlanSlot _ _ _)
      exact Keeps.refl _
    · exact Keeps.refl _
  try clear_value x6
  extract_lets -underBinder -merge -useContext +onlyGivenNames x7
  extract_lets -underBinder -merge -useContext +onlyGivenNames x8
  have h8 : Keeps 2141623 s x8 := by
    unfold x8
    refine Keeps.trans ?_ (keeps_setPlanSlot _ _ _)
    assumption
  try clear_value x8
  extract_lets -underBinder -merge -useContext +onlyGivenNames x9
  extract_lets -underBinder -merge -useContext +onlyGivenNames x10
  have h10 : Keeps 2141623 s x10 := by
    unfold x10
    refine Keeps.upd (t := x8) ?_ rfl rfl rfl (Nat.le_refl _)
    assumption
  try clear_value x10
  extract_lets -underBinder -merge -useContext +onlyGivenNames x11
  have h11 : Keeps 2141623 s x11 := by
    unfold x11
    refine Keeps.trans ?_ (keeps_vaultPlan _ _ _ _ _)
    assumption
  try clear_value x11
  extract_lets -underBinder -merge -useContext +onlyGivenNames x12
  extract_lets -underBinder -merge -useContext +onlyGivenNames x13
  extract_lets -underBinder -merge -useContext +onlyGivenNames x14
  have h14 : Keeps 2141623 s x14 := by
    unfold x14
    refine Keeps.upd (t := x11) ?_ rfl rfl rfl (Nat.le_refl _)
    assumption
  try clear_value x14
  extract_lets -underBinder -merge -useContext +onlyGivenNames x15
  have h15 : Keeps 2141623 s x15 := by
    unfold x15
    refine Keeps.trans ?_ (keeps_paceRetarget _)
    refine Keeps.trans ?_ (keeps_evt _ _ _)
    assumption
  try clear_value x15
  extract_lets -underBinder -merge -useContext +onlyGivenNames x16
  have h16 : Keeps 2141623 s x16 := by
    unfold x16
    refine Keeps.trans ?_ (keeps_twinSend _ _ _)
    assumption
  try clear_value x16
  refine Keeps.ite ?_ ?_
  · refine Keeps.trans ?_ (keeps_setRegN _ _ _)
    refine Keeps.trans ?_ (keeps_setRegN _ _ _)
    assumption
  · assumption

theorem keeps_plnSwapStart (s : State) (p1 : Nat) (p2 : Nat) (p3 : Bool) : Keeps 2141623 s (plnSwapStart s p1 p2 p3) := by
  unfold plnSwapStart
  refine Keeps.ite ?_ ?_
  · refine Keeps.trans ?_ (keeps_twinRefuse _)
    exact Keeps.refl _
  · refine Keeps.ite ?_ ?_
    · refine Keeps.trans ?_ (keeps_opRefuseStart _ _)
      exact Keeps.refl _
    · extract_lets -underBinder -merge -useContext +onlyGivenNames x1
      have h1 : Keeps 2141623 s x1 := by
        unfold x1
        refine Keeps.trans ?_ (keeps_plnOpShow _ _ _ _)
        refine Keeps.trans ?_ (keeps_opStart _ _)
        exact Keeps.refl _
      try clear_value x1
      extract_lets -underBinder -merge -useContext +onlyGivenNames x2
      extract_lets -underBinder -merge -useContext +onlyGivenNames x3
      have h3 : Keeps 2141623 s x3 := by
        unfold x3
        refine Keeps.upd (t := x1) ?_ rfl rfl rfl (Nat.le_refl _)
        assumption
      try clear_value x3
      extract_lets -underBinder -merge -useContext +onlyGivenNames x4
      try clear_value x4
      refine Keeps.ite ?_ ?_
      · refine Keeps.trans ?_ (keeps_plnFailed _ _)
        assumption
      · split
        · assumption
        · extract_lets -underBinder -merge -useContext +onlyGivenNames x5
          have h5 : Keeps 2141623 s x5 := by
            unfold x5
            refine Keeps.trans ?_ (keeps_slotRetire _)
            refine Keeps.trans ?_ (keeps_swapAccept _ _ _ _ _)
            assumption
          try clear_value x5
          refine Keeps.ite ?_ ?_
          · assumption
          · refine Keeps.trans ?_ (keeps_opEnd _ _ _ _)
            assumption

theorem keeps_plnSwapWrite (s : State) (p1 : Word) : Keeps 2141623 s (plnSwapWrite s p1) := by
  unfold plnSwapWrite
  refine Keeps.ite ?_ ?_
  · refine Keeps.trans ?_ (keeps_plnSwapStart _ _ _ _)
    exact Keeps.refl _
  · exact Keeps.refl _

theorem keeps_execPlnSwap (p0 : Word) (s : State) : KeepsO 2141623 s (execPlnSwap p0 s) := by
  unfold execPlnSwap
  refine KeepsO.done ?_
  refine Keeps.trans ?_ (keeps_plnSwapWrite _ _)
  exact Keeps.refl _

theorem keeps_tplRegister (s : State) (p1 : Nat) (p2 : List Word) : Keeps 2130599 s (tplRegister s p1 p2) := by
  unfold tplRegister
  extract_lets -underBinder -merge -useContext +onlyGivenNames x1
  have h1 : ∀ z2 z3, Keeps 2130599 z2 (x1 z2 z3) := by
    intro z2 z3
    unfold x1
    refine Keeps.ite ?_ ?_
    · refine Keeps.trans ?_ (keeps_setReg _ _ _)
      exact Keeps.refl _
    · exact Keeps.refl _
  try clear_value x1
  extract_lets -underBinder -merge -useContext +onlyGivenNames x4
  have h4 : Keeps 2130599 s x4 := by
    unfold x4
    refine Keeps.trans ?_ (keeps_accCheckEnd _ _)
    refine Keeps.foldl ?_ (fun y5 a5 hy5 => ?_)
    · exact Keeps.refl _
    · refine Keeps.trans ?_ (h1 ..)
      assumption
  try clear_value x4
  refine Keeps.ite ?_ ?_
  · refine Keeps.trans ?_ (keeps_setRegN _ _ _)
    assumption
  · extract_lets -underBinder -merge -useContext +onlyGivenNames x6
    try clear_value x6
    extract_lets -underBinder -merge -useContext +onlyGivenNames x7
    have h7 : Keeps 2130599 s x7 := by
      unfold x7
      refine Keeps.ite ?_ ?_
      · refine Keeps.trans ?_ (keeps_setRegN _ _ _)
        assumption
      · assumption
    try clear_value x7
    refine Keeps.trans ?_ (keeps_setRegN _ _ _)
    assumption

theorem keeps_applyTemplates (s : State) (p1 : Plan) (p2 : Nat) : Keeps 2130599 s (applyTemplates s p1 p2) := by
  unfold applyTemplates
  extract_lets -underBinder -merge -useContext +onlyGivenNames x1
  try clear_value x1
  extract_lets -underBinder -merge -useContext +onlyGivenNames x2
  try clear_value x2
  extract_lets -underBinder -merge -useContext +onlyGivenNames x3
  try clear_value x3
  extract_lets -underBinder -merge -useContext +onlyGivenNames x4
  have h4 : Keeps 2130599 s x4 := by
    unfold x4
    refine Keeps.foldl ?_ (fun y5 a5 hy5 => ?_)
    · exact Keeps.refl _
    · split
      · refine Keeps.ite ?_ ?_
        · refine Keeps.trans ?_ (keeps_tplRegister _ _ _)
          assumption
        · assumption
      · assumption
  try clear_value x4
  refine Keeps.trans ?_ (keeps_opProgress _ _ _)
  assumption

theorem keeps_swapRun (s : State) (p1 : Nat) : Keeps 2130599 s (swapRun s p1) := by
  unfold swapRun
  split
  · extract_lets -underBinder -merge -useContext +onlyGivenNames x1
    have h1 : Keeps 2130599 s x1 := by
      unfold x1
      refine Keeps.trans ?_ (keeps_applyTemplates _ _ _)
      exact Keeps.refl _
    try clear_value x1
    refine Keeps.ite ?_ ?_
    · refine Keeps.trans ?_ (keeps_opEnd _ _ _ _)
      assumption
    · assumption
  · refine Keeps.trans ?_ (keeps_opEnd _ _ _ _)
    exact Keeps.refl _

theorem keeps_execPlnSwapEnd (s : State) : KeepsO 2130599 s (execPlnSwapEnd s) := by
  unfold execPlnSwapEnd
  refine KeepsO.done ?_
  refine Keeps.ite ?_ ?_
  · exact Keeps.refl _
  · refine Keeps.trans ?_ (keeps_swapRun _ _)
    exact Keeps.refl _

theorem keeps_fixStart (s : State) (p1 : Nat) (p2 : Plan) : Keeps 256 s (fixStart s p1 p2) := by
  unfold fixStart
  extract_lets -underBinder -merge -useContext +onlyGivenNames x1
  try clear_value x1
  refine Keeps.ite ?_ ?_
  · exact Keeps.refl _
  · extract_lets -underBinder -merge -useContext +onlyGivenNames x2
    try clear_value x2
    extract_lets -underBinder -merge -useContext +onlyGivenNames x3
    have h3 : Keeps 256 s x3 := by
      unfold x3
      refine Keeps.trans ?_ (keeps_setPlanSlot _ _ _)
      exact Keeps.refl _
    try clear_value x3
    refine Keeps.ite ?_ ?_
    · refine Keeps.upd (t := x3) ?_ rfl rfl rfl (Nat.le_refl _)
      assumption
    · assumption

theorem keeps_fixStarts (s : State) : Keeps 3351 s (fixStarts s) := by
  unfold fixStarts
  extract_lets -underBinder -merge -useContext +onlyGivenNames x1
  have h1 : Keeps 3351 s x1 := by
    unfold x1
    split
    · extract_lets -underBinder -merge -useContext +onlyGivenNames x2
      have h2 : Keeps 3351 s x2 := by
        unfold x2
        refine Keeps.trans ?_ (keeps_fixStart _ _ _)
        exact Keeps.refl _
      try clear_value x2
      refine Keeps.trans ?_ (keeps_timersFrom _ _ _)
      assumption
    · exact Keeps.refl _
  try clear_value x1
  refine Keeps.trans ?_ (keeps_slotRetire _)
  refine Keeps.trans ?_ (keeps_lapsePast _)
  assumption

theorem keeps_plnCmdResult (s : State) (p1 : Nat) : Keeps 1 s (plnCmdResult s p1) := by
  unfold plnCmdResult
  extract_lets -underBinder -merge -useContext +onlyGivenNames x1
  have h1 : Keeps 1 s x1 := by
    unfold x1
    refine Keeps.trans ?_ (keeps_setRegN _ _ _)
    exact Keeps.refl _
  try clear_value x1
  refine Keeps.ite ?_ ?_
  · assumption
  · refine Keeps.trans ?_ (keeps_refuse _ _ _)
    assumption

theorem keeps_plnWithdraw (s : State) : Keeps 1303 s (plnWithdraw s) := by
  unfold plnWithdraw
  refine Keeps.ite ?_ ?_
  · refine Keeps.trans ?_ (keeps_plnCmdResult _ _)
    exact Keeps.refl _
  · split
    · refine Keeps.trans ?_ (keeps_plnCmdResult _ _)
      exact Keeps.refl _
    · split
      · exact Keeps.refl _
      · extract_lets -underBinder -merge -useContext +onlyGivenNames x1
        try clear_value x1
        extract_lets -underBinder -merge -useContext +onlyGivenNames x2
        try clear_value x2
        extract_lets -underBinder -merge -useContext +onlyGivenNames x3
        try clear_value x3
        extract_lets -underBinder -merge -useContext +onlyGivenNames x4
        have h4 : Keeps 1303 s x4 := by
          unfold x4
          refine Keeps.trans ?_ (keeps_setPlanSlot _ _ _)
          exact Keeps.refl _
        try clear_value x4
        extract_lets -underBinder -merge -useContext +onlyGivenNames x5
        extract_lets -underBinder -merge -useContext +onlyGivenNames x6
        extract_lets -underBinder -merge -useContext +onlyGivenNames x7
        have h7 : Keeps 1303 s x7 := by
          unfold x7
          refine Keeps.upd (t := x4) ?_ rfl rfl rfl (Nat.le_refl _)
          assumption
        try clear_value x7
        refine Keeps.trans ?_ (keeps_slotRetire _)
        refine Keeps.trans ?_ (keeps_paceRetarget _)
        refine Keeps.trans ?_ (keeps_plnCmdResult _ _)
        assumption

theorem keeps_plnDiscard (s : State) (p1 : Nat) : Keeps 257 s (plnDiscard s p1) := by
  unfold plnDiscard
  refine Keeps.ite ?_ ?_
  · refine Keeps.trans ?_ (keeps_plnCmdResult _ _)
    refine Keeps.trans ?_ (keeps_setPlanSlot _ _ _)
    exact Keeps.refl _
  · refine Keeps.trans ?_ (keeps_plnCmdResult _ _)
    exact Keeps.refl _

theorem keeps_plnShort (s : State) (p1 : Word) : Keeps 1303 s (plnShort s p1) := by
  unfold plnShort
  refine Keeps.ite ?_ ?_
  · exact Keeps.refl _
  · refine Keeps.ite ?_ ?_
    · refine Keeps.trans ?_ (keeps_twinRefuse _)
      exact Keeps.refl _
    · extract_lets -underBinder -merge -useContext +onlyGivenNames x1
      have h1 : Keeps 1303 s x1 := by
        unfold x1
        refine Keeps.ite ?_ ?_
        · refine Keeps.trans ?_ (keeps_plnWithdraw _)
          exact Keeps.refl _
        · exact Keeps.refl _
      try clear_value x1
      refine Keeps.ite ?_ ?_
      · refine Keeps.trans ?_ (keeps_plnDiscard _ _)
        assumption
      · assumption

theorem keeps_execWithdraw (s : State) : KeepsO 1303 s (execWithdraw s) := by
  unfold execWithdraw
  refine KeepsO.done ?_
  refine Keeps.trans ?_ (keeps_plnShort _ _)
  exact Keeps.refl _

theorem keeps_execDiscard (p0 : Nat) (s : State) : KeepsO 1303 s (execDiscard p0 s) := by
  unfold execDiscard
  refine KeepsO.done ?_
  refine Keeps.trans ?_ (keeps_plnShort _ _)
  exact Keeps.refl _

theorem keeps_plnCommitStart (s : State) (p1 : Nat) (p2 : Bool) (p3 : Bool) : Keeps 263 s (plnCommitStart s p1 p2 p3) := by
  unfold plnCommitStart
  refine Keeps.ite ?_ ?_
  · refine Keeps.trans ?_ (keeps_opRefuseStart _ _)
    exact Keeps.refl _
  · extract_lets -underBinder -merge -useContext +onlyGivenNames x1
    have h1 : Keeps 263 s x1 := by
      unfold x1
      refine Keeps.trans ?_ (keeps_plnOpShow _ _ _ _)
      refine Keeps.trans ?_ (keeps_opStart _ _)
      exact Keeps.refl _
    try clear_value x1
    extract_lets -underBinder -merge -useContext +onlyGivenNames x2
    extract_lets -underBinder -merge -useContext +onlyGivenNames x3
    have h3 : Keeps 263 s x3 := by
      unfold x3
      refine Keeps.upd (t := x1) ?_ rfl rfl rfl (Nat.le_refl _)
      assumption
    try clear_value x3
    extract_lets -underBinder -merge -useContext +onlyGivenNames x4
    try clear_value x4
    refine Keeps.ite ?_ ?_
    · assumption
    · refine Keeps.trans ?_ (keeps_plnFailed _ _)
      assumption

theorem keeps_plnCommitWrite (s : State) (p1 : Word) : Keeps 263 s (plnCommitWrite s p1) := by
  unfold plnCommitWrite
  refine Keeps.ite ?_ ?_
  · refine Keeps.trans ?_ (keeps_plnCommitStart _ _ _ _)
    exact Keeps.refl _
  · exact Keeps.refl _

theorem keeps_execPlnCommit (p0 : Word) (s : State) : KeepsO 263 s (execPlnCommit p0 s) := by
  unfold execPlnCommit
  refine KeepsO.done ?_
  refine Keeps.trans ?_ (keeps_plnCommitWrite _ _)
  exact Keeps.refl _

theorem keeps_selCommit (s : State) (p1 : Nat) (p2 : Plan) (p3 : Nat) : Keeps 256 s (selCommit s p1 p2 p3) := by
  unfold selCommit
  extract_lets -underBinder -merge -useContext +onlyGivenNames x1
  try clear_value x1
  extract_lets -underBinder -merge -useContext +onlyGivenNames x2
  try clear_value x2
  extract_lets -underBinder -merge -useContext +onlyGivenNames x3
  try clear_value x3
  refine Keeps.upd (t := s) ?_ rfl rfl rfl (Nat.le_refl _)
  exact Keeps.refl _

theorem keeps_setArea (s : State) (p1 : Nat) (p2 : List Byte) : Keeps 256 s (setArea s p1 p2) := by
  unfold setArea
  refine Keeps.upd (t := s) ?_ rfl rfl rfl (Nat.le_refl _)
  exact Keeps.refl _

theorem keeps_commitCopy (s : State) (p1 : Nat) : Keeps 257 s (commitCopy s p1) := by
  unfold commitCopy
  extract_lets -underBinder -merge -useContext +onlyGivenNames x1
  try clear_value x1
  extract_lets -underBinder -merge -useContext +onlyGivenNames x2
  try clear_value x2
  extract_lets -underBinder -merge -useContext +onlyGivenNames x3
  try clear_value x3
  refine Keeps.trans ?_ (keeps_opProgress _ _ _)
  refine Keeps.trans ?_ (keeps_setArea _ _ _)
  exact Keeps.refl _

theorem keeps_execPlnCommitEnd (p0 : Bool) (p1 : Nat) (s : State) : KeepsO 263 s (execPlnCommitEnd p0 p1 s) := by
  unfold execPlnCommitEnd
  refine KeepsO.done ?_
  extract_lets -underBinder -merge -useContext +onlyGivenNames x1
  try clear_value x1
  refine Keeps.ite ?_ ?_
  · exact Keeps.refl _
  · split
    · refine Keeps.trans ?_ (keeps_plnFailed _ _)
      exact Keeps.refl _
    · extract_lets -underBinder -merge -useContext +onlyGivenNames x2
      try clear_value x2
      extract_lets -underBinder -merge -useContext +onlyGivenNames x3
      have h3 : Keeps 263 s x3 := by
        unfold x3
        refine Keeps.trans ?_ (keeps_commitCopy _ _)
        exact Keeps.refl _
      try clear_value x3
      refine Keeps.ite ?_ ?_
      · assumption
      · refine Keeps.ite ?_ ?_
        · refine Keeps.trans ?_ (keeps_plnFailed _ _)
          refine Keeps.trans ?_ (keeps_setArea _ _ _)
          assumption
        · refine Keeps.trans ?_ (keeps_evt _ _ _)
          refine Keeps.trans ?_ (keeps_opEnd _ _ _ _)
          refine Keeps.trans ?_ (keeps_selCommit _ _ _ _)
          refine Keeps.trans ?_ (keeps_setArea _ _ _)
          assumption

theorem keeps_plnStopOp (s : State) (p1 : Nat) : Keeps 2130855 s (plnStopOp s p1) := by
  unfold plnStopOp
  refine Keeps.ite ?_ ?_
  · refine Keeps.trans ?_ (keeps_opRefuseStop _ _)
    exact Keeps.refl _
  · refine Keeps.ite ?_ ?_
    · extract_lets -underBinder -merge -useContext +onlyGivenNames x1
      try clear_value x1
      extract_lets -underBinder -merge -useContext +onlyGivenNames x2
      try clear_value x2
      refine Keeps.trans ?_ (keeps_plnFailRegs _ _)
      refine Keeps.trans ?_ (keeps_setPlanSlot _ _ _)
      refine Keeps.trans ?_ (keeps_opEnd _ _ _ _)
      refine Keeps.trans ?_ (keeps_opProgress _ _ _)
      exact Keeps.refl _
    · refine Keeps.ite ?_ ?_
      · refine Keeps.trans ?_ (keeps_opEnd _ _ _ _)
        refine Keeps.trans ?_ (keeps_commitCopy _ _)
        exact Keeps.refl _
      · split
        · refine Keeps.trans ?_ (keeps_opEnd _ _ _ _)
          refine Keeps.trans ?_ (keeps_applyTemplates _ _ _)
          exact Keeps.refl _
        · refine Keeps.trans ?_ (keeps_opEnd _ _ _ _)
          exact Keeps.refl _

theorem keeps_execPlnStop (p0 : Nat) (s : State) : KeepsO 2130855 s (execPlnStop p0 s) := by
  unfold execPlnStop
  refine KeepsO.done ?_
  refine Keeps.trans ?_ (keeps_plnStopOp _ _)
  exact Keeps.refl _

theorem keeps_plnLoadWrite (s : State) (p1 : Word) : Keeps 2130855 s (plnLoadWrite s p1) := by
  unfold plnLoadWrite
  extract_lets -underBinder -merge -useContext +onlyGivenNames x1
  have h1 : Keeps 2130855 s x1 := by
    unfold x1
    refine Keeps.ite ?_ ?_
    · refine Keeps.trans ?_ (keeps_plnStopOp _ _)
      exact Keeps.refl _
    · exact Keeps.refl _
  try clear_value x1
  refine Keeps.ite ?_ ?_
  · refine Keeps.trans ?_ (keeps_plnLoadStart _ _ _)
    assumption
  · assumption

theorem keeps_execPlnLoad (p0 : Word) (s : State) : KeepsO 2130855 s (execPlnLoad p0 s) := by
  unfold execPlnLoad
  refine KeepsO.done ?_
  refine Keeps.trans ?_ (keeps_plnLoadWrite _ _)
  exact Keeps.refl _

end Sys2Proof.Machine
end

