-- ==== Sys2Proof/Laws/KeepsVerdictCmds.lean ====
section
/-! SUPPORT. What each function of Machine/VerdictCmds.lean leaves unchanged (the mask names the areas it may change). -/

set_option Elab.async false

namespace Sys2Proof.Machine

theorem keeps_execReductionEnd (p0 : Nat) (p1 : Nat) (s : State) : KeepsO 3319223 s (execReductionEnd p0 p1 s) := by
  unfold execReductionEnd
  refine KeepsO.done ?_
  split
  · exact Keeps.refl _
  · extract_lets -underBinder -merge -useContext +onlyGivenNames x1
    extract_lets -underBinder -merge -useContext +onlyGivenNames x2
    have h2 : Keeps 3319223 s x2 := by
      unfold x2
      refine Keeps.upd (t := s) ?_ rfl rfl rfl (Nat.le_refl _)
      exact Keeps.refl _
    try clear_value x2
    split
    · refine Keeps.trans ?_ (keeps_slotRetire _)
      refine Keeps.trans ?_ (keeps_revisionDone _ _)
      refine Keeps.trans ?_ (keeps_reduceBank _ _ _ _ _ _)
      assumption
    · refine Keeps.trans ?_ (keeps_slotRetire _)
      assumption

theorem keeps_execKeepSetCopied (p0 : Nat) (s : State) : KeepsO 2270375 s (execKeepSetCopied p0 s) := by
  unfold execKeepSetCopied
  refine KeepsO.done ?_
  extract_lets -underBinder -merge -useContext +onlyGivenNames x1
  try clear_value x1
  refine Keeps.ite ?_ ?_
  · exact Keeps.refl _
  · refine Keeps.trans ?_ (keeps_revisionDone _ _)
    refine Keeps.trans ?_ (keeps_keepCopied _ _)
    exact Keeps.refl _

theorem keeps_execBankCleared (p0 : Nat) (s : State) : KeepsO 2139831 s (execBankCleared p0 s) := by
  unfold execBankCleared
  refine KeepsO.done ?_
  refine Keeps.ite ?_ ?_
  · refine Keeps.trans ?_ (keeps_retryOpen _)
    refine Keeps.trans ?_ (keeps_bankFreed _ _)
    exact Keeps.refl _
  · exact Keeps.refl _

theorem keeps_execPinPulseEnd (p0 : Nat) (s : State) : KeepsO 8192 s (execPinPulseEnd p0 s) := by
  unfold execPinPulseEnd
  refine KeepsO.done ?_
  split
  · refine Keeps.ite ?_ ?_
    · refine Keeps.upd (t := s) ?_ rfl rfl rfl (Nat.le_refl _)
      exact Keeps.refl _
    · exact Keeps.refl _
  · exact Keeps.refl _

theorem keeps_pinClearMask (s : State) (p1 : Nat) : Keeps 8192 s (pinClearMask s p1) := by
  unfold pinClearMask
  refine Keeps.upd (t := s) ?_ rfl rfl rfl (Nat.le_refl _)
  exact Keeps.refl _

theorem keeps_pinClearWrite (s : State) (p1 : Word) : Keeps 2138279 s (pinClearWrite s p1) := by
  unfold pinClearWrite
  refine Keeps.ite ?_ ?_
  · refine Keeps.trans ?_ (keeps_twinRefuse _)
    exact Keeps.refl _
  · refine Keeps.trans ?_ (keeps_twinSend _ _ _)
    refine Keeps.trans ?_ (keeps_pinClearMask _ _)
    exact Keeps.refl _

theorem keeps_execPinClear (p0 : Word) (s : State) : KeepsO 2138279 s (execPinClear p0 s) := by
  unfold execPinClear
  refine KeepsO.done ?_
  refine Keeps.trans ?_ (keeps_pinClearWrite _ _)
  exact Keeps.refl _

theorem keeps_pinForceWrite (s : State) (p1 : Word) : Keeps 7 s (pinForceWrite s p1) := by
  unfold pinForceWrite
  extract_lets -underBinder -merge -useContext +onlyGivenNames x1
  have h1 : Keeps 7 s x1 := by
    unfold x1
    refine Keeps.trans ?_ (keeps_setReg _ _ _)
    exact Keeps.refl _
  try clear_value x1
  refine Keeps.ite ?_ ?_
  · assumption
  · refine Keeps.trans ?_ (keeps_logEvent _ _ _ _)
    refine Keeps.trans ?_ (keeps_evt _ _ _)
    refine Keeps.trans ?_ (keeps_bump _ _)
    assumption

theorem keeps_execPinForce (p0 : Word) (s : State) : KeepsO 7 s (execPinForce p0 s) := by
  unfold execPinForce
  refine KeepsO.done ?_
  refine Keeps.trans ?_ (keeps_pinForceWrite _ _)
  exact Keeps.refl _

theorem keeps_execGooseRetransmit (p0 : Nat) (s : State) : KeepsO 2236583 s (execGooseRetransmit p0 s) := by
  unfold execGooseRetransmit
  refine KeepsO.done ?_
  split
  · exact Keeps.refl _
  · refine Keeps.ite ?_ ?_
    · exact Keeps.refl _
    · extract_lets -underBinder -merge -useContext +onlyGivenNames x1
      try clear_value x1
      extract_lets -underBinder -merge -useContext +onlyGivenNames x2
      try clear_value x2
      extract_lets -underBinder -merge -useContext +onlyGivenNames x3
      try clear_value x3
      refine Keeps.trans ?_ (keeps_tplSend _ _ _ _ _)
      refine Keeps.trans ?_ (keeps_setTpl _ _ _)
      exact Keeps.refl _

end Sys2Proof.Machine
end

