-- ==== Sys2Proof/Laws/KeepsEnergyOps.lean ====
section
/-! SUPPORT. What each function of Machine/EnergyOps.lean leaves unchanged (the mask names the areas it may change). -/

set_option Elab.async false

namespace Sys2Proof.Machine

theorem keeps_setElemFlags (s : State) (p1 : Nat) (p2 : Nat) : Keeps 524288 s (setElemFlags s p1 p2) := by
  unfold setElemFlags
  refine Keeps.upd (t := s) ?_ rfl rfl rfl (Nat.le_refl _)
  exact Keeps.refl _

theorem keeps_setIntFlags (s : State) (p1 : Nat) : Keeps 524288 s (setIntFlags s p1) := by
  unfold setIntFlags
  refine Keeps.upd (t := s) ?_ rfl rfl rfl (Nat.le_refl _)
  exact Keeps.refl _

theorem keeps_nrgPush (s : State) (p1 : List Byte) : Keeps 167 s (nrgPush s p1) := by
  unfold nrgPush
  extract_lets -underBinder -merge -useContext +onlyGivenNames x1
  try clear_value x1
  refine Keeps.ite ?_ ?_
  · refine Keeps.trans ?_ (keeps_commitPacket _ _ _)
    exact Keeps.refl _
  · refine Keeps.trans ?_ (keeps_logEvent _ _ _ _)
    refine Keeps.trans ?_ (keeps_evt _ _ _)
    refine Keeps.trans ?_ (keeps_queLast _ _ _)
    refine Keeps.trans ?_ (keeps_bump _ _)
    exact Keeps.refl _

theorem keeps_intervalRoll (s : State) (p1 : Int) (p2 : Nat) (p3 : Nat) (p4 : Nat) : Keeps 524455 s (intervalRoll s p1 p2 p3 p4) := by
  unfold intervalRoll
  extract_lets -underBinder -merge -useContext +onlyGivenNames x1
  try clear_value x1
  extract_lets -underBinder -merge -useContext +onlyGivenNames x2
  try clear_value x2
  extract_lets -underBinder -merge -useContext +onlyGivenNames x3
  try clear_value x3
  extract_lets -underBinder -merge -useContext +onlyGivenNames x4
  try clear_value x4
  extract_lets -underBinder -merge -useContext +onlyGivenNames x5
  try clear_value x5
  extract_lets -underBinder -merge -useContext +onlyGivenNames x6
  try clear_value x6
  extract_lets -underBinder -merge -useContext +onlyGivenNames x7
  extract_lets -underBinder -merge -useContext +onlyGivenNames x8
  have h8 : Keeps 524455 s x8 := by
    unfold x8
    refine Keeps.upd (t := s) ?_ rfl rfl rfl (Nat.le_refl _)
    exact Keeps.refl _
  try clear_value x8
  extract_lets -underBinder -merge -useContext +onlyGivenNames x9
  have h9 : Keeps 524455 s x9 := by
    unfold x9
    refine Keeps.trans ?_ (keeps_evt _ _ _)
    assumption
  try clear_value x9
  refine Keeps.ite ?_ ?_
  · refine Keeps.foldl ?_ (fun y10 a10 hy10 => ?_)
    · assumption
    · refine Keeps.trans ?_ (keeps_nrgPush _ _)
      assumption
  · assumption

theorem keeps_intervalOpen (s : State) (p1 : Nat) (p2 : Nat) (p3 : Nat) : Keeps 524288 s (intervalOpen s p1 p2 p3) := by
  unfold intervalOpen
  refine Keeps.upd (t := s) ?_ rfl rfl rfl (Nat.le_refl _)
  exact Keeps.refl _

theorem keeps_intervalBoundary (s : State) (p1 : Int) : Keeps 524455 s (intervalBoundary s p1) := by
  unfold intervalBoundary
  extract_lets -underBinder -merge -useContext +onlyGivenNames x1
  try clear_value x1
  extract_lets -underBinder -merge -useContext +onlyGivenNames x2
  try clear_value x2
  extract_lets -underBinder -merge -useContext +onlyGivenNames x3
  try clear_value x3
  extract_lets -underBinder -merge -useContext +onlyGivenNames x4
  try clear_value x4
  extract_lets -underBinder -merge -useContext +onlyGivenNames x5
  try clear_value x5
  refine Keeps.trans ?_ (keeps_intervalRoll _ _ _ _ _)
  exact Keeps.refl _

theorem keeps_nrgTimeLost (s : State) : Keeps 524288 s (nrgTimeLost s) := by
  unfold nrgTimeLost
  refine Keeps.ite ?_ ?_
  · refine Keeps.trans ?_ (keeps_setIntFlags _ _)
    exact Keeps.refl _
  · exact Keeps.refl _

theorem keeps_nrgTimeGiven (s : State) : Keeps 524455 s (nrgTimeGiven s) := by
  unfold nrgTimeGiven
  refine Keeps.ite ?_ ?_
  · extract_lets -underBinder -merge -useContext +onlyGivenNames x1
    try clear_value x1
    refine Keeps.ite ?_ ?_
    · refine Keeps.trans ?_ (keeps_intervalRoll _ _ _ _ _)
      exact Keeps.refl _
    · exact Keeps.refl _
  · exact Keeps.refl _

end Sys2Proof.Machine
end

