-- ==== Sys2Proof/Laws/KeepsTimeCmds.lean ====
section
/-! SUPPORT. What each function of Machine/TimeCmds.lean leaves unchanged (the mask names the areas it may change). -/

set_option Elab.async false

namespace Sys2Proof.Machine

theorem keeps_ppsWithdraw (s : State) : Keeps 8 s (ppsWithdraw s) := by
  unfold ppsWithdraw
  refine Keeps.upd (t := s) ?_ rfl rfl rfl (Nat.le_refl _)
  exact Keeps.refl _

theorem keeps_timeWithdraw (s : State) : Keeps 2663599 s (timeWithdraw s) := by
  unfold timeWithdraw
  refine Keeps.ite ?_ ?_
  · refine Keeps.trans ?_ (keeps_pinEval _)
    refine Keeps.trans ?_ (keeps_nrgTimeLost _)
    refine Keeps.trans ?_ (keeps_timeLostClose _)
    refine Keeps.trans ?_ (keeps_ppsWithdraw _)
    exact Keeps.refl _
  · exact Keeps.refl _

theorem keeps_timeGive (s : State) : Keeps 535999 s (timeGive s) := by
  unfold timeGive
  refine Keeps.ite ?_ ?_
  · exact Keeps.refl _
  · refine Keeps.trans ?_ (keeps_pinEval _)
    refine Keeps.trans ?_ (keeps_nrgTimeGiven _)
    refine Keeps.trans ?_ (keeps_fixStarts _)
    refine Keeps.upd (t := s) ?_ rfl rfl rfl (Nat.le_refl _)
    exact Keeps.refl _

theorem keeps_selRefuse (s : State) (p1 : Nat) (p2 : Bool) : Keeps 5 s (selRefuse s p1 p2) := by
  unfold selRefuse
  extract_lets -underBinder -merge -useContext +onlyGivenNames x1
  have h1 : Keeps 5 s x1 := by
    unfold x1
    refine Keeps.trans ?_ (keeps_bump _ _)
    refine Keeps.trans ?_ (keeps_refuse _ _ _)
    refine Keeps.trans ?_ (keeps_setRegN _ _ _)
    exact Keeps.refl _
  try clear_value x1
  refine Keeps.ite ?_ ?_
  · refine Keeps.trans ?_ (keeps_bump _ _)
    assumption
  · assumption

theorem keeps_selAccept (s : State) : Keeps 13 s (selAccept s) := by
  unfold selAccept
  refine Keeps.trans ?_ (keeps_bump _ _)
  refine Keeps.trans ?_ (keeps_setRegN _ _ _)
  refine Keeps.upd (t := s) ?_ rfl rfl rfl (Nat.le_refl _)
  exact Keeps.refl _

theorem keeps_timeSplit (s : State) : Keeps 15 s (timeSplit s) := by
  unfold timeSplit
  extract_lets -underBinder -merge -useContext +onlyGivenNames x1
  extract_lets -underBinder -merge -useContext +onlyGivenNames x2
  have h2 : Keeps 15 s x2 := by
    unfold x2
    refine Keeps.trans ?_ (keeps_evt _ _ _)
    refine Keeps.upd (t := s) ?_ rfl rfl rfl (Nat.le_refl _)
    exact Keeps.refl _
  try clear_value x2
  refine Keeps.ite ?_ ?_
  · assumption
  · refine Keeps.trans ?_ (keeps_logEvent _ _ _ _)
    assumption

theorem keeps_selectDom (s : State) (p1 : Nat) (p2 : Bool) : Keeps 535999 s (selectDom s p1 p2) := by
  unfold selectDom
  refine Keeps.ite ?_ ?_
  · refine Keeps.trans ?_ (keeps_selRefuse _ _ _)
    exact Keeps.refl _
  · refine Keeps.ite ?_ ?_
    · refine Keeps.trans ?_ (keeps_selAccept _)
      exact Keeps.refl _
    · refine Keeps.ite ?_ ?_
      · refine Keeps.trans ?_ (keeps_selRefuse _ _ _)
        exact Keeps.refl _
      · refine Keeps.ite ?_ ?_
        · refine Keeps.trans ?_ (keeps_timeGive _)
          refine Keeps.trans ?_ (keeps_selAccept _)
          refine Keeps.upd (t := s) ?_ rfl rfl rfl (Nat.le_refl _)
          exact Keeps.refl _
        · refine Keeps.ite ?_ ?_
          · refine Keeps.trans ?_ (keeps_selRefuse _ _ _)
            refine Keeps.trans ?_ (keeps_timeSplit _)
            exact Keeps.refl _
          · extract_lets -underBinder -merge -useContext +onlyGivenNames x1
            try clear_value x1
            refine Keeps.trans ?_ (keeps_pinEval _)
            refine Keeps.trans ?_ (keeps_selAccept _)
            refine Keeps.upd (t := s) ?_ rfl rfl rfl (Nat.le_refl _)
            exact Keeps.refl _

theorem keeps_autoSwitch (s : State) : Keeps 535999 s (autoSwitch s) := by
  unfold autoSwitch
  extract_lets -underBinder -merge -useContext +onlyGivenNames x1
  try clear_value x1
  refine Keeps.ite ?_ ?_
  · refine Keeps.trans ?_ (keeps_selectDom _ _ _)
    exact Keeps.refl _
  · exact Keeps.refl _

theorem keeps_domChange (s : State) (p1 : Nat) (p2 : DomState) : Keeps 15 s (domChange s p1 p2) := by
  unfold domChange
  extract_lets -underBinder -merge -useContext +onlyGivenNames x1
  try clear_value x1
  refine Keeps.ite ?_ ?_
  · exact Keeps.refl _
  · extract_lets -underBinder -merge -useContext +onlyGivenNames x2
    have h2 : Keeps 15 s x2 := by
      unfold x2
      refine Keeps.trans ?_ (keeps_evt _ _ _)
      refine Keeps.trans ?_ (keeps_setDom _ _ _)
      exact Keeps.refl _
    try clear_value x2
    refine Keeps.trans ?_ (keeps_logEvent _ _ _ _)
    assumption

theorem keeps_setDomState (s : State) (p1 : Nat) (p2 : DomState) : Keeps 2665919 s (setDomState s p1 p2) := by
  unfold setDomState
  refine Keeps.ite ?_ ?_
  · exact Keeps.refl _
  · extract_lets -underBinder -merge -useContext +onlyGivenNames x1
    have h1 : Keeps 2665919 s x1 := by
      unfold x1
      refine Keeps.trans ?_ (keeps_domChange _ _ _)
      exact Keeps.refl _
    try clear_value x1
    refine Keeps.ite ?_ ?_
    · extract_lets -underBinder -merge -useContext +onlyGivenNames x2
      have h2 : Keeps 2665919 s x2 := by
        unfold x2
        refine Keeps.ite ?_ ?_
        · refine Keeps.trans ?_ (keeps_timeGive _)
          assumption
        · refine Keeps.ite ?_ ?_
          · refine Keeps.trans ?_ (keeps_timeWithdraw _)
            assumption
          · assumption
      try clear_value x2
      extract_lets -underBinder -merge -useContext +onlyGivenNames x3
      have h3 : Keeps 2665919 s x3 := by
        unfold x3
        refine Keeps.trans ?_ (keeps_pinEval _)
        assumption
      try clear_value x3
      refine Keeps.ite ?_ ?_
      · assumption
      · refine Keeps.trans ?_ (keeps_autoSwitch _)
        assumption
    · assumption

theorem keeps_lockUpdate (s : State) (p1 : Nat) (p2 : Nat) : Keeps 8 s (lockUpdate s p1 p2) := by
  unfold lockUpdate
  refine Keeps.trans ?_ (keeps_setDom _ _ _)
  exact Keeps.refl _

theorem keeps_putVals (s : State) (p1 : Nat) (p2 : DomVals) : Keeps 8 s (putVals s p1 p2) := by
  unfold putVals
  extract_lets -underBinder -merge -useContext +onlyGivenNames x1
  try clear_value x1
  refine Keeps.trans ?_ (keeps_setDom _ _ _)
  exact Keeps.refl _

theorem keeps_stepVals (s : State) (p1 : Nat) (p2 : DomVals) : Keeps 8 s (stepVals s p1 p2) := by
  unfold stepVals
  extract_lets -underBinder -merge -useContext +onlyGivenNames x1
  have h1 : Keeps 8 s x1 := by
    unfold x1
    refine Keeps.trans ?_ (keeps_putVals _ _ _)
    exact Keeps.refl _
  try clear_value x1
  refine Keeps.trans ?_ (keeps_setDom _ _ _)
  assumption

theorem keeps_stepDom (s : State) (p1 : Nat) (p2 : DomVals) (p3 : Bool) : KeepsF 2665919 s (stepDom s p1 p2 p3) := by
  unfold stepDom
  refine KeepsF.ite ?_ ?_
  · refine KeepsF.mk ?_
    exact Keeps.refl _
  · refine KeepsF.ite ?_ ?_
    · refine KeepsF.mk ?_
      refine Keeps.trans ?_ (keeps_stepVals _ _ _)
      exact Keeps.refl _
    · extract_lets -underBinder -merge -useContext +onlyGivenNames x1
      try clear_value x1
      extract_lets -underBinder -merge -useContext +onlyGivenNames x2
      try clear_value x2
      refine KeepsF.ite ?_ ?_
      · extract_lets -underBinder -merge -useContext +onlyGivenNames x3
        try clear_value x3
        extract_lets -underBinder -merge -useContext +onlyGivenNames x4
        have h4 : Keeps 2665919 s x4 := by
          unfold x4
          refine Keeps.trans ?_ (keeps_stepVals _ _ _)
          exact Keeps.refl _
        try clear_value x4
        refine KeepsF.mk ?_
        refine Keeps.upd (t := x4) ?_ rfl rfl rfl (Nat.le_refl _)
        assumption
      · refine KeepsF.ite ?_ ?_
        · extract_lets -underBinder -merge -useContext +onlyGivenNames x5
          have h5 : Keeps 2665919 s x5 := by
            unfold x5
            refine Keeps.trans ?_ (keeps_timeWithdraw _)
            exact Keeps.refl _
          try clear_value x5
          extract_lets -underBinder -merge -useContext +onlyGivenNames x6
          have h6 : Keeps 2665919 s x6 := by
            unfold x6
            refine Keeps.trans ?_ (keeps_bump _ _)
            refine Keeps.trans ?_ (keeps_evt _ _ _)
            refine Keeps.trans ?_ (keeps_stepVals _ _ _)
            assumption
          try clear_value x6
          extract_lets -underBinder -merge -useContext +onlyGivenNames x7
          have h7 : Keeps 2665919 s x7 := by
            unfold x7
            refine Keeps.trans ?_ (keeps_logEvent _ _ _ _)
            assumption
          try clear_value x7
          refine KeepsF.mk ?_
          refine Keeps.trans ?_ (keeps_timeGive _)
          assumption
        · refine KeepsF.mk ?_
          exact Keeps.refl _

theorem keeps_domResult (s : State) (p1 : Nat) (p2 : Nat) (p3 : Nat) : Keeps 1 s (domResult s p1 p2 p3) := by
  unfold domResult
  refine Keeps.trans ?_ (keeps_setRegN _ _ _)
  exact Keeps.refl _

theorem keeps_commitDom (s : State) (p1 : Nat) (p2 : Nat) (p3 : Nat) (p4 : Bool) : KeepsF 2665919 s (commitDom s p1 p2 p3 p4) := by
  unfold commitDom
  extract_lets -underBinder -merge -useContext +onlyGivenNames x1
  try clear_value x1
  extract_lets -underBinder -merge -useContext +onlyGivenNames x2
  try clear_value x2
  refine KeepsF.ite ?_ ?_
  · refine KeepsF.mk ?_
    exact Keeps.refl _
  · refine KeepsF.ite ?_ ?_
    · refine KeepsF.mk ?_
      exact Keeps.refl _
    · refine KeepsF.ite ?_ ?_
      · refine KeepsF.mk ?_
        refine Keeps.trans ?_ (keeps_putVals _ _ _)
        exact Keeps.refl _
      · refine KeepsF.ite ?_ ?_
        · extract_lets -underBinder -merge -useContext +onlyGivenNames x3
          try clear_value x3
          refine KeepsF.ite ?_ ?_
          · refine KeepsF.mk ?_
            exact Keeps.refl _
          · refine KeepsF.trans ?_ (keeps_stepDom _ _ _ _)
            exact Keeps.refl _
        · refine KeepsF.ite ?_ ?_
          · refine KeepsF.mk ?_
            refine Keeps.trans ?_ (keeps_putVals _ _ _)
            exact Keeps.refl _
          · extract_lets -underBinder -merge -useContext +onlyGivenNames x4
            try clear_value x4
            extract_lets -underBinder -merge -useContext +onlyGivenNames x5
            try clear_value x5
            refine KeepsF.mk ?_
            refine Keeps.trans ?_ (keeps_setDom _ _ _)
            exact Keeps.refl _

theorem keeps_domCmd (s : State) (p1 : Nat) (p2 : Nat) (p3 : Word) : Keeps 2665919 s (domCmd s p1 p2 p3) := by
  unfold domCmd
  extract_lets -underBinder -merge -useContext +onlyGivenNames x1
  have h1 : KeepsF 2665919 s x1 := by
    unfold x1
    refine KeepsF.trans ?_ (keeps_commitDom _ _ _ _ _)
    exact Keeps.refl _
  try clear_value x1
  extract_lets -underBinder -merge -useContext +onlyGivenNames x2
  have h2 : Keeps 2665919 s x2 := by
    unfold x2
    refine Keeps.trans ?_ (keeps_domResult _ _ _ _)
    refine KeepsF.snd ?_
    assumption
  try clear_value x2
  refine Keeps.ite ?_ ?_
  · refine Keeps.trans ?_ (keeps_bump _ _)
    refine Keeps.trans ?_ (keeps_refuse _ _ _)
    assumption
  · extract_lets -underBinder -merge -useContext +onlyGivenNames x3
    have h3 : Keeps 2665919 s x3 := by
      unfold x3
      refine Keeps.trans ?_ (keeps_bump _ _)
      assumption
    try clear_value x3
    refine Keeps.ite ?_ ?_
    · extract_lets -underBinder -merge -useContext +onlyGivenNames x4
      have h4 : Keeps 2665919 s x4 := by
        unfold x4
        refine Keeps.trans ?_ (keeps_lockUpdate _ _ _)
        assumption
      try clear_value x4
      refine Keeps.ite ?_ ?_
      · refine Keeps.trans ?_ (keeps_setDomState _ _ _)
        assumption
      · refine Keeps.trans ?_ (keeps_pinEval _)
        assumption
    · assumption

theorem keeps_execDomainRate (p0 : Nat) (p1 : Nat) (p2 : Word) (s : State) : KeepsO 2665919 s (execDomainRate p0 p1 p2 s) := by
  unfold execDomainRate
  refine KeepsO.done ?_
  refine Keeps.trans ?_ (keeps_domCmd _ _ _ _)
  exact Keeps.refl _

theorem keeps_execDomainStep (p0 : Nat) (p1 : Nat) (p2 : Word) (s : State) : KeepsO 2665919 s (execDomainStep p0 p1 p2 s) := by
  unfold execDomainStep
  refine KeepsO.done ?_
  refine Keeps.trans ?_ (keeps_domCmd _ _ _ _)
  exact Keeps.refl _

theorem keeps_execDomainErr (p0 : Nat) (p1 : Nat) (p2 : Word) (s : State) : KeepsO 2665919 s (execDomainErr p0 p1 p2 s) := by
  unfold execDomainErr
  refine KeepsO.done ?_
  refine Keeps.trans ?_ (keeps_domCmd _ _ _ _)
  exact Keeps.refl _

theorem keeps_execDomainReacquire (p0 : Nat) (p1 : Nat) (p2 : Word) (s : State) : KeepsO 2665919 s (execDomainReacquire p0 p1 p2 s) := by
  unfold execDomainReacquire
  refine KeepsO.done ?_
  refine Keeps.trans ?_ (keeps_domCmd _ _ _ _)
  exact Keeps.refl _

theorem keeps_execDomainUpdateTimeout (p0 : Nat) (s : State) : KeepsO 2665919 s (execDomainUpdateTimeout p0 s) := by
  unfold execDomainUpdateTimeout
  refine KeepsO.done ?_
  extract_lets -underBinder -merge -useContext +onlyGivenNames x1
  try clear_value x1
  extract_lets -underBinder -merge -useContext +onlyGivenNames x2
  try clear_value x2
  refine Keeps.ite ?_ ?_
  · split
    · refine Keeps.ite ?_ ?_
      · refine Keeps.trans ?_ (keeps_setDomState _ _ _)
        exact Keeps.refl _
      · exact Keeps.refl _
    · exact Keeps.refl _
  · exact Keeps.refl _

theorem keeps_execDomainLost (p0 : Nat) (s : State) : KeepsO 2665919 s (execDomainLost p0 s) := by
  unfold execDomainLost
  refine KeepsO.done ?_
  extract_lets -underBinder -merge -useContext +onlyGivenNames x1
  try clear_value x1
  extract_lets -underBinder -merge -useContext +onlyGivenNames x2
  try clear_value x2
  refine Keeps.ite ?_ ?_
  · refine Keeps.trans ?_ (keeps_setDomState _ _ _)
    exact Keeps.refl _
  · exact Keeps.refl _

theorem keeps_acquire (s : State) (p1 : Nat) (p2 : Nat) (p3 : Nat) : Keeps 2665919 s (acquire s p1 p2 p3) := by
  unfold acquire
  extract_lets -underBinder -merge -useContext +onlyGivenNames x1
  try clear_value x1
  extract_lets -underBinder -merge -useContext +onlyGivenNames x2
  try clear_value x2
  extract_lets -underBinder -merge -useContext +onlyGivenNames x3
  have h3 : KeepsF 2665919 s x3 := by
    unfold x3
    refine KeepsF.trans ?_ (keeps_stepDom _ _ _ _)
    refine Keeps.trans ?_ (keeps_nextFree _)
    exact Keeps.refl _
  try clear_value x3
  refine Keeps.ite ?_ ?_
  · extract_lets -underBinder -merge -useContext +onlyGivenNames x4
    try clear_value x4
    extract_lets -underBinder -merge -useContext +onlyGivenNames x5
    have h5 : Keeps 2665919 s x5 := by
      unfold x5
      refine Keeps.trans ?_ (keeps_lockUpdate _ _ _)
      refine Keeps.trans ?_ (keeps_setDom _ _ _)
      refine KeepsF.snd ?_
      assumption
    try clear_value x5
    refine Keeps.ite ?_ ?_
    · refine Keeps.trans ?_ (keeps_setDomState _ _ _)
      assumption
    · refine Keeps.trans ?_ (keeps_pinEval _)
      assumption
  · split
    · refine Keeps.trans ?_ (keeps_domResult _ _ _ _)
      refine Keeps.trans ?_ (keeps_setDom _ _ _)
      exact Keeps.refl _
    · exact Keeps.refl _

theorem keeps_track (s : State) (p1 : Nat) (p2 : Nat) (p3 : Nat) : Keeps 2665919 s (track s p1 p2 p3) := by
  unfold track
  extract_lets -underBinder -merge -useContext +onlyGivenNames x1
  try clear_value x1
  extract_lets -underBinder -merge -useContext +onlyGivenNames x2
  try clear_value x2
  extract_lets -underBinder -merge -useContext +onlyGivenNames x3
  try clear_value x3
  extract_lets -underBinder -merge -useContext +onlyGivenNames x4
  try clear_value x4
  extract_lets -underBinder -merge -useContext +onlyGivenNames x5
  try clear_value x5
  extract_lets -underBinder -merge -useContext +onlyGivenNames x6
  have h6 : Keeps 2665919 s x6 := by
    unfold x6
    refine Keeps.trans ?_ (keeps_nextFree _)
    refine Keeps.trans ?_ (keeps_putVals _ _ _)
    exact Keeps.refl _
  try clear_value x6
  extract_lets -underBinder -merge -useContext +onlyGivenNames x7
  have h7 : Keeps 2665919 s x7 := by
    unfold x7
    refine Keeps.trans ?_ (keeps_lockUpdate _ _ _)
    assumption
  try clear_value x7
  extract_lets -underBinder -merge -useContext +onlyGivenNames x8
  extract_lets -underBinder -merge -useContext +onlyGivenNames x9
  have h9 : Keeps 2665919 s x9 := by
    unfold x9
    refine Keeps.trans ?_ (keeps_setDom _ _ _)
    assumption
  try clear_value x9
  refine Keeps.ite ?_ ?_
  · extract_lets -underBinder -merge -useContext +onlyGivenNames x10
    extract_lets -underBinder -merge -useContext +onlyGivenNames x11
    have h11 : Keeps 2665919 s x11 := by
      unfold x11
      refine Keeps.trans ?_ (keeps_setDom _ _ _)
      assumption
    try clear_value x11
    refine Keeps.ite ?_ ?_
    · extract_lets -underBinder -merge -useContext +onlyGivenNames x12
      have h12 : Keeps 2665919 s x12 := by
        unfold x12
        refine Keeps.trans ?_ (keeps_setDomState _ _ _)
        assumption
      try clear_value x12
      refine Keeps.trans ?_ (keeps_setDom _ _ _)
      assumption
    · assumption
  · refine Keeps.ite ?_ ?_
    · refine Keeps.trans ?_ (keeps_setDomState _ _ _)
      assumption
    · refine Keeps.trans ?_ (keeps_pinEval _)
      assumption

theorem keeps_usableSecond (s : State) (p1 : Nat) (p2 : Nat) (p3 : Nat) (p4 : Nat) : Keeps 2665919 s (usableSecond s p1 p2 p3 p4) := by
  unfold usableSecond
  extract_lets -underBinder -merge -useContext +onlyGivenNames x1
  try clear_value x1
  refine Keeps.ite ?_ ?_
  · exact Keeps.refl _
  · extract_lets -underBinder -merge -useContext +onlyGivenNames x2
    try clear_value x2
    extract_lets -underBinder -merge -useContext +onlyGivenNames x3
    try clear_value x3
    extract_lets -underBinder -merge -useContext +onlyGivenNames x4
    have h4 : Keeps 2665919 s x4 := by
      unfold x4
      refine Keeps.trans ?_ (keeps_setDom _ _ _)
      exact Keeps.refl _
    try clear_value x4
    refine Keeps.ite ?_ ?_
    · refine Keeps.ite ?_ ?_
      · refine Keeps.trans ?_ (keeps_acquire _ _ _ _)
        assumption
      · assumption
    · refine Keeps.trans ?_ (keeps_track _ _ _ _)
      assumption

theorem keeps_secondEval (s : State) : Keeps 2665919 s (secondEval s) := by
  unfold secondEval
  split
  · refine Keeps.ite ?_ ?_
    · extract_lets -underBinder -merge -useContext +onlyGivenNames x1
      extract_lets -underBinder -merge -useContext +onlyGivenNames x2
      have h2 : Keeps 2665919 s x2 := by
        unfold x2
        refine Keeps.upd (t := s) ?_ rfl rfl rfl (Nat.le_refl _)
        exact Keeps.refl _
      try clear_value x2
      refine Keeps.ite ?_ ?_
      · refine Keeps.trans ?_ (keeps_usableSecond _ _ _ _ _)
        refine Keeps.trans ?_ (keeps_usableSecond _ _ _ _ _)
        assumption
      · assumption
    · exact Keeps.refl _
  · exact Keeps.refl _

theorem keeps_execPpsInEdge (p0 : Bool) (p1 : Nat) (s : State) : KeepsO 2665919 s (execPpsInEdge p0 p1 s) := by
  unfold execPpsInEdge
  refine KeepsO.done ?_
  refine Keeps.ite ?_ ?_
  · exact Keeps.refl _
  · extract_lets -underBinder -merge -useContext +onlyGivenNames x1
    try clear_value x1
    refine Keeps.ite ?_ ?_
    · refine Keeps.trans ?_ (keeps_bump _ _)
      exact Keeps.refl _
    · extract_lets -underBinder -merge -useContext +onlyGivenNames x2
      extract_lets -underBinder -merge -useContext +onlyGivenNames x3
      have h3 : Keeps 2665919 s x3 := by
        unfold x3
        refine Keeps.trans ?_ (keeps_bump _ _)
        refine Keeps.upd (t := s) ?_ rfl rfl rfl (Nat.le_refl _)
        exact Keeps.refl _
      try clear_value x3
      extract_lets -underBinder -merge -useContext +onlyGivenNames x4
      have h4 : Keeps 2665919 s x4 := by
        unfold x4
        refine Keeps.trans ?_ (keeps_setReg64 _ _ _ _)
        assumption
      try clear_value x4
      refine Keeps.trans ?_ (keeps_secondEval _)
      refine Keeps.trans ?_ (keeps_setRegN _ _ _)
      assumption

theorem keeps_execIrigFrame (p0 : Nat) (p1 : Nat) (p2 : Nat) (p3 : Nat) (p4 : Nat) (s : State) : KeepsO 2665919 s (execIrigFrame p0 p1 p2 p3 p4 s) := by
  unfold execIrigFrame
  refine KeepsO.done ?_
  extract_lets -underBinder -merge -useContext +onlyGivenNames x1
  try clear_value x1
  extract_lets -underBinder -merge -useContext +onlyGivenNames x2
  have h2 : Keeps 2665919 s x2 := by
    unfold x2
    refine Keeps.trans ?_ (keeps_setReg _ _ _)
    exact Keeps.refl _
  try clear_value x2
  refine Keeps.ite ?_ ?_
  · refine Keeps.trans ?_ (keeps_bump _ _)
    assumption
  · extract_lets -underBinder -merge -useContext +onlyGivenNames x3
    try clear_value x3
    extract_lets -underBinder -merge -useContext +onlyGivenNames x4
    try clear_value x4
    extract_lets -underBinder -merge -useContext +onlyGivenNames x5
    try clear_value x5
    extract_lets -underBinder -merge -useContext +onlyGivenNames x6
    have h6 : Keeps 2665919 s x6 := by
      unfold x6
      refine Keeps.trans ?_ (keeps_bump _ _)
      assumption
    try clear_value x6
    extract_lets -underBinder -merge -useContext +onlyGivenNames x7
    have h7 : Keeps 2665919 s x7 := by
      unfold x7
      refine Keeps.ite ?_ ?_
      · refine Keeps.trans ?_ (keeps_bump _ _)
        assumption
      · assumption
    try clear_value x7
    extract_lets -underBinder -merge -useContext +onlyGivenNames x8
    have h8 : Keeps 2665919 s x8 := by
      unfold x8
      refine Keeps.trans ?_ (keeps_setReg64 _ _ _ _)
      assumption
    try clear_value x8
    refine Keeps.trans ?_ (keeps_secondEval _)
    refine Keeps.upd (t := x8) ?_ rfl rfl rfl (Nat.le_refl _)
    assumption

theorem keeps_execPpsSourceTimeout (p0 : Nat) (s : State) : KeepsO 2665919 s (execPpsSourceTimeout p0 s) := by
  unfold execPpsSourceTimeout
  refine KeepsO.done ?_
  extract_lets -underBinder -merge -useContext +onlyGivenNames x1
  try clear_value x1
  extract_lets -underBinder -merge -useContext +onlyGivenNames x2
  try clear_value x2
  refine Keeps.ite ?_ ?_
  · refine Keeps.trans ?_ (keeps_setDomState _ _ _)
    exact Keeps.refl _
  · exact Keeps.refl _

theorem keeps_execPpsMissing (s : State) : KeepsO 15 s (execPpsMissing s) := by
  unfold execPpsMissing
  refine KeepsO.done ?_
  refine Keeps.ite ?_ ?_
  · extract_lets -underBinder -merge -useContext +onlyGivenNames x1
    extract_lets -underBinder -merge -useContext +onlyGivenNames x2
    have h2 : Keeps 15 s x2 := by
      unfold x2
      refine Keeps.trans ?_ (keeps_bump _ _)
      refine Keeps.upd (t := s) ?_ rfl rfl rfl (Nat.le_refl _)
      exact Keeps.refl _
    try clear_value x2
    refine Keeps.trans ?_ (keeps_logEvent _ _ _ _)
    refine Keeps.trans ?_ (keeps_evt _ _ _)
    assumption
  · exact Keeps.refl _

theorem keeps_selectWrite (s : State) (p1 : Word) : Keeps 535999 s (selectWrite s p1) := by
  unfold selectWrite
  refine Keeps.ite ?_ ?_
  · refine Keeps.trans ?_ (keeps_selectDom _ _ _)
    exact Keeps.refl _
  · exact Keeps.refl _

theorem keeps_execSelect (p0 : Word) (s : State) : KeepsO 535999 s (execSelect p0 s) := by
  unfold execSelect
  refine KeepsO.done ?_
  refine Keeps.trans ?_ (keeps_selectWrite _ _)
  exact Keeps.refl _

theorem keeps_execSlewEnd (s : State) : KeepsO 15 s (execSlewEnd s) := by
  unfold execSlewEnd
  refine KeepsO.done ?_
  split
  · refine Keeps.ite ?_ ?_
    · refine Keeps.trans ?_ (keeps_evt _ _ _)
      refine Keeps.upd (t := s) ?_ rfl rfl rfl (Nat.le_refl _)
      exact Keeps.refl _
    · exact Keeps.refl _
  · exact Keeps.refl _

theorem keeps_execAutoSwitchRetry (s : State) : KeepsO 535999 s (execAutoSwitchRetry s) := by
  unfold execAutoSwitchRetry
  refine KeepsO.done ?_
  refine Keeps.ite ?_ ?_
  · exact Keeps.refl _
  · refine Keeps.trans ?_ (keeps_autoSwitch _)
    exact Keeps.refl _

theorem keeps_execDomainCompare (s : State) : KeepsO 9 s (execDomainCompare s) := by
  unfold execDomainCompare
  refine KeepsO.done ?_
  refine Keeps.ite ?_ ?_
  · exact Keeps.refl _
  · extract_lets -underBinder -merge -useContext +onlyGivenNames x1
    try clear_value x1
    extract_lets -underBinder -merge -useContext +onlyGivenNames x2
    have h2 : Keeps 9 s x2 := by
      unfold x2
      refine Keeps.trans ?_ (keeps_setRegN _ _ _)
      exact Keeps.refl _
    try clear_value x2
    refine Keeps.ite ?_ ?_
    · refine Keeps.upd (t := x2) ?_ rfl rfl rfl (Nat.le_refl _)
      assumption
    · assumption

theorem keeps_refChange (s : State) (p1 : Bool) : Keeps 8207 s (refChange s p1) := by
  unfold refChange
  refine Keeps.ite ?_ ?_
  · exact Keeps.refl _
  · refine Keeps.trans ?_ (keeps_pinEval _)
    refine Keeps.trans ?_ (keeps_logEvent _ _ _ _)
    refine Keeps.trans ?_ (keeps_evt _ _ _)
    refine Keeps.upd (t := s) ?_ rfl rfl rfl (Nat.le_refl _)
    exact Keeps.refl _

theorem keeps_execRefclkLost (s : State) : KeepsO 8207 s (execRefclkLost s) := by
  unfold execRefclkLost
  refine KeepsO.done ?_
  refine Keeps.trans ?_ (keeps_refChange _ _)
  exact Keeps.refl _

theorem keeps_execRefclkLock (s : State) : KeepsO 8207 s (execRefclkLock s) := by
  unfold execRefclkLock
  refine KeepsO.done ?_
  refine Keeps.trans ?_ (keeps_refChange _ _)
  exact Keeps.refl _

theorem keeps_leapWrite (s : State) (p1 : Nat) (p2 : Word) : Keeps 8205 s (leapWrite s p1 p2) := by
  unfold leapWrite
  extract_lets -underBinder -merge -useContext +onlyGivenNames x1
  try clear_value x1
  extract_lets -underBinder -merge -useContext +onlyGivenNames x2
  try clear_value x2
  extract_lets -underBinder -merge -useContext +onlyGivenNames x3
  try clear_value x3
  extract_lets -underBinder -merge -useContext +onlyGivenNames x4
  have h4 : Keeps 8205 s x4 := by
    unfold x4
    refine Keeps.trans ?_ (keeps_refuse _ _ _)
    exact Keeps.refl _
  try clear_value x4
  extract_lets -underBinder -merge -useContext +onlyGivenNames x5
  have h5 : ∀ z6, Keeps 8205 s (x5 z6) := by
    intro z6
    unfold x5
    refine Keeps.upd (t := s) ?_ rfl rfl rfl (Nat.le_refl _)
    exact Keeps.refl _
  try clear_value x5
  refine Keeps.ite ?_ ?_
  · extract_lets -underBinder -merge -useContext +onlyGivenNames x7
    try clear_value x7
    extract_lets -underBinder -merge -useContext +onlyGivenNames x8
    try clear_value x8
    refine Keeps.ite ?_ ?_
    · refine Keeps.trans ?_ (keeps_pinEval _)
      refine Keeps.trans ?_ (keeps_setReg _ _ _)
      exact h5 ..
    · assumption
  · refine Keeps.ite ?_ ?_
    · exact Keeps.refl _
    · refine Keeps.ite ?_ ?_
      · assumption
      · refine Keeps.trans ?_ (keeps_pinEval _)
        refine Keeps.trans ?_ (keeps_setReg _ _ _)
        exact h5 ..

theorem keeps_execLeapEntryWrite (p0 : Nat) (p1 : Word) (s : State) : KeepsO 8205 s (execLeapEntryWrite p0 p1 s) := by
  unfold execLeapEntryWrite
  refine KeepsO.done ?_
  refine Keeps.trans ?_ (keeps_leapWrite _ _ _)
  exact Keeps.refl _

theorem keeps_execPpsOutEdge (s : State) : KeepsO 8 s (execPpsOutEdge s) := by
  unfold execPpsOutEdge
  refine KeepsO.done ?_
  extract_lets -underBinder -merge -useContext +onlyGivenNames x1
  try clear_value x1
  extract_lets -underBinder -merge -useContext +onlyGivenNames x2
  try clear_value x2
  refine Keeps.ite ?_ ?_
  · refine Keeps.upd (t := s) ?_ rfl rfl rfl (Nat.le_refl _)
    exact Keeps.refl _
  · exact Keeps.refl _

theorem keeps_execPpsOutEnd (s : State) : KeepsO 8 s (execPpsOutEnd s) := by
  unfold execPpsOutEnd
  refine KeepsO.done ?_
  refine Keeps.ite ?_ ?_
  · refine Keeps.upd (t := s) ?_ rfl rfl rfl (Nat.le_refl _)
    exact Keeps.refl _
  · exact Keeps.refl _

theorem keeps_txtsPop (s : State) (p1 : Nat) (p2 : Nat) : KeepsF 8 s (txtsPop s p1 p2) := by
  unfold txtsPop
  split
  · refine KeepsF.mk ?_
    exact Keeps.refl _
  · refine KeepsF.mk ?_
    refine Keeps.upd (t := s) ?_ rfl rfl rfl (Nat.le_refl _)
    exact Keeps.refl _

theorem keeps_execTxtsPop (p0 : Nat) (p1 : Nat) (s : State) : KeepsO 10 s (execTxtsPop p0 p1 s) := by
  unfold execTxtsPop
  refine KeepsO.done ?_
  extract_lets -underBinder -merge -useContext +onlyGivenNames x1
  have h1 : KeepsF 10 s x1 := by
    unfold x1
    refine KeepsF.trans ?_ (keeps_txtsPop _ _ _)
    exact Keeps.refl _
  try clear_value x1
  refine Keeps.trans ?_ (keeps_respond _ _)
  refine KeepsF.snd ?_
  assumption

theorem keeps_domSetLatch (s : State) (p1 : Nat) (p2 : Nat) : KeepsF 8 s (domSetLatch s p1 p2) := by
  unfold domSetLatch
  split
  · refine KeepsF.mk ?_
    exact Keeps.refl _
  · refine KeepsF.mk ?_
    refine Keeps.upd (t := s) ?_ rfl rfl rfl (Nat.le_refl _)
    exact Keeps.refl _

theorem keeps_execDomainSetLatch (p0 : Nat) (p1 : Nat) (s : State) : KeepsO 10 s (execDomainSetLatch p0 p1 s) := by
  unfold execDomainSetLatch
  refine KeepsO.done ?_
  extract_lets -underBinder -merge -useContext +onlyGivenNames x1
  have h1 : KeepsF 10 s x1 := by
    unfold x1
    refine KeepsF.trans ?_ (keeps_domSetLatch _ _ _)
    exact Keeps.refl _
  try clear_value x1
  refine Keeps.trans ?_ (keeps_respond _ _)
  refine KeepsF.snd ?_
  assumption

theorem keeps_timDisabled (s : State) : Keeps 2663599 s (timDisabled s) := by
  unfold timDisabled
  extract_lets -underBinder -merge -useContext +onlyGivenNames x1
  extract_lets -underBinder -merge -useContext +onlyGivenNames x2
  have h2 : Keeps 2663599 s x2 := by
    unfold x2
    refine Keeps.upd (t := s) ?_ rfl rfl rfl (Nat.le_refl _)
    exact Keeps.refl _
  try clear_value x2
  refine Keeps.trans ?_ (keeps_pinEval _)
  refine Keeps.trans ?_ (keeps_timeWithdraw _)
  refine Keeps.trans ?_ (keeps_domChange _ _ _)
  refine Keeps.trans ?_ (keeps_domChange _ _ _)
  assumption

theorem keeps_domCfgWrite (s : State) (p1 : Nat) (p2 : Word) : Keeps 15 s (domCfgWrite s p1 p2) := by
  unfold domCfgWrite
  refine Keeps.ite ?_ ?_
  · refine Keeps.trans ?_ (keeps_refuse _ _ _)
    exact Keeps.refl _
  · extract_lets -underBinder -merge -useContext +onlyGivenNames x1
    try clear_value x1
    extract_lets -underBinder -merge -useContext +onlyGivenNames x2
    have h2 : Keeps 15 s x2 := by
      unfold x2
      refine Keeps.trans ?_ (keeps_specWrite _ _ _)
      exact Keeps.refl _
    try clear_value x2
    refine Keeps.ite ?_ ?_
    · assumption
    · refine Keeps.trans ?_ (keeps_setDom _ _ _)
      assumption

end Sys2Proof.Machine
end

