-- ==== Sys2Proof/Laws/KeepsAfeOps.lean ====
section
/-! SUPPORT. What each function of Machine/AfeOps.lean leaves unchanged (the mask names the areas it may change). -/

set_option Elab.async false

namespace Sys2Proof.Machine

theorem keeps_setChan (s : State) (p1 : Nat) (p2 : Chan) : Keeps 262144 s (setChan s p1 p2) := by
  unfold setChan
  refine Keeps.upd (t := s) ?_ rfl rfl rfl (Nat.le_refl _)
  exact Keeps.refl _

theorem keeps_startSwap (s : State) (p1 : Nat) : Keeps 262151 s (startSwap s p1) := by
  unfold startSwap
  extract_lets -underBinder -merge -useContext +onlyGivenNames x1
  try clear_value x1
  split
  · extract_lets -underBinder -merge -useContext +onlyGivenNames x2
    have h2 : Keeps 262151 s x2 := by
      unfold x2
      refine Keeps.trans ?_ (keeps_setChan _ _ _)
      exact Keeps.refl _
    try clear_value x2
    refine Keeps.ite ?_ ?_
    · refine Keeps.trans ?_ (keeps_evt _ _ _)
      assumption
    · assumption
  · exact Keeps.refl _

theorem keeps_chainStep (s : State) (p1 : Nat) (p2 : Int) (p3 : Bool) (p4 : Nat) : KeepsF 2359303 s (chainStep s p1 p2 p3 p4) := by
  unfold chainStep
  extract_lets -underBinder -merge -useContext +onlyGivenNames x1
  try clear_value x1
  extract_lets -underBinder -merge -useContext +onlyGivenNames x2
  try clear_value x2
  extract_lets -underBinder -merge -useContext +onlyGivenNames x3
  try clear_value x3
  extract_lets -underBinder -merge -useContext +onlyGivenNames x4
  have h4 : Keeps 2359303 s x4 := by
    unfold x4
    refine Keeps.trans ?_ (keeps_nextFree _)
    exact Keeps.refl _
  try clear_value x4
  extract_lets -underBinder -merge -useContext +onlyGivenNames x5
  try clear_value x5
  extract_lets -underBinder -merge -useContext +onlyGivenNames x6
  try clear_value x6
  extract_lets -underBinder -merge -useContext +onlyGivenNames x7
  have h7 : Keeps 2359303 s x7 := by
    unfold x7
    split
    · refine Keeps.trans ?_ (keeps_setChan _ _ _)
      assumption
    · assumption
  try clear_value x7
  extract_lets -underBinder -merge -useContext +onlyGivenNames x8
  have h8 : Keeps 2359303 s x8 := by
    unfold x8
    refine Keeps.trans ?_ (keeps_startSwap _ _)
    assumption
  try clear_value x8
  extract_lets -underBinder -merge -useContext +onlyGivenNames x9
  try clear_value x9
  extract_lets -underBinder -merge -useContext +onlyGivenNames x10
  try clear_value x10
  extract_lets -underBinder -merge -useContext +onlyGivenNames x11
  try clear_value x11
  extract_lets -underBinder -merge -useContext +onlyGivenNames x12
  try clear_value x12
  extract_lets -underBinder -merge -useContext +onlyGivenNames x13
  try clear_value x13
  extract_lets -underBinder -merge -useContext +onlyGivenNames x14
  try clear_value x14
  extract_lets -underBinder -merge -useContext +onlyGivenNames x15
  try clear_value x15
  extract_lets -underBinder -merge -useContext +onlyGivenNames x16
  try clear_value x16
  extract_lets -underBinder -merge -useContext +onlyGivenNames x17
  try clear_value x17
  extract_lets -underBinder -merge -useContext +onlyGivenNames x18
  try clear_value x18
  extract_lets -underBinder -merge -useContext +onlyGivenNames x19
  try clear_value x19
  extract_lets -underBinder -merge -useContext +onlyGivenNames x20
  try clear_value x20
  extract_lets -underBinder -merge -useContext +onlyGivenNames x21
  try clear_value x21
  extract_lets -underBinder -merge -useContext +onlyGivenNames x22
  try clear_value x22
  extract_lets -underBinder -merge -useContext +onlyGivenNames x23
  try clear_value x23
  extract_lets -underBinder -merge -useContext +onlyGivenNames x24
  have h24 : Keeps 2359303 s x24 := by
    unfold x24
    refine Keeps.trans ?_ (keeps_setChan _ _ _)
    assumption
  try clear_value x24
  extract_lets -underBinder -merge -useContext +onlyGivenNames x25
  have h25 : Keeps 2359303 s x25 := by
    unfold x25
    refine Keeps.ite ?_ ?_
    · refine Keeps.trans ?_ (keeps_evt _ _ _)
      assumption
    · assumption
  try clear_value x25
  extract_lets -underBinder -merge -useContext +onlyGivenNames x26
  have h26 : Keeps 2359303 s x26 := by
    unfold x26
    refine Keeps.ite ?_ ?_
    · refine Keeps.trans ?_ (keeps_logEvent _ _ _ _)
      refine Keeps.trans ?_ (keeps_evt _ _ _)
      refine Keeps.trans ?_ (keeps_bump _ _)
      assumption
    · assumption
  try clear_value x26
  refine KeepsF.mk ?_
  assumption

theorem keeps_zcCount (s : State) (p1 : Nat) (p2 : Nat) : Keeps 262145 s (zcCount s p1 p2) := by
  unfold zcCount
  extract_lets -underBinder -merge -useContext +onlyGivenNames x1
  try clear_value x1
  extract_lets -underBinder -merge -useContext +onlyGivenNames x2
  have h2 : Keeps 262145 s x2 := by
    unfold x2
    refine Keeps.trans ?_ (keeps_setChan _ _ _)
    exact Keeps.refl _
  try clear_value x2
  split
  · extract_lets -underBinder -merge -useContext +onlyGivenNames x3
    try clear_value x3
    refine Keeps.ite ?_ ?_
    · refine Keeps.trans ?_ (keeps_setReg _ _ _)
      assumption
    · assumption
  · assumption

theorem keeps_zcStep (s : State) (p1 : Nat) : Keeps 262145 s (zcStep s p1) := by
  unfold zcStep
  extract_lets -underBinder -merge -useContext +onlyGivenNames x1
  try clear_value x1
  split
  · extract_lets -underBinder -merge -useContext +onlyGivenNames x2
    try clear_value x2
    extract_lets -underBinder -merge -useContext +onlyGivenNames x3
    try clear_value x3
    extract_lets -underBinder -merge -useContext +onlyGivenNames x4
    try clear_value x4
    extract_lets -underBinder -merge -useContext +onlyGivenNames x5
    have h5 : Keeps 262145 s x5 := by
      unfold x5
      refine Keeps.trans ?_ (keeps_setChan _ _ _)
      exact Keeps.refl _
    try clear_value x5
    refine Keeps.ite ?_ ?_
    · refine Keeps.trans ?_ (keeps_zcCount _ _ _)
      assumption
    · assumption
  · exact Keeps.refl _

theorem keeps_calStep (s : State) (p1 : Nat) (p2 : Int) (p3 : Nat) : Keeps 262145 s (calStep s p1 p2 p3) := by
  unfold calStep
  split
  · exact Keeps.refl _
  · refine Keeps.ite ?_ ?_
    · exact Keeps.refl _
    · extract_lets -underBinder -merge -useContext +onlyGivenNames x1
      try clear_value x1
      extract_lets -underBinder -merge -useContext +onlyGivenNames x2
      try clear_value x2
      extract_lets -underBinder -merge -useContext +onlyGivenNames x3
      try clear_value x3
      extract_lets -underBinder -merge -useContext +onlyGivenNames x4
      try clear_value x4
      extract_lets -underBinder -merge -useContext +onlyGivenNames x5
      try clear_value x5
      extract_lets -underBinder -merge -useContext +onlyGivenNames x6
      extract_lets -underBinder -merge -useContext +onlyGivenNames x7
      have h7 : Keeps 262145 s x7 := by
        unfold x7
        refine Keeps.upd (t := s) ?_ rfl rfl rfl (Nat.le_refl _)
        exact Keeps.refl _
      try clear_value x7
      refine Keeps.ite ?_ ?_
      · refine Keeps.trans ?_ (keeps_opProgress _ _ _)
        assumption
      · assumption

theorem keeps_newBlock (s : State) (p1 : Nat) (p2 : Sample) (p3 : Int) : Keeps 1048583 s (newBlock s p1 p2 p3) := by
  unfold newBlock
  extract_lets -underBinder -merge -useContext +onlyGivenNames x1
  have h1 : Keeps 1048583 s x1 := by
    unfold x1
    refine Keeps.ite ?_ ?_
    · refine Keeps.trans ?_ (keeps_capEnd _ _ _ _ _)
      exact Keeps.refl _
    · exact Keeps.refl _
  try clear_value x1
  split
  · assumption
  · extract_lets -underBinder -merge -useContext +onlyGivenNames x2
    try clear_value x2
    extract_lets -underBinder -merge -useContext +onlyGivenNames x3
    try clear_value x3
    refine Keeps.trans ?_ (keeps_setCapRing _ _ _)
    assumption

theorem keeps_fullBlock (s : State) (p1 : Nat) : Keeps 1048583 s (fullBlock s p1) := by
  unfold fullBlock
  split
  · exact Keeps.refl _
  · refine Keeps.ite ?_ ?_
    · extract_lets -underBinder -merge -useContext +onlyGivenNames x1
      have h1 : KeepsF 1048583 s x1 := by
        unfold x1
        refine KeepsF.trans ?_ (keeps_closeOpen _ _)
        exact Keeps.refl _
      try clear_value x1
      split
      · extract_lets -underBinder -merge -useContext +onlyGivenNames x2
        have h2 : KeepsF 1048583 s x2 := by
          unfold x2
          refine KeepsF.trans ?_ (keeps_copyBlock _ _ _)
          refine KeepsF.snd ?_
          assumption
        try clear_value x2
        refine Keeps.ite ?_ ?_
        · refine Keeps.trans ?_ (keeps_capFull _)
          refine KeepsF.snd ?_
          assumption
        · refine KeepsF.snd ?_
          assumption
      · exact Keeps.refl _
    · exact Keeps.refl _

theorem keeps_capStore (s : State) (p1 : Nat) (p2 : Sample) : Keeps 1048583 s (capStore s p1 p2) := by
  unfold capStore
  extract_lets -underBinder -merge -useContext +onlyGivenNames x1
  try clear_value x1
  extract_lets -underBinder -merge -useContext +onlyGivenNames x2
  try clear_value x2
  split
  · refine Keeps.trans ?_ (keeps_fullBlock _ _)
    refine Keeps.trans ?_ (keeps_newBlock _ _ _ _)
    exact Keeps.refl _
  · refine Keeps.ite ?_ ?_
    · refine Keeps.trans ?_ (keeps_fullBlock _ _)
      refine Keeps.trans ?_ (keeps_newBlock _ _ _ _)
      exact Keeps.refl _
    · extract_lets -underBinder -merge -useContext +onlyGivenNames x3
      try clear_value x3
      extract_lets -underBinder -merge -useContext +onlyGivenNames x4
      try clear_value x4
      extract_lets -underBinder -merge -useContext +onlyGivenNames x5
      try clear_value x5
      extract_lets -underBinder -merge -useContext +onlyGivenNames x6
      try clear_value x6
      refine Keeps.trans ?_ (keeps_fullBlock _ _)
      refine Keeps.trans ?_ (keeps_setCapRing _ _ _)
      exact Keeps.refl _

theorem keeps_capTests (s : State) (p1 : Nat) (p2 : Sample) (p3 : Option Int) : Keeps 3309735 s (capTests s p1 p2 p3) := by
  unfold capTests
  extract_lets -underBinder -merge -useContext +onlyGivenNames x1
  try clear_value x1
  extract_lets -underBinder -merge -useContext +onlyGivenNames x2
  try clear_value x2
  extract_lets -underBinder -merge -useContext +onlyGivenNames x3
  try clear_value x3
  extract_lets -underBinder -merge -useContext +onlyGivenNames x4
  try clear_value x4
  extract_lets -underBinder -merge -useContext +onlyGivenNames x5
  try clear_value x5
  extract_lets -underBinder -merge -useContext +onlyGivenNames x6
  try clear_value x6
  extract_lets -underBinder -merge -useContext +onlyGivenNames x7
  have h7 : Keeps 3309735 s x7 := by
    unfold x7
    refine Keeps.trans ?_ (keeps_setCapRing _ _ _)
    exact Keeps.refl _
  try clear_value x7
  extract_lets -underBinder -merge -useContext +onlyGivenNames x8
  have h8 : Keeps 3309735 s x8 := by
    unfold x8
    refine Keeps.ite ?_ ?_
    · refine Keeps.trans ?_ (keeps_capTrigger _ _ _)
      assumption
    · assumption
  try clear_value x8
  refine Keeps.ite ?_ ?_
  · refine Keeps.trans ?_ (keeps_capTrigger _ _ _)
    assumption
  · assumption

theorem keeps_execChannelOutputSample (p0 : Nat) (p1 : Int) (p2 : Bool) (p3 : Nat) (s : State) : KeepsO 3571879 s (execChannelOutputSample p0 p1 p2 p3 s) := by
  unfold execChannelOutputSample
  refine KeepsO.done ?_
  extract_lets -underBinder -merge -useContext +onlyGivenNames x1
  try clear_value x1
  extract_lets -underBinder -merge -useContext +onlyGivenNames x2
  try clear_value x2
  extract_lets -underBinder -merge -useContext +onlyGivenNames x3
  try clear_value x3
  extract_lets -underBinder -merge -useContext +onlyGivenNames x4
  try clear_value x4
  refine Keeps.ite ?_ ?_
  · exact Keeps.refl _
  · extract_lets -underBinder -merge -useContext +onlyGivenNames x5
    have h5 : KeepsF 3571879 s x5 := by
      unfold x5
      refine KeepsF.trans ?_ (keeps_chainStep _ _ _ _ _)
      exact Keeps.refl _
    try clear_value x5
    extract_lets -underBinder -merge -useContext +onlyGivenNames x6
    have h6 : Keeps 3571879 s x6 := by
      unfold x6
      refine Keeps.trans ?_ (keeps_calStep _ _ _ _)
      refine Keeps.trans ?_ (keeps_zcStep _ _)
      refine KeepsF.snd ?_
      assumption
    try clear_value x6
    refine Keeps.ite ?_ ?_
    · refine Keeps.trans ?_ (keeps_capTests _ _ _ _)
      refine Keeps.trans ?_ (keeps_capStore _ _ _)
      assumption
    · assumption

end Sys2Proof.Machine
end

