-- ==== Sys2Proof/Laws/KeepsAfeCmds.lean ====
section
/-! SUPPORT. What each function of Machine/AfeCmds.lean leaves unchanged (the mask names the areas it may change). -/

set_option Elab.async false

namespace Sys2Proof.Machine

theorem keeps_afeCommitWrite (s : State) (p1 : Nat) : Keeps 262144 s (afeCommitWrite s p1) := by
  unfold afeCommitWrite
  refine Keeps.foldl ?_ (fun y1 a1 hy1 => ?_)
  · exact Keeps.refl _
  · refine Keeps.trans ?_ (keeps_setChan _ _ _)
    assumption

theorem keeps_execAfeCommit (p0 : Word) (s : State) : KeepsO 262144 s (execAfeCommit p0 s) := by
  unfold execAfeCommit
  refine KeepsO.done ?_
  refine Keeps.ite ?_ ?_
  · exact Keeps.refl _
  · refine Keeps.trans ?_ (keeps_afeCommitWrite _ _)
    exact Keeps.refl _

theorem keeps_fltResult (s : State) (p1 : Nat) (p2 : Nat) : Keeps 1 s (fltResult s p1 p2) := by
  unfold fltResult
  extract_lets -underBinder -merge -useContext +onlyGivenNames x1
  have h1 : Keeps 1 s x1 := by
    unfold x1
    refine Keeps.trans ?_ (keeps_setRegN _ _ _)
    exact Keeps.refl _
  try clear_value x1
  refine Keeps.ite ?_ ?_
  · assumption
  · refine Keeps.trans ?_ (keeps_refuse _ _ _)
    assumption

theorem keeps_fltSwapWrite (s : State) (p1 : Nat) (p2 : Word) : Keeps 262151 s (fltSwapWrite s p1 p2) := by
  unfold fltSwapWrite
  extract_lets -underBinder -merge -useContext +onlyGivenNames x1
  try clear_value x1
  extract_lets -underBinder -merge -useContext +onlyGivenNames x2
  try clear_value x2
  refine Keeps.ite ?_ ?_
  · refine Keeps.trans ?_ (keeps_fltResult _ _ _)
    exact Keeps.refl _
  · refine Keeps.ite ?_ ?_
    · refine Keeps.trans ?_ (keeps_fltResult _ _ _)
      exact Keeps.refl _
    · refine Keeps.trans ?_ (keeps_fltResult _ _ _)
      refine Keeps.foldl ?_ (fun y3 a3 hy3 => ?_)
      · exact Keeps.refl _
      · extract_lets -underBinder -merge -useContext +onlyGivenNames x4
        try clear_value x4
        refine Keeps.ite ?_ ?_
        · refine Keeps.trans ?_ (keeps_setChan _ _ _)
          assumption
        · extract_lets -underBinder -merge -useContext +onlyGivenNames x5
          have h5 : Keeps 262151 s x5 := by
            unfold x5
            refine Keeps.trans ?_ (keeps_setChan _ _ _)
            assumption
          try clear_value x5
          refine Keeps.ite ?_ ?_
          · refine Keeps.trans ?_ (keeps_evt _ _ _)
            assumption
          · assumption

theorem keeps_execFltSwap (p0 : Nat) (p1 : Word) (s : State) : KeepsO 262151 s (execFltSwap p0 p1 s) := by
  unfold execFltSwap
  refine KeepsO.done ?_
  refine Keeps.ite ?_ ?_
  · exact Keeps.refl _
  · refine Keeps.trans ?_ (keeps_fltSwapWrite _ _ _)
    exact Keeps.refl _

theorem keeps_coefWrite (s : State) (p1 : Nat) (p2 : Word) : Keeps 1 s (coefWrite s p1 p2) := by
  unfold coefWrite
  extract_lets -underBinder -merge -useContext +onlyGivenNames x1
  try clear_value x1
  extract_lets -underBinder -merge -useContext +onlyGivenNames x2
  try clear_value x2
  extract_lets -underBinder -merge -useContext +onlyGivenNames x3
  try clear_value x3
  extract_lets -underBinder -merge -useContext +onlyGivenNames x4
  try clear_value x4
  refine Keeps.ite ?_ ?_
  · exact Keeps.refl _
  · refine Keeps.ite ?_ ?_
    · refine Keeps.trans ?_ (keeps_refuse _ _ _)
      exact Keeps.refl _
    · refine Keeps.trans ?_ (keeps_setReg _ _ _)
      exact Keeps.refl _

theorem keeps_execCoefficientWrite (p0 : Nat) (p1 : Nat) (p2 : Nat) (p3 : Word) (s : State) : KeepsO 1 s (execCoefficientWrite p0 p1 p2 p3 s) := by
  unfold execCoefficientWrite
  refine KeepsO.done ?_
  refine Keeps.ite ?_ ?_
  · exact Keeps.refl _
  · refine Keeps.trans ?_ (keeps_coefWrite _ _ _)
    exact Keeps.refl _

theorem keeps_owStart (s : State) (p1 : Nat) : Keeps 262145 s (owStart s p1) := by
  unfold owStart
  extract_lets -underBinder -merge -useContext +onlyGivenNames x1
  try clear_value x1
  refine Keeps.ite ?_ ?_
  · refine Keeps.trans ?_ (keeps_opRefuseStart _ _)
    exact Keeps.refl _
  · refine Keeps.ite ?_ ?_
    · refine Keeps.trans ?_ (keeps_refuse _ _ _)
      exact Keeps.refl _
    · refine Keeps.ite ?_ ?_
      · refine Keeps.trans ?_ (keeps_refuse _ _ _)
        exact Keeps.refl _
      · extract_lets -underBinder -merge -useContext +onlyGivenNames x2
        have h2 : Keeps 262145 s x2 := by
          unfold x2
          refine Keeps.trans ?_ (keeps_opStart _ _)
          exact Keeps.refl _
        try clear_value x2
        refine Keeps.upd (t := x2) ?_ rfl rfl rfl (Nat.le_refl _)
        assumption

theorem keeps_owStop (s : State) : Keeps 262151 s (owStop s) := by
  unfold owStop
  refine Keeps.ite ?_ ?_
  · refine Keeps.trans ?_ (keeps_evt _ _ _)
    refine Keeps.trans ?_ (keeps_opEnd _ _ _ _)
    refine Keeps.upd (t := s) ?_ rfl rfl rfl (Nat.le_refl _)
    exact Keeps.refl _
  · refine Keeps.trans ?_ (keeps_opRefuseStop _ _)
    exact Keeps.refl _

theorem keeps_owCtrl (s : State) (p1 : Word) : Keeps 262151 s (owCtrl s p1) := by
  unfold owCtrl
  extract_lets -underBinder -merge -useContext +onlyGivenNames x1
  have h1 : Keeps 262151 s x1 := by
    unfold x1
    refine Keeps.ite ?_ ?_
    · refine Keeps.trans ?_ (keeps_owStop _)
      exact Keeps.refl _
    · exact Keeps.refl _
  try clear_value x1
  refine Keeps.ite ?_ ?_
  · refine Keeps.trans ?_ (keeps_owStart _ _)
    assumption
  · assumption

theorem keeps_execOpenWireStart (p0 : Word) (s : State) : KeepsO 262151 s (execOpenWireStart p0 s) := by
  unfold execOpenWireStart
  refine KeepsO.done ?_
  refine Keeps.ite ?_ ?_
  · exact Keeps.refl _
  · refine Keeps.trans ?_ (keeps_owCtrl _ _)
    exact Keeps.refl _

theorem keeps_execOpenWireStop (s : State) : KeepsO 262151 s (execOpenWireStop s) := by
  unfold execOpenWireStop
  refine KeepsO.done ?_
  refine Keeps.ite ?_ ?_
  · exact Keeps.refl _
  · refine Keeps.trans ?_ (keeps_owStop _)
    exact Keeps.refl _

theorem keeps_execOpenWireChannelEnd (p0 : Bool) (s : State) : KeepsO 2359303 s (execOpenWireChannelEnd p0 s) := by
  unfold execOpenWireChannelEnd
  refine KeepsO.done ?_
  split
  · exact Keeps.refl _
  · split
    · extract_lets -underBinder -merge -useContext +onlyGivenNames x1
      try clear_value x1
      extract_lets -underBinder -merge -useContext +onlyGivenNames x2
      try clear_value x2
      extract_lets -underBinder -merge -useContext +onlyGivenNames x3
      try clear_value x3
      extract_lets -underBinder -merge -useContext +onlyGivenNames x4
      try clear_value x4
      refine Keeps.ite ?_ ?_
      · exact Keeps.refl _
      · extract_lets -underBinder -merge -useContext +onlyGivenNames x5
        try clear_value x5
        extract_lets -underBinder -merge -useContext +onlyGivenNames x6
        try clear_value x6
        extract_lets -underBinder -merge -useContext +onlyGivenNames x7
        try clear_value x7
        extract_lets -underBinder -merge -useContext +onlyGivenNames x8
        try clear_value x8
        extract_lets -underBinder -merge -useContext +onlyGivenNames x9
        try clear_value x9
        extract_lets -underBinder -merge -useContext +onlyGivenNames x10
        have h10 : Keeps 2359303 s x10 := by
          unfold x10
          refine Keeps.trans ?_ (keeps_nextFree _)
          exact Keeps.refl _
        try clear_value x10
        extract_lets -underBinder -merge -useContext +onlyGivenNames x11
        try clear_value x11
        extract_lets -underBinder -merge -useContext +onlyGivenNames x12
        try clear_value x12
        extract_lets -underBinder -merge -useContext +onlyGivenNames x13
        try clear_value x13
        extract_lets -underBinder -merge -useContext +onlyGivenNames x14
        have h14 : Keeps 2359303 s x14 := by
          unfold x14
          refine Keeps.trans ?_ (keeps_setRegN _ _ _)
          assumption
        try clear_value x14
        extract_lets -underBinder -merge -useContext +onlyGivenNames x15
        have h15 : Keeps 2359303 s x15 := by
          unfold x15
          refine Keeps.trans ?_ (keeps_setRegFld _ _ _ _ _)
          assumption
        try clear_value x15
        extract_lets -underBinder -merge -useContext +onlyGivenNames x16
        have h16 : Keeps 2359303 s x16 := by
          unfold x16
          refine Keeps.ite ?_ ?_
          · refine Keeps.trans ?_ (keeps_logEvent _ _ _ _)
            refine Keeps.trans ?_ (keeps_evt _ _ _)
            assumption
          · assumption
        try clear_value x16
        extract_lets -underBinder -merge -useContext +onlyGivenNames x17
        have h17 : Keeps 2359303 s x17 := by
          unfold x17
          refine Keeps.trans ?_ (keeps_opProgress _ _ _)
          assumption
        try clear_value x17
        refine Keeps.ite ?_ ?_
        · refine Keeps.trans ?_ (keeps_evt _ _ _)
          refine Keeps.trans ?_ (keeps_opEnd _ _ _ _)
          refine Keeps.upd (t := x17) ?_ rfl rfl rfl (Nat.le_refl _)
          assumption
        · refine Keeps.upd (t := x17) ?_ rfl rfl rfl (Nat.le_refl _)
          assumption
    · exact Keeps.refl _

theorem keeps_calFinish (s : State) (p1 : Nat) (p2 : Nat) : Keeps 262151 s (calFinish s p1 p2) := by
  unfold calFinish
  refine Keeps.trans ?_ (keeps_evt _ _ _)
  refine Keeps.trans ?_ (keeps_opEnd _ _ _ _)
  refine Keeps.upd (t := s) ?_ rfl rfl rfl (Nat.le_refl _)
  exact Keeps.refl _

theorem keeps_calStart (s : State) (p1 : Word) : Keeps 262151 s (calStart s p1) := by
  unfold calStart
  extract_lets -underBinder -merge -useContext +onlyGivenNames x1
  try clear_value x1
  extract_lets -underBinder -merge -useContext +onlyGivenNames x2
  try clear_value x2
  refine Keeps.ite ?_ ?_
  · refine Keeps.trans ?_ (keeps_opRefuseStart _ _)
    exact Keeps.refl _
  · refine Keeps.ite ?_ ?_
    · refine Keeps.trans ?_ (keeps_refuse _ _ _)
      exact Keeps.refl _
    · refine Keeps.ite ?_ ?_
      · refine Keeps.trans ?_ (keeps_refuse _ _ _)
        exact Keeps.refl _
      · extract_lets -underBinder -merge -useContext +onlyGivenNames x3
        have h3 : Keeps 262151 s x3 := by
          unfold x3
          refine Keeps.trans ?_ (keeps_opStart _ _)
          exact Keeps.refl _
        try clear_value x3
        refine Keeps.ite ?_ ?_
        · refine Keeps.trans ?_ (keeps_calFinish _ _ _)
          assumption
        · refine Keeps.upd (t := x3) ?_ rfl rfl rfl (Nat.le_refl _)
          assumption

theorem keeps_calStop (s : State) : Keeps 262151 s (calStop s) := by
  unfold calStop
  refine Keeps.ite ?_ ?_
  · refine Keeps.trans ?_ (keeps_calFinish _ _ _)
    exact Keeps.refl _
  · refine Keeps.trans ?_ (keeps_opRefuseStop _ _)
    exact Keeps.refl _

theorem keeps_calCtrl (s : State) (p1 : Word) : Keeps 262151 s (calCtrl s p1) := by
  unfold calCtrl
  extract_lets -underBinder -merge -useContext +onlyGivenNames x1
  have h1 : Keeps 262151 s x1 := by
    unfold x1
    refine Keeps.ite ?_ ?_
    · refine Keeps.trans ?_ (keeps_calStop _)
      exact Keeps.refl _
    · exact Keeps.refl _
  try clear_value x1
  refine Keeps.ite ?_ ?_
  · refine Keeps.trans ?_ (keeps_calStart _ _)
    assumption
  · assumption

theorem keeps_execAfeCalStart (p0 : Word) (s : State) : KeepsO 262151 s (execAfeCalStart p0 s) := by
  unfold execAfeCalStart
  refine KeepsO.done ?_
  refine Keeps.ite ?_ ?_
  · exact Keeps.refl _
  · refine Keeps.trans ?_ (keeps_calCtrl _ _)
    exact Keeps.refl _

theorem keeps_execAfeCalStop (s : State) : KeepsO 262151 s (execAfeCalStop s) := by
  unfold execAfeCalStop
  refine KeepsO.done ?_
  refine Keeps.ite ?_ ?_
  · exact Keeps.refl _
  · refine Keeps.trans ?_ (keeps_calStop _)
    exact Keeps.refl _

theorem keeps_calResults (s : State) (p1 : CalRun) (p2 : Int) (p3 : List (Nat × List CalAcc × CalAcc)) : Keeps 2359297 s (calResults s p1 p2 p3) := by
  unfold calResults
  extract_lets -underBinder -merge -useContext +onlyGivenNames x1
  try clear_value x1
  extract_lets -underBinder -merge -useContext +onlyGivenNames x2
  try clear_value x2
  extract_lets -underBinder -merge -useContext +onlyGivenNames x3
  have h3 : Keeps 2359297 s x3 := by
    unfold x3
    refine Keeps.foldl ?_ (fun y4 a4 hy4 => ?_)
    · exact Keeps.refl _
    · refine Keeps.ite ?_ ?_
      · assumption
      · refine Keeps.ite ?_ ?_
        · refine Keeps.trans ?_ (keeps_setRegN _ _ _)
          assumption
        · refine Keeps.trans ?_ (keeps_setRegN _ _ _)
          assumption
  try clear_value x3
  refine Keeps.trans ?_ (keeps_nextFree _)
  refine Keeps.upd (t := x3) ?_ rfl rfl rfl (Nat.le_refl _)
  assumption

theorem keeps_execAfeCalEnd (s : State) : KeepsO 2359303 s (execAfeCalEnd s) := by
  unfold execAfeCalEnd
  refine KeepsO.done ?_
  split
  · exact Keeps.refl _
  · extract_lets -underBinder -merge -useContext +onlyGivenNames x1
    try clear_value x1
    extract_lets -underBinder -merge -useContext +onlyGivenNames x2
    try clear_value x2
    extract_lets -underBinder -merge -useContext +onlyGivenNames x3
    try clear_value x3
    refine Keeps.ite ?_ ?_
    · exact Keeps.refl _
    · refine Keeps.ite ?_ ?_
      · refine Keeps.trans ?_ (keeps_calResults _ _ _ _)
        exact Keeps.refl _
      · extract_lets -underBinder -merge -useContext +onlyGivenNames x4
        have h4 : Keeps 2359303 s x4 := by
          unfold x4
          refine Keeps.trans ?_ (keeps_opProgress _ _ _)
          refine Keeps.trans ?_ (keeps_calResults _ _ _ _)
          exact Keeps.refl _
        try clear_value x4
        extract_lets -underBinder -merge -useContext +onlyGivenNames x5
        try clear_value x5
        refine Keeps.ite ?_ ?_
        · refine Keeps.trans ?_ (keeps_calFinish _ _ _)
          assumption
        · refine Keeps.ite ?_ ?_
          · refine Keeps.trans ?_ (keeps_calFinish _ _ _)
            refine Keeps.upd (t := x4) ?_ rfl rfl rfl (Nat.le_refl _)
            assumption
          · extract_lets -underBinder -merge -useContext +onlyGivenNames x6
            have h6 : Keeps 2359303 s x6 := by
              unfold x6
              refine Keeps.foldl ?_ (fun y7 a7 hy7 => ?_)
              · assumption
              · refine Keeps.trans ?_ (keeps_setReg _ _ _)
                refine Keeps.trans ?_ (keeps_setReg _ _ _)
                assumption
            try clear_value x6
            extract_lets -underBinder -merge -useContext +onlyGivenNames x8
            have h8 : Keeps 2359303 s x8 := by
              unfold x8
              refine Keeps.ite ?_ ?_
              · refine Keeps.trans ?_ (keeps_logEvent _ _ _ _)
                refine Keeps.trans ?_ (keeps_afeCommitWrite _ _)
                assumption
              · assumption
            try clear_value x8
            refine Keeps.trans ?_ (keeps_calFinish _ _ _)
            assumption

theorem keeps_calSave (s : State) : Keeps 262144 s (calSave s) := by
  unfold calSave
  refine Keeps.upd (t := s) ?_ rfl rfl rfl (Nat.le_refl _)
  exact Keeps.refl _

theorem keeps_execAfeCalSave (s : State) : KeepsO 262144 s (execAfeCalSave s) := by
  unfold execAfeCalSave
  refine KeepsO.done ?_
  refine Keeps.ite ?_ ?_
  · exact Keeps.refl _
  · refine Keeps.trans ?_ (keeps_calSave _)
    exact Keeps.refl _

theorem keeps_calRestore (s : State) : Keeps 262145 s (calRestore s) := by
  unfold calRestore
  split
  · exact Keeps.refl _
  · refine Keeps.trans ?_ (keeps_afeCommitWrite _ _)
    refine Keeps.foldl ?_ (fun y1 a1 hy1 => ?_)
    · exact Keeps.refl _
    · split
      · refine Keeps.trans ?_ (keeps_setReg _ _ _)
        refine Keeps.trans ?_ (keeps_setReg _ _ _)
        assumption
      · assumption

theorem keeps_lCfgStore (s : State) (p1 : Nat) (p2 : Word) : Keeps 1 s (lCfgStore s p1 p2) := by
  unfold lCfgStore
  extract_lets -underBinder -merge -useContext +onlyGivenNames x1
  try clear_value x1
  extract_lets -underBinder -merge -useContext +onlyGivenNames x2
  try clear_value x2
  extract_lets -underBinder -merge -useContext +onlyGivenNames x3
  try clear_value x3
  extract_lets -underBinder -merge -useContext +onlyGivenNames x4
  try clear_value x4
  extract_lets -underBinder -merge -useContext +onlyGivenNames x5
  try clear_value x5
  extract_lets -underBinder -merge -useContext +onlyGivenNames x6
  have h6 : ∀ z7 z8, Keeps 1 z7 (x6 z7 z8) := by
    intro z7 z8
    unfold x6
    refine Keeps.ite ?_ ?_
    · refine Keeps.trans ?_ (keeps_refuse _ _ _)
      exact Keeps.refl _
    · refine Keeps.trans ?_ (keeps_setRegN _ _ _)
      exact Keeps.refl _
  try clear_value x6
  refine Keeps.ite ?_ ?_
  · refine Keeps.trans ?_ (keeps_refuse _ _ _)
    exact Keeps.refl _
  · refine Keeps.ite ?_ ?_
    · refine Keeps.trans ?_ (keeps_refuse _ _ _)
      refine Keeps.trans ?_ (h6 ..)
      exact Keeps.refl _
    · refine Keeps.trans ?_ (h6 ..)
      refine Keeps.trans ?_ (keeps_setReg _ _ _)
      exact Keeps.refl _

theorem keeps_execLCfgWrite (p0 : Nat) (p1 : Word) (s : State) : KeepsO 1 s (execLCfgWrite p0 p1 s) := by
  unfold execLCfgWrite
  refine KeepsO.done ?_
  refine Keeps.ite ?_ ?_
  · exact Keeps.refl _
  · refine Keeps.trans ?_ (keeps_lCfgStore _ _ _)
    exact Keeps.refl _

theorem keeps_afeEnabledNow (s : State) : Keeps 262144 s (afeEnabledNow s) := by
  unfold afeEnabledNow
  extract_lets -underBinder -merge -useContext +onlyGivenNames x1
  extract_lets -underBinder -merge -useContext +onlyGivenNames x2
  have h2 : Keeps 262144 s x2 := by
    unfold x2
    refine Keeps.upd (t := s) ?_ rfl rfl rfl (Nat.le_refl _)
    exact Keeps.refl _
  try clear_value x2
  refine Keeps.foldl ?_ (fun y3 a3 hy3 => ?_)
  · assumption
  · refine Keeps.trans ?_ (keeps_setChan _ _ _)
    assumption

theorem keeps_localLand (s : State) (p1 : Landing) : Keeps 2338743 s (localLand s p1) := by
  unfold localLand
  extract_lets -underBinder -merge -useContext +onlyGivenNames x1
  have h1 : ∀ z2 z3 z4, Keeps 2338743 z2 (x1 z2 z3 z4) := by
    intro z2 z3 z4
    unfold x1
    refine Keeps.trans ?_ (keeps_accDiscard _ _ _ _ _ _ _)
    exact Keeps.refl _
  try clear_value x1
  refine Keeps.ite ?_ ?_
  · refine Keeps.trans ?_ (h1 ..)
    exact Keeps.refl _
  · refine Keeps.ite ?_ ?_
    · exact Keeps.refl _
    · refine Keeps.ite ?_ ?_
      · refine Keeps.trans ?_ (h1 ..)
        exact Keeps.refl _
      · split
        · refine Keeps.trans ?_ (h1 ..)
          exact Keeps.refl _
        · extract_lets -underBinder -merge -useContext +onlyGivenNames x5
          have h5 : Keeps 2338743 s x5 := by
            unfold x5
            refine Keeps.trans ?_ (keeps_lapsePast _)
            exact Keeps.refl _
          try clear_value x5
          extract_lets -underBinder -merge -useContext +onlyGivenNames x6
          try clear_value x6
          refine Keeps.ite ?_ ?_
          · refine Keeps.trans ?_ (h1 ..)
            assumption
          · extract_lets -underBinder -merge -useContext +onlyGivenNames x7
            try clear_value x7
            refine Keeps.ite ?_ ?_
            · refine Keeps.trans ?_ (h1 ..)
              assumption
            · extract_lets -underBinder -merge -useContext +onlyGivenNames x8
              try clear_value x8
              extract_lets -underBinder -merge -useContext +onlyGivenNames x9
              try clear_value x9
              refine Keeps.ite ?_ ?_
              · extract_lets -underBinder -merge -useContext +onlyGivenNames x10
                try clear_value x10
                refine Keeps.ite ?_ ?_
                · refine Keeps.upd (t := x5) ?_ rfl rfl rfl (Nat.le_refl _)
                  assumption
                · refine Keeps.trans ?_ (keeps_logEvent _ _ _ _)
                  refine Keeps.trans ?_ (keeps_evt _ _ _)
                  refine Keeps.trans ?_ (keeps_bump _ _)
                  assumption
              · refine Keeps.trans ?_ (keeps_reserveLand _ _)
                assumption

theorem keeps_execLocalEstimate (p0 : Nat) (p1 : Nat) (p2 : List (Nat × Nat)) (p3 : Nat) (p4 : Bool) (s : State) : KeepsO 2600887 s (execLocalEstimate p0 p1 p2 p3 p4 s) := by
  unfold execLocalEstimate
  refine KeepsO.done ?_
  extract_lets -underBinder -merge -useContext +onlyGivenNames x1
  try clear_value x1
  split
  · exact Keeps.refl _
  · extract_lets -underBinder -merge -useContext +onlyGivenNames x2
    try clear_value x2
    extract_lets -underBinder -merge -useContext +onlyGivenNames x3
    try clear_value x3
    refine Keeps.ite ?_ ?_
    · exact Keeps.refl _
    · extract_lets -underBinder -merge -useContext +onlyGivenNames x4
      try clear_value x4
      extract_lets -underBinder -merge -useContext +onlyGivenNames x5
      try clear_value x5
      extract_lets -underBinder -merge -useContext +onlyGivenNames x6
      try clear_value x6
      extract_lets -underBinder -merge -useContext +onlyGivenNames x7
      try clear_value x7
      extract_lets -underBinder -merge -useContext +onlyGivenNames x8
      try clear_value x8
      extract_lets -underBinder -merge -useContext +onlyGivenNames x9
      try clear_value x9
      extract_lets -underBinder -merge -useContext +onlyGivenNames x10
      try clear_value x10
      extract_lets -underBinder -merge -useContext +onlyGivenNames x11
      try clear_value x11
      extract_lets -underBinder -merge -useContext +onlyGivenNames x12
      try clear_value x12
      extract_lets -underBinder -merge -useContext +onlyGivenNames x13
      try clear_value x13
      extract_lets -underBinder -merge -useContext +onlyGivenNames x14
      try clear_value x14
      extract_lets -underBinder -merge -useContext +onlyGivenNames x15
      try clear_value x15
      extract_lets -underBinder -merge -useContext +onlyGivenNames x16
      extract_lets -underBinder -merge -useContext +onlyGivenNames x17
      have h17 : Keeps 2600887 s x17 := by
        unfold x17
        refine Keeps.trans ?_ (keeps_nextFree _)
        refine Keeps.upd (t := s) ?_ rfl rfl rfl (Nat.le_refl _)
        exact Keeps.refl _
      try clear_value x17
      extract_lets -underBinder -merge -useContext +onlyGivenNames x18
      have h18 : Keeps 2600887 s x18 := by
        unfold x18
        refine Keeps.trans ?_ (keeps_setRegN _ _ _)
        assumption
      try clear_value x18
      extract_lets -underBinder -merge -useContext +onlyGivenNames x19
      have h19 : Keeps 2600887 s x19 := by
        unfold x19
        refine Keeps.trans ?_ (keeps_setRegN _ _ _)
        assumption
      try clear_value x19
      extract_lets -underBinder -merge -useContext +onlyGivenNames x20
      have h20 : Keeps 2600887 s x20 := by
        unfold x20
        refine Keeps.trans ?_ (keeps_bump _ _)
        assumption
      try clear_value x20
      extract_lets -underBinder -merge -useContext +onlyGivenNames x21
      try clear_value x21
      extract_lets -underBinder -merge -useContext +onlyGivenNames x22
      try clear_value x22
      extract_lets -underBinder -merge -useContext +onlyGivenNames x23
      try clear_value x23
      extract_lets -underBinder -merge -useContext +onlyGivenNames x24
      try clear_value x24
      refine Keeps.ite ?_ ?_
      · assumption
      · refine Keeps.ite ?_ ?_
        · refine Keeps.upd (t := x20) ?_ rfl rfl rfl (Nat.le_refl _)
          assumption
        · refine Keeps.ite ?_ ?_
          · assumption
          · refine Keeps.trans ?_ (keeps_localLand _ _)
            assumption

end Sys2Proof.Machine
end

