-- ==== Sys2Proof/Laws/KeepsEnergyCmds.lean ====
section
/-! SUPPORT. What each function of Machine/EnergyCmds.lean leaves unchanged (the mask names the areas it may change). -/

set_option Elab.async false

namespace Sys2Proof.Machine

theorem keeps_countReversal (s : State) (p1 : Nat) (p2 : Nat) (p3 : Nat) (p4 : Nat) : Keeps 524295 s (countReversal s p1 p2 p3 p4) := by
  unfold countReversal
  extract_lets -underBinder -merge -useContext +onlyGivenNames x1
  try clear_value x1
  refine Keeps.trans ?_ (keeps_evt _ _ _)
  refine Keeps.upd (t := s) ?_ rfl rfl rfl (Nat.le_refl _)
  exact Keeps.refl _

theorem keeps_dirStep (s : State) (p1 : Nat) (p2 : Nat) (p3 : Nat) (p4 : Rat) : Keeps 524295 s (dirStep s p1 p2 p3 p4) := by
  unfold dirStep
  extract_lets -underBinder -merge -useContext +onlyGivenNames x1
  try clear_value x1
  extract_lets -underBinder -merge -useContext +onlyGivenNames x2
  try clear_value x2
  extract_lets -underBinder -merge -useContext +onlyGivenNames x3
  try clear_value x3
  extract_lets -underBinder -merge -useContext +onlyGivenNames x4
  try clear_value x4
  extract_lets -underBinder -merge -useContext +onlyGivenNames x5
  try clear_value x5
  extract_lets -underBinder -merge -useContext +onlyGivenNames x6
  extract_lets -underBinder -merge -useContext +onlyGivenNames x7
  have h7 : Keeps 524295 s x7 := by
    unfold x7
    refine Keeps.upd (t := s) ?_ rfl rfl rfl (Nat.le_refl _)
    exact Keeps.refl _
  try clear_value x7
  refine Keeps.ite ?_ ?_
  · refine Keeps.trans ?_ (keeps_countReversal _ _ _ _ _)
    assumption
  · assumption

theorem keeps_addTotal (s : State) (p1 : Nat) (p2 : Nat) (p3 : Nat) (p4 : Nat) : Keeps 524295 s (addTotal s p1 p2 p3 p4) := by
  unfold addTotal
  extract_lets -underBinder -merge -useContext +onlyGivenNames x1
  try clear_value x1
  extract_lets -underBinder -merge -useContext +onlyGivenNames x2
  try clear_value x2
  extract_lets -underBinder -merge -useContext +onlyGivenNames x3
  try clear_value x3
  extract_lets -underBinder -merge -useContext +onlyGivenNames x4
  try clear_value x4
  extract_lets -underBinder -merge -useContext +onlyGivenNames x5
  try clear_value x5
  extract_lets -underBinder -merge -useContext +onlyGivenNames x6
  extract_lets -underBinder -merge -useContext +onlyGivenNames x7
  extract_lets -underBinder -merge -useContext +onlyGivenNames x8
  have h8 : Keeps 524295 s x8 := by
    unfold x8
    refine Keeps.upd (t := s) ?_ rfl rfl rfl (Nat.le_refl _)
    exact Keeps.refl _
  try clear_value x8
  refine Keeps.ite ?_ ?_
  · extract_lets -underBinder -merge -useContext +onlyGivenNames x9
    have h9 : Keeps 524295 s x9 := by
      unfold x9
      refine Keeps.trans ?_ (keeps_setReg64 _ _ _ _)
      assumption
    try clear_value x9
    refine Keeps.trans ?_ (keeps_logEvent _ _ _ _)
    refine Keeps.trans ?_ (keeps_evt _ _ _)
    assumption
  · assumption

theorem keeps_pulseFeed (s : State) (p1 : Nat) (p2 : Nat) : Keeps 524295 s (pulseFeed s p1 p2) := by
  unfold pulseFeed
  extract_lets -underBinder -merge -useContext +onlyGivenNames x1
  try clear_value x1
  extract_lets -underBinder -merge -useContext +onlyGivenNames x2
  try clear_value x2
  extract_lets -underBinder -merge -useContext +onlyGivenNames x3
  try clear_value x3
  extract_lets -underBinder -merge -useContext +onlyGivenNames x4
  try clear_value x4
  extract_lets -underBinder -merge -useContext +onlyGivenNames x5
  try clear_value x5
  extract_lets -underBinder -merge -useContext +onlyGivenNames x6
  extract_lets -underBinder -merge -useContext +onlyGivenNames x7
  extract_lets -underBinder -merge -useContext +onlyGivenNames x8
  have h8 : Keeps 524295 s x8 := by
    unfold x8
    refine Keeps.upd (t := s) ?_ rfl rfl rfl (Nat.le_refl _)
    exact Keeps.refl _
  try clear_value x8
  refine Keeps.ite ?_ ?_
  · assumption
  · refine Keeps.foldl ?_ (fun y9 a9 hy9 => ?_)
    · assumption
    · refine Keeps.trans ?_ (keeps_logEvent _ _ _ _)
      refine Keeps.trans ?_ (keeps_evt _ _ _)
      refine Keeps.trans ?_ (keeps_bump _ _)
      assumption

theorem keeps_feedPhase (s : State) (p1 : Nat) (p2 : Nat) (p3 : Rat) (p4 : Rat) (p5 : Int) (p6 : Int) (p7 : Int) : Keeps 524295 s (feedPhase s p1 p2 p3 p4 p5 p6 p7) := by
  unfold feedPhase
  extract_lets -underBinder -merge -useContext +onlyGivenNames x1
  try clear_value x1
  extract_lets -underBinder -merge -useContext +onlyGivenNames x2
  try clear_value x2
  extract_lets -underBinder -merge -useContext +onlyGivenNames x3
  have h3 : Keeps 524295 s x3 := by
    unfold x3
    refine Keeps.foldl ?_ (fun y4 a4 hy4 => ?_)
    · exact Keeps.refl _
    · refine Keeps.ite ?_ ?_
      · assumption
      · refine Keeps.trans ?_ (keeps_addTotal _ _ _ _ _)
        assumption
  try clear_value x3
  extract_lets -underBinder -merge -useContext +onlyGivenNames x5
  try clear_value x5
  extract_lets -underBinder -merge -useContext +onlyGivenNames x6
  extract_lets -underBinder -merge -useContext +onlyGivenNames x7
  extract_lets -underBinder -merge -useContext +onlyGivenNames x8
  have h8 : Keeps 524295 s x8 := by
    unfold x8
    refine Keeps.upd (t := x3) ?_ rfl rfl rfl (Nat.le_refl _)
    assumption
  try clear_value x8
  extract_lets -underBinder -merge -useContext +onlyGivenNames x9
  have h9 : Keeps 524295 s x9 := by
    unfold x9
    refine Keeps.ite ?_ ?_
    · refine Keeps.trans ?_ (keeps_evt _ _ _)
      assumption
    · assumption
  try clear_value x9
  refine Keeps.foldl ?_ (fun y10 a10 hy10 => ?_)
  · assumption
  · extract_lets -underBinder -merge -useContext +onlyGivenNames x11
    try clear_value x11
    refine Keeps.ite ?_ ?_
    · refine Keeps.trans ?_ (keeps_pulseFeed _ _ _)
      assumption
    · assumption

theorem keeps_pulseStart (s : State) (p1 : Nat) : Keeps 524293 s (pulseStart s p1) := by
  unfold pulseStart
  extract_lets -underBinder -merge -useContext +onlyGivenNames x1
  try clear_value x1
  extract_lets -underBinder -merge -useContext +onlyGivenNames x2
  try clear_value x2
  extract_lets -underBinder -merge -useContext +onlyGivenNames x3
  try clear_value x3
  refine Keeps.ite ?_ ?_
  · extract_lets -underBinder -merge -useContext +onlyGivenNames x4
    try clear_value x4
    extract_lets -underBinder -merge -useContext +onlyGivenNames x5
    extract_lets -underBinder -merge -useContext +onlyGivenNames x6
    have h6 : Keeps 524293 s x6 := by
      unfold x6
      refine Keeps.upd (t := s) ?_ rfl rfl rfl (Nat.le_refl _)
      exact Keeps.refl _
    try clear_value x6
    refine Keeps.trans ?_ (keeps_bump _ _)
    assumption
  · exact Keeps.refl _

theorem keeps_putLive (s : State) (p1 : Nat) (p2 : Nat) (p3 : Nat) (p4 : Nat) : Keeps 524288 s (putLive s p1 p2 p3 p4) := by
  unfold putLive
  refine Keeps.upd (t := s) ?_ rfl rfl rfl (Nat.le_refl _)
  exact Keeps.refl _

theorem keeps_elementStep (s : State) (p1 : Nat) (p2 : Nat) (p3 : Nat) (p4 : List Int) : Keeps 2621447 s (elementStep s p1 p2 p3 p4) := by
  unfold elementStep
  extract_lets -underBinder -merge -useContext +onlyGivenNames x1
  try clear_value x1
  extract_lets -underBinder -merge -useContext +onlyGivenNames x2
  try clear_value x2
  extract_lets -underBinder -merge -useContext +onlyGivenNames x3
  try clear_value x3
  extract_lets -underBinder -merge -useContext +onlyGivenNames x4
  try clear_value x4
  extract_lets -underBinder -merge -useContext +onlyGivenNames x5
  try clear_value x5
  extract_lets -underBinder -merge -useContext +onlyGivenNames x6
  try clear_value x6
  extract_lets -underBinder -merge -useContext +onlyGivenNames x7
  try clear_value x7
  extract_lets -underBinder -merge -useContext +onlyGivenNames x8
  try clear_value x8
  extract_lets -underBinder -merge -useContext +onlyGivenNames x9
  try clear_value x9
  extract_lets -underBinder -merge -useContext +onlyGivenNames x10
  try clear_value x10
  extract_lets -underBinder -merge -useContext +onlyGivenNames x11
  have h11 : Keeps 2621447 s x11 := by
    unfold x11
    refine Keeps.upd (t := s) ?_ rfl rfl rfl (Nat.le_add_right _ _)
    exact Keeps.refl _
  try clear_value x11
  extract_lets -underBinder -merge -useContext +onlyGivenNames x12
  try clear_value x12
  extract_lets -underBinder -merge -useContext +onlyGivenNames x13
  try clear_value x13
  extract_lets -underBinder -merge -useContext +onlyGivenNames x14
  have h14 : Keeps 2621447 s x14 := by
    unfold x14
    refine Keeps.foldl ?_ (fun y15 a15 hy15 => ?_)
    · assumption
    · refine Keeps.trans ?_ (keeps_dirStep _ _ _ _ _)
      assumption
  try clear_value x14
  extract_lets -underBinder -merge -useContext +onlyGivenNames x16
  have h16 : Keeps 2621447 s x16 := by
    unfold x16
    refine Keeps.foldl ?_ (fun y17 a17 hy17 => ?_)
    · assumption
    · refine Keeps.trans ?_ (keeps_dirStep _ _ _ _ _)
      assumption
  try clear_value x16
  extract_lets -underBinder -merge -useContext +onlyGivenNames x18
  try clear_value x18
  extract_lets -underBinder -merge -useContext +onlyGivenNames x19
  try clear_value x19
  extract_lets -underBinder -merge -useContext +onlyGivenNames x20
  try clear_value x20
  extract_lets -underBinder -merge -useContext +onlyGivenNames x21
  try clear_value x21
  extract_lets -underBinder -merge -useContext +onlyGivenNames x22
  try clear_value x22
  extract_lets -underBinder -merge -useContext +onlyGivenNames x23
  try clear_value x23
  extract_lets -underBinder -merge -useContext +onlyGivenNames x24
  try clear_value x24
  extract_lets -underBinder -merge -useContext +onlyGivenNames x25
  have h25 : Keeps 2621447 s x25 := by
    unfold x25
    refine Keeps.foldl ?_ (fun y26 a26 hy26 => ?_)
    · assumption
    · refine Keeps.trans ?_ (keeps_feedPhase _ _ _ _ _ _ _ _)
      assumption
  try clear_value x25
  extract_lets -underBinder -merge -useContext +onlyGivenNames x27
  have h27 : Keeps 2621447 s x27 := by
    unfold x27
    refine Keeps.trans ?_ (keeps_feedPhase _ _ _ _ _ _ _ _)
    assumption
  try clear_value x27
  extract_lets -underBinder -merge -useContext +onlyGivenNames x28
  have h28 : Keeps 2621447 s x28 := by
    unfold x28
    refine Keeps.trans ?_ (keeps_bump _ _)
    assumption
  try clear_value x28
  extract_lets -underBinder -merge -useContext +onlyGivenNames x29
  have h29 : Keeps 2621447 s x29 := by
    unfold x29
    refine Keeps.ite ?_ ?_
    · refine Keeps.trans ?_ (keeps_bump _ _)
      assumption
    · assumption
  try clear_value x29
  extract_lets -underBinder -merge -useContext +onlyGivenNames x30
  extract_lets -underBinder -merge -useContext +onlyGivenNames x31
  extract_lets -underBinder -merge -useContext +onlyGivenNames x32
  have h32 : Keeps 2621447 s x32 := by
    unfold x32
    refine Keeps.upd (t := x29) ?_ rfl rfl rfl (Nat.le_refl _)
    assumption
  try clear_value x32
  extract_lets -underBinder -merge -useContext +onlyGivenNames x33
  have h33 : Keeps 2621447 s x33 := by
    unfold x33
    refine Keeps.foldl ?_ (fun y34 a34 hy34 => ?_)
    · assumption
    · refine Keeps.trans ?_ (keeps_putLive _ _ _ _ _)
      refine Keeps.trans ?_ (keeps_putLive _ _ _ _ _)
      refine Keeps.trans ?_ (keeps_putLive _ _ _ _ _)
      refine Keeps.trans ?_ (keeps_putLive _ _ _ _ _)
      refine Keeps.trans ?_ (keeps_putLive _ _ _ _ _)
      assumption
  try clear_value x33
  extract_lets -underBinder -merge -useContext +onlyGivenNames x35
  have h35 : Keeps 2621447 s x35 := by
    unfold x35
    refine Keeps.trans ?_ (keeps_putLive _ _ _ _ _)
    refine Keeps.trans ?_ (keeps_putLive _ _ _ _ _)
    refine Keeps.trans ?_ (keeps_putLive _ _ _ _ _)
    assumption
  try clear_value x35
  refine Keeps.ite ?_ ?_
  · refine Keeps.trans ?_ (keeps_putLive _ _ _ _ _)
    assumption
  · assumption

theorem keeps_stepInterval (s : State) (p1 : Nat) : Keeps 524455 s (stepInterval s p1) := by
  unfold stepInterval
  extract_lets -underBinder -merge -useContext +onlyGivenNames x1
  try clear_value x1
  extract_lets -underBinder -merge -useContext +onlyGivenNames x2
  try clear_value x2
  refine Keeps.ite ?_ ?_
  · extract_lets -underBinder -merge -useContext +onlyGivenNames x3
    try clear_value x3
    extract_lets -underBinder -merge -useContext +onlyGivenNames x4
    try clear_value x4
    extract_lets -underBinder -merge -useContext +onlyGivenNames x5
    try clear_value x5
    extract_lets -underBinder -merge -useContext +onlyGivenNames x6
    try clear_value x6
    refine Keeps.ite ?_ ?_
    · refine Keeps.trans ?_ (keeps_intervalOpen _ _ _ _)
      exact Keeps.refl _
    · refine Keeps.ite ?_ ?_
      · refine Keeps.trans ?_ (keeps_intervalOpen _ _ _ _)
        exact Keeps.refl _
      · refine Keeps.trans ?_ (keeps_intervalOpen _ _ _ _)
        exact Keeps.refl _
  · refine Keeps.ite ?_ ?_
    · refine Keeps.trans ?_ (keeps_setIntFlags _ _)
      exact Keeps.refl _
    · refine Keeps.ite ?_ ?_
      · refine Keeps.trans ?_ (keeps_intervalBoundary _ _)
        exact Keeps.refl _
      · exact Keeps.refl _

theorem keeps_execPowerStep (p0 : Nat) (p1 : List Int) (s : State) : KeepsO 2621607 s (execPowerStep p0 p1 s) := by
  unfold execPowerStep
  refine KeepsO.done ?_
  refine Keeps.ite ?_ ?_
  · exact Keeps.refl _
  · extract_lets -underBinder -merge -useContext +onlyGivenNames x1
    try clear_value x1
    extract_lets -underBinder -merge -useContext +onlyGivenNames x2
    have h2 : Keeps 2621607 s x2 := by
      unfold x2
      refine Keeps.trans ?_ (keeps_stepInterval _ _)
      exact Keeps.refl _
    try clear_value x2
    extract_lets -underBinder -merge -useContext +onlyGivenNames x3
    try clear_value x3
    extract_lets -underBinder -merge -useContext +onlyGivenNames x4
    extract_lets -underBinder -merge -useContext +onlyGivenNames x5
    have h5 : Keeps 2621607 s x5 := by
      unfold x5
      refine Keeps.upd (t := x2) ?_ rfl rfl rfl (Nat.le_refl _)
      assumption
    try clear_value x5
    extract_lets -underBinder -merge -useContext +onlyGivenNames x6
    try clear_value x6
    extract_lets -underBinder -merge -useContext +onlyGivenNames x7
    have h7 : Keeps 2621607 s x7 := by
      unfold x7
      refine Keeps.foldl ?_ (fun y8 a8 hy8 => ?_)
      · assumption
      · extract_lets -underBinder -merge -useContext +onlyGivenNames x9
        have h9 : Keeps 2621607 s x9 := by
          unfold x9
          refine Keeps.ite ?_ ?_
          · refine Keeps.trans ?_ (keeps_setElemFlags _ _ _)
            assumption
          · assumption
        try clear_value x9
        extract_lets -underBinder -merge -useContext +onlyGivenNames x10
        try clear_value x10
        refine Keeps.ite ?_ ?_
        · refine Keeps.trans ?_ (keeps_setElemFlags _ _ _)
          assumption
        · refine Keeps.ite ?_ ?_
          · refine Keeps.trans ?_ (keeps_setElemFlags _ _ _)
            refine Keeps.trans ?_ (keeps_bump _ _)
            assumption
          · refine Keeps.trans ?_ (keeps_elementStep _ _ _ _ _)
            refine Keeps.ite ?_ ?_
            · refine Keeps.trans ?_ (keeps_setElemFlags _ _ _)
              assumption
            · assumption
    try clear_value x7
    refine Keeps.foldl ?_ (fun y11 a11 hy11 => ?_)
    · assumption
    · refine Keeps.trans ?_ (keeps_pulseStart _ _)
      assumption

theorem keeps_execPulseEnd (p0 : Nat) (s : State) : KeepsO 524288 s (execPulseEnd p0 s) := by
  unfold execPulseEnd
  refine KeepsO.done ?_
  extract_lets -underBinder -merge -useContext +onlyGivenNames x1
  try clear_value x1
  extract_lets -underBinder -merge -useContext +onlyGivenNames x2
  try clear_value x2
  split
  · refine Keeps.ite ?_ ?_
    · refine Keeps.upd (t := s) ?_ rfl rfl rfl (Nat.le_refl _)
      exact Keeps.refl _
    · exact Keeps.refl _
  · exact Keeps.refl _

theorem keeps_pulseCfgWrite (s : State) (p1 : Nat) (p2 : Word) : Keeps 524289 s (pulseCfgWrite s p1 p2) := by
  unfold pulseCfgWrite
  extract_lets -underBinder -merge -useContext +onlyGivenNames x1
  try clear_value x1
  extract_lets -underBinder -merge -useContext +onlyGivenNames x2
  try clear_value x2
  extract_lets -underBinder -merge -useContext +onlyGivenNames x3
  try clear_value x3
  extract_lets -underBinder -merge -useContext +onlyGivenNames x4
  try clear_value x4
  extract_lets -underBinder -merge -useContext +onlyGivenNames x5
  try clear_value x5
  extract_lets -underBinder -merge -useContext +onlyGivenNames x6
  have h6 : Keeps 524289 s x6 := by
    unfold x6
    refine Keeps.ite ?_ ?_
    · refine Keeps.trans ?_ (keeps_refuseC _ _ _)
      exact Keeps.refl _
    · exact Keeps.refl _
  try clear_value x6
  extract_lets -underBinder -merge -useContext +onlyGivenNames x7
  try clear_value x7
  refine Keeps.ite ?_ ?_
  · refine Keeps.trans ?_ (keeps_refuse _ _ _)
    assumption
  · extract_lets -underBinder -merge -useContext +onlyGivenNames x8
    have h8 : Keeps 524289 s x8 := by
      unfold x8
      refine Keeps.trans ?_ (keeps_setReg _ _ _)
      assumption
    try clear_value x8
    refine Keeps.ite ?_ ?_
    · extract_lets -underBinder -merge -useContext +onlyGivenNames x9
      try clear_value x9
      refine Keeps.upd (t := x8) ?_ rfl rfl rfl (Nat.le_refl _)
      assumption
    · assumption

theorem keeps_pulseSetWrite (s : State) (p1 : Nat) (p2 : Nat) (p3 : Word) : Keeps 1 s (pulseSetWrite s p1 p2 p3) := by
  unfold pulseSetWrite
  refine Keeps.ite ?_ ?_
  · refine Keeps.trans ?_ (keeps_refuse _ _ _)
    exact Keeps.refl _
  · refine Keeps.trans ?_ (keeps_setReg _ _ _)
    exact Keeps.refl _

theorem keeps_execPulseEnable (p0 : Nat) (p1 : Word) (s : State) : KeepsO 524289 s (execPulseEnable p0 p1 s) := by
  unfold execPulseEnable
  refine KeepsO.done ?_
  refine Keeps.ite ?_ ?_
  · exact Keeps.refl _
  · refine Keeps.trans ?_ (keeps_pulseCfgWrite _ _ _)
    exact Keeps.refl _

theorem keeps_execPulseDisable (p0 : Nat) (p1 : Word) (s : State) : KeepsO 524289 s (execPulseDisable p0 p1 s) := by
  unfold execPulseDisable
  refine KeepsO.done ?_
  refine Keeps.ite ?_ ?_
  · exact Keeps.refl _
  · refine Keeps.trans ?_ (keeps_pulseCfgWrite _ _ _)
    exact Keeps.refl _

theorem keeps_commitStart (s : State) : Keeps 524288 s (commitStart s) := by
  unfold commitStart
  extract_lets -underBinder -merge -useContext +onlyGivenNames x1
  try clear_value x1
  extract_lets -underBinder -merge -useContext +onlyGivenNames x2
  try clear_value x2
  refine Keeps.upd (t := s) ?_ rfl rfl rfl (Nat.le_refl _)
  exact Keeps.refl _

theorem keeps_warnCommit (s : State) : Keeps 524288 s (warnCommit s) := by
  unfold warnCommit
  refine Keeps.ite ?_ ?_
  · exact Keeps.refl _
  · refine Keeps.ite ?_ ?_
    · refine Keeps.upd (t := s) ?_ rfl rfl rfl (Nat.le_refl _)
      exact Keeps.refl _
    · refine Keeps.trans ?_ (keeps_commitStart _)
      exact Keeps.refl _

theorem keeps_execEnergyCommit (s : State) : KeepsO 524288 s (execEnergyCommit s) := by
  unfold execEnergyCommit
  refine KeepsO.done ?_
  refine Keeps.ite ?_ ?_
  · exact Keeps.refl _
  · refine Keeps.ite ?_ ?_
    · exact Keeps.refl _
    · extract_lets -underBinder -merge -useContext +onlyGivenNames x1
      have h1 : Keeps 524288 s x1 := by
        unfold x1
        refine Keeps.trans ?_ (keeps_commitStart _)
        exact Keeps.refl _
      try clear_value x1
      refine Keeps.upd (t := x1) ?_ rfl rfl rfl (Nat.le_refl _)
      assumption

theorem keeps_execEnergyCommitEnd (p0 : Bool) (s : State) : KeepsO 524295 s (execEnergyCommitEnd p0 s) := by
  unfold execEnergyCommitEnd
  refine KeepsO.done ?_
  split
  · exact Keeps.refl _
  · extract_lets -underBinder -merge -useContext +onlyGivenNames x1
    try clear_value x1
    extract_lets -underBinder -merge -useContext +onlyGivenNames x2
    try clear_value x2
    extract_lets -underBinder -merge -useContext +onlyGivenNames x3
    try clear_value x3
    extract_lets -underBinder -merge -useContext +onlyGivenNames x4
    extract_lets -underBinder -merge -useContext +onlyGivenNames x5
    have h5 : Keeps 524295 s x5 := by
      unfold x5
      refine Keeps.upd (t := s) ?_ rfl rfl rfl (Nat.le_refl _)
      exact Keeps.refl _
    try clear_value x5
    extract_lets -underBinder -merge -useContext +onlyGivenNames x6
    extract_lets -underBinder -merge -useContext +onlyGivenNames x7
    have h7 : Keeps 524295 s x7 := by
      unfold x7
      refine Keeps.upd (t := x5) ?_ rfl rfl rfl (Nat.le_refl _)
      assumption
    try clear_value x7
    extract_lets -underBinder -merge -useContext +onlyGivenNames x8
    extract_lets -underBinder -merge -useContext +onlyGivenNames x9
    have h9 : Keeps 524295 s x9 := by
      unfold x9
      refine Keeps.ite ?_ ?_
      · refine Keeps.trans ?_ (keeps_bump _ _)
        refine Keeps.trans ?_ (keeps_setRegN _ _ _)
        assumption
      · refine Keeps.trans ?_ (keeps_logEvent _ _ _ _)
        refine Keeps.trans ?_ (keeps_evt _ _ _)
        refine Keeps.upd (t := x5) ?_ rfl rfl rfl (Nat.le_refl _)
        assumption
    try clear_value x9
    refine Keeps.ite ?_ ?_
    · refine Keeps.trans ?_ (keeps_commitStart _)
      assumption
    · assumption

theorem keeps_energyLoad (s : State) : Keeps 524295 s (energyLoad s) := by
  unfold energyLoad
  extract_lets -underBinder -merge -useContext +onlyGivenNames x1
  try clear_value x1
  split
  · extract_lets -underBinder -merge -useContext +onlyGivenNames x2
    extract_lets -underBinder -merge -useContext +onlyGivenNames x3
    try clear_value x3
    refine Keeps.trans ?_ (keeps_setRegN _ _ _)
    refine Keeps.upd (t := s) ?_ rfl rfl rfl (Nat.le_refl _)
    exact Keeps.refl _
  · refine Keeps.trans ?_ (keeps_logEvent _ _ _ _)
    refine Keeps.trans ?_ (keeps_setRegN _ _ _)
    refine Keeps.upd (t := s) ?_ rfl rfl rfl (Nat.le_refl _)
    exact Keeps.refl _

theorem keeps_execZcLost (p0 : Nat) (s : State) : KeepsO 524295 s (execZcLost p0 s) := by
  unfold execZcLost
  refine KeepsO.done ?_
  split
  · exact Keeps.refl _
  · refine Keeps.ite ?_ ?_
    · extract_lets -underBinder -merge -useContext +onlyGivenNames x1
      have h1 : Keeps 524295 s x1 := by
        unfold x1
        refine Keeps.trans ?_ (keeps_setReg _ _ _)
        exact Keeps.refl _
      try clear_value x1
      refine Keeps.trans ?_ (keeps_logEvent _ _ _ _)
      refine Keeps.trans ?_ (keeps_evt _ _ _)
      refine Keeps.trans ?_ (keeps_setElemFlags _ _ _)
      assumption
    · exact Keeps.refl _

theorem keeps_intValRead (s : State) (p1 : Nat) (p2 : Nat) (p3 : Nat) : KeepsF 524288 s (intValRead s p1 p2 p3) := by
  unfold intValRead
  extract_lets -underBinder -merge -useContext +onlyGivenNames x1
  try clear_value x1
  refine KeepsF.mk ?_
  refine Keeps.upd (t := s) ?_ rfl rfl rfl (Nat.le_refl _)
  exact Keeps.refl _

theorem keeps_execIntValRead (p0 : Nat) (p1 : Nat) (p2 : Nat) (s : State) : KeepsO 524290 s (execIntValRead p0 p1 p2 s) := by
  unfold execIntValRead
  refine KeepsO.done ?_
  extract_lets -underBinder -merge -useContext +onlyGivenNames x1
  have h1 : KeepsF 524290 s x1 := by
    unfold x1
    refine KeepsF.ite ?_ ?_
    · refine KeepsF.mk ?_
      exact Keeps.refl _
    · refine KeepsF.trans ?_ (keeps_intValRead _ _ _ _)
      exact Keeps.refl _
  try clear_value x1
  extract_lets -underBinder -merge -useContext +onlyGivenNames x2
  have h2 : Keeps 524290 s x2 := by
    unfold x2
    refine KeepsF.snd ?_
    assumption
  refine Keeps.upd (t := x2) ?_ rfl rfl rfl (Nat.le_refl _)
  assumption

theorem keeps_nrgEnabledNow (s : State) : Keeps 786599 s (nrgEnabledNow s) := by
  unfold nrgEnabledNow
  extract_lets -underBinder -merge -useContext +onlyGivenNames x1
  extract_lets -underBinder -merge -useContext +onlyGivenNames x2
  have h2 : Keeps 786599 s x2 := by
    unfold x2
    refine Keeps.upd (t := s) ?_ rfl rfl rfl (Nat.le_refl _)
    exact Keeps.refl _
  try clear_value x2
  extract_lets -underBinder -merge -useContext +onlyGivenNames x3
  have h3 : Keeps 786599 s x3 := by
    unfold x3
    refine Keeps.foldl ?_ (fun y4 a4 hy4 => ?_)
    · assumption
    · refine Keeps.trans ?_ (keeps_setChan _ _ _)
      assumption
  try clear_value x3
  refine Keeps.ite ?_ ?_
  · refine Keeps.trans ?_ (keeps_nrgTimeGiven _)
    assumption
  · assumption

theorem keeps_intCfgWrite (s : State) (p1 : Nat) (p2 : Nat) (p3 : Word) : Keeps 1 s (intCfgWrite s p1 p2 p3) := by
  unfold intCfgWrite
  extract_lets -underBinder -merge -useContext +onlyGivenNames x1
  try clear_value x1
  extract_lets -underBinder -merge -useContext +onlyGivenNames x2
  try clear_value x2
  refine Keeps.ite ?_ ?_
  · refine Keeps.ite ?_ ?_
    · exact Keeps.refl _
    · refine Keeps.trans ?_ (keeps_refuseC _ _ _)
      exact Keeps.refl _
  · refine Keeps.ite ?_ ?_
    · refine Keeps.trans ?_ (keeps_setReg _ _ _)
      exact Keeps.refl _
    · extract_lets -underBinder -merge -useContext +onlyGivenNames x3
      try clear_value x3
      refine Keeps.trans ?_ (keeps_refuse _ _ _)
      refine Keeps.trans ?_ (keeps_setReg _ _ _)
      exact Keeps.refl _

end Sys2Proof.Machine
end

