-- ==== Sys2Proof/Laws/KeepsCaptureCmds.lean ====
section
/-! SUPPORT. What each function of Machine/CaptureCmds.lean leaves unchanged (the mask names the areas it may change). -/

set_option Elab.async false

namespace Sys2Proof.Machine

theorem keeps_rocStep (s : State) (p1 : Nat) (p2 : Nat) : Keeps 3309735 s (rocStep s p1 p2) := by
  unfold rocStep
  refine Keeps.ite ?_ ?_
  · exact Keeps.refl _
  · split
    · exact Keeps.refl _
    · extract_lets -underBinder -merge -useContext +onlyGivenNames x1
      try clear_value x1
      extract_lets -underBinder -merge -useContext +onlyGivenNames x2
      try clear_value x2
      extract_lets -underBinder -merge -useContext +onlyGivenNames x3
      have h3 : Keeps 3309735 s x3 := by
        unfold x3
        refine Keeps.trans ?_ (keeps_setCapRing _ _ _)
        exact Keeps.refl _
      try clear_value x3
      refine Keeps.ite ?_ ?_
      · refine Keeps.trans ?_ (keeps_capTrigger _ _ _)
        assumption
      · assumption

theorem keeps_maskStep (s : State) (p1 : Nat) (p2 : Nat) : Keeps 3309735 s (maskStep s p1 p2) := by
  unfold maskStep
  split
  · exact Keeps.refl _
  · extract_lets -underBinder -merge -useContext +onlyGivenNames x1
    try clear_value x1
    refine Keeps.ite ?_ ?_
    · extract_lets -underBinder -merge -useContext +onlyGivenNames x2
      try clear_value x2
      extract_lets -underBinder -merge -useContext +onlyGivenNames x3
      try clear_value x3
      extract_lets -underBinder -merge -useContext +onlyGivenNames x4
      extract_lets -underBinder -merge -useContext +onlyGivenNames x5
      have h5 : Keeps 3309735 s x5 := by
        unfold x5
        refine Keeps.upd (t := s) ?_ rfl rfl rfl (Nat.le_refl _)
        exact Keeps.refl _
      try clear_value x5
      extract_lets -underBinder -merge -useContext +onlyGivenNames x6
      have h6 : Keeps 3309735 s x6 := by
        unfold x6
        refine Keeps.trans ?_ (keeps_logEvent _ _ _ _)
        refine Keeps.trans ?_ (keeps_evt _ _ _)
        refine Keeps.trans ?_ (keeps_bump _ _)
        assumption
      try clear_value x6
      refine Keeps.trans ?_ (keeps_capTrigger _ _ _)
      assumption
    · exact Keeps.refl _

theorem keeps_execRocEvaluation (p0 : Nat) (s : State) : KeepsO 3309735 s (execRocEvaluation p0 s) := by
  unfold execRocEvaluation
  refine KeepsO.done ?_
  refine Keeps.ite ?_ ?_
  · exact Keeps.refl _
  · extract_lets -underBinder -merge -useContext +onlyGivenNames x1
    extract_lets -underBinder -merge -useContext +onlyGivenNames x2
    have h2 : Keeps 3309735 s x2 := by
      unfold x2
      refine Keeps.upd (t := s) ?_ rfl rfl rfl (Nat.le_refl _)
      exact Keeps.refl _
    try clear_value x2
    extract_lets -underBinder -merge -useContext +onlyGivenNames x3
    have h3 : Keeps 3309735 s x3 := by
      unfold x3
      refine Keeps.foldl ?_ (fun y4 a4 hy4 => ?_)
      · assumption
      · refine Keeps.trans ?_ (keeps_rocStep _ _ _)
        assumption
    try clear_value x3
    refine Keeps.foldl ?_ (fun y5 a5 hy5 => ?_)
    · assumption
    · refine Keeps.trans ?_ (keeps_maskStep _ _ _)
      assumption

theorem keeps_execTriggerBusEdge (p0 : Nat) (p1 : Nat) (p2 : Bool) (s : State) : KeepsO 3309735 s (execTriggerBusEdge p0 p1 p2 s) := by
  unfold execTriggerBusEdge
  refine KeepsO.done ?_
  extract_lets -underBinder -merge -useContext +onlyGivenNames x1
  try clear_value x1
  extract_lets -underBinder -merge -useContext +onlyGivenNames x2
  try clear_value x2
  extract_lets -underBinder -merge -useContext +onlyGivenNames x3
  extract_lets -underBinder -merge -useContext +onlyGivenNames x4
  have h4 : Keeps 3309735 s x4 := by
    unfold x4
    refine Keeps.ite ?_ ?_
    · exact Keeps.refl _
    · refine Keeps.upd (t := s) ?_ rfl rfl rfl (Nat.le_refl _)
      exact Keeps.refl _
  try clear_value x4
  extract_lets -underBinder -merge -useContext +onlyGivenNames x5
  try clear_value x5
  refine Keeps.ite ?_ ?_
  · assumption
  · extract_lets -underBinder -merge -useContext +onlyGivenNames x6
    try clear_value x6
    refine Keeps.trans ?_ (keeps_capTrigger _ _ _)
    assumption

theorem keeps_execBusDrive (s : State) : KeepsO 1048576 s (execBusDrive s) := by
  unfold execBusDrive
  refine KeepsO.done ?_
  split
  · exact Keeps.refl _
  · refine Keeps.ite ?_ ?_
    · exact Keeps.refl _
    · extract_lets -underBinder -merge -useContext +onlyGivenNames x1
      try clear_value x1
      refine Keeps.upd (t := s) ?_ rfl rfl rfl (Nat.le_refl _)
      exact Keeps.refl _

theorem keeps_execBusPulseEnd (p0 : Nat) (s : State) : KeepsO 1048576 s (execBusPulseEnd p0 s) := by
  unfold execBusPulseEnd
  refine KeepsO.done ?_
  split
  · refine Keeps.ite ?_ ?_
    · refine Keeps.upd (t := s) ?_ rfl rfl rfl (Nat.le_refl _)
      exact Keeps.refl _
    · exact Keeps.refl _
  · exact Keeps.refl _

theorem keeps_execCapForce (s : State) : KeepsO 3309735 s (execCapForce s) := by
  unfold execCapForce
  refine KeepsO.done ?_
  refine Keeps.trans ?_ (keeps_capTrigger _ _ _)
  exact Keeps.refl _

theorem keeps_capRearm (s : State) : Keeps 1048576 s (capRearm s) := by
  unfold capRearm
  refine Keeps.ite ?_ ?_
  · refine Keeps.upd (t := s) ?_ rfl rfl rfl (Nat.le_refl _)
    exact Keeps.refl _
  · exact Keeps.refl _

theorem keeps_execCapRearm (s : State) : KeepsO 1048576 s (execCapRearm s) := by
  unfold execCapRearm
  refine KeepsO.done ?_
  refine Keeps.trans ?_ (keeps_capRearm _)
  exact Keeps.refl _

theorem keeps_capReleaseRec (s : State) : Keeps 1048576 s (capReleaseRec s) := by
  unfold capReleaseRec
  refine Keeps.ite ?_ ?_
  · refine Keeps.upd (t := s) ?_ rfl rfl rfl (Nat.le_refl _)
    exact Keeps.refl _
  · exact Keeps.refl _

theorem keeps_execCapRelease (s : State) : KeepsO 1048576 s (execCapRelease s) := by
  unfold execCapRelease
  refine KeepsO.done ?_
  refine Keeps.trans ?_ (keeps_capReleaseRec _)
  exact Keeps.refl _

theorem keeps_capCtrlWrite (s : State) (p1 : Word) : Keeps 3309735 s (capCtrlWrite s p1) := by
  unfold capCtrlWrite
  extract_lets -underBinder -merge -useContext +onlyGivenNames x1
  have h1 : Keeps 3309735 s x1 := by
    unfold x1
    refine Keeps.ite ?_ ?_
    · refine Keeps.trans ?_ (keeps_capTrigger _ _ _)
      exact Keeps.refl _
    · exact Keeps.refl _
  try clear_value x1
  extract_lets -underBinder -merge -useContext +onlyGivenNames x2
  have h2 : Keeps 3309735 s x2 := by
    unfold x2
    refine Keeps.ite ?_ ?_
    · refine Keeps.trans ?_ (keeps_capRearm _)
      assumption
    · assumption
  try clear_value x2
  refine Keeps.ite ?_ ?_
  · refine Keeps.trans ?_ (keeps_capReleaseRec _)
    assumption
  · assumption

theorem keeps_execRecordEnd (s : State) : KeepsO 1048583 s (execRecordEnd s) := by
  unfold execRecordEnd
  refine KeepsO.done ?_
  split
  · exact Keeps.refl _
  · extract_lets -underBinder -merge -useContext +onlyGivenNames x1
    try clear_value x1
    refine Keeps.ite ?_ ?_
    · refine Keeps.trans ?_ (keeps_capEnd _ _ _ _ _)
      exact Keeps.refl _
    · exact Keeps.refl _

theorem keeps_execRecordStored (s : State) : KeepsO 1048583 s (execRecordStored s) := by
  unfold execRecordStored
  refine KeepsO.done ?_
  split
  · exact Keeps.refl _
  · extract_lets -underBinder -merge -useContext +onlyGivenNames x1
    try clear_value x1
    extract_lets -underBinder -merge -useContext +onlyGivenNames x2
    try clear_value x2
    extract_lets -underBinder -merge -useContext +onlyGivenNames x3
    extract_lets -underBinder -merge -useContext +onlyGivenNames x4
    have h4 : Keeps 1048583 s x4 := by
      unfold x4
      refine Keeps.upd (t := s) ?_ rfl rfl rfl (Nat.le_refl _)
      exact Keeps.refl _
    try clear_value x4
    extract_lets -underBinder -merge -useContext +onlyGivenNames x5
    have h5 : Keeps 1048583 s x5 := by
      unfold x5
      refine Keeps.ite ?_ ?_
      · assumption
      · refine Keeps.trans ?_ (keeps_capWrite _ _ _)
        assumption
    try clear_value x5
    extract_lets -underBinder -merge -useContext +onlyGivenNames x6
    try clear_value x6
    extract_lets -underBinder -merge -useContext +onlyGivenNames x7
    extract_lets -underBinder -merge -useContext +onlyGivenNames x8
    have h8 : Keeps 1048583 s x8 := by
      unfold x8
      refine Keeps.ite ?_ ?_
      · refine Keeps.upd (t := x5) ?_ rfl rfl rfl (Nat.le_refl _)
        assumption
      · assumption
    try clear_value x8
    extract_lets -underBinder -merge -useContext +onlyGivenNames x9
    have h9 : Keeps 1048583 s x9 := by
      unfold x9
      refine Keeps.foldl ?_ (fun y10 a10 hy10 => ?_)
      · assumption
      · refine Keeps.trans ?_ (keeps_setRegN _ _ _)
        assumption
    try clear_value x9
    refine Keeps.trans ?_ (keeps_logEvent _ _ _ _)
    refine Keeps.trans ?_ (keeps_evt _ _ _)
    refine Keeps.trans ?_ (keeps_bump _ _)
    assumption

theorem keeps_capRdData (s : State) : KeepsF 1 s (capRdData s) := by
  unfold capRdData
  extract_lets -underBinder -merge -useContext +onlyGivenNames x1
  try clear_value x1
  refine KeepsF.ite ?_ ?_
  · refine KeepsF.mk ?_
    refine Keeps.trans ?_ (keeps_refuse _ _ _)
    exact Keeps.refl _
  · refine KeepsF.mk ?_
    refine Keeps.trans ?_ (keeps_setRegN _ _ _)
    exact Keeps.refl _

theorem keeps_execCapRdDataRead (s : State) : KeepsO 3 s (execCapRdDataRead s) := by
  unfold execCapRdDataRead
  refine KeepsO.done ?_
  extract_lets -underBinder -merge -useContext +onlyGivenNames x1
  have h1 : KeepsF 3 s x1 := by
    unfold x1
    refine KeepsF.ite ?_ ?_
    · refine KeepsF.mk ?_
      exact Keeps.refl _
    · refine KeepsF.trans ?_ (keeps_capRdData _)
      exact Keeps.refl _
  try clear_value x1
  extract_lets -underBinder -merge -useContext +onlyGivenNames x2
  have h2 : Keeps 3 s x2 := by
    unfold x2
    refine KeepsF.snd ?_
    assumption
  refine Keeps.upd (t := x2) ?_ rfl rfl rfl (Nat.le_refl _)
  assumption

theorem keeps_capEnabledNow (s : State) : Keeps 1048576 s (capEnabledNow s) := by
  unfold capEnabledNow
  extract_lets -underBinder -merge -useContext +onlyGivenNames x1
  have h1 : Keeps 1048576 s x1 := by
    unfold x1
    refine Keeps.foldl ?_ (fun y2 a2 hy2 => ?_)
    · exact Keeps.refl _
    · refine Keeps.trans ?_ (keeps_setCapRing _ _ _)
      assumption
  try clear_value x1
  extract_lets -underBinder -merge -useContext +onlyGivenNames x3
  have h3 : Keeps 1048576 s x3 := by
    unfold x3
    refine Keeps.foldl ?_ (fun y4 a4 hy4 => ?_)
    · assumption
    · refine Keeps.trans ?_ (keeps_setCapRing _ _ _)
      assumption
  try clear_value x3
  extract_lets -underBinder -merge -useContext +onlyGivenNames x5
  try clear_value x5
  extract_lets -underBinder -merge -useContext +onlyGivenNames x6
  try clear_value x6
  refine Keeps.upd (t := x3) ?_ rfl rfl rfl (Nat.le_refl _)
  assumption

theorem keeps_capDisabled (s : State) : Keeps 1048583 s (capDisabled s) := by
  unfold capDisabled
  extract_lets -underBinder -merge -useContext +onlyGivenNames x1
  have h1 : Keeps 1048583 s x1 := by
    unfold x1
    refine Keeps.trans ?_ (keeps_capEnd _ _ _ _ _)
    exact Keeps.refl _
  try clear_value x1
  refine Keeps.upd (t := x1) ?_ rfl rfl rfl (Nat.le_refl _)
  assumption

end Sys2Proof.Machine
end

