-- ==== Sys2Proof/Laws/KeepsArchive.lean ====
section
/-! SUPPORT. What each function of Machine/Archive.lean leaves unchanged (the mask names the areas it may change). -/

set_option Elab.async false

namespace Sys2Proof.Machine

theorem keeps_sealUp (s : State) (p1 : Nat) : Keeps 2262183 s (sealUp s p1) := by
  unfold sealUp
  split
  · exact Keeps.refl _
  · refine Keeps.ite ?_ ?_
    · exact Keeps.refl _
    · extract_lets -underBinder -merge -useContext +onlyGivenNames x1
      try clear_value x1
      split
      · refine Keeps.trans ?_ (keeps_setEx _ _)
        exact Keeps.refl _
      · refine Keeps.ite ?_ ?_
        · refine Keeps.trans ?_ (keeps_setEx _ _)
          exact Keeps.refl _
        · extract_lets -underBinder -merge -useContext +onlyGivenNames x2
          try clear_value x2
          extract_lets -underBinder -merge -useContext +onlyGivenNames x3
          try clear_value x3
          extract_lets -underBinder -merge -useContext +onlyGivenNames x4
          try clear_value x4
          extract_lets -underBinder -merge -useContext +onlyGivenNames x5
          have h5 : Keeps 2262183 s x5 := by
            unfold x5
            refine Keeps.trans ?_ (keeps_setEx _ _)
            exact Keeps.refl _
          try clear_value x5
          refine Keeps.trans ?_ (keeps_hshSend _ _ _ _ _ _ _ _ _)
          assumption

theorem keeps_execSealEvent (p0 : Nat) (s : State) : KeepsO 2338743 s (execSealEvent p0 s) := by
  unfold execSealEvent
  refine KeepsO.done ?_
  split
  · exact Keeps.refl _
  · split
    · exact Keeps.refl _
    · refine Keeps.ite ?_ ?_
      · exact Keeps.refl _
      · extract_lets -underBinder -merge -useContext +onlyGivenNames x1
        have h1 : Keeps 2338743 s x1 := by
          unfold x1
          refine Keeps.trans ?_ (keeps_revisionDone _ _)
          exact Keeps.refl _
        try clear_value x1
        split
        · assumption
        · extract_lets -underBinder -merge -useContext +onlyGivenNames x2
          try clear_value x2
          extract_lets -underBinder -merge -useContext +onlyGivenNames x3
          try clear_value x3
          extract_lets -underBinder -merge -useContext +onlyGivenNames x4
          have h4 : Keeps 2338743 s x4 := by
            unfold x4
            refine Keeps.trans ?_ (keeps_bump _ _)
            refine Keeps.trans ?_ (keeps_setEx _ _)
            assumption
          try clear_value x4
          extract_lets -underBinder -merge -useContext +onlyGivenNames x5
          have h5 : Keeps 2338743 s x5 := by
            unfold x5
            refine Keeps.ite ?_ ?_
            · assumption
            · refine Keeps.trans ?_ (keeps_raiseEvent _ _)
              assumption
          try clear_value x5
          extract_lets -underBinder -merge -useContext +onlyGivenNames x6
          have h6 : Keeps 2338743 s x6 := by
            unfold x6
            refine Keeps.trans ?_ (keeps_sealUp _ _)
            assumption
          try clear_value x6
          extract_lets -underBinder -merge -useContext +onlyGivenNames x7
          extract_lets -underBinder -merge -useContext +onlyGivenNames x8
          extract_lets -underBinder -merge -useContext +onlyGivenNames x9
          extract_lets -underBinder -merge -useContext +onlyGivenNames x10
          have h10 : Keeps 2338743 s x10 := by
            unfold x10
            refine Keeps.upd (t := x6) ?_ rfl rfl rfl (Nat.le_refl _)
            assumption
          try clear_value x10
          refine Keeps.trans ?_ (keeps_reclaimStep _)
          refine Keeps.trans ?_ (keeps_retireScan _)
          assumption

theorem keeps_execExhibitRelease (p0 : Nat) (s : State) : KeepsO 2336695 s (execExhibitRelease p0 s) := by
  unfold execExhibitRelease
  refine KeepsO.done ?_
  extract_lets -underBinder -merge -useContext +onlyGivenNames x1
  have h1 : Keeps 2336695 s x1 := by
    unfold x1
    refine Keeps.trans ?_ (keeps_sealUp _ _)
    exact Keeps.refl _
  try clear_value x1
  split
  · assumption
  · refine Keeps.ite ?_ ?_
    · refine Keeps.trans ?_ (keeps_releaseEx _ _)
      assumption
    · assumption

theorem keeps_setArcSlot (s : State) (p1 : Nat) (p2 : ArcSlot) : Keeps 65536 s (setArcSlot s p1 p2) := by
  unfold setArcSlot
  refine Keeps.upd (t := s) ?_ rfl rfl rfl (Nat.le_refl _)
  exact Keeps.refl _

theorem keeps_execArchiveBlockStart (s : State) : KeepsO 65536 s (execArchiveBlockStart s) := by
  unfold execArchiveBlockStart
  refine KeepsO.done ?_
  split
  · split
    · refine Keeps.upd (t := s) ?_ rfl rfl rfl (Nat.le_refl _)
      exact Keeps.refl _
    · split
      · exact Keeps.refl _
      · refine Keeps.ite ?_ ?_
        · exact Keeps.refl _
        · extract_lets -underBinder -merge -useContext +onlyGivenNames x1
          try clear_value x1
          extract_lets -underBinder -merge -useContext +onlyGivenNames x2
          extract_lets -underBinder -merge -useContext +onlyGivenNames x3
          have h3 : Keeps 65536 s x3 := by
            unfold x3
            refine Keeps.ite ?_ ?_
            · refine Keeps.trans ?_ (keeps_setArcSlot _ _ _)
              exact Keeps.refl _
            · exact Keeps.refl _
          try clear_value x3
          refine Keeps.upd (t := x3) ?_ rfl rfl rfl (Nat.le_refl _)
          assumption
  · exact Keeps.refl _

theorem keeps_arcRingWrite (s : State) (p1 : List Byte) : Keeps 65543 s (arcRingWrite s p1) := by
  unfold arcRingWrite
  extract_lets -underBinder -merge -useContext +onlyGivenNames b l p w put h1 h2 x
  have hp : ∀ m : SMap Byte, smWf (fun _ => 0#8) m = true → smWf (fun _ => 0#8) (put m) = true :=
    fun m h => ringWrite_wf _ _ _ _ _ (ringWrite_wf _ _ _ _ _ h)
  have hx : Keeps 65543 s x := by
    unfold x
    refine Keeps.ite ?_ ?_
    · exact Keeps.upd (Keeps.refl s) rfl rfl rfl (Nat.le_refl _) (r5 := hp _)
    · exact Keeps.upd (Keeps.refl s) rfl rfl rfl (Nat.le_refl _) (r6 := hp _)
  clear_value x
  extract_lets -underBinder -merge -useContext +onlyGivenNames hit lost a1 y
  have hy : Keeps 65543 s y := by
    unfold y
    refine Keeps.ite ?_ hx
    refine Keeps.trans ?_ (keeps_bumpBy _ _ _)
    exact Keeps.upd hx rfl rfl rfl (Nat.le_refl _)
  clear_value y
  extract_lets -underBinder -merge -useContext +onlyGivenNames z
  have hz : Keeps 65543 s z := Keeps.trans hy (keeps_setRegN _ _ _)
  clear_value z
  exact Keeps.ite (Keeps.trans hz (keeps_setRegN _ _ _)) hz

theorem keeps_arcSendUp (s : State) (p1 : Exhibit) (p2 : Nat) (p3 : List Byte) : Keeps 2261159 s (arcSendUp s p1 p2 p3) := by
  unfold arcSendUp
  extract_lets -underBinder -merge -useContext +onlyGivenNames x1
  try clear_value x1
  refine Keeps.foldl ?_ (fun y2 a2 hy2 => ?_)
  · exact Keeps.refl _
  · refine Keeps.trans ?_ (keeps_hshSend _ _ _ _ _ _ _ _ _)
    assumption

theorem keeps_execArchiveBlockCommit (p0 : List Byte) (s : State) : KeepsO 2327719 s (execArchiveBlockCommit p0 s) := by
  unfold execArchiveBlockCommit
  refine KeepsO.done ?_
  split
  · exact Keeps.refl _
  · split
    · exact Keeps.refl _
    · extract_lets -underBinder -merge -useContext +onlyGivenNames x1
      try clear_value x1
      extract_lets -underBinder -merge -useContext +onlyGivenNames x2
      try clear_value x2
      extract_lets -underBinder -merge -useContext +onlyGivenNames x3
      try clear_value x3
      refine Keeps.ite ?_ ?_
      · exact Keeps.refl _
      · refine Keeps.ite ?_ ?_
        · refine Keeps.ite ?_ ?_
          · exact Keeps.refl _
          · refine Keeps.trans ?_ (keeps_bump _ _)
            refine Keeps.upd (t := s) ?_ rfl rfl rfl (Nat.le_refl _)
            exact Keeps.refl _
        · extract_lets -underBinder -merge -useContext +onlyGivenNames x4
          try clear_value x4
          extract_lets -underBinder -merge -useContext +onlyGivenNames x5
          try clear_value x5
          extract_lets -underBinder -merge -useContext +onlyGivenNames x6
          try clear_value x6
          extract_lets -underBinder -merge -useContext +onlyGivenNames x7
          try clear_value x7
          extract_lets -underBinder -merge -useContext +onlyGivenNames x8
          try clear_value x8
          extract_lets -underBinder -merge -useContext +onlyGivenNames x9
          try clear_value x9
          extract_lets -underBinder -merge -useContext +onlyGivenNames x10
          try clear_value x10
          extract_lets -underBinder -merge -useContext +onlyGivenNames x11
          try clear_value x11
          extract_lets -underBinder -merge -useContext +onlyGivenNames x12
          try clear_value x12
          extract_lets -underBinder -merge -useContext +onlyGivenNames x13
          have h13 : Keeps 2327719 s x13 := by
            unfold x13
            refine Keeps.trans ?_ (keeps_nextFree _)
            exact Keeps.refl _
          try clear_value x13
          extract_lets -underBinder -merge -useContext +onlyGivenNames x14
          have h14 : Keeps 2327719 s x14 := by
            unfold x14
            refine Keeps.ite ?_ ?_
            · refine Keeps.trans ?_ (keeps_arcRingWrite _ _)
              assumption
            · refine Keeps.trans ?_ (keeps_arcSendUp _ _ _ _)
              assumption
          try clear_value x14
          extract_lets -underBinder -merge -useContext +onlyGivenNames x15
          have h15 : Keeps 2327719 s x15 := by
            unfold x15
            refine Keeps.trans ?_ (keeps_setArcSlot _ _ _)
            assumption
          try clear_value x15
          extract_lets -underBinder -merge -useContext +onlyGivenNames x16
          extract_lets -underBinder -merge -useContext +onlyGivenNames x17
          have h17 : Keeps 2327719 s x17 := by
            unfold x17
            refine Keeps.upd (t := x15) ?_ rfl rfl rfl (Nat.le_refl _)
            assumption
          try clear_value x17
          extract_lets -underBinder -merge -useContext +onlyGivenNames x18
          have h18 : Keeps 2327719 s x18 := by
            unfold x18
            refine Keeps.trans ?_ (keeps_bump _ _)
            refine Keeps.trans ?_ (keeps_setRegN _ _ _)
            assumption
          try clear_value x18
          extract_lets -underBinder -merge -useContext +onlyGivenNames x19
          have h19 : Keeps 2327719 s x19 := by
            unfold x19
            refine Keeps.trans ?_ (keeps_setReg64 _ _ _ _)
            assumption
          try clear_value x19
          extract_lets -underBinder -merge -useContext +onlyGivenNames x20
          have h20 : Keeps 2327719 s x20 := by
            unfold x20
            refine Keeps.trans ?_ (keeps_setReg64 _ _ _ _)
            assumption
          try clear_value x20
          extract_lets -underBinder -merge -useContext +onlyGivenNames x21
          have h21 : Keeps 2327719 s x21 := by
            unfold x21
            refine Keeps.ite ?_ ?_
            · refine Keeps.trans ?_ (keeps_logEvent _ _ _ _)
              refine Keeps.trans ?_ (keeps_evt _ _ _)
              refine Keeps.trans ?_ (keeps_bump _ _)
              assumption
            · assumption
          try clear_value x21
          split
          · refine Keeps.trans ?_ (keeps_setEx _ _)
            assumption
          · assumption

theorem keeps_arcGo (s : State) (p1 : Nat) : Keeps 65541 s (arcGo s p1) := by
  unfold arcGo
  refine Keeps.ite ?_ ?_
  · refine Keeps.trans ?_ (keeps_opRefuseStart _ _)
    exact Keeps.refl _
  · extract_lets -underBinder -merge -useContext +onlyGivenNames x1
    try clear_value x1
    extract_lets -underBinder -merge -useContext +onlyGivenNames x2
    extract_lets -underBinder -merge -useContext +onlyGivenNames x3
    have h3 : Keeps 65541 s x3 := by
      unfold x3
      refine Keeps.upd (t := s) ?_ rfl rfl rfl (Nat.le_refl _)
      exact Keeps.refl _
    try clear_value x3
    extract_lets -underBinder -merge -useContext +onlyGivenNames x4
    try clear_value x4
    extract_lets -underBinder -merge -useContext +onlyGivenNames x5
    extract_lets -underBinder -merge -useContext +onlyGivenNames x6
    have h6 : Keeps 65541 s x6 := by
      unfold x6
      refine Keeps.upd (t := x3) ?_ rfl rfl rfl (Nat.le_refl _)
      assumption
    try clear_value x6
    extract_lets -underBinder -merge -useContext +onlyGivenNames x7
    have h7 : Keeps 65541 s x7 := by
      unfold x7
      refine Keeps.trans ?_ (keeps_bump _ _)
      refine Keeps.trans ?_ (keeps_opStart _ _)
      assumption
    try clear_value x7
    extract_lets -underBinder -merge -useContext +onlyGivenNames x8
    have h8 : Keeps 65541 s x8 := by
      unfold x8
      refine Keeps.trans ?_ (keeps_setRegN _ _ _)
      refine Keeps.trans ?_ (keeps_setRegN _ _ _)
      refine Keeps.trans ?_ (keeps_setRegN _ _ _)
      assumption
    try clear_value x8
    extract_lets -underBinder -merge -useContext +onlyGivenNames x9
    try clear_value x9
    refine Keeps.ite ?_ ?_
    · assumption
    · refine Keeps.trans ?_ (keeps_opEnd _ _ _ _)
      assumption

theorem keeps_execArcCompress (p0 : Nat) (s : State) : KeepsO 65541 s (execArcCompress p0 s) := by
  unfold execArcCompress
  refine KeepsO.done ?_
  refine Keeps.ite ?_ ?_
  · refine Keeps.trans ?_ (keeps_arcGo _ _)
    exact Keeps.refl _
  · exact Keeps.refl _

theorem keeps_execArcDecompress (p0 : Nat) (s : State) : KeepsO 65541 s (execArcDecompress p0 s) := by
  unfold execArcDecompress
  refine KeepsO.done ?_
  refine Keeps.ite ?_ ?_
  · refine Keeps.trans ?_ (keeps_arcGo _ _)
    exact Keeps.refl _
  · exact Keeps.refl _

theorem keeps_execArcSave (p0 : Nat) (s : State) : KeepsO 65541 s (execArcSave p0 s) := by
  unfold execArcSave
  refine KeepsO.done ?_
  refine Keeps.ite ?_ ?_
  · refine Keeps.trans ?_ (keeps_arcGo _ _)
    exact Keeps.refl _
  · exact Keeps.refl _

theorem keeps_execArcRestore (p0 : Nat) (s : State) : KeepsO 65541 s (execArcRestore p0 s) := by
  unfold execArcRestore
  refine KeepsO.done ?_
  refine Keeps.ite ?_ ?_
  · refine Keeps.trans ?_ (keeps_arcGo _ _)
    exact Keeps.refl _
  · exact Keeps.refl _

theorem keeps_execArcJobStop (s : State) : KeepsO 1 s (execArcJobStop s) := by
  unfold execArcJobStop
  refine KeepsO.done ?_
  refine Keeps.trans ?_ (keeps_opStop _ _)
  exact Keeps.refl _

theorem keeps_arcCtrl (s : State) (p1 : Nat) (p2 : Word) : Keeps 65541 s (arcCtrl s p1 p2) := by
  unfold arcCtrl
  extract_lets -underBinder -merge -useContext +onlyGivenNames x1
  have h1 : Keeps 65541 s x1 := by
    unfold x1
    refine Keeps.ite ?_ ?_
    · refine Keeps.trans ?_ (keeps_opStop _ _)
      exact Keeps.refl _
    · exact Keeps.refl _
  try clear_value x1
  refine Keeps.ite ?_ ?_
  · refine Keeps.trans ?_ (keeps_arcGo _ _)
    assumption
  · assumption

theorem keeps_jobDst (s : State) (p1 : List Byte) : Keeps 2 s (jobDst s p1) := by
  unfold jobDst
  extract_lets -underBinder -merge -useContext +onlyGivenNames a put
  refine Keeps.ite ?_ ?_
  · exact Keeps.upd (Keeps.refl s) rfl rfl rfl (Nat.le_refl _) (r5 := putBytes_wf (fun n => n) _ _ _)
  · exact Keeps.upd (Keeps.refl s) rfl rfl rfl (Nat.le_refl _) (r6 := putBytes_wf (fun n => n) _ _ _)

theorem keeps_jobDone (s : State) (p1 : Nat) (p2 : Nat) (p3 : Nat) (p4 : Nat) : Keeps 7 s (jobDone s p1 p2 p3 p4) := by
  unfold jobDone
  extract_lets -underBinder -merge -useContext +onlyGivenNames x1
  have h1 : Keeps 7 s x1 := by
    unfold x1
    refine Keeps.trans ?_ (keeps_opProgress _ _ _)
    exact Keeps.refl _
  try clear_value x1
  extract_lets -underBinder -merge -useContext +onlyGivenNames x2
  have h2 : Keeps 7 s x2 := by
    unfold x2
    refine Keeps.trans ?_ (keeps_setRegN _ _ _)
    assumption
  try clear_value x2
  extract_lets -underBinder -merge -useContext +onlyGivenNames x3
  have h3 : Keeps 7 s x3 := by
    unfold x3
    refine Keeps.trans ?_ (keeps_setRegN _ _ _)
    refine Keeps.trans ?_ (keeps_setRegN _ _ _)
    refine Keeps.trans ?_ (keeps_setRegN _ _ _)
    assumption
  try clear_value x3
  refine Keeps.trans ?_ (keeps_evt _ _ _)
  refine Keeps.trans ?_ (keeps_opEnd _ _ _ _)
  assumption

theorem keeps_jobFailed (s : State) (p1 : Nat) (p2 : Bool) : Keeps 65543 s (jobFailed s p1 p2) := by
  unfold jobFailed
  extract_lets -underBinder -merge -useContext +onlyGivenNames x1
  have h1 : Keeps 65543 s x1 := by
    unfold x1
    refine Keeps.ite ?_ ?_
    · exact Keeps.refl _
    · refine Keeps.trans ?_ (keeps_setArcSlot _ _ _)
      exact Keeps.refl _
  try clear_value x1
  refine Keeps.trans ?_ (keeps_evt _ _ _)
  refine Keeps.trans ?_ (keeps_opEnd _ _ _ _)
  assumption

theorem keeps_compressEnd (s : State) (p1 : List Byte) (p2 : List Bool) : Keeps 65543 s (compressEnd s p1 p2) := by
  unfold compressEnd
  extract_lets -underBinder -merge -useContext +onlyGivenNames x1
  try clear_value x1
  extract_lets -underBinder -merge -useContext +onlyGivenNames x2
  try clear_value x2
  extract_lets -underBinder -merge -useContext +onlyGivenNames x3
  try clear_value x3
  extract_lets -underBinder -merge -useContext +onlyGivenNames x4
  extract_lets -underBinder -merge -useContext +onlyGivenNames x5
  try clear_value x5
  extract_lets -underBinder -merge -useContext +onlyGivenNames x6
  try clear_value x6
  split
  · refine Keeps.trans ?_ (keeps_jobFailed _ _ _)
    exact Keeps.refl _
  · extract_lets -underBinder -merge -useContext +onlyGivenNames x7
    try clear_value x7
    extract_lets -underBinder -merge -useContext +onlyGivenNames x8
    try clear_value x8
    extract_lets -underBinder -merge -useContext +onlyGivenNames x9
    try clear_value x9
    extract_lets -underBinder -merge -useContext +onlyGivenNames x10
    try clear_value x10
    extract_lets -underBinder -merge -useContext +onlyGivenNames x11
    try clear_value x11
    extract_lets -underBinder -merge -useContext +onlyGivenNames x12
    try clear_value x12
    extract_lets -underBinder -merge -useContext +onlyGivenNames x13
    try clear_value x13
    extract_lets -underBinder -merge -useContext +onlyGivenNames x14
    try clear_value x14
    extract_lets -underBinder -merge -useContext +onlyGivenNames x15
    try clear_value x15
    extract_lets -underBinder -merge -useContext +onlyGivenNames x16
    try clear_value x16
    extract_lets -underBinder -merge -useContext +onlyGivenNames x17
    try clear_value x17
    refine Keeps.ite ?_ ?_
    · exact Keeps.refl _
    · refine Keeps.ite ?_ ?_
      · refine Keeps.trans ?_ (keeps_jobFailed _ _ _)
        exact Keeps.refl _
      · refine Keeps.ite ?_ ?_
        · exact Keeps.refl _
        · extract_lets -underBinder -merge -useContext +onlyGivenNames x18
          try clear_value x18
          extract_lets -underBinder -merge -useContext +onlyGivenNames x19
          try clear_value x19
          extract_lets -underBinder -merge -useContext +onlyGivenNames x20
          try clear_value x20
          extract_lets -underBinder -merge -useContext +onlyGivenNames x21
          have h21 : ∀ z22 z23, Keeps 65543 z22 (x21 z22 z23) := by
            intro z22 z23
            unfold x21
            refine Keeps.trans ?_ (keeps_setReg64 _ _ _ _)
            refine Keeps.trans ?_ (keeps_setReg64 _ _ _ _)
            exact Keeps.refl _
          try clear_value x21
          refine Keeps.ite ?_ ?_
          · extract_lets -underBinder -merge -useContext +onlyGivenNames x24
            try clear_value x24
            extract_lets -underBinder -merge -useContext +onlyGivenNames x25
            have h25 : Keeps 65543 s x25 := by
              unfold x25
              refine Keeps.trans ?_ (keeps_jobDst _ _)
              exact Keeps.refl _
            try clear_value x25
            refine Keeps.trans ?_ (keeps_jobDone _ _ _ _ _)
            refine Keeps.trans ?_ (h21 ..)
            refine Keeps.trans ?_ (keeps_setArcSlot _ _ _)
            assumption
          · refine Keeps.ite ?_ ?_
            · extract_lets -underBinder -merge -useContext +onlyGivenNames x26
              try clear_value x26
              extract_lets -underBinder -merge -useContext +onlyGivenNames x27
              have h27 : Keeps 65543 s x27 := by
                unfold x27
                refine Keeps.trans ?_ (keeps_jobDst _ _)
                exact Keeps.refl _
              try clear_value x27
              refine Keeps.trans ?_ (keeps_jobDone _ _ _ _ _)
              refine Keeps.trans ?_ (h21 ..)
              refine Keeps.trans ?_ (keeps_setArcSlot _ _ _)
              assumption
            · exact Keeps.refl _

theorem keeps_decompressEnd (s : State) (p1 : List Byte) : Keeps 65543 s (decompressEnd s p1) := by
  unfold decompressEnd
  extract_lets -underBinder -merge -useContext +onlyGivenNames x1
  try clear_value x1
  extract_lets -underBinder -merge -useContext +onlyGivenNames x2
  try clear_value x2
  extract_lets -underBinder -merge -useContext +onlyGivenNames x3
  extract_lets -underBinder -merge -useContext +onlyGivenNames x4
  try clear_value x4
  extract_lets -underBinder -merge -useContext +onlyGivenNames x5
  try clear_value x5
  extract_lets -underBinder -merge -useContext +onlyGivenNames x6
  try clear_value x6
  extract_lets -underBinder -merge -useContext +onlyGivenNames x7
  try clear_value x7
  extract_lets -underBinder -merge -useContext +onlyGivenNames x8
  try clear_value x8
  extract_lets -underBinder -merge -useContext +onlyGivenNames x9
  have h9 : Keeps 65543 s x9 := by
    unfold x9
    refine Keeps.trans ?_ (keeps_jobDst _ _)
    exact Keeps.refl _
  try clear_value x9
  extract_lets -underBinder -merge -useContext +onlyGivenNames x10
  try clear_value x10
  extract_lets -underBinder -merge -useContext +onlyGivenNames x11
  try clear_value x11
  extract_lets -underBinder -merge -useContext +onlyGivenNames x12
  have h12 : ∀ z13, Keeps 65543 s (x12 z13) := by
    intro z13
    unfold x12
    extract_lets -underBinder -merge -useContext +onlyGivenNames x14
    have h14 : Keeps 65543 s x14 := by
      unfold x14
      refine Keeps.trans ?_ (keeps_setRegN _ _ _)
      refine Keeps.trans ?_ (keeps_setRegN _ _ _)
      assumption
    try clear_value x14
    extract_lets -underBinder -merge -useContext +onlyGivenNames x15
    have h15 : Keeps 65543 s x15 := by
      unfold x15
      refine Keeps.trans ?_ (keeps_evt _ _ _)
      refine Keeps.trans ?_ (keeps_bump _ _)
      assumption
    try clear_value x15
    extract_lets -underBinder -merge -useContext +onlyGivenNames x16
    have h16 : Keeps 65543 s x16 := by
      unfold x16
      refine Keeps.ite ?_ ?_
      · refine Keeps.trans ?_ (keeps_logEvent _ _ _ _)
        refine Keeps.trans ?_ (keeps_evt _ _ _)
        refine Keeps.trans ?_ (keeps_bump _ _)
        assumption
      · assumption
    try clear_value x16
    refine Keeps.trans ?_ (keeps_jobFailed _ _ _)
    assumption
  try clear_value x12
  extract_lets -underBinder -merge -useContext +onlyGivenNames x17
  have h17 : Keeps 65543 s x17 := by
    unfold x17
    refine Keeps.trans ?_ (keeps_jobDone _ _ _ _ _)
    refine Keeps.trans ?_ (keeps_setArcSlot _ _ _)
    assumption
  try clear_value x17
  split
  · exact h12 ..
  · assumption
  · refine Keeps.trans ?_ (keeps_jobDone _ _ _ _ _)
    refine Keeps.trans ?_ (keeps_setArcSlot _ _ _)
    assumption
  · refine Keeps.ite ?_ ?_
    · assumption
    · refine Keeps.ite ?_ ?_
      · exact h12 ..
      · refine Keeps.trans ?_ (keeps_jobDone _ _ _ _ _)
        refine Keeps.trans ?_ (keeps_setArcSlot _ _ _)
        assumption

theorem keeps_execArcJobEnd (p0 : List Byte) (p1 : List Bool) (p2 : Bool) (s : State) : KeepsO 65543 s (execArcJobEnd p0 p1 p2 s) := by
  unfold execArcJobEnd
  refine KeepsO.done ?_
  extract_lets -underBinder -merge -useContext +onlyGivenNames x1
  try clear_value x1
  extract_lets -underBinder -merge -useContext +onlyGivenNames x2
  try clear_value x2
  extract_lets -underBinder -merge -useContext +onlyGivenNames x3
  try clear_value x3
  extract_lets -underBinder -merge -useContext +onlyGivenNames x4
  try clear_value x4
  refine Keeps.ite ?_ ?_
  · exact Keeps.refl _
  · refine Keeps.ite ?_ ?_
    · refine Keeps.trans ?_ (keeps_jobFailed _ _ _)
      exact Keeps.refl _
    · extract_lets -underBinder -merge -useContext +onlyGivenNames x5
      try clear_value x5
      split
      · refine Keeps.trans ?_ (keeps_compressEnd _ _ _)
        exact Keeps.refl _
      · refine Keeps.trans ?_ (keeps_decompressEnd _ _)
        exact Keeps.refl _
      · refine Keeps.trans ?_ (keeps_jobDone _ _ _ _ _)
        refine Keeps.trans ?_ (keeps_jobDst _ _)
        exact Keeps.refl _
      · extract_lets -underBinder -merge -useContext +onlyGivenNames x6
        try clear_value x6
        refine Keeps.ite ?_ ?_
        · refine Keeps.trans ?_ (keeps_jobDone _ _ _ _ _)
          refine Keeps.trans ?_ (keeps_setArcSlot _ _ _)
          exact Keeps.refl _
        · refine Keeps.trans ?_ (keeps_jobFailed _ _ _)
          exact Keeps.refl _

theorem keeps_arcDisabled (s : State) : Keeps 66560 s (arcDisabled s) := by
  unfold arcDisabled
  extract_lets -underBinder -merge -useContext +onlyGivenNames x1
  extract_lets -underBinder -merge -useContext +onlyGivenNames x2
  have h2 : Keeps 66560 s x2 := by
    unfold x2
    refine Keeps.upd (t := s) ?_ rfl rfl rfl (Nat.le_refl _)
    exact Keeps.refl _
  try clear_value x2
  refine Keeps.upd (t := x2) ?_ rfl rfl rfl (Nat.le_refl _)
    (r11 := fun h => by rw [List.all_eq_true] at h ⊢; intro p hp; obtain ⟨q, hq, rfl⟩ := List.mem_map.1 hp; exact h q hq)
  first | exact Keeps.refl _ | assumption

end Sys2Proof.Machine
end

