-- ==== Sys2Proof/Laws/KeepsLog.lean ====
section
/-! SUPPORT. What each function of Machine/Log.lean leaves unchanged (the mask names the areas it may change). -/

set_option Elab.async false

namespace Sys2Proof.Machine

theorem keeps_logWrite (s : State) (p1 : LogEvent) : Keeps 7 s (logWrite s p1) := by
  unfold logWrite
  split
  · refine Keeps.trans ?_ (keeps_bump _ _)
    refine Keeps.upd (t := s) ?_ rfl rfl rfl (Nat.le_refl _)
    exact Keeps.refl _
  · extract_lets -underBinder -merge -useContext +onlyGivenNames x1
    try clear_value x1
    extract_lets -underBinder -merge -useContext +onlyGivenNames x2
    extract_lets -underBinder -merge -useContext +onlyGivenNames x3
    have h3 : Keeps 7 s x3 := by
      unfold x3
      refine Keeps.upd (t := s) ?_ rfl rfl rfl (Nat.le_refl _)
      exact Keeps.refl _
    try clear_value x3
    refine Keeps.trans ?_ (keeps_evt _ _ _)
    refine Keeps.trans ?_ (keeps_bump _ _)
    assumption

theorem keeps_logLost (s : State) : Keeps 5 s (logLost s) := by
  unfold logLost
  refine Keeps.ite ?_ ?_
  · exact Keeps.refl _
  · extract_lets -underBinder -merge -useContext +onlyGivenNames x1
    try clear_value x1
    refine Keeps.trans ?_ (keeps_logPush _ _ _ _)
    refine Keeps.upd (t := s) ?_ rfl rfl rfl (Nat.le_refl _)
    exact Keeps.refl _

theorem keeps_logPop (s : State) : Keeps 7 s (logPop s) := by
  unfold logPop
  split
  · exact Keeps.refl _
  · rename_i e l h
    refine Keeps.trans (Keeps.trans ?_ (keeps_logWrite _ _)) (keeps_logLost _)
    refine Keeps.upd (Keeps.refl s) rfl rfl rfl (Nat.le_refl _) (r7 := fun k => ?_)
    rw [h, List.length_cons] at k
    exact Nat.le_of_succ_le k

theorem keeps_execLogRecordWrite (s : State) : KeepsO 7 s (execLogRecordWrite s) := by
  unfold execLogRecordWrite
  refine KeepsO.done ?_
  refine Keeps.trans ?_ (keeps_logPop _)
  exact Keeps.refl _

theorem keeps_logFlush (p0 : Nat) (s : State) : Keeps 7 s (logFlush p0 s) := by
  induction p0 generalizing s with
  | zero => exact Keeps.refl _
  | succ n ih =>
    unfold logFlush
    exact Keeps.ite (Keeps.refl _) (Keeps.trans (keeps_logPop _).mono (ih _))

theorem keeps_logLatch (s : State) (p1 : Nat) : KeepsF 4 s (logLatch s p1) := by
  unfold logLatch
  extract_lets -underBinder -merge -useContext +onlyGivenNames x1
  try clear_value x1
  extract_lets -underBinder -merge -useContext +onlyGivenNames x2
  try clear_value x2
  extract_lets -underBinder -merge -useContext +onlyGivenNames x3
  try clear_value x3
  refine KeepsF.mk ?_
  refine Keeps.upd (t := s) ?_ rfl rfl rfl (Nat.le_refl _)
  exact Keeps.refl _

theorem keeps_logWord (s : State) (p1 : Nat) (p2 : Nat) : KeepsF 1 s (logWord s p1 p2) := by
  unfold logWord
  split
  · refine KeepsF.mk ?_
    exact Keeps.refl _
  · extract_lets -underBinder -merge -useContext +onlyGivenNames x1
    try clear_value x1
    refine KeepsF.ite ?_ ?_
    · extract_lets -underBinder -merge -useContext +onlyGivenNames x2
      try clear_value x2
      refine KeepsF.mk ?_
      refine Keeps.trans ?_ (keeps_setRegN _ _ _)
      exact Keeps.refl _
    · refine KeepsF.mk ?_
      exact Keeps.refl _

theorem keeps_execLogWindowLatch (p0 : Nat) (s : State) : KeepsO 6 s (execLogWindowLatch p0 s) := by
  unfold execLogWindowLatch
  refine KeepsO.done ?_
  extract_lets -underBinder -merge -useContext +onlyGivenNames x1
  have h1 : KeepsF 6 s x1 := by
    unfold x1
    refine KeepsF.trans ?_ (keeps_logLatch _ _)
    exact Keeps.refl _
  try clear_value x1
  refine Keeps.trans ?_ (keeps_respond _ _)
  refine KeepsF.snd ?_
  assumption

theorem keeps_execLogAutoAdvance (p0 : Nat) (s : State) : KeepsO 3 s (execLogAutoAdvance p0 s) := by
  unfold execLogAutoAdvance
  refine KeepsO.done ?_
  extract_lets -underBinder -merge -useContext +onlyGivenNames x1
  have h1 : KeepsF 3 s x1 := by
    unfold x1
    refine KeepsF.trans ?_ (keeps_logWord _ _ _)
    exact Keeps.refl _
  try clear_value x1
  refine Keeps.trans ?_ (keeps_respond _ _)
  refine KeepsF.snd ?_
  assumption

theorem keeps_wearEval (s : State) : Keeps 7 s (wearEval s) := by
  unfold wearEval
  refine Keeps.foldl ?_ (fun y1 a1 hy1 => ?_)
  · exact Keeps.refl _
  · refine Keeps.trans ?_ (keeps_logEvent _ _ _ _)
    refine Keeps.trans ?_ (keeps_evt _ _ _)
    refine Keeps.upd (t := y1) ?_ rfl rfl rfl (Nat.le_refl _)
    assumption

theorem keeps_lifeTick (s : State) : Keeps 7 s (lifeTick s) := by
  unfold lifeTick
  extract_lets -underBinder -merge -useContext +onlyGivenNames x1
  try clear_value x1
  extract_lets -underBinder -merge -useContext +onlyGivenNames x2
  try clear_value x2
  extract_lets -underBinder -merge -useContext +onlyGivenNames x3
  extract_lets -underBinder -merge -useContext +onlyGivenNames x4
  have h4 : Keeps 7 s x4 := by
    unfold x4
    refine Keeps.upd (t := s) ?_ rfl rfl rfl (Nat.le_refl _)
    exact Keeps.refl _
  try clear_value x4
  extract_lets -underBinder -merge -useContext +onlyGivenNames x5
  have h5 : Keeps 7 s x5 := by
    unfold x5
    refine Keeps.trans ?_ (keeps_lifeBump _ _ _)
    assumption
  try clear_value x5
  extract_lets -underBinder -merge -useContext +onlyGivenNames x6
  have h6 : Keeps 7 s x6 := by
    unfold x6
    refine Keeps.ite ?_ ?_
    · refine Keeps.trans ?_ (keeps_lifeBump _ _ _)
      assumption
    · assumption
  try clear_value x6
  extract_lets -underBinder -merge -useContext +onlyGivenNames x7
  have h7 : Keeps 7 s x7 := by
    unfold x7
    refine Keeps.ite ?_ ?_
    · refine Keeps.trans ?_ (keeps_lifeBump _ _ _)
      assumption
    · assumption
  try clear_value x7
  extract_lets -underBinder -merge -useContext +onlyGivenNames x8
  have h8 : Keeps 7 s x8 := by
    unfold x8
    refine Keeps.ite ?_ ?_
    · assumption
    · refine Keeps.trans ?_ (keeps_wearEval _)
      refine Keeps.trans ?_ (keeps_lifeBump _ _ _)
      assumption
  try clear_value x8
  refine Keeps.ite ?_ ?_
  · extract_lets -underBinder -merge -useContext +onlyGivenNames x9
    try clear_value x9
    refine Keeps.upd (t := x8) ?_ rfl rfl rfl (Nat.le_refl _)
    assumption
  · assumption

theorem keeps_lifeCommit (s : State) (p1 : Bool) : Keeps 7 s (lifeCommit s p1) := by
  unfold lifeCommit
  refine Keeps.ite ?_ ?_
  · exact Keeps.refl _
  · extract_lets -underBinder -merge -useContext +onlyGivenNames x1
    try clear_value x1
    extract_lets -underBinder -merge -useContext +onlyGivenNames x2
    try clear_value x2
    extract_lets -underBinder -merge -useContext +onlyGivenNames x3
    try clear_value x3
    extract_lets -underBinder -merge -useContext +onlyGivenNames x4
    extract_lets -underBinder -merge -useContext +onlyGivenNames x5
    have h5 : Keeps 7 s x5 := by
      unfold x5
      refine Keeps.upd (t := s) ?_ rfl rfl rfl (Nat.le_refl _)
      exact Keeps.refl _
    try clear_value x5
    refine Keeps.ite ?_ ?_
    · assumption
    · refine Keeps.trans ?_ (keeps_logEvent _ _ _ _)
      assumption

theorem keeps_execLifetimeCommit (p0 : Bool) (s : State) : KeepsO 7 s (execLifetimeCommit p0 s) := by
  unfold execLifetimeCommit
  refine KeepsO.done ?_
  extract_lets -underBinder -merge -useContext +onlyGivenNames x1
  have h1 : Keeps 7 s x1 := by
    unfold x1
    refine Keeps.trans ?_ (keeps_lifeTick _)
    exact Keeps.refl _
  try clear_value x1
  refine Keeps.ite ?_ ?_
  · assumption
  · refine Keeps.trans ?_ (keeps_lifeCommit _ _)
    refine Keeps.upd (t := x1) ?_ rfl rfl rfl (Nat.le_refl _)
    assumption

theorem keeps_lifeLoad (s : State) : Keeps 7 s (lifeLoad s) := by
  unfold lifeLoad
  extract_lets -underBinder -merge -useContext +onlyGivenNames x1
  try clear_value x1
  split
  · refine Keeps.trans ?_ (keeps_logEvent _ _ _ _)
    exact Keeps.refl _
  · extract_lets -underBinder -merge -useContext +onlyGivenNames x2
    have h2 : Keeps 7 s x2 := by
      unfold x2
      refine Keeps.foldl ?_ (fun y3 a3 hy3 => ?_)
      · exact Keeps.refl _
      · refine Keeps.trans ?_ (keeps_setRegN _ _ _)
        assumption
    try clear_value x2
    extract_lets -underBinder -merge -useContext +onlyGivenNames x4
    have h4 : Keeps 7 s x4 := by
      unfold x4
      refine Keeps.trans ?_ (keeps_setRegN _ _ _)
      assumption
    try clear_value x4
    extract_lets -underBinder -merge -useContext +onlyGivenNames x5
    extract_lets -underBinder -merge -useContext +onlyGivenNames x6
    have h6 : Keeps 7 s x6 := by
      unfold x6
      refine Keeps.upd (t := x4) ?_ rfl rfl rfl (Nat.le_refl _)
      assumption
    try clear_value x6
    refine Keeps.upd (t := x6) ?_ rfl rfl rfl (Nat.le_refl _)
    assumption

theorem keeps_logClearPend (s : State) (p1 : Nat) : Keeps 7 s (logClearPend s p1) := by
  unfold logClearPend
  refine Keeps.trans ?_ (keeps_lifeCommit _ _)
  refine Keeps.upd (t := s) ?_ rfl rfl rfl (Nat.le_refl _)
  exact Keeps.refl _

theorem keeps_logFloorTake (s : State) (p1 : Nat) : Keeps 4 s (logFloorTake s p1) := by
  unfold logFloorTake
  refine Keeps.upd (t := s) ?_ rfl rfl rfl (Nat.le_refl _)
  exact Keeps.refl _

theorem keeps_logClearApply (s : State) : Keeps 7 s (logClearApply s) := by
  unfold logClearApply
  split
  · exact Keeps.refl _
  · extract_lets -underBinder -merge -useContext +onlyGivenNames x1
    try clear_value x1
    refine Keeps.trans ?_ (keeps_evt _ _ _)
    refine Keeps.trans ?_ (keeps_logEvent _ _ _ _)
    refine Keeps.trans ?_ (keeps_logFloorTake _ _)
    exact Keeps.refl _

theorem keeps_logClearRestart (s : State) : Keeps 4 s (logClearRestart s) := by
  unfold logClearRestart
  split
  · exact Keeps.refl _
  · refine Keeps.ite ?_ ?_
    · refine Keeps.trans ?_ (keeps_logFloorTake _ _)
      exact Keeps.refl _
    · refine Keeps.upd (t := s) ?_ rfl rfl rfl (Nat.le_refl _)
      exact Keeps.refl _

theorem keeps_execLogClearPass (s : State) : KeepsO 4 s (execLogClearPass s) := by
  unfold execLogClearPass
  refine KeepsO.done ?_
  split
  · exact Keeps.refl _
  · extract_lets -underBinder -merge -useContext +onlyGivenNames x1
    try clear_value x1
    extract_lets -underBinder -merge -useContext +onlyGivenNames x2
    try clear_value x2
    refine Keeps.upd (t := s) ?_ rfl rfl rfl (Nat.le_refl _)
    exact Keeps.refl _

theorem keeps_logRestart (s : State) : Keeps 4 s (logRestart s) :=
  Keeps.upd (Keeps.refl s) rfl rfl rfl (Nat.le_refl _) (r7 := fun _ => Nat.zero_le _)

theorem keeps_logStatClr (s : State) : Keeps 4 s (logStatClr s) := by
  unfold logStatClr
  refine Keeps.upd (t := s) ?_ rfl rfl rfl (Nat.le_refl _)
  exact Keeps.refl _

end Sys2Proof.Machine
end

