-- ==== Sys2Proof/Laws/KeepsKeys.lean ====
section
/-! SUPPORT. What each function of Machine/Keys.lean leaves unchanged (the mask names the areas it may change). -/

set_option Elab.async false

namespace Sys2Proof.Machine

theorem keeps_keyShow (s : State) (p1 : Nat) (p2 : Nat) (p3 : KeySlot) : Keeps 1 s (keyShow s p1 p2 p3) := by
  unfold keyShow
  extract_lets -underBinder -merge -useContext +onlyGivenNames x1
  try clear_value x1
  extract_lets -underBinder -merge -useContext +onlyGivenNames x2
  have h2 : Keeps 1 s x2 := by
    unfold x2
    refine Keeps.trans ?_ (keeps_setRegN _ _ _)
    exact Keeps.refl _
  try clear_value x2
  extract_lets -underBinder -merge -useContext +onlyGivenNames x3
  have h3 : Keeps 1 s x3 := by
    unfold x3
    refine Keeps.trans ?_ (keeps_setRegN _ _ _)
    assumption
  try clear_value x3
  extract_lets -underBinder -merge -useContext +onlyGivenNames x4
  have h4 : Keeps 1 s x4 := by
    unfold x4
    refine Keeps.trans ?_ (keeps_setRegN _ _ _)
    assumption
  try clear_value x4
  extract_lets -underBinder -merge -useContext +onlyGivenNames x5
  have h5 : Keeps 1 s x5 := by
    unfold x5
    refine Keeps.trans ?_ (keeps_setRegN _ _ _)
    assumption
  try clear_value x5
  refine Keeps.trans ?_ (keeps_setRegN _ _ _)
  assumption

theorem keeps_keyLoad (s : State) : Keeps 16391 s (keyLoad s) := by
  unfold keyLoad
  extract_lets -underBinder -merge -useContext +onlyGivenNames x1
  have h1 : ∀ z2, Keeps 16391 z2 (x1 z2) := by
    intro z2
    unfold x1
    refine Keeps.trans ?_ (keeps_logEvent _ _ _ _)
    refine Keeps.upd (t := z2) ?_ rfl rfl rfl (Nat.le_refl _)
    exact Keeps.refl _
  try clear_value x1
  split
  · refine Keeps.trans ?_ (h1 ..)
    exact Keeps.refl _
  · split
    · refine Keeps.trans ?_ (h1 ..)
      exact Keeps.refl _
    · refine Keeps.ite ?_ ?_
      · refine Keeps.trans ?_ (h1 ..)
        exact Keeps.refl _
      · extract_lets -underBinder -merge -useContext +onlyGivenNames x3
        try clear_value x3
        extract_lets -underBinder -merge -useContext +onlyGivenNames x4
        try clear_value x4
        refine Keeps.trans ?_ (keeps_keyShow _ _ _ _)
        refine Keeps.upd (t := s) ?_ rfl rfl rfl (Nat.le_refl _)
        exact Keeps.refl _

theorem keeps_pufRegen (s : State) (p1 : Bool) (p2 : Nat) : Keeps 16391 s (pufRegen s p1 p2) := by
  unfold pufRegen
  extract_lets -underBinder -merge -useContext +onlyGivenNames x1
  have h1 : Keeps 16391 s x1 := by
    unfold x1
    refine Keeps.trans ?_ (keeps_bump _ _)
    exact Keeps.refl _
  try clear_value x1
  refine Keeps.ite ?_ ?_
  · refine Keeps.trans ?_ (keeps_setRegN _ _ _)
    refine Keeps.upd (t := x1) ?_ rfl rfl rfl (Nat.le_refl _)
    assumption
  · refine Keeps.trans ?_ (keeps_logEvent _ _ _ _)
    refine Keeps.trans ?_ (keeps_evt _ _ _)
    refine Keeps.upd (t := x1) ?_ rfl rfl rfl (Nat.le_refl _)
    assumption

theorem keeps_keyRefuse (s : State) (p1 : Nat) : Keeps 7 s (keyRefuse s p1) := by
  unfold keyRefuse
  extract_lets -underBinder -merge -useContext +onlyGivenNames x1
  have h1 : Keeps 7 s x1 := by
    unfold x1
    refine Keeps.trans ?_ (keeps_opEnd _ _ _ _)
    refine Keeps.trans ?_ (keeps_opStart _ _)
    exact Keeps.refl _
  try clear_value x1
  refine Keeps.trans ?_ (keeps_logEvent _ _ _ _)
  refine Keeps.trans ?_ (keeps_evt _ _ _)
  refine Keeps.trans ?_ (keeps_bump _ _)
  assumption

theorem keeps_keySubmit (s : State) (p1 : Nat) : Keeps 16391 s (keySubmit s p1) := by
  unfold keySubmit
  refine Keeps.ite ?_ ?_
  · refine Keeps.trans ?_ (keeps_opRefuseStart _ _)
    exact Keeps.refl _
  · refine Keeps.ite ?_ ?_
    · refine Keeps.trans ?_ (keeps_keyRefuse _ _)
      exact Keeps.refl _
    · extract_lets -underBinder -merge -useContext +onlyGivenNames x1
      try clear_value x1
      extract_lets -underBinder -merge -useContext +onlyGivenNames x2
      try clear_value x2
      refine Keeps.ite ?_ ?_
      · refine Keeps.trans ?_ (keeps_keyRefuse _ _)
        exact Keeps.refl _
      · extract_lets -underBinder -merge -useContext +onlyGivenNames x3
        try clear_value x3
        refine Keeps.ite ?_ ?_
        · refine Keeps.trans ?_ (keeps_keyRefuse _ _)
          exact Keeps.refl _
        · split
          · exact Keeps.refl _
          · extract_lets -underBinder -merge -useContext +onlyGivenNames x4
            try clear_value x4
            extract_lets -underBinder -merge -useContext +onlyGivenNames x5
            have h5 : Keeps 16391 s x5 := by
              unfold x5
              refine Keeps.trans ?_ (keeps_opProgress _ _ _)
              refine Keeps.trans ?_ (keeps_opStart _ _)
              exact Keeps.refl _
            extract_lets -underBinder -merge -useContext +onlyGivenNames x6
            extract_lets -underBinder -merge -useContext +onlyGivenNames x7
            have h7 : Keeps 16391 s x7 := by
              unfold x7
              refine Keeps.upd (t := x5) ?_ rfl rfl rfl (Nat.le_refl _)
              assumption
            try clear_value x7
            refine Keeps.ite ?_ ?_
            · refine Keeps.trans ?_ (keeps_logClearPend _ _)
              assumption
            · assumption

theorem keeps_execKeyWorkingKey (p0 : Nat) (s : State) : KeepsO 16391 s (execKeyWorkingKey p0 s) := by
  unfold execKeyWorkingKey
  refine KeepsO.done ?_
  refine Keeps.ite ?_ ?_
  · refine Keeps.trans ?_ (keeps_keySubmit _ _)
    exact Keeps.refl _
  · exact Keeps.refl _

theorem keeps_execKeyErase (p0 : Nat) (s : State) : KeepsO 16391 s (execKeyErase p0 s) := by
  unfold execKeyErase
  refine KeepsO.done ?_
  refine Keeps.ite ?_ ?_
  · refine Keeps.trans ?_ (keeps_keySubmit _ _)
    exact Keeps.refl _
  · exact Keeps.refl _

theorem keeps_execKeyTake (p0 : Nat) (s : State) : KeepsO 16391 s (execKeyTake p0 s) := by
  unfold execKeyTake
  refine KeepsO.done ?_
  refine Keeps.ite ?_ ?_
  · refine Keeps.trans ?_ (keeps_keySubmit _ _)
    exact Keeps.refl _
  · exact Keeps.refl _

theorem keeps_execKeyReturn (p0 : Nat) (s : State) : KeepsO 16391 s (execKeyReturn p0 s) := by
  unfold execKeyReturn
  refine KeepsO.done ?_
  refine Keeps.ite ?_ ?_
  · refine Keeps.trans ?_ (keeps_keySubmit _ _)
    exact Keeps.refl _
  · exact Keeps.refl _

theorem keeps_execKeyVoid (p0 : Nat) (s : State) : KeepsO 16391 s (execKeyVoid p0 s) := by
  unfold execKeyVoid
  refine KeepsO.done ?_
  refine Keeps.ite ?_ ?_
  · refine Keeps.trans ?_ (keeps_keySubmit _ _)
    exact Keeps.refl _
  · exact Keeps.refl _

theorem keeps_execKeyLogClear (p0 : Nat) (s : State) : KeepsO 16391 s (execKeyLogClear p0 s) := by
  unfold execKeyLogClear
  refine KeepsO.done ?_
  refine Keeps.ite ?_ ?_
  · refine Keeps.trans ?_ (keeps_keySubmit _ _)
    exact Keeps.refl _
  · exact Keeps.refl _

theorem keeps_keyEnroll (s : State) (p1 : Nat) : Keeps 16391 s (keyEnroll s p1) := by
  unfold keyEnroll
  refine Keeps.ite ?_ ?_
  · refine Keeps.trans ?_ (keeps_opRefuseStart _ _)
    exact Keeps.refl _
  · refine Keeps.ite ?_ ?_
    · refine Keeps.trans ?_ (keeps_keyRefuse _ _)
      exact Keeps.refl _
    · refine Keeps.ite ?_ ?_
      · refine Keeps.trans ?_ (keeps_keyRefuse _ _)
        exact Keeps.refl _
      · refine Keeps.ite ?_ ?_
        · refine Keeps.trans ?_ (keeps_keyRefuse _ _)
          exact Keeps.refl _
        · extract_lets -underBinder -merge -useContext +onlyGivenNames x1
          try clear_value x1
          extract_lets -underBinder -merge -useContext +onlyGivenNames x2
          try clear_value x2
          refine Keeps.ite ?_ ?_
          · refine Keeps.trans ?_ (keeps_keyRefuse _ _)
            exact Keeps.refl _
          · refine Keeps.ite ?_ ?_
            · refine Keeps.trans ?_ (keeps_keyRefuse _ _)
              exact Keeps.refl _
            · refine Keeps.ite ?_ ?_
              · refine Keeps.trans ?_ (keeps_keyRefuse _ _)
                exact Keeps.refl _
              · extract_lets -underBinder -merge -useContext +onlyGivenNames x3
                try clear_value x3
                extract_lets -underBinder -merge -useContext +onlyGivenNames x4
                have h4 : Keeps 16391 s x4 := by
                  unfold x4
                  refine Keeps.trans ?_ (keeps_opProgress _ _ _)
                  refine Keeps.trans ?_ (keeps_opStart _ _)
                  exact Keeps.refl _
                refine Keeps.upd (t := x4) ?_ rfl rfl rfl (Nat.le_refl _)
                assumption

theorem keeps_execKeyEnroll (p0 : Nat) (s : State) : KeepsO 16391 s (execKeyEnroll p0 s) := by
  unfold execKeyEnroll
  refine KeepsO.done ?_
  refine Keeps.trans ?_ (keeps_keyEnroll _ _)
  exact Keeps.refl _

theorem keeps_keyStopped (s : State) : Keeps 16391 s (keyStopped s) := by
  unfold keyStopped
  refine Keeps.trans ?_ (keeps_evt _ _ _)
  refine Keeps.trans ?_ (keeps_opEnd _ _ _ _)
  refine Keeps.upd (t := s) ?_ rfl rfl rfl (Nat.le_refl _)
  exact Keeps.refl _

theorem keeps_keyPhase (s : State) (p1 : Nat) : Keeps 1 s (keyPhase s p1) := by
  unfold keyPhase
  refine Keeps.ite ?_ ?_
  · refine Keeps.trans ?_ (keeps_opProgress _ _ _)
    exact Keeps.refl _
  · exact Keeps.refl _

theorem keeps_keyHalt (s : State) : Keeps 16391 s (keyHalt s) := by
  unfold keyHalt
  refine Keeps.ite ?_ ?_
  · refine Keeps.trans ?_ (keeps_keyStopped _)
    exact Keeps.refl _
  · exact Keeps.refl _

theorem keeps_keyStop (s : State) : Keeps 16391 s (keyStop s) := by
  unfold keyStop
  refine Keeps.ite ?_ ?_
  · refine Keeps.trans ?_ (keeps_keyHalt _)
    exact Keeps.refl _
  · refine Keeps.trans ?_ (keeps_opRefuseStop _ _)
    exact Keeps.refl _

theorem keeps_execKeyStop (p0 : Nat) (s : State) : KeepsO 16391 s (execKeyStop p0 s) := by
  unfold execKeyStop
  refine KeepsO.done ?_
  refine Keeps.trans ?_ (keeps_keyStop _)
  refine Keeps.trans ?_ (keeps_keyPhase _ _)
  exact Keeps.refl _

theorem keeps_keyCmdWrite (s : State) (p1 : Nat) (p2 : Word) : Keeps 16391 s (keyCmdWrite s p1 p2) := by
  unfold keyCmdWrite
  extract_lets -underBinder -merge -useContext +onlyGivenNames x1
  have h1 : Keeps 16391 s x1 := by
    unfold x1
    refine Keeps.ite ?_ ?_
    · refine Keeps.trans ?_ (keeps_keyStop _)
      exact Keeps.refl _
    · exact Keeps.refl _
  try clear_value x1
  extract_lets -underBinder -merge -useContext +onlyGivenNames x2
  have h2 : Keeps 16391 s x2 := by
    unfold x2
    refine Keeps.ite ?_ ?_
    · refine Keeps.trans ?_ (keeps_keyEnroll _ _)
      assumption
    · assumption
  try clear_value x2
  refine Keeps.ite ?_ ?_
  · refine Keeps.trans ?_ (keeps_keySubmit _ _)
    assumption
  · assumption

theorem keeps_keyChanged (s : State) (p1 : Option (List Byte)) : Keeps 135 s (keyChanged s p1) := by
  unfold keyChanged
  extract_lets -underBinder -merge -useContext +onlyGivenNames x1
  have h1 : Keeps 135 s x1 := by
    unfold x1
    refine Keeps.trans ?_ (keeps_bumpBy _ _ _)
    exact Keeps.refl _
  try clear_value x1
  extract_lets -underBinder -merge -useContext +onlyGivenNames x2
  have h2 : Keeps 135 s x2 := by
    unfold x2
    refine Keeps.foldl ?_ (fun y3 a3 hy3 => ?_)
    · assumption
    · refine Keeps.ite ?_ ?_
      · extract_lets -underBinder -merge -useContext +onlyGivenNames x4
        try clear_value x4
        refine Keeps.trans ?_ (keeps_setPort _ _ _)
        assumption
      · assumption
  try clear_value x2
  refine Keeps.trans ?_ (keeps_evt _ _ _)
  assumption

theorem keeps_keyCommit (s : State) (p1 : KeyUpdate) : Keeps 16519 s (keyCommit s p1) := by
  unfold keyCommit
  extract_lets -underBinder -merge -useContext +onlyGivenNames x1
  try clear_value x1
  extract_lets -underBinder -merge -useContext +onlyGivenNames x2
  try clear_value x2
  extract_lets -underBinder -merge -useContext +onlyGivenNames x3
  try clear_value x3
  extract_lets -underBinder -merge -useContext +onlyGivenNames x4
  try clear_value x4
  extract_lets -underBinder -merge -useContext +onlyGivenNames x5
  try clear_value x5
  extract_lets -underBinder -merge -useContext +onlyGivenNames x6
  try clear_value x6
  extract_lets -underBinder -merge -useContext +onlyGivenNames x7
  extract_lets -underBinder -merge -useContext +onlyGivenNames x8
  have h8 : Keeps 16519 s x8 := by
    unfold x8
    refine Keeps.upd (t := s) ?_ rfl rfl rfl (Nat.le_refl _)
    exact Keeps.refl _
  try clear_value x8
  extract_lets -underBinder -merge -useContext +onlyGivenNames x9
  have h9 : Keeps 16519 s x9 := by
    unfold x9
    refine Keeps.trans ?_ (keeps_keyShow _ _ _ _)
    assumption
  try clear_value x9
  extract_lets -underBinder -merge -useContext +onlyGivenNames x10
  have h10 : Keeps 16519 s x10 := by
    unfold x10
    refine Keeps.trans ?_ (keeps_lifeBump _ _ _)
    refine Keeps.trans ?_ (keeps_logEvent _ _ _ _)
    refine Keeps.trans ?_ (keeps_bump _ _)
    assumption
  try clear_value x10
  extract_lets -underBinder -merge -useContext +onlyGivenNames x11
  try clear_value x11
  extract_lets -underBinder -merge -useContext +onlyGivenNames x12
  have h12 : Keeps 16519 s x12 := by
    unfold x12
    refine Keeps.ite ?_ ?_
    · refine Keeps.trans ?_ (keeps_logEvent _ _ _ _)
      refine Keeps.trans ?_ (keeps_evt _ _ _)
      assumption
    · assumption
  try clear_value x12
  extract_lets -underBinder -merge -useContext +onlyGivenNames x13
  have h13 : Keeps 16519 s x13 := by
    unfold x13
    refine Keeps.ite ?_ ?_
    · refine Keeps.trans ?_ (keeps_keyChanged _ _)
      assumption
    · assumption
  try clear_value x13
  extract_lets -underBinder -merge -useContext +onlyGivenNames x14
  have h14 : Keeps 16519 s x14 := by
    unfold x14
    refine Keeps.upd (t := x13) ?_ rfl rfl rfl (Nat.le_refl _)
    assumption
  try clear_value x14
  refine Keeps.ite ?_ ?_
  · refine Keeps.trans ?_ (keeps_logClearApply _)
    assumption
  · assumption

theorem keeps_execKeyCommitEnd (p0 : Bool) (s : State) : KeepsO 16519 s (execKeyCommitEnd p0 s) := by
  unfold execKeyCommitEnd
  refine KeepsO.done ?_
  split
  · refine Keeps.ite ?_ ?_
    · refine Keeps.trans ?_ (keeps_evt _ _ _)
      refine Keeps.trans ?_ (keeps_opEnd _ _ _ _)
      refine Keeps.trans ?_ (keeps_opProgress _ _ _)
      refine Keeps.trans ?_ (keeps_keyCommit _ _)
      exact Keeps.refl _
    · extract_lets -underBinder -merge -useContext +onlyGivenNames x1
      extract_lets -underBinder -merge -useContext +onlyGivenNames x2
      extract_lets -underBinder -merge -useContext +onlyGivenNames x3
      have h3 : Keeps 16519 s x3 := by
        unfold x3
        refine Keeps.upd (t := s) ?_ rfl rfl rfl (Nat.le_refl _)
        exact Keeps.refl _
      try clear_value x3
      refine Keeps.trans ?_ (keeps_logEvent _ _ _ _)
      refine Keeps.trans ?_ (keeps_evt _ _ _)
      refine Keeps.trans ?_ (keeps_opEnd _ _ _ _)
      refine Keeps.trans ?_ (keeps_opProgress _ _ _)
      assumption
  · exact Keeps.refl _

end Sys2Proof.Machine
end

