-- ==== Sys2Proof/Laws/KeepsTwin.lean ====
section
/-! SUPPORT. What each function of Machine/Twin.lean leaves unchanged (the mask names the areas it may change). -/

set_option Elab.async false

namespace Sys2Proof.Machine

theorem keeps_setTwn (s : State) (p1 : TwnSt) : Keeps 131072 s (setTwn s p1) := by
  unfold setTwn
  refine Keeps.upd (t := s) ?_ rfl rfl rfl (Nat.le_refl _)
  exact Keeps.refl _

theorem keeps_twinIsolate (s : State) : Keeps 131072 s (twinIsolate s) := by
  unfold twinIsolate
  refine Keeps.trans ?_ (keeps_setTwn _ _)
  exact Keeps.refl _

theorem keeps_twinReleaseAll (s : State) : Keeps 212407 s (twinReleaseAll s) := by
  unfold twinReleaseAll
  extract_lets -underBinder -merge -useContext +onlyGivenNames x1
  try clear_value x1
  extract_lets -underBinder -merge -useContext +onlyGivenNames x2
  have h2 : Keeps 212407 s x2 := by
    unfold x2
    refine Keeps.foldl ?_ (fun y3 a3 hy3 => ?_)
    · exact Keeps.refl _
    · refine Keeps.trans ?_ (keeps_setLevel _ _ _)
      assumption
  try clear_value x2
  extract_lets -underBinder -merge -useContext +onlyGivenNames x4
  extract_lets -underBinder -merge -useContext +onlyGivenNames x5
  extract_lets -underBinder -merge -useContext +onlyGivenNames x6
  have h6 : Keeps 212407 s x6 := by
    unfold x6
    refine Keeps.upd (t := x2) ?_ rfl rfl rfl (Nat.le_refl _)
    assumption
  try clear_value x6
  extract_lets -underBinder -merge -useContext +onlyGivenNames x7
  try clear_value x7
  extract_lets -underBinder -merge -useContext +onlyGivenNames x8
  have h8 : Keeps 212407 s x8 := by
    unfold x8
    refine Keeps.foldl ?_ (fun y9 a9 hy9 => ?_)
    · assumption
    · extract_lets -underBinder -merge -useContext +onlyGivenNames x10
      try clear_value x10
      refine Keeps.ite ?_ ?_
      · assumption
      · refine Keeps.trans ?_ (keeps_setBank _ _ _)
        assumption
  try clear_value x8
  extract_lets -underBinder -merge -useContext +onlyGivenNames x11
  have h11 : Keeps 212407 s x11 := by
    unfold x11
    refine Keeps.foldl ?_ (fun y12 a12 hy12 => ?_)
    · refine Keeps.foldl ?_ (fun y13 a13 hy13 => ?_)
      · assumption
      · refine Keeps.trans ?_ (keeps_releaseRaw _ _)
        assumption
    · refine Keeps.trans ?_ (keeps_docResume _ _)
      assumption
  try clear_value x11
  refine Keeps.trans ?_ (keeps_slotRetire _)
  refine Keeps.foldl ?_ (fun y14 a14 hy14 => ?_)
  · refine Keeps.foldl ?_ (fun y15 a15 hy15 => ?_)
    · assumption
    · refine Keeps.trans ?_ (keeps_levelEval _ _)
      assumption
  · refine Keeps.trans ?_ (keeps_heldCells _ _)
    assumption

theorem keeps_twinLoseSync (s : State) : Keeps 212407 s (twinLoseSync s) := by
  unfold twinLoseSync
  refine Keeps.ite ?_ ?_
  · extract_lets -underBinder -merge -useContext +onlyGivenNames x1
    have h1 : Keeps 212407 s x1 := by
      unfold x1
      refine Keeps.trans ?_ (keeps_bump _ _)
      refine Keeps.trans ?_ (keeps_evt _ _ _)
      refine Keeps.trans ?_ (keeps_twinIsolate _)
      exact Keeps.refl _
    try clear_value x1
    refine Keeps.trans ?_ (keeps_twinReleaseAll _)
    refine Keeps.trans ?_ (keeps_logEvent _ _ _ _)
    assumption
  · refine Keeps.trans ?_ (keeps_setTwn _ _)
    exact Keeps.refl _

theorem keeps_twinDemote (s : State) : Keeps 131079 s (twinDemote s) := by
  unfold twinDemote
  refine Keeps.trans ?_ (keeps_logEvent _ _ _ _)
  refine Keeps.trans ?_ (keeps_evt _ _ _)
  refine Keeps.trans ?_ (keeps_twinIsolate _)
  exact Keeps.refl _

theorem keeps_twinSeq (s : State) (p1 : HMsg) : Keeps 212407 s (twinSeq s p1) := by
  unfold twinSeq
  extract_lets -underBinder -merge -useContext +onlyGivenNames x1
  try clear_value x1
  extract_lets -underBinder -merge -useContext +onlyGivenNames x2
  have h2 : Keeps 212407 s x2 := by
    unfold x2
    refine Keeps.ite ?_ ?_
    · refine Keeps.trans ?_ (keeps_twinLoseSync _)
      exact Keeps.refl _
    · exact Keeps.refl _
  try clear_value x2
  refine Keeps.ite ?_ ?_
  · assumption
  · refine Keeps.trans ?_ (keeps_setTwn _ _)
    assumption

theorem keeps_twinApply {L : Nat} (p0 : Packet) (p1 : State → State) (p2 : HMsg) (s : State) (h : ∀ s, Keeps L s (p1 s))
    (sub : 245175 &&& L = 245175 := by rfl) : Keeps L s (twinApply p0 p1 p2 s) := by
  unfold twinApply
  extract_lets -underBinder -merge -useContext +onlyGivenNames x
  have hx : Keeps 245175 s x := (keeps_hshDelivered _).mono
  clear_value x
  refine Keeps.ite (hx.mono sub) (Keeps.ite ?_ (Keeps.mono (m := 245175) (Keeps.ite ?_ hx) sub))
  · extract_lets -underBinder -merge -useContext +onlyGivenNames y
    have hy : Keeps 245175 s y := Keeps.trans hx (keeps_twinSeq _ _)
    clear_value y
    refine Keeps.ite (hy.mono sub) ?_
    have hz := Keeps.trans (L := 245175) (Keeps.trans hy (keeps_bump y (Reg.twnCnt 1))) (keeps_setRegN _ Reg.twnSeq p2.seq)
    exact Keeps.trans (hz.mono sub) (h _) (Nat.and_self L)
  · exact Keeps.trans hx (keeps_bump _ _)

theorem keeps_twinRx {L : Nat} (s : State) (p1 p2 : Nat) (p3 : Bool) (p4 : Packet → HMsg → State → State)
    (h : ∀ k m s, Keeps L s (p4 k m s)) (sub : 2342327 &&& L = 2342327 := by rfl) : Keeps L s (twinRx s p1 p2 p3 p4) := by
  unfold twinRx
  have hr : 167 &&& L = 167 := by
    have : 167 &&& 2342327 = 167 := rfl
    rw [← this, Nat.and_assoc, sub]
  have hh : 2261159 &&& L = 2261159 := by
    have : 2261159 &&& 2342327 = 2261159 := rfl
    rw [← this, Nat.and_assoc, sub]
  refine keeps_rxRow _ _ _ _ (fun k s => ?_) hr
  extract_lets -underBinder -merge -useContext +onlyGivenNames b t
  have ht : Keeps L s t := keeps_hshReceive _ _ _ _ (fun _ m s => h k m s) hh
  clear_value t
  exact Keeps.ite (Keeps.trans (m := 2342327) ht (keeps_twinLoseSync _).mono sub) ht

theorem keeps_replayJob (s : State) (p1 : Exhibit) (p2 : Nat) (p3 : Nat) (p4 : Nat) : Keeps 2132135 s (replayJob s p1 p2 p3 p4) := by
  unfold replayJob
  extract_lets -underBinder -merge -useContext +onlyGivenNames x1
  try clear_value x1
  refine Keeps.ite ?_ ?_
  · refine Keeps.trans ?_ (keeps_landJob _ _ _ _ _)
    exact Keeps.refl _
  · refine Keeps.trans ?_ (keeps_markFull _ _)
    refine Keeps.upd (t := s) ?_ rfl rfl rfl (Nat.le_refl _)
    exact Keeps.refl _

theorem keeps_landReplay (p0 : HMsg) (s : State) : Keeps 2141863 s (landReplay p0 s) := by
  unfold landReplay
  extract_lets -underBinder -merge -useContext +onlyGivenNames x1
  try clear_value x1
  extract_lets -underBinder -merge -useContext +onlyGivenNames x2
  try clear_value x2
  extract_lets -underBinder -merge -useContext +onlyGivenNames x3
  try clear_value x3
  extract_lets -underBinder -merge -useContext +onlyGivenNames x4
  try clear_value x4
  extract_lets -underBinder -merge -useContext +onlyGivenNames x5
  try clear_value x5
  extract_lets -underBinder -merge -useContext +onlyGivenNames x6
  try clear_value x6
  split
  · exact Keeps.refl _
  · split
    · exact Keeps.refl _
    · split
      · exact Keeps.refl _
      · extract_lets -underBinder -merge -useContext +onlyGivenNames x7
        try clear_value x7
        refine Keeps.ite ?_ ?_
        · exact Keeps.refl _
        · extract_lets -underBinder -merge -useContext +onlyGivenNames x8
          have h8 : Keeps 2141863 s x8 := by
            unfold x8
            refine Keeps.trans ?_ (keeps_takePages _ _)
            exact Keeps.refl _
          try clear_value x8
          extract_lets -underBinder -merge -useContext +onlyGivenNames x9
          extract_lets -underBinder -merge -useContext +onlyGivenNames x10
          have h10 : Keeps 2141863 s x10 := by
            unfold x10
            refine Keeps.trans ?_ (keeps_landWrite _ _ _ _ _ _)
            refine Keeps.upd (t := x8) ?_ rfl rfl rfl (Nat.le_refl _)
            assumption
          try clear_value x10
          extract_lets -underBinder -merge -useContext +onlyGivenNames x11
          extract_lets -underBinder -merge -useContext +onlyGivenNames x12
          try clear_value x12
          extract_lets -underBinder -merge -useContext +onlyGivenNames x13
          have h13 : Keeps 2141863 s x13 := by
            unfold x13
            refine Keeps.trans ?_ (keeps_lateClass _ _ _)
            refine Keeps.trans ?_ (keeps_accLanded _ _)
            assumption
          try clear_value x13
          refine Keeps.trans ?_ (keeps_pinEval _)
          refine Keeps.trans ?_ (keeps_checkEarly _ _)
          refine Keeps.trans ?_ (keeps_replayJob _ _ _ _ _)
          assumption

theorem keeps_markReplay (p0 : HMsg) (s : State) : Keeps 2270903 s (markReplay p0 s) := by
  unfold markReplay
  extract_lets -underBinder -merge -useContext +onlyGivenNames x1
  try clear_value x1
  extract_lets -underBinder -merge -useContext +onlyGivenNames x2
  try clear_value x2
  extract_lets -underBinder -merge -useContext +onlyGivenNames x3
  try clear_value x3
  refine Keeps.ite ?_ ?_
  · split
    · split
      · exact Keeps.refl _
      · refine Keeps.ite ?_ ?_
        · exact Keeps.refl _
        · extract_lets -underBinder -merge -useContext +onlyGivenNames x4
          have h4 : Keeps 2270903 s x4 := by
            unfold x4
            refine Keeps.trans ?_ (keeps_openExhibit _ _ _ _)
            exact Keeps.refl _
          try clear_value x4
          refine Keeps.ite ?_ ?_
          · refine Keeps.trans ?_ (keeps_evt _ _ _)
            refine Keeps.trans ?_ (keeps_setReg64 _ _ _ _)
            refine Keeps.trans ?_ (keeps_setTwn _ _)
            assumption
          · assumption
    · exact Keeps.refl _
  · refine Keeps.ite ?_ ?_
    · refine Keeps.trans ?_ (keeps_closeCond _ _ _)
      exact Keeps.refl _
    · refine Keeps.ite ?_ ?_
      · refine Keeps.trans ?_ (keeps_sealCond _ _ _)
        exact Keeps.refl _
      · exact Keeps.refl _

theorem keeps_jobReplay (p0 : HMsg) (s : State) : Keeps 2132135 s (jobReplay p0 s) := by
  unfold jobReplay
  extract_lets -underBinder -merge -useContext +onlyGivenNames x1
  try clear_value x1
  extract_lets -underBinder -merge -useContext +onlyGivenNames x2
  try clear_value x2
  extract_lets -underBinder -merge -useContext +onlyGivenNames x3
  try clear_value x3
  extract_lets -underBinder -merge -useContext +onlyGivenNames x4
  have h4 : Keeps 2132135 s x4 := by
    unfold x4
    refine Keeps.ite ?_ ?_
    · refine Keeps.trans ?_ (keeps_bump _ _)
      exact Keeps.refl _
    · exact Keeps.refl _
  try clear_value x4
  refine Keeps.ite ?_ ?_
  · refine Keeps.trans ?_ (keeps_raiseHiash _ _)
    assumption
  · assumption

theorem keeps_swapReplay (s : State) (p1 : Nat) (p2 : Nat) : Keeps 2342327 s (swapReplay s p1 p2) := by
  unfold swapReplay
  extract_lets -underBinder -merge -useContext +onlyGivenNames x1
  try clear_value x1
  split
  · refine Keeps.trans ?_ (keeps_twinLoseSync _)
    exact Keeps.refl _
  · refine Keeps.ite ?_ ?_
    · extract_lets -underBinder -merge -useContext +onlyGivenNames x2
      have h2 : Keeps 2342327 s x2 := by
        unfold x2
        refine Keeps.trans ?_ (keeps_swapAccept _ _ _ _ _)
        exact Keeps.refl _
      try clear_value x2
      extract_lets -underBinder -merge -useContext +onlyGivenNames x3
      extract_lets -underBinder -merge -useContext +onlyGivenNames x4
      have h4 : Keeps 2342327 s x4 := by
        unfold x4
        refine Keeps.ite ?_ ?_
        · assumption
        · refine Keeps.upd (t := x2) ?_ rfl rfl rfl (Nat.le_refl _)
          assumption
      try clear_value x4
      refine Keeps.trans ?_ (keeps_slotRetire _)
      refine Keeps.trans ?_ (keeps_setPlanSlot _ _ _)
      assumption
    · refine Keeps.trans ?_ (keeps_twinLoseSync _)
      exact Keeps.refl _

theorem keeps_ctrlReplay (p0 : HMsg) (s : State) : Keeps 2342839 s (ctrlReplay p0 s) := by
  unfold ctrlReplay
  extract_lets -underBinder -merge -useContext +onlyGivenNames x1
  try clear_value x1
  extract_lets -underBinder -merge -useContext +onlyGivenNames x2
  try clear_value x2
  refine Keeps.ite ?_ ?_
  · refine Keeps.ite ?_ ?_
    · refine Keeps.trans ?_ (keeps_twinLoseSync _)
      exact Keeps.refl _
    · refine Keeps.ite ?_ ?_
      · refine Keeps.trans ?_ (keeps_accCommit _ _)
        exact Keeps.refl _
      · exact Keeps.refl _
  · refine Keeps.ite ?_ ?_
    · refine Keeps.ite ?_ ?_
      · refine Keeps.trans ?_ (keeps_pinEval _)
        refine Keeps.trans ?_ (keeps_accRetire _ _)
        exact Keeps.refl _
      · exact Keeps.refl _
    · refine Keeps.ite ?_ ?_
      · refine Keeps.trans ?_ (keeps_pinClearMask _ _)
        exact Keeps.refl _
      · refine Keeps.ite ?_ ?_
        · refine Keeps.trans ?_ (keeps_swapReplay _ _ _)
          exact Keeps.refl _
        · exact Keeps.refl _

theorem keeps_digestReplay (p0 : Packet) (p1 : HMsg) (s : State) : Keeps 245175 s (digestReplay p0 p1 s) := by
  unfold digestReplay
  extract_lets -underBinder -merge -useContext +onlyGivenNames x1
  try clear_value x1
  extract_lets -underBinder -merge -useContext +onlyGivenNames x2
  have h2 : ∀ z3, Keeps 245175 z3 (x2 z3) := by
    intro z3
    unfold x2
    refine Keeps.ite ?_ ?_
    · refine Keeps.trans ?_ (keeps_digestPartner _ _ _ _)
      exact Keeps.refl _
    · exact Keeps.refl _
  try clear_value x2
  refine Keeps.ite ?_ ?_
  · refine keeps_twinApply (L := 245175) _ _ _ _ (fun u4 => ?_)
    refine Keeps.trans ?_ (h2 ..)
    exact Keeps.refl _
  · extract_lets -underBinder -merge -useContext +onlyGivenNames x5
    have h5 : Keeps 245175 s x5 := by
      unfold x5
      refine Keeps.trans ?_ (keeps_hshDelivered _)
      exact Keeps.refl _
    try clear_value x5
    refine Keeps.ite ?_ ?_
    · refine Keeps.trans ?_ (h2 ..)
      assumption
    · assumption

theorem keeps_twinHelloRx (p0 : HMsg) (s : State) : Keeps 2342327 s (twinHelloRx p0 s) := by
  unfold twinHelloRx
  extract_lets -underBinder -merge -useContext +onlyGivenNames x1
  have h1 : Keeps 2342327 s x1 := by
    unfold x1
    refine Keeps.trans ?_ (keeps_hshDelivered _)
    exact Keeps.refl _
  try clear_value x1
  refine Keeps.ite ?_ ?_
  · assumption
  · extract_lets -underBinder -merge -useContext +onlyGivenNames x2
    try clear_value x2
    extract_lets -underBinder -merge -useContext +onlyGivenNames x3
    try clear_value x3
    extract_lets -underBinder -merge -useContext +onlyGivenNames x4
    try clear_value x4
    extract_lets -underBinder -merge -useContext +onlyGivenNames x5
    try clear_value x5
    extract_lets -underBinder -merge -useContext +onlyGivenNames x6
    have h6 : Keeps 2342327 s x6 := by
      unfold x6
      refine Keeps.ite ?_ ?_
      · refine Keeps.trans ?_ (keeps_twinSeq _ _)
        assumption
      · assumption
    try clear_value x6
    extract_lets -underBinder -merge -useContext +onlyGivenNames x7
    extract_lets -underBinder -merge -useContext +onlyGivenNames x8
    have h8 : Keeps 2342327 s x8 := by
      unfold x8
      refine Keeps.trans ?_ (keeps_setTwn _ _)
      assumption
    try clear_value x8
    refine Keeps.ite ?_ ?_
    · refine Keeps.trans ?_ (keeps_twinHelloSend _)
      assumption
    · assumption

theorem keeps_takenRx (p0 : HMsg) (s : State) : Keeps 163847 s (takenRx p0 s) := by
  unfold takenRx
  extract_lets -underBinder -merge -useContext +onlyGivenNames x1
  have h1 : Keeps 163847 s x1 := by
    unfold x1
    refine Keeps.trans ?_ (keeps_hshDelivered _)
    exact Keeps.refl _
  try clear_value x1
  refine Keeps.ite ?_ ?_
  · refine Keeps.trans ?_ (keeps_twinDemote _)
    assumption
  · assumption

theorem keeps_execTwinLand (p0 : Nat) (p1 : Bool) (s : State) : KeepsO 2342839 s (execTwinLand p0 p1 s) := by
  unfold execTwinLand
  refine KeepsO.done ?_
  refine keeps_twinRx (L := 2342839) _ _ _ _ _ (fun u1 u2 u3 => ?_)
  refine keeps_twinApply (L := 2342839) _ _ _ _ (fun u4 => ?_)
  refine Keeps.trans ?_ (keeps_landReplay _ _)
  exact Keeps.refl _

theorem keeps_execTwinMark (p0 : Nat) (p1 : Bool) (s : State) : KeepsO 2342839 s (execTwinMark p0 p1 s) := by
  unfold execTwinMark
  refine KeepsO.done ?_
  refine keeps_twinRx (L := 2342839) _ _ _ _ _ (fun u1 u2 u3 => ?_)
  refine keeps_twinApply (L := 2342839) _ _ _ _ (fun u4 => ?_)
  refine Keeps.trans ?_ (keeps_markReplay _ _)
  exact Keeps.refl _

theorem keeps_execTwinJob (p0 : Nat) (p1 : Bool) (s : State) : KeepsO 2342327 s (execTwinJob p0 p1 s) := by
  unfold execTwinJob
  refine KeepsO.done ?_
  refine keeps_twinRx (L := 2342327) _ _ _ _ _ (fun u1 u2 u3 => ?_)
  refine keeps_twinApply (L := 2342327) _ _ _ _ (fun u4 => ?_)
  refine Keeps.trans ?_ (keeps_jobReplay _ _)
  exact Keeps.refl _

theorem keeps_execTwinCtrl (p0 : Nat) (p1 : Bool) (s : State) : KeepsO 2342839 s (execTwinCtrl p0 p1 s) := by
  unfold execTwinCtrl
  refine KeepsO.done ?_
  refine keeps_twinRx (L := 2342839) _ _ _ _ _ (fun u1 u2 u3 => ?_)
  refine keeps_twinApply (L := 2342839) _ _ _ _ (fun u4 => ?_)
  refine Keeps.trans ?_ (keeps_ctrlReplay _ _)
  exact Keeps.refl _

theorem keeps_execTwinDigest (p0 : Nat) (p1 : Bool) (s : State) : KeepsO 2342327 s (execTwinDigest p0 p1 s) := by
  unfold execTwinDigest
  refine KeepsO.done ?_
  refine keeps_twinRx (L := 2342327) _ _ _ _ _ (fun u1 u2 u3 => ?_)
  refine Keeps.trans ?_ (keeps_digestReplay _ _ _)
  exact Keeps.refl _

theorem keeps_execTwinTaken (p0 : Nat) (p1 : Bool) (s : State) : KeepsO 2342327 s (execTwinTaken p0 p1 s) := by
  unfold execTwinTaken
  refine KeepsO.done ?_
  refine keeps_twinRx (L := 2342327) _ _ _ _ _ (fun u1 u2 u3 => ?_)
  refine Keeps.trans ?_ (keeps_takenRx _ _)
  exact Keeps.refl _

theorem keeps_execTwinHello (p0 : Nat) (p1 : Bool) (s : State) : KeepsO 2342327 s (execTwinHello p0 p1 s) := by
  unfold execTwinHello
  refine KeepsO.done ?_
  refine keeps_twinRx (L := 2342327) _ _ _ _ _ (fun u1 u2 u3 => ?_)
  refine Keeps.trans ?_ (keeps_twinHelloRx _ _)
  exact Keeps.refl _

theorem keeps_execTwinTake (p0 : Bool) (s : State) : KeepsO 2261159 s (execTwinTake p0 s) := by
  unfold execTwinTake
  refine KeepsO.done ?_
  extract_lets -underBinder -merge -useContext +onlyGivenNames x1
  extract_lets -underBinder -merge -useContext +onlyGivenNames x2
  have h2 : Keeps 2261159 s x2 := by
    unfold x2
    refine Keeps.trans ?_ (keeps_setTwn _ _)
    exact Keeps.refl _
  try clear_value x2
  refine Keeps.ite ?_ ?_
  · extract_lets -underBinder -merge -useContext +onlyGivenNames x3
    extract_lets -underBinder -merge -useContext +onlyGivenNames x4
    have h4 : Keeps 2261159 s x4 := by
      unfold x4
      refine Keeps.trans ?_ (keeps_setTwn _ _)
      assumption
    try clear_value x4
    refine Keeps.trans ?_ (keeps_twinMsg _ _ _)
    assumption
  · assumption

theorem keeps_takeConds (s : State) : Keeps 2131111 s (takeConds s) := by
  unfold takeConds
  refine Keeps.ite ?_ ?_
  · exact Keeps.refl _
  · refine Keeps.foldl ?_ (fun y1 a1 hy1 => ?_)
    · exact Keeps.refl _
    · split
      · assumption
      · split
        · assumption
        · extract_lets -underBinder -merge -useContext +onlyGivenNames x2
          have h2 : Keeps 2131111 s x2 := by
            unfold x2
            refine Keeps.ite ?_ ?_
            · refine Keeps.trans ?_ (keeps_closeCond _ _ _)
              assumption
            · assumption
          try clear_value x2
          refine Keeps.ite ?_ ?_
          · refine Keeps.trans ?_ (keeps_sealCond _ _ _)
            assumption
          · assumption

theorem keeps_takeDeferred (s : State) (p1 : Deferred) : Keeps 2338743 s (takeDeferred s p1) := by
  unfold takeDeferred
  extract_lets -underBinder -merge -useContext +onlyGivenNames x1
  try clear_value x1
  extract_lets -underBinder -merge -useContext +onlyGivenNames x2
  have h2 : Keeps 2338743 s x2 := by
    unfold x2
    split
    · refine Keeps.trans ?_ (keeps_admitFrame _ _ _ _)
      exact Keeps.refl _
    · refine Keeps.trans ?_ (keeps_localLand _ _)
      exact Keeps.refl _
  try clear_value x2
  refine Keeps.trans ?_ (keeps_bumpBy _ _ _)
  assumption

theorem keeps_takeTimers (s : State) : Keeps 2048 s (takeTimers s) := by
  unfold takeTimers
  split
  · refine Keeps.trans ?_ (keeps_timersFrom _ _ _)
    exact Keeps.refl _
  · exact Keeps.refl _

theorem keeps_execTakeoverGapEnd (s : State) : KeepsO 2338743 s (execTakeoverGapEnd s) := by
  unfold execTakeoverGapEnd
  refine KeepsO.done ?_
  refine Keeps.ite ?_ ?_
  · exact Keeps.refl _
  · extract_lets -underBinder -merge -useContext +onlyGivenNames x1
    have h1 : Keeps 2338743 s x1 := by
      unfold x1
      refine Keeps.trans ?_ (keeps_takeConds _)
      exact Keeps.refl _
    try clear_value x1
    extract_lets -underBinder -merge -useContext +onlyGivenNames x2
    try clear_value x2
    extract_lets -underBinder -merge -useContext +onlyGivenNames x3
    extract_lets -underBinder -merge -useContext +onlyGivenNames x4
    have h4 : Keeps 2338743 s x4 := by
      unfold x4
      refine Keeps.foldl ?_ (fun y5 a5 hy5 => ?_)
      · refine Keeps.trans ?_ (keeps_setTwn _ _)
        assumption
      · refine Keeps.trans ?_ (keeps_takeDeferred _ _)
        assumption
    try clear_value x4
    extract_lets -underBinder -merge -useContext +onlyGivenNames x6
    try clear_value x6
    extract_lets -underBinder -merge -useContext +onlyGivenNames x7
    try clear_value x7
    extract_lets -underBinder -merge -useContext +onlyGivenNames x8
    extract_lets -underBinder -merge -useContext +onlyGivenNames x9
    have h9 : Keeps 2338743 s x9 := by
      unfold x9
      refine Keeps.trans ?_ (keeps_setTwn _ _)
      assumption
    try clear_value x9
    extract_lets -underBinder -merge -useContext +onlyGivenNames x10
    have h10 : Keeps 2338743 s x10 := by
      unfold x10
      refine Keeps.foldl ?_ (fun y11 a11 hy11 => ?_)
      · assumption
      · refine Keeps.trans ?_ (keeps_expressOr _ _ _ _ _)
        assumption
    try clear_value x10
    extract_lets -underBinder -merge -useContext +onlyGivenNames x12
    have h12 : Keeps 2338743 s x12 := by
      unfold x12
      refine Keeps.trans ?_ (keeps_setRegN _ _ _)
      refine Keeps.trans ?_ (keeps_takeTimers _)
      assumption
    try clear_value x12
    extract_lets -underBinder -merge -useContext +onlyGivenNames x13
    have h13 : Keeps 2338743 s x13 := by
      unfold x13
      refine Keeps.trans ?_ (keeps_bump _ _)
      refine Keeps.trans ?_ (keeps_evt _ _ _)
      assumption
    try clear_value x13
    refine Keeps.trans ?_ (keeps_pinEval _)
    refine Keeps.trans ?_ (keeps_logEvent _ _ _ _)
    assumption

theorem keeps_execDeferredExpire (s : State) : KeepsO 131077 s (execDeferredExpire s) := by
  unfold execDeferredExpire
  refine KeepsO.done ?_
  refine Keeps.ite ?_ ?_
  · exact Keeps.refl _
  · extract_lets -underBinder -merge -useContext +onlyGivenNames x1
    try clear_value x1
    extract_lets -underBinder -merge -useContext +onlyGivenNames x2
    try clear_value x2
    extract_lets -underBinder -merge -useContext +onlyGivenNames x3
    try clear_value x3
    refine Keeps.trans ?_ (keeps_bumpBy _ _ _)
    refine Keeps.trans ?_ (keeps_setTwn _ _)
    exact Keeps.refl _

theorem keeps_execTwinHbToggle (s : State) : KeepsO 131072 s (execTwinHbToggle s) := by
  unfold execTwinHbToggle
  refine KeepsO.done ?_
  refine Keeps.ite ?_ ?_
  · refine Keeps.trans ?_ (keeps_setTwn _ _)
    exact Keeps.refl _
  · exact Keeps.refl _

theorem keeps_twnCtrlWrite (s : State) (p1 : Word) : Keeps 131079 s (twnCtrlWrite s p1) := by
  unfold twnCtrlWrite
  refine Keeps.ite ?_ ?_
  · exact Keeps.refl _
  · refine Keeps.ite ?_ ?_
    · refine Keeps.trans ?_ (keeps_twinDemote _)
      exact Keeps.refl _
    · refine Keeps.trans ?_ (keeps_refuse _ _ _)
      exact Keeps.refl _

theorem keeps_execDemote (s : State) : KeepsO 131079 s (execDemote s) := by
  unfold execDemote
  refine KeepsO.done ?_
  refine Keeps.trans ?_ (keeps_twnCtrlWrite _ _)
  exact Keeps.refl _

theorem keeps_twnEnabledNow (s : State) : Keeps 2261159 s (twnEnabledNow s) := by
  unfold twnEnabledNow
  extract_lets -underBinder -merge -useContext +onlyGivenNames x1
  try clear_value x1
  refine Keeps.trans ?_ (keeps_twinHelloSend _)
  refine Keeps.trans ?_ (keeps_setTwn _ _)
  exact Keeps.refl _

theorem keeps_twnDisabled (s : State) : Keeps 131072 s (twnDisabled s) := by
  unfold twnDisabled
  refine Keeps.trans ?_ (keeps_setTwn _ _)
  exact Keeps.refl _

theorem keeps_twnStateRead (s : State) : KeepsF 2097152 s (twnStateRead s) := by
  unfold twnStateRead
  refine KeepsF.mk ?_
  refine Keeps.trans ?_ (keeps_nextFree _)
  exact Keeps.refl _

end Sys2Proof.Machine
end

