-- ==== Sys2Proof/Laws/KeepsPowerOps.lean ====
section
/-! SUPPORT. What each function of Machine/PowerOps.lean leaves unchanged (the mask names the areas it may change). -/

set_option Elab.async false

namespace Sys2Proof.Machine

theorem keeps_setPwr (s : State) (p1 : PwrSt) : Keeps 64 s (setPwr s p1) := by
  unfold setPwr
  refine Keeps.upd (t := s) ?_ rfl rfl rfl (Nat.le_refl _)
  exact Keeps.refl _

theorem keeps_pwrEvt (s : State) (p1 : Nat) : Keeps 7 s (pwrEvt s p1) := by
  unfold pwrEvt
  refine Keeps.trans ?_ (keeps_evt _ _ _)
  exact Keeps.refl _

theorem keeps_setSupplies (s : State) (p1 : Nat) (p2 : Nat) (p3 : Nat) : Keeps 69 s (setSupplies s p1 p2 p3) := by
  unfold setSupplies
  extract_lets -underBinder -merge -useContext +onlyGivenNames x1
  try clear_value x1
  extract_lets -underBinder -merge -useContext +onlyGivenNames x2
  try clear_value x2
  extract_lets -underBinder -merge -useContext +onlyGivenNames x3
  try clear_value x3
  extract_lets -underBinder -merge -useContext +onlyGivenNames x4
  extract_lets -underBinder -merge -useContext +onlyGivenNames x5
  have h5 : Keeps 69 s x5 := by
    unfold x5
    refine Keeps.trans ?_ (keeps_setPwr _ _)
    exact Keeps.refl _
  try clear_value x5
  refine Keeps.ite ?_ ?_
  · refine Keeps.trans ?_ (keeps_lifeBump _ _ _)
    assumption
  · assumption

theorem keeps_switchToBack (s : State) : Keeps 71 s (switchToBack s) := by
  unfold switchToBack
  refine Keeps.ite ?_ ?_
  · exact Keeps.refl _
  · extract_lets -underBinder -merge -useContext +onlyGivenNames x1
    extract_lets -underBinder -merge -useContext +onlyGivenNames x2
    have h2 : Keeps 71 s x2 := by
      unfold x2
      refine Keeps.trans ?_ (keeps_bump _ _)
      refine Keeps.trans ?_ (keeps_pwrEvt _ _)
      refine Keeps.trans ?_ (keeps_setPwr _ _)
      exact Keeps.refl _
    try clear_value x2
    refine Keeps.trans ?_ (keeps_logEvent _ _ _ _)
    refine Keeps.trans ?_ (keeps_lifeBump _ _ _)
    assumption

theorem keeps_dipShow (s : State) (p1 : Dip) : Keeps 1 s (dipShow s p1) := by
  unfold dipShow
  refine Keeps.trans ?_ (keeps_setRegN _ _ _)
  refine Keeps.trans ?_ (keeps_setRegN _ _ _)
  refine Keeps.trans ?_ (keeps_setRegN _ _ _)
  refine Keeps.trans ?_ (keeps_setRegN _ _ _)
  exact Keeps.refl _

theorem keeps_dipWrite (s : State) (p1 : Bool) : Keeps 71 s (dipWrite s p1) := by
  unfold dipWrite
  split
  · exact Keeps.refl _
  · extract_lets -underBinder -merge -useContext +onlyGivenNames x1
    have h1 : Keeps 71 s x1 := by
      unfold x1
      refine Keeps.trans ?_ (keeps_dipShow _ _)
      exact Keeps.refl _
    try clear_value x1
    refine Keeps.trans ?_ (keeps_logEvent _ _ _ _)
    refine Keeps.trans ?_ (keeps_setPwr _ _)
    assumption

theorem keeps_dipAdd (s : State) (p1 : Nat) (p2 : Nat) (p3 : Nat) : Keeps 71 s (dipAdd s p1 p2 p3) := by
  unfold dipAdd
  extract_lets -underBinder -merge -useContext +onlyGivenNames x1
  try clear_value x1
  extract_lets -underBinder -merge -useContext +onlyGivenNames x2
  try clear_value x2
  split
  · refine Keeps.ite ?_ ?_
    · refine Keeps.trans ?_ (keeps_setPwr _ _)
      exact Keeps.refl _
    · extract_lets -underBinder -merge -useContext +onlyGivenNames x3
      have h3 : Keeps 71 s x3 := by
        unfold x3
        refine Keeps.trans ?_ (keeps_dipWrite _ _)
        exact Keeps.refl _
      try clear_value x3
      refine Keeps.trans ?_ (keeps_setPwr _ _)
      assumption
  · refine Keeps.trans ?_ (keeps_setPwr _ _)
    exact Keeps.refl _

theorem keeps_dipAtReset (s : State) : Keeps 7 s (dipAtReset s) := by
  unfold dipAtReset
  split
  · exact Keeps.refl _
  · refine Keeps.trans ?_ (keeps_logWrite _ _)
    exact Keeps.refl _

theorem keeps_deviceReset (s : State) (p1 : Nat) (p2 : Bool) : Keeps 8388607 s (deviceReset s p1 p2) := by
  unfold deviceReset
  extract_lets -underBinder -merge -useContext +onlyGivenNames x
  have hx : Keeps 8388607 s x := Keeps.trans (keeps_dipAtReset _).mono (keeps_logRestart _)
  clear_value x
  refine Keeps.trans (m := 8388607) hx ⟨rfl, rfl, ?_, Nat.le_refl _,
    fun w => ⟨rfl, rfl, rfl, w.4, rfl, w.6, w.7, vcoreOk_max, vcoreOk_max, Nat.le_refl _, rfl⟩, fun a h => ?_⟩
  · cases p2
    · exact .inr rfl
    · exact .inl rfl
  · cases a <;> exact absurd h (by decide)

theorem keeps_keepEvaluate (s : State) : Keeps 1 s (keepEvaluate s) := by
  unfold keepEvaluate
  refine Keeps.trans ?_ (keeps_setRegN _ _ _)
  exact Keeps.refl _

theorem keeps_trimFollow (s : State) : Keeps 80 s (trimFollow s) := by
  unfold trimFollow
  refine Keeps.ite ?_ ?_
  · refine Keeps.trans ?_ (keeps_paceEdgeEval _)
    refine Keeps.trans ?_ (keeps_setPwr _ _)
    exact Keeps.refl _
  · exact Keeps.refl _

theorem keeps_reqResult (s : State) (p1 : Nat) (p2 : Nat) : Keeps 1 s (reqResult s p1 p2) := by
  unfold reqResult
  refine Keeps.ite ?_ ?_
  · exact Keeps.refl _
  · refine Keeps.trans ?_ (keeps_setRegN _ _ _)
    exact Keeps.refl _

theorem keeps_keepRefused (s : State) (p1 : Nat) : Keeps 7 s (keepRefused s p1) := by
  unfold keepRefused
  refine Keeps.ite ?_ ?_
  · exact Keeps.refl _
  · extract_lets -underBinder -merge -useContext +onlyGivenNames x1
    try clear_value x1
    refine Keeps.trans ?_ (keeps_bump _ _)
    refine Keeps.trans ?_ (keeps_pwrEvt _ _)
    refine Keeps.trans ?_ (keeps_reqResult _ _ _)
    refine Keeps.trans ?_ (keeps_refuse _ _ _)
    exact Keeps.refl _

theorem keeps_transTo (s : State) (p1 : PState) : Keeps 64 s (transTo s p1) := by
  unfold transTo
  refine Keeps.trans ?_ (keeps_setPwr _ _)
  exact Keeps.refl _

theorem keeps_evalReq (s : State) (p1 : PReq) : Keeps 71 s (evalReq s p1) := by
  unfold evalReq
  split
  · refine Keeps.ite ?_ ?_
    · refine Keeps.trans ?_ (keeps_transTo _ _)
      exact Keeps.refl _
    · exact Keeps.refl _
  · refine Keeps.ite ?_ ?_
    · exact Keeps.refl _
    · refine Keeps.trans ?_ (keeps_transTo _ _)
      exact Keeps.refl _
  · refine Keeps.ite ?_ ?_
    · exact Keeps.refl _
    · extract_lets -underBinder -merge -useContext +onlyGivenNames x1
      have h1 : Keeps 71 s x1 := by
        unfold x1
        refine Keeps.trans ?_ (keeps_keepEvaluate _)
        exact Keeps.refl _
      try clear_value x1
      refine Keeps.ite ?_ ?_
      · refine Keeps.trans ?_ (keeps_keepRefused _ _)
        assumption
      · refine Keeps.ite ?_ ?_
        · assumption
        · refine Keeps.trans ?_ (keeps_transTo _ _)
          assumption

theorem keeps_powerRequest (s : State) (p1 : PReq) : Keeps 71 s (powerRequest s p1) := by
  unfold powerRequest
  refine Keeps.ite ?_ ?_
  · refine Keeps.trans ?_ (keeps_evalReq _ _)
    exact Keeps.refl _
  · split
    · extract_lets -underBinder -merge -useContext +onlyGivenNames x1
      have h1 : Keeps 71 s x1 := by
        unfold x1
        refine Keeps.trans ?_ (keeps_keepEvaluate _)
        exact Keeps.refl _
      try clear_value x1
      refine Keeps.ite ?_ ?_
      · refine Keeps.trans ?_ (keeps_keepRefused _ _)
        assumption
      · refine Keeps.ite ?_ ?_
        · assumption
        · refine Keeps.trans ?_ (keeps_setPwr _ _)
          assumption
    · refine Keeps.ite ?_ ?_
      · exact Keeps.refl _
      · refine Keeps.trans ?_ (keeps_setPwr _ _)
        exact Keeps.refl _
    · refine Keeps.trans ?_ (keeps_setPwr _ _)
      exact Keeps.refl _

theorem keeps_wakeEvent (s : State) : Keeps 64 s (wakeEvent s) := by
  unfold wakeEvent
  extract_lets -underBinder -merge -useContext +onlyGivenNames x1
  have h1 : Keeps 64 s x1 := by
    unfold x1
    split
    · exact Keeps.refl _
    · refine Keeps.trans ?_ (keeps_setPwr _ _)
      exact Keeps.refl _
  try clear_value x1
  split
  · refine Keeps.trans ?_ (keeps_setPwr _ _)
    assumption
  · refine Keeps.trans ?_ (keeps_setPwr _ _)
    assumption
  · assumption
  · refine Keeps.ite ?_ ?_
    · refine Keeps.trans ?_ (keeps_transTo _ _)
      assumption
    · assumption

theorem keeps_keepCells (s : State) : Keeps 2097184 s (keepCells s) := by
  unfold keepCells
  refine Keeps.ite ?_ ?_
  · exact Keeps.refl _
  · refine Keeps.trans ?_ (keeps_nextFree _)
    refine Keeps.upd (t := s) ?_ rfl rfl rfl (Nat.le_refl _)
    exact Keeps.refl _

theorem keeps_keepRings (s : State) : Keeps 1048576 s (keepRings s) := by
  unfold keepRings
  refine Keeps.ite ?_ ?_
  · exact Keeps.refl _
  · refine Keeps.upd (t := s) ?_ rfl rfl rfl (Nat.le_refl _)
    exact Keeps.refl _

theorem keeps_keepLedger (s : State) : Keeps 106496 s (keepLedger s) := by
  unfold keepLedger
  refine Keeps.ite ?_ ?_
  · exact Keeps.refl _
  · refine Keeps.upd (t := s) ?_ rfl rfl rfl (Nat.le_refl _)
    exact Keeps.refl _

theorem keeps_keepDocents (s : State) : Keeps 4096 s (keepDocents s) := by
  unfold keepDocents
  refine Keeps.ite ?_ ?_
  · exact Keeps.refl _
  · refine Keeps.upd (t := s) ?_ rfl rfl rfl (Nat.le_refl _) (r2 := fun _ => rfl) (r3 := fun _ => rfl)
    exact Keeps.refl _

theorem keeps_keepSlot (s : State) (p1 : Nat) (p2 : Nat) : Keeps 256 s (keepSlot s p1 p2) := by
  unfold keepSlot
  refine Keeps.ite ?_ ?_
  · exact Keeps.refl _
  · refine Keeps.trans ?_ (keeps_setPlanSlot _ _ _)
    exact Keeps.refl _

theorem keeps_keepLose (s : State) : Keeps 3256608 s (keepLose s) := by
  unfold keepLose
  extract_lets -underBinder -merge -useContext +onlyGivenNames x1
  extract_lets -underBinder -merge -useContext +onlyGivenNames x2
  have h2 : Keeps 3256608 s x2 := by
    unfold x2
    refine Keeps.upd (t := s) ?_ rfl rfl rfl (Nat.le_refl _)
    exact Keeps.refl _
  try clear_value x2
  refine Keeps.ite ?_ ?_
  · assumption
  · refine Keeps.trans ?_ (keeps_keepSlot _ _ _)
    refine Keeps.trans ?_ (keeps_keepSlot _ _ _)
    refine Keeps.trans ?_ (keeps_keepDocents _)
    refine Keeps.trans ?_ (keeps_keepLedger _)
    refine Keeps.trans ?_ (keeps_keepRings _)
    refine Keeps.trans ?_ (keeps_keepCells _)
    assumption

theorem keeps_ringsStop (s : State) : Keeps 8213 s (ringsStop s) := by
  unfold ringsStop
  refine Keeps.trans ?_ (keeps_pinEval _)
  refine Keeps.trans ?_ (keeps_setStatusBit _ _ _)
  refine Keeps.upd (t := s) ?_ rfl rfl rfl (Nat.le_refl _)
  exact Keeps.refl _

theorem keeps_keepPins (s : State) : Keeps 1572872 s (keepPins s) := by
  unfold keepPins
  refine Keeps.upd (t := s) ?_ rfl rfl rfl (Nat.le_refl _)
  exact Keeps.refl _

theorem keeps_enterKeep (s : State) : Keeps 3780991 s (enterKeep s) := by
  unfold enterKeep
  extract_lets -underBinder -merge -useContext +onlyGivenNames x1
  have h1 : Keeps 3780991 s x1 := by
    unfold x1
    refine Keeps.trans ?_ (keeps_keepLose _)
    refine Keeps.trans ?_ (keeps_keepPins _)
    refine Keeps.trans ?_ (keeps_ringsStop _)
    exact Keeps.refl _
  try clear_value x1
  extract_lets -underBinder -merge -useContext +onlyGivenNames x2
  extract_lets -underBinder -merge -useContext +onlyGivenNames x3
  have h3 : Keeps 3780991 s x3 := by
    unfold x3
    refine Keeps.upd (t := x1) ?_ rfl rfl rfl (Nat.le_refl _)
    assumption
  try clear_value x3
  refine Keeps.trans ?_ (keeps_bump _ _)
  refine Keeps.trans ?_ (keeps_setPwr _ _)
  assumption

theorem keeps_enterNap (s : State) : Keeps 8277 s (enterNap s) := by
  unfold enterNap
  refine Keeps.trans ?_ (keeps_bump _ _)
  refine Keeps.trans ?_ (keeps_setPwr _ _)
  refine Keeps.trans ?_ (keeps_ringsStop _)
  exact Keeps.refl _

theorem keeps_enterAwake (s : State) (p1 : Bool) (p2 : Nat) (p3 : Nat) (p4 : Nat) : Keeps 16471 s (enterAwake s p1 p2 p3 p4) := by
  unfold enterAwake
  extract_lets -underBinder -merge -useContext +onlyGivenNames x1
  try clear_value x1
  extract_lets -underBinder -merge -useContext +onlyGivenNames x2
  extract_lets -underBinder -merge -useContext +onlyGivenNames x3
  have h3 : Keeps 16471 s x3 := by
    unfold x3
    refine Keeps.trans ?_ (keeps_trimFollow _)
    refine Keeps.trans ?_ (keeps_setPwr _ _)
    exact Keeps.refl _
  try clear_value x3
  refine Keeps.ite ?_ ?_
  · extract_lets -underBinder -merge -useContext +onlyGivenNames x4
    have h4 : Keeps 16471 s x4 := by
      unfold x4
      refine Keeps.trans ?_ (keeps_bump _ _)
      refine Keeps.trans ?_ (keeps_pwrEvt _ _)
      assumption
    try clear_value x4
    extract_lets -underBinder -merge -useContext +onlyGivenNames x5
    have h5 : Keeps 16471 s x5 := by
      unfold x5
      refine Keeps.trans ?_ (keeps_keyLoad _)
      refine Keeps.trans ?_ (keeps_pufRegen _ _ _)
      assumption
    try clear_value x5
    refine Keeps.upd (t := x5) ?_ rfl rfl rfl (Nat.le_refl _)
    assumption
  · assumption

theorem keeps_afterTransition (s : State) : Keeps 71 s (afterTransition s) := by
  unfold afterTransition
  refine Keeps.ite ?_ ?_
  · refine Keeps.trans ?_ (keeps_transTo _ _)
    refine Keeps.trans ?_ (keeps_setPwr _ _)
    exact Keeps.refl _
  · split
    · exact Keeps.refl _
    · refine Keeps.trans ?_ (keeps_evalReq _ _)
      refine Keeps.trans ?_ (keeps_setPwr _ _)
      exact Keeps.refl _

theorem keeps_hostWake (s : State) : Keeps 16471 s (hostWake s) := by
  unfold hostWake
  refine Keeps.ite ?_ ?_
  · extract_lets -underBinder -merge -useContext +onlyGivenNames x1
    have h1 : Keeps 16471 s x1 := by
      unfold x1
      refine Keeps.trans ?_ (keeps_wakeEvent _)
      exact Keeps.refl _
    try clear_value x1
    refine Keeps.trans ?_ (keeps_afterTransition _)
    refine Keeps.trans ?_ (keeps_enterAwake _ _ _ _ _)
    refine Keeps.trans ?_ (keeps_setPwr _ _)
    assumption
  · refine Keeps.ite ?_ ?_
    · refine Keeps.trans ?_ (keeps_wakeEvent _)
      exact Keeps.refl _
    · exact Keeps.refl _

theorem keeps_bootStore (s : State) (p1 : BootRec) (p2 : Bool) : Keeps 64 s (bootStore s p1 p2) := by
  unfold bootStore
  extract_lets -underBinder -merge -useContext +onlyGivenNames x1
  try clear_value x1
  extract_lets -underBinder -merge -useContext +onlyGivenNames x2
  try clear_value x2
  extract_lets -underBinder -merge -useContext +onlyGivenNames x3
  try clear_value x3
  refine Keeps.trans ?_ (keeps_setPwr _ _)
  exact Keeps.refl _

end Sys2Proof.Machine
end

