-- ==== Sys2Proof/Laws/KeepsPowerCmds.lean ====
section
/-! SUPPORT. What each function of Machine/PowerCmds.lean leaves unchanged (the mask names the areas it may change). -/

set_option Elab.async false

namespace Sys2Proof.Machine

theorem keeps_execVmainLoss (p0 : Nat) (p1 : Nat) (p2 : Nat) (s : State) : KeepsO 71 s (execVmainLoss p0 p1 p2 s) := by
  unfold execVmainLoss
  refine KeepsO.done ?_
  refine Keeps.trans ?_ (keeps_switchToBack _)
  refine Keeps.trans ?_ (keeps_setSupplies _ _ _ _)
  exact Keeps.refl _

theorem keeps_execVmainReturn (p0 : Nat) (p1 : Nat) (p2 : Nat) (s : State) : KeepsO 71 s (execVmainReturn p0 p1 p2 s) := by
  unfold execVmainReturn
  refine KeepsO.done ?_
  extract_lets -underBinder -merge -useContext +onlyGivenNames x1
  have h1 : Keeps 71 s x1 := by
    unfold x1
    refine Keeps.trans ?_ (keeps_setSupplies _ _ _ _)
    exact Keeps.refl _
  try clear_value x1
  split
  · assumption
  · refine Keeps.ite ?_ ?_
    · assumption
    · extract_lets -underBinder -merge -useContext +onlyGivenNames x2
      extract_lets -underBinder -merge -useContext +onlyGivenNames x3
      have h3 : Keeps 71 s x3 := by
        unfold x3
        refine Keeps.trans ?_ (keeps_bump _ _)
        refine Keeps.trans ?_ (keeps_pwrEvt _ _)
        refine Keeps.trans ?_ (keeps_setPwr _ _)
        assumption
      try clear_value x3
      extract_lets -underBinder -merge -useContext +onlyGivenNames x4
      have h4 : Keeps 71 s x4 := by
        unfold x4
        refine Keeps.trans ?_ (keeps_logEvent _ _ _ _)
        assumption
      try clear_value x4
      refine Keeps.ite ?_ ?_
      · refine Keeps.trans ?_ (keeps_wakeEvent _)
        assumption
      · assumption

theorem keeps_execVbackLoss (p0 : Nat) (p1 : Nat) (s : State) : KeepsO 69 s (execVbackLoss p0 p1 s) := by
  unfold execVbackLoss
  refine KeepsO.done ?_
  refine Keeps.trans ?_ (keeps_setSupplies _ _ _ _)
  exact Keeps.refl _

theorem keeps_execVioLoss (p0 : Nat) (s : State) : KeepsO 2 s (execVioLoss p0 s) := by
  unfold execVioLoss
  refine KeepsO.done ?_
  refine Keeps.upd (t := s) ?_ rfl rfl rfl (Nat.le_refl _)
  exact Keeps.refl _

theorem keeps_execVioReturn (p0 : Nat) (s : State) : KeepsO 2 s (execVioReturn p0 s) := by
  unfold execVioReturn
  refine KeepsO.done ?_
  refine Keeps.upd (t := s) ?_ rfl rfl rfl (Nat.le_refl _)
  exact Keeps.refl _

theorem keeps_braceStart (s : State) : Keeps 1589319 s (braceStart s) := by
  unfold braceStart
  extract_lets -underBinder -merge -useContext +onlyGivenNames x1
  extract_lets -underBinder -merge -useContext +onlyGivenNames x2
  have h2 : Keeps 1589319 s x2 := by
    unfold x2
    refine Keeps.upd (t := s) ?_ rfl rfl rfl (Nat.le_refl _)
    exact Keeps.refl _
  try clear_value x2
  extract_lets -underBinder -merge -useContext +onlyGivenNames x3
  extract_lets -underBinder -merge -useContext +onlyGivenNames x4
  have h4 : Keeps 1589319 s x4 := by
    unfold x4
    refine Keeps.trans ?_ (keeps_setPwr _ _)
    assumption
  try clear_value x4
  refine Keeps.ite ?_ ?_
  · assumption
  · extract_lets -underBinder -merge -useContext +onlyGivenNames x5
    have h5 : Keeps 1589319 s x5 := by
      unfold x5
      refine Keeps.trans ?_ (keeps_warnCommit _)
      assumption
    try clear_value x5
    extract_lets -underBinder -merge -useContext +onlyGivenNames x6
    have h6 : Keeps 1589319 s x6 := by
      unfold x6
      refine Keeps.ite ?_ ?_
      · refine Keeps.trans ?_ (keeps_keyHalt _)
        assumption
      · assumption
    try clear_value x6
    refine Keeps.trans ?_ (keeps_capEnd _ _ _ _ _)
    assumption

theorem keeps_execPowerWarning (p0 : Nat) (p1 : Nat) (p2 : Nat) (p3 : Nat) (s : State) : KeepsO 1589319 s (execPowerWarning p0 p1 p2 p3 s) := by
  unfold execPowerWarning
  refine KeepsO.done ?_
  extract_lets -underBinder -merge -useContext +onlyGivenNames x1
  have h1 : Keeps 1589319 s x1 := by
    unfold x1
    refine Keeps.trans ?_ (keeps_setSupplies _ _ _ _)
    exact Keeps.refl _
  try clear_value x1
  refine Keeps.ite ?_ ?_
  · assumption
  · refine Keeps.ite ?_ ?_
    · refine Keeps.trans ?_ (keeps_setPwr _ _)
      assumption
    · extract_lets -underBinder -merge -useContext +onlyGivenNames x2
      extract_lets -underBinder -merge -useContext +onlyGivenNames x3
      have h3 : Keeps 1589319 s x3 := by
        unfold x3
        refine Keeps.trans ?_ (keeps_setPwr _ _)
        assumption
      try clear_value x3
      refine Keeps.trans ?_ (keeps_braceStart _)
      refine Keeps.trans ?_ (keeps_keyPhase _ _)
      refine Keeps.trans ?_ (keeps_lifeBump _ _ _)
      refine Keeps.trans ?_ (keeps_bump _ _)
      refine Keeps.trans ?_ (keeps_pwrEvt _ _)
      assumption

theorem keeps_execBraceEnd (p0 : Bool) (s : State) : KeepsO 71 s (execBraceEnd p0 s) := by
  unfold execBraceEnd
  refine KeepsO.done ?_
  refine Keeps.ite ?_ ?_
  · exact Keeps.refl _
  · extract_lets -underBinder -merge -useContext +onlyGivenNames x1
    have h1 : Keeps 71 s x1 := by
      unfold x1
      refine Keeps.trans ?_ (keeps_logFlush _ _)
      exact Keeps.refl _
    try clear_value x1
    extract_lets -underBinder -merge -useContext +onlyGivenNames x2
    have h2 : Keeps 71 s x2 := by
      unfold x2
      refine Keeps.trans ?_ (keeps_logFlush _ _)
      refine Keeps.trans ?_ (keeps_logEvent _ _ _ _)
      refine Keeps.trans ?_ (keeps_pwrEvt _ _)
      refine Keeps.trans ?_ (keeps_dipWrite _ _)
      assumption
    try clear_value x2
    extract_lets -underBinder -merge -useContext +onlyGivenNames x3
    have h3 : Keeps 71 s x3 := by
      unfold x3
      refine Keeps.ite ?_ ?_
      · assumption
      · refine Keeps.trans ?_ (keeps_lifeCommit _ _)
        refine Keeps.trans ?_ (keeps_lifeTick _)
        assumption
    try clear_value x3
    extract_lets -underBinder -merge -useContext +onlyGivenNames x4
    have h4 : Keeps 71 s x4 := by
      unfold x4
      refine Keeps.trans ?_ (keeps_logFlush _ _)
      assumption
    try clear_value x4
    refine Keeps.trans ?_ (keeps_setPwr _ _)
    refine Keeps.upd (t := x4) ?_ rfl rfl rfl (Nat.le_refl _)
    assumption

theorem keeps_execWarningEnd (p0 : Nat) (p1 : Nat) (p2 : Nat) (p3 : Nat) (s : State) : KeepsO 71 s (execWarningEnd p0 p1 p2 p3 s) := by
  unfold execWarningEnd
  refine KeepsO.done ?_
  extract_lets -underBinder -merge -useContext +onlyGivenNames x1
  have h1 : Keeps 71 s x1 := by
    unfold x1
    refine Keeps.trans ?_ (keeps_setSupplies _ _ _ _)
    exact Keeps.refl _
  try clear_value x1
  refine Keeps.ite ?_ ?_
  · assumption
  · extract_lets -underBinder -merge -useContext +onlyGivenNames x2
    have h2 : Keeps 71 s x2 := by
      unfold x2
      refine Keeps.trans ?_ (keeps_dipAdd _ _ _ _)
      assumption
    try clear_value x2
    refine Keeps.trans ?_ (keeps_bump _ _)
    refine Keeps.trans ?_ (keeps_pwrEvt _ _)
    refine Keeps.trans ?_ (keeps_setPwr _ _)
    assumption

theorem keeps_execDipRecordWrite (s : State) : KeepsO 71 s (execDipRecordWrite s) := by
  unfold execDipRecordWrite
  refine KeepsO.done ?_
  split
  · exact Keeps.refl _
  · refine Keeps.ite ?_ ?_
    · exact Keeps.refl _
    · refine Keeps.trans ?_ (keeps_dipWrite _ _)
      exact Keeps.refl _

theorem keeps_execBrownOut (p0 : Nat) (p1 : Nat) (p2 : Nat) (s : State) : KeepsO 8388607 s (execBrownOut p0 p1 p2 s) := by
  unfold execBrownOut
  refine KeepsO.done ?_
  refine Keeps.ite ?_ ?_
  · exact Keeps.refl _
  · refine Keeps.trans ?_ (keeps_deviceReset _ _ _)
    refine Keeps.trans ?_ (keeps_setSupplies _ _ _ _)
    exact Keeps.refl _

theorem keeps_execThermalReset (p0 : Nat) (s : State) : KeepsO 8388607 s (execThermalReset p0 s) := by
  unfold execThermalReset
  refine KeepsO.done ?_
  refine Keeps.ite ?_ ?_
  · exact Keeps.refl _
  · refine Keeps.trans ?_ (keeps_deviceReset _ _ _)
    exact Keeps.refl _

theorem keeps_softReset (s : State) : Keeps 8388607 s (softReset s) := by
  unfold softReset
  refine Keeps.trans ?_ (keeps_deviceReset _ _ _)
  exact Keeps.refl _

theorem keeps_execSoftReset (s : State) : KeepsO 8388607 s (execSoftReset s) := by
  unfold execSoftReset
  refine KeepsO.done ?_
  refine Keeps.ite ?_ ?_
  · exact Keeps.refl _
  · refine Keeps.trans ?_ (keeps_softReset _)
    exact Keeps.refl _

theorem keeps_execKeepOvercurrent (s : State) : KeepsO 8388607 s (execKeepOvercurrent s) := by
  unfold execKeepOvercurrent
  refine KeepsO.done ?_
  refine Keeps.ite ?_ ?_
  · refine Keeps.trans ?_ (keeps_deviceReset _ _ _)
    exact Keeps.refl _
  · exact Keeps.refl _

theorem keeps_execResetN (s : State) : KeepsO 8388607 s (execResetN s) := by
  unfold execResetN
  refine KeepsO.done ?_
  refine Keeps.ite ?_ ?_
  · refine Keeps.trans ?_ (keeps_deviceReset _ _ _)
    exact Keeps.refl _
  · exact Keeps.refl _

theorem keeps_execIdleEvaluation (s : State) : KeepsO 71 s (execIdleEvaluation s) := by
  unfold execIdleEvaluation
  refine KeepsO.done ?_
  refine Keeps.ite ?_ ?_
  · exact Keeps.refl _
  · extract_lets -underBinder -merge -useContext +onlyGivenNames x1
    try clear_value x1
    extract_lets -underBinder -merge -useContext +onlyGivenNames x2
    try clear_value x2
    extract_lets -underBinder -merge -useContext +onlyGivenNames x3
    try clear_value x3
    extract_lets -underBinder -merge -useContext +onlyGivenNames x4
    extract_lets -underBinder -merge -useContext +onlyGivenNames x5
    have h5 : Keeps 71 s x5 := by
      unfold x5
      refine Keeps.trans ?_ (keeps_setRegN _ _ _)
      refine Keeps.trans ?_ (keeps_setPwr _ _)
      exact Keeps.refl _
    try clear_value x5
    extract_lets -underBinder -merge -useContext +onlyGivenNames x6
    try clear_value x6
    extract_lets -underBinder -merge -useContext +onlyGivenNames x7
    try clear_value x7
    extract_lets -underBinder -merge -useContext +onlyGivenNames x8
    have h8 : ∀ z9, Keeps 71 z9 (x8 z9) := by
      intro z9
      unfold x8
      refine Keeps.ite ?_ ?_
      · refine Keeps.trans ?_ (keeps_powerRequest _ _)
        exact Keeps.refl _
      · exact Keeps.refl _
    try clear_value x8
    refine Keeps.ite ?_ ?_
    · assumption
    · refine Keeps.ite ?_ ?_
      · refine Keeps.trans ?_ (h8 ..)
        assumption
      · extract_lets -underBinder -merge -useContext +onlyGivenNames x10
        have h10 : Keeps 71 s x10 := by
          unfold x10
          refine Keeps.trans ?_ (keeps_keepEvaluate _)
          assumption
        try clear_value x10
        refine Keeps.ite ?_ ?_
        · refine Keeps.trans ?_ (keeps_powerRequest _ _)
          assumption
        · refine Keeps.trans ?_ (h8 ..)
          assumption

theorem keeps_pwrReqWrite (s : State) (p1 : Nat) (p2 : Word) : Keeps 71 s (pwrReqWrite s p1 p2) := by
  unfold pwrReqWrite
  extract_lets -underBinder -merge -useContext +onlyGivenNames x1
  have h1 : Keeps 71 s x1 := by
    unfold x1
    refine Keeps.ite ?_ ?_
    · refine Keeps.trans ?_ (keeps_wakeEvent _)
      exact Keeps.refl _
    · exact Keeps.refl _
  try clear_value x1
  extract_lets -underBinder -merge -useContext +onlyGivenNames x2
  try clear_value x2
  refine Keeps.ite ?_ ?_
  · assumption
  · extract_lets -underBinder -merge -useContext +onlyGivenNames x3
    have h3 : Keeps 71 s x3 := by
      unfold x3
      refine Keeps.trans ?_ (keeps_reqResult _ _ _)
      assumption
    try clear_value x3
    refine Keeps.ite ?_ ?_
    · refine Keeps.trans ?_ (keeps_powerRequest _ _)
      assumption
    · refine Keeps.ite ?_ ?_
      · refine Keeps.trans ?_ (keeps_powerRequest _ _)
        assumption
      · refine Keeps.trans ?_ (keeps_powerRequest _ _)
        refine Keeps.trans ?_ (keeps_setPwr _ _)
        assumption

theorem keeps_execNapRequest (p0 : Nat) (s : State) : KeepsO 16471 s (execNapRequest p0 s) := by
  unfold execNapRequest
  refine KeepsO.done ?_
  refine Keeps.trans ?_ (keeps_pwrReqWrite _ _ _)
  refine Keeps.trans ?_ (keeps_hostWake _)
  exact Keeps.refl _

theorem keeps_execKeepRequest (p0 : Nat) (s : State) : KeepsO 16471 s (execKeepRequest p0 s) := by
  unfold execKeepRequest
  refine KeepsO.done ?_
  refine Keeps.trans ?_ (keeps_pwrReqWrite _ _ _)
  refine Keeps.trans ?_ (keeps_hostWake _)
  exact Keeps.refl _

theorem keeps_execWakeRequest (p0 : Nat) (s : State) : KeepsO 16471 s (execWakeRequest p0 s) := by
  unfold execWakeRequest
  refine KeepsO.done ?_
  refine Keeps.trans ?_ (keeps_pwrReqWrite _ _ _)
  refine Keeps.trans ?_ (keeps_hostWake _)
  exact Keeps.refl _

theorem keeps_execWakeEvent (p0 : Nat) (p1 : Nat) (s : State) : KeepsO 64 s (execWakeEvent p0 p1 s) := by
  unfold execWakeEvent
  refine KeepsO.done ?_
  extract_lets -underBinder -merge -useContext +onlyGivenNames x1
  try clear_value x1
  extract_lets -underBinder -merge -useContext +onlyGivenNames x2
  try clear_value x2
  extract_lets -underBinder -merge -useContext +onlyGivenNames x3
  try clear_value x3
  refine Keeps.ite ?_ ?_
  · refine Keeps.trans ?_ (keeps_wakeEvent _)
    exact Keeps.refl _
  · refine Keeps.ite ?_ ?_
    · refine Keeps.trans ?_ (keeps_wakeEvent _)
      exact Keeps.refl _
    · exact Keeps.refl _

theorem keeps_execDeadlineWake (s : State) : KeepsO 64 s (execDeadlineWake s) := by
  unfold execDeadlineWake
  refine KeepsO.done ?_
  extract_lets -underBinder -merge -useContext +onlyGivenNames x1
  try clear_value x1
  split
  · refine Keeps.ite ?_ ?_
    · refine Keeps.trans ?_ (keeps_wakeEvent _)
      exact Keeps.refl _
    · exact Keeps.refl _
  · exact Keeps.refl _

theorem keeps_execPowerTransitionEnd (p0 : Bool) (p1 : Nat) (p2 : Nat) (p3 : Nat) (s : State) : KeepsO 3797375 s (execPowerTransitionEnd p0 p1 p2 p3 s) := by
  unfold execPowerTransitionEnd
  refine KeepsO.done ?_
  split
  · exact Keeps.refl _
  · extract_lets -underBinder -merge -useContext +onlyGivenNames x1
    extract_lets -underBinder -merge -useContext +onlyGivenNames x2
    have h2 : Keeps 3797375 s x2 := by
      unfold x2
      refine Keeps.trans ?_ (keeps_setPwr _ _)
      exact Keeps.refl _
    try clear_value x2
    extract_lets -underBinder -merge -useContext +onlyGivenNames x3
    have h3 : Keeps 3797375 s x3 := by
      unfold x3
      split
      · refine Keeps.trans ?_ (keeps_enterNap _)
        assumption
      · refine Keeps.trans ?_ (keeps_enterKeep _)
        assumption
      · refine Keeps.trans ?_ (keeps_enterAwake _ _ _ _ _)
        assumption
    try clear_value x3
    refine Keeps.trans ?_ (keeps_afterTransition _)
    assumption

theorem keeps_gateOff (s : State) (p1 : Nat) : Keeps 1900711 s (gateOff s p1) := by
  unfold gateOff
  extract_lets -underBinder -merge -useContext +onlyGivenNames x1
  try clear_value x1
  extract_lets -underBinder -merge -useContext +onlyGivenNames x2
  have h2 : Keeps 1900711 s x2 := by
    unfold x2
    refine Keeps.upd (t := s) ?_ rfl rfl rfl (Nat.le_refl _) (r1 := smFilter_wf _ _ _)
    exact Keeps.refl _
  try clear_value x2
  refine Keeps.ite ?_ ?_
  · refine Keeps.upd (t := x2) ?_ rfl rfl rfl (Nat.le_refl _)
    first | exact Keeps.refl _ | assumption
  · refine Keeps.ite ?_ ?_
    · refine Keeps.upd (t := x2) ?_ rfl rfl rfl (Nat.le_refl _)
      first | exact Keeps.refl _ | assumption
    · refine Keeps.ite ?_ ?_
      · refine Keeps.upd (t := x2) ?_ rfl rfl rfl (Nat.le_refl _)
        first | exact Keeps.refl _ | assumption
      · refine Keeps.ite ?_ ?_
        · refine Keeps.upd (t := x2) ?_ rfl rfl rfl (Nat.le_refl _)
          first | exact Keeps.refl _ | assumption
        · refine Keeps.ite ?_ ?_
          · refine Keeps.upd (t := x2) ?_ rfl rfl rfl (Nat.le_refl _) (r5 := fun _ => rfl)
            first | exact Keeps.refl _ | assumption
          · refine Keeps.ite ?_ ?_
            · exact Keeps.trans h2 (keeps_portReset _ _)
            · first | exact Keeps.refl _ | assumption

theorem keeps_gateWrite (s : State) (p1 : Word) : Keeps 1900711 s (gateWrite s p1) := by
  unfold gateWrite
  extract_lets -underBinder -merge -useContext +onlyGivenNames x1
  try clear_value x1
  extract_lets -underBinder -merge -useContext +onlyGivenNames x2
  try clear_value x2
  refine Keeps.ite ?_ ?_
  · refine Keeps.trans ?_ (keeps_refuse _ _ _)
    exact Keeps.refl _
  · refine Keeps.foldl ?_ (fun y3 a3 hy3 => ?_)
    · refine Keeps.trans ?_ (keeps_setRegN _ _ _)
      exact Keeps.refl _
    · refine Keeps.trans ?_ (keeps_gateOff _ _)
      assumption

theorem keeps_execBlockGate (p0 : Word) (s : State) : KeepsO 1917175 s (execBlockGate p0 s) := by
  unfold execBlockGate
  refine KeepsO.done ?_
  refine Keeps.trans ?_ (keeps_gateWrite _ _)
  refine Keeps.trans ?_ (keeps_hostWake _)
  exact Keeps.refl _

theorem keeps_bootStart (s : State) : Keeps 1 s (bootStart s) := by
  unfold bootStart
  refine Keeps.ite ?_ ?_
  · refine Keeps.trans ?_ (keeps_opRefuseStart _ _)
    exact Keeps.refl _
  · refine Keeps.trans ?_ (keeps_opStart _ _)
    exact Keeps.refl _

theorem keeps_bootErase (s : State) : Keeps 65 s (bootErase s) := by
  unfold bootErase
  refine Keeps.ite ?_ ?_
  · refine Keeps.trans ?_ (keeps_opRefuseStart _ _)
    exact Keeps.refl _
  · refine Keeps.trans ?_ (keeps_opEnd _ _ _ _)
    refine Keeps.trans ?_ (keeps_setPwr _ _)
    refine Keeps.trans ?_ (keeps_opStart _ _)
    exact Keeps.refl _

theorem keeps_bootCtrl (s : State) (p1 : Word) : Keeps 65 s (bootCtrl s p1) := by
  unfold bootCtrl
  extract_lets -underBinder -merge -useContext +onlyGivenNames x1
  have h1 : Keeps 65 s x1 := by
    unfold x1
    refine Keeps.ite ?_ ?_
    · refine Keeps.trans ?_ (keeps_bootErase _)
      exact Keeps.refl _
    · exact Keeps.refl _
  try clear_value x1
  refine Keeps.ite ?_ ?_
  · refine Keeps.trans ?_ (keeps_bootStart _)
    assumption
  · assumption

theorem keeps_execBootrecStart (s : State) : KeepsO 16471 s (execBootrecStart s) := by
  unfold execBootrecStart
  refine KeepsO.done ?_
  refine Keeps.trans ?_ (keeps_bootStart _)
  refine Keeps.trans ?_ (keeps_hostWake _)
  exact Keeps.refl _

theorem keeps_execBootrecErase (s : State) : KeepsO 16471 s (execBootrecErase s) := by
  unfold execBootrecErase
  refine KeepsO.done ?_
  refine Keeps.trans ?_ (keeps_bootErase _)
  refine Keeps.trans ?_ (keeps_hostWake _)
  exact Keeps.refl _

theorem keeps_execBootrecEnd (p0 : List Byte) (p1 : Bool) (p2 : Bool) (s : State) : KeepsO 65 s (execBootrecEnd p0 p1 p2 s) := by
  unfold execBootrecEnd
  refine KeepsO.done ?_
  extract_lets -underBinder -merge -useContext +onlyGivenNames x1
  try clear_value x1
  refine Keeps.ite ?_ ?_
  · exact Keeps.refl _
  · refine Keeps.ite ?_ ?_
    · refine Keeps.trans ?_ (keeps_opEnd _ _ _ _)
      exact Keeps.refl _
    · split
      · refine Keeps.trans ?_ (keeps_opEnd _ _ _ _)
        exact Keeps.refl _
      · extract_lets -underBinder -merge -useContext +onlyGivenNames x2
        have h2 : Keeps 65 s x2 := by
          unfold x2
          refine Keeps.trans ?_ (keeps_opProgress _ _ _)
          refine Keeps.trans ?_ (keeps_bootStore _ _ _)
          exact Keeps.refl _
        try clear_value x2
        refine Keeps.ite ?_ ?_
        · refine Keeps.trans ?_ (keeps_opEnd _ _ _ _)
          assumption
        · refine Keeps.trans ?_ (keeps_opEnd _ _ _ _)
          assumption

end Sys2Proof.Machine
end

