-- ==== Sys2Proof/Laws/KeepsBlockCheck.lean ====
section
/-! SUPPORT. What each function of Machine/BlockCheck.lean leaves unchanged (the mask names the areas it may change). -/

set_option Elab.async false

namespace Sys2Proof.Machine

theorem keeps_blkEnabledNow (s : State) (p1 : Nat) : Keeps 4096679 s (blkEnabledNow s p1) := by
  unfold blkEnabledNow
  extract_lets -underBinder -merge -useContext +onlyGivenNames x1
  have h1 : Keeps 4096679 s x1 := by
    unfold x1
    refine Keeps.ite ?_ ?_
    · refine Keeps.trans ?_ (keeps_bumpBy _ _ _)
      exact Keeps.refl _
    · exact Keeps.refl _
  try clear_value x1
  refine Keeps.ite ?_ ?_
  · refine Keeps.trans ?_ (keeps_twnEnabledNow _)
    assumption
  · refine Keeps.ite ?_ ?_
    · refine KeepsF.snd ?_
      refine KeepsF.trans ?_ (keeps_reseed _)
      assumption
    · refine Keeps.ite ?_ ?_
      · refine Keeps.trans ?_ (keeps_capEnabledNow _)
        assumption
      · refine Keeps.ite ?_ ?_
        · refine Keeps.trans ?_ (keeps_hshEnabledNow _)
          assumption
        · refine Keeps.ite ?_ ?_
          · refine Keeps.trans ?_ (keeps_afeEnabledNow _)
            assumption
          · refine Keeps.ite ?_ ?_
            · refine Keeps.trans ?_ (keeps_nrgEnabledNow _)
              assumption
            · assumption

theorem keeps_blkDisabledNow (s : State) (p1 : Nat) : Keeps 3908783 s (blkDisabledNow s p1) := by
  unfold blkDisabledNow
  split
  · refine Keeps.trans ?_ (keeps_ethDisabled _ _)
    exact Keeps.refl _
  · refine Keeps.ite ?_ ?_
    · refine Keeps.trans ?_ (keeps_timDisabled _)
      exact Keeps.refl _
    · refine Keeps.ite ?_ ?_
      · refine Keeps.trans ?_ (keeps_twnDisabled _)
        exact Keeps.refl _
      · refine Keeps.ite ?_ ?_
        · refine Keeps.trans ?_ (keeps_arcDisabled _)
          exact Keeps.refl _
        · refine Keeps.ite ?_ ?_
          · refine Keeps.trans ?_ (keeps_capDisabled _)
            exact Keeps.refl _
          · exact Keeps.refl _

theorem keeps_setCheck (s : State) (p1 : Nat) (p2 : Nat) : Keeps 1 s (setCheck s p1 p2) := by
  unfold setCheck
  refine Keeps.trans ?_ (keeps_setRegFld _ _ _ _ _)
  exact Keeps.refl _

theorem keeps_blkOff (s : State) (p1 : Nat) : Keeps 3908783 s (blkOff s p1) := by
  unfold blkOff
  extract_lets -underBinder -merge -useContext +onlyGivenNames x1
  try clear_value x1
  extract_lets -underBinder -merge -useContext +onlyGivenNames x2
  have h2 : Keeps 3908783 s x2 := by
    unfold x2
    refine Keeps.trans ?_ (keeps_setCheck _ _ _)
    refine Keeps.trans ?_ (keeps_setReg _ _ _)
    exact Keeps.refl _
  try clear_value x2
  refine Keeps.ite ?_ ?_
  · refine Keeps.trans ?_ (keeps_blkDisabledNow _ _)
    assumption
  · assumption

theorem keeps_blkCtrlWrite (s : State) (p1 : Nat) (p2 : Word) : Keeps 3908783 s (blkCtrlWrite s p1 p2) := by
  unfold blkCtrlWrite
  refine Keeps.ite ?_ ?_
  · exact Keeps.refl _
  · refine Keeps.ite ?_ ?_
    · refine Keeps.upd (t := s) ?_ rfl rfl rfl (Nat.le_refl _)
      exact Keeps.refl _
    · refine Keeps.ite ?_ ?_
      · refine Keeps.ite ?_ ?_
        · exact Keeps.refl _
        · refine Keeps.trans ?_ (keeps_setCheck _ _ _)
          exact Keeps.refl _
      · refine Keeps.trans ?_ (keeps_blkOff _ _)
        exact Keeps.refl _

theorem keeps_blkDecide (s : State) (p1 : Nat) (p2 : Bool) : Keeps 4096679 s (blkDecide s p1 p2) := by
  unfold blkDecide
  extract_lets -underBinder -merge -useContext +onlyGivenNames x1
  try clear_value x1
  refine Keeps.ite ?_ ?_
  · refine Keeps.trans ?_ (keeps_blkEnabledNow _ _)
    refine Keeps.trans ?_ (keeps_setCheck _ _ _)
    refine Keeps.trans ?_ (keeps_setReg _ _ _)
    exact Keeps.refl _
  · extract_lets -underBinder -merge -useContext +onlyGivenNames x2
    have h2 : Keeps 4096679 s x2 := by
      unfold x2
      refine Keeps.ite ?_ ?_
      · split
        · refine Keeps.trans ?_ (keeps_setRegN _ _ _)
          exact Keeps.refl _
        · exact Keeps.refl _
      · exact Keeps.refl _
    try clear_value x2
    refine Keeps.trans ?_ (keeps_refuseC _ _ _)
    refine Keeps.trans ?_ (keeps_setCheck _ _ _)
    assumption

theorem keeps_blkCheckEnd (s : State) (p1 : Nat) (p2 : Bool) : Keeps 4171439 s (blkCheckEnd s p1 p2) := by
  unfold blkCheckEnd
  refine Keeps.ite ?_ ?_
  · exact Keeps.refl _
  · extract_lets -underBinder -merge -useContext +onlyGivenNames x1
    try clear_value x1
    extract_lets -underBinder -merge -useContext +onlyGivenNames x2
    extract_lets -underBinder -merge -useContext +onlyGivenNames x3
    have h3 : Keeps 4171439 s x3 := by
      unfold x3
      refine Keeps.trans ?_ (keeps_blkDecide _ _ _)
      refine Keeps.upd (t := s) ?_ rfl rfl rfl (Nat.le_refl _)
      exact Keeps.refl _
    try clear_value x3
    refine Keeps.foldl ?_ (fun y4 a4 hy4 => ?_)
    · assumption
    · refine Keeps.trans ?_ (keeps_blkCtrlWrite _ _ _)
      assumption

theorem keeps_execBlockCheckEnd (p0 : CheckEnd) (s : State) : KeepsO 4171439 s (execBlockCheckEnd p0 s) := by
  unfold execBlockCheckEnd
  refine KeepsO.done ?_
  refine Keeps.trans ?_ (keeps_blkCheckEnd _ _ _)
  exact Keeps.refl _

end Sys2Proof.Machine
end

