-- ==== Sys2Proof/Laws/KeepsHostRead.lean ====
section
/-! SUPPORT. What each function of Machine/HostRead.lean leaves unchanged (the mask names the areas it may change). -/

set_option Elab.async false

namespace Sys2Proof.Machine

theorem keeps_rdN (s : State) (p1 : Nat) : KeepsF 0 s (rdN s p1) := by
  unfold rdN
  refine KeepsF.mk ?_
  exact Keeps.refl _

theorem keeps_curHst (s : State) (p1 : Nat) : KeepsF 0 s (curHst s p1) := by
  unfold curHst
  extract_lets -underBinder -merge -useContext +onlyGivenNames x1
  try clear_value x1
  refine KeepsF.ite ?_ ?_
  · refine KeepsF.trans ?_ (keeps_rdN _ _)
    exact Keeps.refl _
  · refine KeepsF.ite ?_ ?_
    · refine KeepsF.trans ?_ (keeps_rdN _ _)
      exact Keeps.refl _
    · refine KeepsF.ite ?_ ?_
      · refine KeepsF.trans ?_ (keeps_rdN _ _)
        exact Keeps.refl _
      · refine KeepsF.ite ?_ ?_
        · refine KeepsF.trans ?_ (keeps_rdN _ _)
          exact Keeps.refl _
        · refine KeepsF.ite ?_ ?_
          · refine KeepsF.trans ?_ (keeps_rdN _ _)
            exact Keeps.refl _
          · refine KeepsF.ite ?_ ?_
            · refine KeepsF.trans ?_ (keeps_rdN _ _)
              exact Keeps.refl _
            · refine KeepsF.ite ?_ ?_
              · refine KeepsF.trans ?_ (keeps_rdN _ _)
                exact Keeps.refl _
              · refine KeepsF.ite ?_ ?_
                · refine KeepsF.trans ?_ (keeps_rdN _ _)
                  exact Keeps.refl _
                · refine KeepsF.ite ?_ ?_
                  · refine KeepsF.trans ?_ (keeps_rdN _ _)
                    exact Keeps.refl _
                  · refine KeepsF.mk ?_
                    exact Keeps.refl _

theorem keeps_curPwr (s : State) (p1 : Nat) (p2 : Nat) : KeepsF 0 s (curPwr s p1 p2) := by
  unfold curPwr
  refine KeepsF.ite ?_ ?_
  · refine KeepsF.trans ?_ (keeps_rdN _ _)
    exact Keeps.refl _
  · refine KeepsF.ite ?_ ?_
    · refine KeepsF.trans ?_ (keeps_rdN _ _)
      exact Keeps.refl _
    · refine KeepsF.ite ?_ ?_
      · refine KeepsF.trans ?_ (keeps_rdN _ _)
        exact Keeps.refl _
      · refine KeepsF.ite ?_ ?_
        · refine KeepsF.trans ?_ (keeps_rdN _ _)
          exact Keeps.refl _
        · refine KeepsF.ite ?_ ?_
          · refine KeepsF.trans ?_ (keeps_rdN _ _)
            exact Keeps.refl _
          · refine KeepsF.ite ?_ ?_
            · refine KeepsF.mk ?_
              exact Keeps.refl _
            · refine KeepsF.ite ?_ ?_
              · refine KeepsF.trans ?_ (keeps_rdN _ _)
                exact Keeps.refl _
              · refine KeepsF.mk ?_
                exact Keeps.refl _

theorem keeps_curPce (s : State) (p1 : Nat) : KeepsF 21 s (curPce s p1) := by
  unfold curPce
  refine KeepsF.ite ?_ ?_
  · extract_lets -underBinder -merge -useContext +onlyGivenNames x1
    have h1 : Keeps 21 s x1 := by
      unfold x1
      refine Keeps.trans ?_ (keeps_shortTick _)
      exact Keeps.refl _
    try clear_value x1
    refine KeepsF.mk ?_
    assumption
  · refine KeepsF.mk ?_
    exact Keeps.refl _

theorem keeps_curDom (s : State) (p1 : Nat) (p2 : Nat) (p3 : Nat) (p4 : Nat) : KeepsF 8 s (curDom s p1 p2 p3 p4) := by
  unfold curDom
  extract_lets -underBinder -merge -useContext +onlyGivenNames x1
  try clear_value x1
  refine KeepsF.ite ?_ ?_
  · refine KeepsF.trans ?_ (keeps_rdN _ _)
    exact Keeps.refl _
  · refine KeepsF.ite ?_ ?_
    · refine KeepsF.trans ?_ (keeps_domSetLatch _ _ _)
      exact Keeps.refl _
    · refine KeepsF.ite ?_ ?_
      · extract_lets -underBinder -merge -useContext +onlyGivenNames x2
        try clear_value x2
        refine KeepsF.mk ?_
        exact Keeps.refl _
      · refine KeepsF.ite ?_ ?_
        · refine KeepsF.mk ?_
          exact Keeps.refl _
        · refine KeepsF.ite ?_ ?_
          · refine KeepsF.mk ?_
            exact Keeps.refl _
          · refine KeepsF.ite ?_ ?_
            · refine KeepsF.trans ?_ (keeps_rdN _ _)
              exact Keeps.refl _
            · refine KeepsF.ite ?_ ?_
              · refine KeepsF.trans ?_ (keeps_rdN _ _)
                exact Keeps.refl _
              · refine KeepsF.ite ?_ ?_
                · refine KeepsF.trans ?_ (keeps_rdN _ _)
                  exact Keeps.refl _
                · refine KeepsF.ite ?_ ?_
                  · refine KeepsF.trans ?_ (keeps_rdN _ _)
                    exact Keeps.refl _
                  · refine KeepsF.mk ?_
                    exact Keeps.refl _

theorem keeps_curTxts (s : State) (p1 : Nat) (p2 : Nat) (p3 : Nat) (p4 : Nat) : KeepsF 8 s (curTxts s p1 p2 p3 p4) := by
  unfold curTxts
  extract_lets -underBinder -merge -useContext +onlyGivenNames x1
  try clear_value x1
  extract_lets -underBinder -merge -useContext +onlyGivenNames x2
  try clear_value x2
  refine KeepsF.ite ?_ ?_
  · refine KeepsF.trans ?_ (keeps_txtsPop _ _ _)
    exact Keeps.refl _
  · refine KeepsF.ite ?_ ?_
    · refine KeepsF.trans ?_ (keeps_rdN _ _)
      exact Keeps.refl _
    · refine KeepsF.ite ?_ ?_
      · refine KeepsF.trans ?_ (keeps_rdN _ _)
        exact Keeps.refl _
      · refine KeepsF.ite ?_ ?_
        · refine KeepsF.trans ?_ (keeps_rdN _ _)
          exact Keeps.refl _
        · refine KeepsF.ite ?_ ?_
          · refine KeepsF.mk ?_
            exact Keeps.refl _
          · refine KeepsF.mk ?_
            exact Keeps.refl _

theorem keeps_curTim (s : State) (p1 : Nat) (p2 : Nat) : KeepsF 8 s (curTim s p1 p2) := by
  unfold curTim
  extract_lets -underBinder -merge -useContext +onlyGivenNames x1
  try clear_value x1
  refine KeepsF.ite ?_ ?_
  · refine KeepsF.trans ?_ (keeps_rdN _ _)
    exact Keeps.refl _
  · refine KeepsF.ite ?_ ?_
    · refine KeepsF.trans ?_ (keeps_rdN _ _)
      exact Keeps.refl _
    · refine KeepsF.ite ?_ ?_
      · refine KeepsF.trans ?_ (keeps_rdN _ _)
        exact Keeps.refl _
      · refine KeepsF.ite ?_ ?_
        · refine KeepsF.trans ?_ (keeps_rdN _ _)
          exact Keeps.refl _
        · refine KeepsF.ite ?_ ?_
          · refine KeepsF.trans ?_ (keeps_rdN _ _)
            exact Keeps.refl _
          · refine KeepsF.ite ?_ ?_
            · refine KeepsF.trans ?_ (keeps_rdN _ _)
              exact Keeps.refl _
            · refine KeepsF.ite ?_ ?_
              · refine KeepsF.trans ?_ (keeps_rdN _ _)
                exact Keeps.refl _
              · refine KeepsF.ite ?_ ?_
                · refine KeepsF.mk ?_
                  exact Keeps.refl _
                · refine KeepsF.ite ?_ ?_
                  · refine KeepsF.trans ?_ (keeps_curDom _ _ _ _ _)
                    exact Keeps.refl _
                  · refine KeepsF.ite ?_ ?_
                    · refine KeepsF.trans ?_ (keeps_curTxts _ _ _ _ _)
                      exact Keeps.refl _
                    · refine KeepsF.mk ?_
                      exact Keeps.refl _

theorem keeps_curKey (s : State) (p1 : Nat) : KeepsF 0 s (curKey s p1) := by
  unfold curKey
  refine KeepsF.ite ?_ ?_
  · refine KeepsF.trans ?_ (keeps_rdN _ _)
    exact Keeps.refl _
  · refine KeepsF.ite ?_ ?_
    · refine KeepsF.trans ?_ (keeps_rdN _ _)
      exact Keeps.refl _
    · refine KeepsF.mk ?_
      exact Keeps.refl _

theorem keeps_curLog (s : State) (p1 : Nat) (p2 : Nat) : KeepsF 7 s (curLog s p1 p2) := by
  unfold curLog
  extract_lets -underBinder -merge -useContext +onlyGivenNames x1
  try clear_value x1
  refine KeepsF.ite ?_ ?_
  · refine KeepsF.trans ?_ (keeps_rdN _ _)
    exact Keeps.refl _
  · refine KeepsF.ite ?_ ?_
    · refine KeepsF.trans ?_ (keeps_rdN _ _)
      exact Keeps.refl _
    · refine KeepsF.ite ?_ ?_
      · refine KeepsF.trans ?_ (keeps_rdN _ _)
        exact Keeps.refl _
      · refine KeepsF.ite ?_ ?_
        · refine KeepsF.mk ?_
          exact Keeps.refl _
        · refine KeepsF.ite ?_ ?_
          · refine KeepsF.trans ?_ (keeps_rdN _ _)
            exact Keeps.refl _
          · refine KeepsF.ite ?_ ?_
            · refine KeepsF.trans ?_ (keeps_rdN _ _)
              exact Keeps.refl _
            · refine KeepsF.ite ?_ ?_
              · extract_lets -underBinder -merge -useContext +onlyGivenNames x2
                have h2 : Keeps 7 s x2 := by
                  unfold x2
                  refine Keeps.trans ?_ (keeps_lifeTick _)
                  exact Keeps.refl _
                try clear_value x2
                refine KeepsF.trans ?_ (keeps_rdN _ _)
                assumption
              · refine KeepsF.ite ?_ ?_
                · refine KeepsF.trans ?_ (keeps_logLatch _ _)
                  exact Keeps.refl _
                · refine KeepsF.ite ?_ ?_
                  · refine KeepsF.trans ?_ (keeps_logWord _ _ _)
                    exact Keeps.refl _
                  · refine KeepsF.ite ?_ ?_
                    · extract_lets -underBinder -merge -useContext +onlyGivenNames x3
                      have h3 : Keeps 7 s x3 := by
                        unfold x3
                        refine Keeps.trans ?_ (keeps_lifeTick _)
                        exact Keeps.refl _
                      try clear_value x3
                      refine KeepsF.mk ?_
                      assumption
                    · refine KeepsF.ite ?_ ?_
                      · extract_lets -underBinder -merge -useContext +onlyGivenNames x4
                        have h4 : Keeps 7 s x4 := by
                          unfold x4
                          refine Keeps.trans ?_ (keeps_lifeTick _)
                          exact Keeps.refl _
                        try clear_value x4
                        extract_lets -underBinder -merge -useContext +onlyGivenNames x5
                        try clear_value x5
                        refine KeepsF.trans ?_ (keeps_rdN _ _)
                        assumption
                      · refine KeepsF.mk ?_
                        exact Keeps.refl _

theorem keeps_curVrd (s : State) (p1 : Nat) : KeepsF 0 s (curVrd s p1) := by
  unfold curVrd
  extract_lets -underBinder -merge -useContext +onlyGivenNames x1
  try clear_value x1
  extract_lets -underBinder -merge -useContext +onlyGivenNames x2
  try clear_value x2
  extract_lets -underBinder -merge -useContext +onlyGivenNames x3
  try clear_value x3
  extract_lets -underBinder -merge -useContext +onlyGivenNames x4
  try clear_value x4
  extract_lets -underBinder -merge -useContext +onlyGivenNames x5
  try clear_value x5
  refine KeepsF.ite ?_ ?_
  · refine KeepsF.trans ?_ (keeps_rdN _ _)
    exact Keeps.refl _
  · refine KeepsF.ite ?_ ?_
    · refine KeepsF.trans ?_ (keeps_rdN _ _)
      exact Keeps.refl _
    · refine KeepsF.ite ?_ ?_
      · refine KeepsF.trans ?_ (keeps_rdN _ _)
        exact Keeps.refl _
      · refine KeepsF.ite ?_ ?_
        · split
          · refine KeepsF.trans ?_ (keeps_rdN _ _)
            exact Keeps.refl _
          · refine KeepsF.trans ?_ (keeps_rdN _ _)
            exact Keeps.refl _
        · refine KeepsF.ite ?_ ?_
          · refine KeepsF.trans ?_ (keeps_rdN _ _)
            exact Keeps.refl _
          · refine KeepsF.ite ?_ ?_
            · refine KeepsF.trans ?_ (keeps_rdN _ _)
              exact Keeps.refl _
            · refine KeepsF.ite ?_ ?_
              · refine KeepsF.trans ?_ (keeps_rdN _ _)
                exact Keeps.refl _
              · refine KeepsF.ite ?_ ?_
                · refine KeepsF.trans ?_ (keeps_rdN _ _)
                  exact Keeps.refl _
                · refine KeepsF.ite ?_ ?_
                  · refine KeepsF.trans ?_ (keeps_rdN _ _)
                    exact Keeps.refl _
                  · refine KeepsF.ite ?_ ?_
                    · refine KeepsF.trans ?_ (keeps_rdN _ _)
                      exact Keeps.refl _
                    · refine KeepsF.ite ?_ ?_
                      · refine KeepsF.trans ?_ (keeps_rdN _ _)
                        exact Keeps.refl _
                      · refine KeepsF.ite ?_ ?_
                        · split
                          · refine KeepsF.trans ?_ (keeps_rdN _ _)
                            exact Keeps.refl _
                          · refine KeepsF.trans ?_ (keeps_rdN _ _)
                            exact Keeps.refl _
                        · refine KeepsF.mk ?_
                          exact Keeps.refl _

theorem keeps_curDsp (s : State) (p1 : Nat) (p2 : Nat) : KeepsF 2053 s (curDsp s p1 p2) := by
  unfold curDsp
  extract_lets -underBinder -merge -useContext +onlyGivenNames x1
  try clear_value x1
  extract_lets -underBinder -merge -useContext +onlyGivenNames x2
  try clear_value x2
  extract_lets -underBinder -merge -useContext +onlyGivenNames x3
  try clear_value x3
  refine KeepsF.ite ?_ ?_
  · extract_lets -underBinder -merge -useContext +onlyGivenNames x4
    try clear_value x4
    refine KeepsF.trans ?_ (keeps_rdN _ _)
    exact Keeps.refl _
  · refine KeepsF.ite ?_ ?_
    · refine KeepsF.trans ?_ (keeps_rdN _ _)
      exact Keeps.refl _
    · refine KeepsF.ite ?_ ?_
      · refine KeepsF.trans ?_ (keeps_rdN _ _)
        exact Keeps.refl _
      · refine KeepsF.ite ?_ ?_
        · refine KeepsF.trans ?_ (keeps_rdN _ _)
          exact Keeps.refl _
        · refine KeepsF.ite ?_ ?_
          · refine KeepsF.mk ?_
            exact Keeps.refl _
          · refine KeepsF.ite ?_ ?_
            · extract_lets -underBinder -merge -useContext +onlyGivenNames x5
              have h5 : Keeps 2053 s x5 := by
                unfold x5
                refine Keeps.trans ?_ (keeps_holdTick _ _)
                exact Keeps.refl _
              try clear_value x5
              refine KeepsF.mk ?_
              assumption
            · refine KeepsF.mk ?_
              exact Keeps.refl _

theorem keeps_curDoc (s : State) (p1 : Nat) (p2 : Nat) : KeepsF 7 s (curDoc s p1 p2) := by
  unfold curDoc
  refine KeepsF.ite ?_ ?_
  · refine KeepsF.ite ?_ ?_
    · refine KeepsF.trans ?_ (keeps_rdN _ _)
      exact Keeps.refl _
    · refine KeepsF.ite ?_ ?_
      · refine KeepsF.trans ?_ (keeps_rdN _ _)
        exact Keeps.refl _
      · refine KeepsF.mk ?_
        exact Keeps.refl _
  · extract_lets -underBinder -merge -useContext +onlyGivenNames x1
    try clear_value x1
    extract_lets -underBinder -merge -useContext +onlyGivenNames x2
    try clear_value x2
    extract_lets -underBinder -merge -useContext +onlyGivenNames x3
    try clear_value x3
    refine KeepsF.ite ?_ ?_
    · refine KeepsF.trans ?_ (keeps_rdN _ _)
      exact Keeps.refl _
    · refine KeepsF.ite ?_ ?_
      · refine KeepsF.trans ?_ (keeps_rdN _ _)
        exact Keeps.refl _
      · refine KeepsF.ite ?_ ?_
        · refine KeepsF.trans ?_ (keeps_rdN _ _)
          exact Keeps.refl _
        · refine KeepsF.ite ?_ ?_
          · refine KeepsF.trans ?_ (keeps_rdN _ _)
            exact Keeps.refl _
          · refine KeepsF.ite ?_ ?_
            · refine KeepsF.trans ?_ (keeps_rdN _ _)
              exact Keeps.refl _
            · refine KeepsF.ite ?_ ?_
              · refine KeepsF.trans ?_ (keeps_dramWinRead _ _ _ _)
                exact Keeps.refl _
              · refine KeepsF.ite ?_ ?_
                · refine KeepsF.trans ?_ (keeps_iramWinRead _ _ _)
                  exact Keeps.refl _
                · refine KeepsF.mk ?_
                  exact Keeps.refl _

theorem keeps_curPln (s : State) (p1 : Nat) : KeepsF 0 s (curPln s p1) := by
  unfold curPln
  extract_lets -underBinder -merge -useContext +onlyGivenNames x1
  try clear_value x1
  refine KeepsF.ite ?_ ?_
  · refine KeepsF.trans ?_ (keeps_rdN _ _)
    exact Keeps.refl _
  · refine KeepsF.ite ?_ ?_
    · refine KeepsF.trans ?_ (keeps_rdN _ _)
      exact Keeps.refl _
    · refine KeepsF.ite ?_ ?_
      · refine KeepsF.trans ?_ (keeps_rdN _ _)
        exact Keeps.refl _
      · refine KeepsF.ite ?_ ?_
        · refine KeepsF.trans ?_ (keeps_rdN _ _)
          exact Keeps.refl _
        · refine KeepsF.ite ?_ ?_
          · refine KeepsF.trans ?_ (keeps_rdN _ _)
            exact Keeps.refl _
          · refine KeepsF.ite ?_ ?_
            · refine KeepsF.trans ?_ (keeps_rdN _ _)
              exact Keeps.refl _
            · refine KeepsF.ite ?_ ?_
              · refine KeepsF.trans ?_ (keeps_rdN _ _)
                exact Keeps.refl _
              · refine KeepsF.ite ?_ ?_
                · refine KeepsF.trans ?_ (keeps_rdN _ _)
                  exact Keeps.refl _
                · refine KeepsF.ite ?_ ?_
                  · refine KeepsF.trans ?_ (keeps_rdN _ _)
                    exact Keeps.refl _
                  · refine KeepsF.ite ?_ ?_
                    · refine KeepsF.trans ?_ (keeps_rdN _ _)
                      exact Keeps.refl _
                    · refine KeepsF.ite ?_ ?_
                      · refine KeepsF.trans ?_ (keeps_rdN _ _)
                        exact Keeps.refl _
                      · refine KeepsF.mk ?_
                        exact Keeps.refl _

theorem keeps_curVlt (s : State) (p1 : Nat) : KeepsF 0 s (curVlt s p1) := by
  unfold curVlt
  extract_lets -underBinder -merge -useContext +onlyGivenNames x1
  try clear_value x1
  extract_lets -underBinder -merge -useContext +onlyGivenNames x2
  try clear_value x2
  extract_lets -underBinder -merge -useContext +onlyGivenNames x3
  try clear_value x3
  refine KeepsF.ite ?_ ?_
  · refine KeepsF.trans ?_ (keeps_rdN _ _)
    exact Keeps.refl _
  · refine KeepsF.ite ?_ ?_
    · refine KeepsF.trans ?_ (keeps_rdN _ _)
      exact Keeps.refl _
    · refine KeepsF.ite ?_ ?_
      · refine KeepsF.trans ?_ (keeps_rdN _ _)
        exact Keeps.refl _
      · refine KeepsF.ite ?_ ?_
        · refine KeepsF.trans ?_ (keeps_rdN _ _)
          exact Keeps.refl _
        · refine KeepsF.ite ?_ ?_
          · refine KeepsF.trans ?_ (keeps_rdN _ _)
            exact Keeps.refl _
          · refine KeepsF.ite ?_ ?_
            · refine KeepsF.trans ?_ (keeps_rdN _ _)
              exact Keeps.refl _
            · refine KeepsF.ite ?_ ?_
              · refine KeepsF.trans ?_ (keeps_rdN _ _)
                exact Keeps.refl _
              · refine KeepsF.ite ?_ ?_
                · split
                  · refine KeepsF.trans ?_ (keeps_rdN _ _)
                    exact Keeps.refl _
                  · refine KeepsF.trans ?_ (keeps_rdN _ _)
                    exact Keeps.refl _
                · refine KeepsF.ite ?_ ?_
                  · refine KeepsF.trans ?_ (keeps_rdN _ _)
                    exact Keeps.refl _
                  · refine KeepsF.ite ?_ ?_
                    · split
                      · refine KeepsF.trans ?_ (keeps_rdN _ _)
                        exact Keeps.refl _
                      · refine KeepsF.trans ?_ (keeps_rdN _ _)
                        exact Keeps.refl _
                    · refine KeepsF.ite ?_ ?_
                      · extract_lets -underBinder -merge -useContext +onlyGivenNames x4
                        try clear_value x4
                        split
                        · refine KeepsF.trans ?_ (keeps_rdN _ _)
                          exact Keeps.refl _
                        · refine KeepsF.trans ?_ (keeps_rdN _ _)
                          exact Keeps.refl _
                      · refine KeepsF.mk ?_
                        exact Keeps.refl _

theorem keeps_curAcc (s : State) (p1 : Nat) : KeepsF 1 s (curAcc s p1) := by
  unfold curAcc
  refine KeepsF.ite ?_ ?_
  · extract_lets -underBinder -merge -useContext +onlyGivenNames x1
    try clear_value x1
    refine KeepsF.ite ?_ ?_
    · refine KeepsF.trans ?_ (keeps_accAllocRead _)
      exact Keeps.refl _
    · refine KeepsF.ite ?_ ?_
      · refine KeepsF.trans ?_ (keeps_rdN _ _)
        exact Keeps.refl _
      · refine KeepsF.ite ?_ ?_
        · refine KeepsF.trans ?_ (keeps_rdN _ _)
          exact Keeps.refl _
        · refine KeepsF.ite ?_ ?_
          · refine KeepsF.trans ?_ (keeps_rdN _ _)
            exact Keeps.refl _
          · refine KeepsF.ite ?_ ?_
            · refine KeepsF.mk ?_
              exact Keeps.refl _
            · refine KeepsF.mk ?_
              exact Keeps.refl _
  · refine KeepsF.ite ?_ ?_
    · refine KeepsF.mk ?_
      exact Keeps.refl _
    · refine KeepsF.mk ?_
      exact Keeps.refl _

theorem keeps_curArc (s : State) (p1 : Nat) (p2 : Nat) : KeepsF 0 s (curArc s p1 p2) := by
  unfold curArc
  refine KeepsF.ite ?_ ?_
  · refine KeepsF.trans ?_ (keeps_rdN _ _)
    exact Keeps.refl _
  · refine KeepsF.ite ?_ ?_
    · refine KeepsF.trans ?_ (keeps_rdN _ _)
      exact Keeps.refl _
    · refine KeepsF.ite ?_ ?_
      · refine KeepsF.mk ?_
        exact Keeps.refl _
      · refine KeepsF.mk ?_
        exact Keeps.refl _

theorem keeps_curCap (s : State) (p1 : Nat) : KeepsF 1 s (curCap s p1) := by
  unfold curCap
  refine KeepsF.ite ?_ ?_
  · refine KeepsF.trans ?_ (keeps_rdN _ _)
    exact Keeps.refl _
  · refine KeepsF.ite ?_ ?_
    · refine KeepsF.trans ?_ (keeps_rdN _ _)
      exact Keeps.refl _
    · refine KeepsF.ite ?_ ?_
      · refine KeepsF.trans ?_ (keeps_capRdData _)
        exact Keeps.refl _
      · refine KeepsF.mk ?_
        exact Keeps.refl _

theorem keeps_curQue (s : State) (p1 : Nat) : KeepsF 0 s (curQue s p1) := by
  unfold curQue
  extract_lets -underBinder -merge -useContext +onlyGivenNames x1
  try clear_value x1
  extract_lets -underBinder -merge -useContext +onlyGivenNames x2
  try clear_value x2
  extract_lets -underBinder -merge -useContext +onlyGivenNames x3
  try clear_value x3
  refine KeepsF.ite ?_ ?_
  · refine KeepsF.trans ?_ (keeps_rdN _ _)
    exact Keeps.refl _
  · refine KeepsF.ite ?_ ?_
    · refine KeepsF.trans ?_ (keeps_rdN _ _)
      exact Keeps.refl _
    · refine KeepsF.ite ?_ ?_
      · refine KeepsF.trans ?_ (keeps_rdN _ _)
        exact Keeps.refl _
      · refine KeepsF.ite ?_ ?_
        · refine KeepsF.mk ?_
          exact Keeps.refl _
        · refine KeepsF.ite ?_ ?_
          · refine KeepsF.mk ?_
            exact Keeps.refl _
          · refine KeepsF.ite ?_ ?_
            · refine KeepsF.mk ?_
              exact Keeps.refl _
            · refine KeepsF.ite ?_ ?_
              · refine KeepsF.trans ?_ (keeps_rdN _ _)
                exact Keeps.refl _
              · refine KeepsF.ite ?_ ?_
                · refine KeepsF.trans ?_ (keeps_rdN _ _)
                  exact Keeps.refl _
                · refine KeepsF.ite ?_ ?_
                  · refine KeepsF.trans ?_ (keeps_rdN _ _)
                    exact Keeps.refl _
                  · refine KeepsF.ite ?_ ?_
                    · refine KeepsF.trans ?_ (keeps_rdN _ _)
                      exact Keeps.refl _
                    · refine KeepsF.ite ?_ ?_
                      · refine KeepsF.trans ?_ (keeps_rdN _ _)
                        exact Keeps.refl _
                      · refine KeepsF.mk ?_
                        exact Keeps.refl _

theorem keeps_curEth (s : State) (p1 : Nat) : KeepsF 0 s (curEth s p1) := by
  unfold curEth
  refine KeepsF.ite ?_ ?_
  · refine KeepsF.mk ?_
    exact Keeps.refl _
  · extract_lets -underBinder -merge -useContext +onlyGivenNames x1
    try clear_value x1
    extract_lets -underBinder -merge -useContext +onlyGivenNames x2
    try clear_value x2
    refine KeepsF.ite ?_ ?_
    · refine KeepsF.trans ?_ (keeps_rdN _ _)
      exact Keeps.refl _
    · refine KeepsF.ite ?_ ?_
      · refine KeepsF.trans ?_ (keeps_rdN _ _)
        exact Keeps.refl _
      · refine KeepsF.mk ?_
        exact Keeps.refl _

theorem keeps_curHsh (s : State) (p1 : Nat) : KeepsF 0 s (curHsh s p1) := by
  unfold curHsh
  extract_lets -underBinder -merge -useContext +onlyGivenNames x1
  try clear_value x1
  refine KeepsF.ite ?_ ?_
  · refine KeepsF.trans ?_ (keeps_rdN _ _)
    exact Keeps.refl _
  · refine KeepsF.ite ?_ ?_
    · refine KeepsF.trans ?_ (keeps_rdN _ _)
      exact Keeps.refl _
    · refine KeepsF.ite ?_ ?_
      · refine KeepsF.trans ?_ (keeps_rdN _ _)
        exact Keeps.refl _
      · refine KeepsF.ite ?_ ?_
        · refine KeepsF.trans ?_ (keeps_rdN _ _)
          exact Keeps.refl _
        · refine KeepsF.ite ?_ ?_
          · refine KeepsF.trans ?_ (keeps_rdN _ _)
            exact Keeps.refl _
          · refine KeepsF.ite ?_ ?_
            · refine KeepsF.mk ?_
              exact Keeps.refl _
            · refine KeepsF.mk ?_
              exact Keeps.refl _

theorem keeps_curAfe (s : State) (p1 : Nat) : KeepsF 0 s (curAfe s p1) := by
  unfold curAfe
  extract_lets -underBinder -merge -useContext +onlyGivenNames x1
  try clear_value x1
  refine KeepsF.ite ?_ ?_
  · refine KeepsF.trans ?_ (keeps_rdN _ _)
    exact Keeps.refl _
  · refine KeepsF.ite ?_ ?_
    · extract_lets -underBinder -merge -useContext +onlyGivenNames x2
      try clear_value x2
      refine KeepsF.trans ?_ (keeps_rdN _ _)
      exact Keeps.refl _
    · refine KeepsF.mk ?_
      exact Keeps.refl _

theorem keeps_curFlt (s : State) (p1 : Nat) (p2 : Nat) : KeepsF 0 s (curFlt s p1 p2) := by
  unfold curFlt
  refine KeepsF.ite ?_ ?_
  · refine KeepsF.mk ?_
    exact Keeps.refl _
  · refine KeepsF.ite ?_ ?_
    · refine KeepsF.trans ?_ (keeps_rdN _ _)
      exact Keeps.refl _
    · refine KeepsF.ite ?_ ?_
      · refine KeepsF.trans ?_ (keeps_rdN _ _)
        exact Keeps.refl _
      · refine KeepsF.mk ?_
        exact Keeps.refl _

theorem keeps_curElem (s : State) (p1 : Nat) (p2 : Nat) (p3 : Nat) (p4 : Nat) : KeepsF 524288 s (curElem s p1 p2 p3 p4) := by
  unfold curElem
  refine KeepsF.ite ?_ ?_
  · refine KeepsF.trans ?_ (keeps_intValRead _ _ _ _)
    exact Keeps.refl _
  · refine KeepsF.ite ?_ ?_
    · refine KeepsF.mk ?_
      exact Keeps.refl _
    · refine KeepsF.ite ?_ ?_
      · refine KeepsF.trans ?_ (keeps_rdN _ _)
        exact Keeps.refl _
      · refine KeepsF.ite ?_ ?_
        · extract_lets -underBinder -merge -useContext +onlyGivenNames x1
          try clear_value x1
          extract_lets -underBinder -merge -useContext +onlyGivenNames x2
          try clear_value x2
          refine KeepsF.trans ?_ (keeps_rdN _ _)
          exact Keeps.refl _
        · refine KeepsF.ite ?_ ?_
          · refine KeepsF.mk ?_
            exact Keeps.refl _
          · refine KeepsF.mk ?_
            exact Keeps.refl _

theorem keeps_curNrg (s : State) (p1 : Nat) (p2 : Nat) : KeepsF 524288 s (curNrg s p1 p2) := by
  unfold curNrg
  extract_lets -underBinder -merge -useContext +onlyGivenNames x1
  try clear_value x1
  refine KeepsF.ite ?_ ?_
  · refine KeepsF.mk ?_
    exact Keeps.refl _
  · refine KeepsF.ite ?_ ?_
    · refine KeepsF.trans ?_ (keeps_rdN _ _)
      exact Keeps.refl _
    · refine KeepsF.ite ?_ ?_
      · refine KeepsF.trans ?_ (keeps_rdN _ _)
        exact Keeps.refl _
      · refine KeepsF.ite ?_ ?_
        · refine KeepsF.trans ?_ (keeps_rdN _ _)
          exact Keeps.refl _
        · refine KeepsF.ite ?_ ?_
          · refine KeepsF.trans ?_ (keeps_rdN _ _)
            exact Keeps.refl _
          · refine KeepsF.ite ?_ ?_
            · extract_lets -underBinder -merge -useContext +onlyGivenNames x2
              try clear_value x2
              refine KeepsF.trans ?_ (keeps_rdN _ _)
              exact Keeps.refl _
            · refine KeepsF.ite ?_ ?_
              · refine KeepsF.trans ?_ (keeps_curElem _ _ _ _ _)
                exact Keeps.refl _
              · refine KeepsF.mk ?_
                exact Keeps.refl _

theorem keeps_curWord (s : State) (p1 : Nat) (p2 : Nat) : KeepsF 2623519 s (curWord s p1 p2) := by
  unfold curWord
  extract_lets -underBinder -merge -useContext +onlyGivenNames x1
  have h1 : KeepsF 2623519 s x1 := by
    unfold x1
    refine KeepsF.ite ?_ ?_
    · refine KeepsF.mk ?_
      exact Keeps.refl _
    · refine KeepsF.ite ?_ ?_
      · refine KeepsF.trans ?_ (keeps_curHst _ _)
        exact Keeps.refl _
      · refine KeepsF.ite ?_ ?_
        · refine KeepsF.trans ?_ (keeps_curPwr _ _ _)
          exact Keeps.refl _
        · refine KeepsF.ite ?_ ?_
          · refine KeepsF.trans ?_ (keeps_curPce _ _)
            exact Keeps.refl _
          · refine KeepsF.ite ?_ ?_
            · refine KeepsF.trans ?_ (keeps_curTim _ _ _)
              exact Keeps.refl _
            · refine KeepsF.ite ?_ ?_
              · refine KeepsF.trans ?_ (keeps_curKey _ _)
                exact Keeps.refl _
              · refine KeepsF.ite ?_ ?_
                · refine KeepsF.trans ?_ (keeps_curLog _ _ _)
                  exact Keeps.refl _
                · refine KeepsF.ite ?_ ?_
                  · refine KeepsF.ite ?_ ?_
                    · refine KeepsF.trans ?_ (keeps_twnStateRead _)
                      exact Keeps.refl _
                    · refine KeepsF.mk ?_
                      exact Keeps.refl _
                  · refine KeepsF.ite ?_ ?_
                    · refine KeepsF.trans ?_ (keeps_curVrd _ _)
                      exact Keeps.refl _
                    · refine KeepsF.ite ?_ ?_
                      · refine KeepsF.trans ?_ (keeps_curDsp _ _ _)
                        exact Keeps.refl _
                      · refine KeepsF.ite ?_ ?_
                        · refine KeepsF.trans ?_ (keeps_curDoc _ _ _)
                          exact Keeps.refl _
                        · refine KeepsF.ite ?_ ?_
                          · refine KeepsF.trans ?_ (keeps_curPln _ _)
                            exact Keeps.refl _
                          · refine KeepsF.ite ?_ ?_
                            · refine KeepsF.trans ?_ (keeps_curVlt _ _)
                              exact Keeps.refl _
                            · refine KeepsF.ite ?_ ?_
                              · refine KeepsF.trans ?_ (keeps_curAcc _ _)
                                exact Keeps.refl _
                              · refine KeepsF.ite ?_ ?_
                                · refine KeepsF.trans ?_ (keeps_curArc _ _ _)
                                  exact Keeps.refl _
                                · refine KeepsF.ite ?_ ?_
                                  · refine KeepsF.trans ?_ (keeps_curCap _ _)
                                    exact Keeps.refl _
                                  · refine KeepsF.ite ?_ ?_
                                    · refine KeepsF.trans ?_ (keeps_curQue _ _)
                                      exact Keeps.refl _
                                    · refine KeepsF.ite ?_ ?_
                                      · refine KeepsF.trans ?_ (keeps_curEth _ _)
                                        exact Keeps.refl _
                                      · refine KeepsF.ite ?_ ?_
                                        · refine KeepsF.trans ?_ (keeps_curHsh _ _)
                                          exact Keeps.refl _
                                        · refine KeepsF.ite ?_ ?_
                                          · refine KeepsF.trans ?_ (keeps_curAcc _ _)
                                            exact Keeps.refl _
                                          · refine KeepsF.ite ?_ ?_
                                            · refine KeepsF.trans ?_ (keeps_curDoc _ _ _)
                                              exact Keeps.refl _
                                            · refine KeepsF.ite ?_ ?_
                                              · refine KeepsF.trans ?_ (keeps_curAfe _ _)
                                                exact Keeps.refl _
                                              · refine KeepsF.ite ?_ ?_
                                                · refine KeepsF.trans ?_ (keeps_curFlt _ _ _)
                                                  exact Keeps.refl _
                                                · refine KeepsF.trans ?_ (keeps_curNrg _ _ _)
                                                  exact Keeps.refl _
  try clear_value x1
  split
  · assumption
  · refine KeepsF.ite ?_ ?_
    · assumption
    · extract_lets -underBinder -merge -useContext +onlyGivenNames x2
      try clear_value x2
      refine KeepsF.mk ?_
      refine Keeps.trans ?_ (keeps_setReg _ _ _)
      refine KeepsF.snd ?_
      assumption

theorem keeps_readReg (s : State) (p1 : Nat) (p2 : Nat) : KeepsF 2623519 s (readReg s p1 p2) := by
  unfold readReg
  split
  · extract_lets -underBinder -merge -useContext +onlyGivenNames x1
    have h1 : KeepsF 2623519 s x1 := by
      unfold x1
      refine KeepsF.trans ?_ (keeps_curWord _ _ _)
      exact Keeps.refl _
    try clear_value x1
    extract_lets -underBinder -merge -useContext +onlyGivenNames x2
    have h2 : KeepsF 2623519 s x2 := by
      unfold x2
      refine KeepsF.mk ?_
      refine Keeps.trans ?_ (keeps_evt _ _ _)
      refine Keeps.trans ?_ (keeps_bump _ _)
      refine KeepsF.snd ?_
      assumption
    try clear_value x2
    split
    · refine KeepsF.ite ?_ ?_
      · refine KeepsF.mk ?_
        exact Keeps.refl _
      · assumption
    · assumption
  · extract_lets -underBinder -merge -useContext +onlyGivenNames x3
    have h3 : KeepsF 2623519 s x3 := by
      unfold x3
      refine KeepsF.trans ?_ (keeps_curWord _ _ _)
      exact Keeps.refl _
    try clear_value x3
    split
    · assumption
    · refine KeepsF.mk ?_
      refine Keeps.trans ?_ (keeps_latchWords _ _ _ _)
      refine KeepsF.snd ?_
      assumption

end Sys2Proof.Machine
end

