-- ==== Sys2Proof/Laws/KeepsHostWrite.lean ====
section
/-! SUPPORT. What each function of Machine/HostWrite.lean leaves unchanged (the mask names the areas it may change). -/

set_option Elab.async false

namespace Sys2Proof.Machine

theorem keeps_clearRegs (s : State) (p1 : List Nat) : Keeps 1 s (clearRegs s p1) := by
  unfold clearRegs
  refine Keeps.foldl ?_ (fun y1 a1 hy1 => ?_)
  · exact Keeps.refl _
  · refine Keeps.trans ?_ (keeps_setReg _ _ _)
    assumption

theorem keeps_statPeaks (s : State) (p1 : Nat) : Keeps 11300 s (statPeaks s p1) := by
  unfold statPeaks
  refine Keeps.ite ?_ ?_
  · refine Keeps.trans ?_ (keeps_logStatClr _)
    exact Keeps.refl _
  · refine Keeps.ite ?_ ?_
    · refine Keeps.upd (t := s) ?_ rfl rfl rfl (Nat.le_refl _)
      exact Keeps.refl _
    · refine Keeps.ite ?_ ?_
      · refine Keeps.upd (t := s) ?_ rfl rfl rfl (Nat.le_refl _)
        exact Keeps.refl _
      · refine Keeps.ite ?_ ?_
        · refine Keeps.trans ?_ (keeps_vltStatClr _)
          exact Keeps.refl _
        · refine Keeps.ite ?_ ?_
          · refine Keeps.foldl ?_ (fun y1 a1 hy1 => ?_)
            · exact Keeps.refl _
            · refine Keeps.trans ?_ (keeps_setQ _ _ _)
              assumption
          · exact Keeps.refl _

theorem keeps_statClr (s : State) (p1 : Nat) : Keeps 11317 s (statClr s p1) := by
  unfold statClr
  extract_lets -underBinder -merge -useContext +onlyGivenNames x1
  have h1 : Keeps 11317 s x1 := by
    unfold x1
    refine Keeps.ite ?_ ?_
    · refine Keeps.trans ?_ (keeps_shortTick _)
      exact Keeps.refl _
    · refine Keeps.ite ?_ ?_
      · refine Keeps.foldl ?_ (fun y2 a2 hy2 => ?_)
        · exact Keeps.refl _
        · refine Keeps.trans ?_ (keeps_holdTick _ _)
          assumption
      · exact Keeps.refl _
  try clear_value x1
  extract_lets -underBinder -merge -useContext +onlyGivenNames x3
  have h3 : Keeps 11317 s x3 := by
    unfold x3
    refine Keeps.trans ?_ (keeps_clearRegs _ _)
    refine Keeps.trans ?_ (keeps_statPeaks _ _)
    assumption
  try clear_value x3
  refine Keeps.trans ?_ (keeps_setReg _ _ _)
  assumption

theorem keeps_msixRelease (s : State) : Keeps 7 s (msixRelease s) := by
  unfold msixRelease
  refine Keeps.foldl ?_ (fun y1 a1 hy1 => ?_)
  · exact Keeps.refl _
  · refine Keeps.ite ?_ ?_
    · refine Keeps.trans ?_ (keeps_sendMsi _ _)
      refine Keeps.upd (t := y1) ?_ rfl rfl rfl (Nat.le_refl _)
      assumption
    · assumption

theorem keeps_vectorAck (s : State) (p1 : Nat) : Keeps 7 s (vectorAck s p1) := by
  unfold vectorAck
  refine Keeps.ite ?_ ?_
  · refine Keeps.trans ?_ (keeps_sendMsi _ _)
    exact Keeps.refl _
  · exact Keeps.refl _

theorem keeps_ddrCfgWrite (s : State) (p1 : Word) : Keeps 1 s (ddrCfgWrite s p1) := by
  unfold ddrCfgWrite
  extract_lets -underBinder -merge -useContext +onlyGivenNames x1
  try clear_value x1
  extract_lets -underBinder -merge -useContext +onlyGivenNames x2
  try clear_value x2
  refine Keeps.ite ?_ ?_
  · refine Keeps.ite ?_ ?_
    · exact Keeps.refl _
    · refine Keeps.trans ?_ (keeps_refuseC _ _ _)
      exact Keeps.refl _
  · extract_lets -underBinder -merge -useContext +onlyGivenNames x3
    try clear_value x3
    extract_lets -underBinder -merge -useContext +onlyGivenNames x4
    try clear_value x4
    extract_lets -underBinder -merge -useContext +onlyGivenNames x5
    try clear_value x5
    extract_lets -underBinder -merge -useContext +onlyGivenNames x6
    have h6 : Keeps 1 s x6 := by
      unfold x6
      refine Keeps.trans ?_ (keeps_setReg _ _ _)
      exact Keeps.refl _
    try clear_value x6
    refine Keeps.ite ?_ ?_
    · assumption
    · refine Keeps.trans ?_ (keeps_refuseC _ _ _)
      assumption

theorem keeps_ddrStart (s : State) : Keeps 3 s (ddrStart s) := by
  unfold ddrStart
  refine Keeps.ite ?_ ?_
  · refine Keeps.trans ?_ (keeps_opRefuseStart _ _)
    exact Keeps.refl _
  · refine Keeps.ite ?_ ?_
    · exact Keeps.refl _
    · extract_lets -underBinder -merge -useContext +onlyGivenNames x1
      have h1 : Keeps 3 s x1 := by
        unfold x1
        refine Keeps.trans ?_ (keeps_opStart _ _)
        exact Keeps.refl _
      try clear_value x1
      refine Keeps.upd (t := x1) ?_ rfl rfl rfl (Nat.le_refl _)
      assumption

theorem keeps_ddrStop (s : State) : Keeps 7 s (ddrStop s) := by
  unfold ddrStop
  refine Keeps.ite ?_ ?_
  · refine Keeps.trans ?_ (keeps_evt _ _ _)
    refine Keeps.trans ?_ (keeps_opStop _ _)
    exact Keeps.refl _
  · refine Keeps.trans ?_ (keeps_opStop _ _)
    exact Keeps.refl _

theorem keeps_writeHst (s : State) (p1 : Nat) (p2 : Word) : Keeps 7 s (writeHst s p1 p2) := by
  unfold writeHst
  refine Keeps.ite ?_ ?_
  · exact Keeps.refl _
  · refine Keeps.ite ?_ ?_
    · refine Keeps.trans ?_ (keeps_vectorAck _ _)
      exact Keeps.refl _
    · refine Keeps.ite ?_ ?_
      · refine Keeps.trans ?_ (keeps_ddrCfgWrite _ _)
        exact Keeps.refl _
      · refine Keeps.ite ?_ ?_
        · extract_lets -underBinder -merge -useContext +onlyGivenNames x1
          have h1 : Keeps 7 s x1 := by
            unfold x1
            refine Keeps.ite ?_ ?_
            · refine Keeps.trans ?_ (keeps_ddrStop _)
              exact Keeps.refl _
            · exact Keeps.refl _
          try clear_value x1
          refine Keeps.ite ?_ ?_
          · refine Keeps.trans ?_ (keeps_ddrStart _)
            assumption
          · assumption
        · refine Keeps.ite ?_ ?_
          · refine Keeps.ite ?_ ?_
            · refine Keeps.trans ?_ (keeps_refuse _ _ _)
              exact Keeps.refl _
            · refine Keeps.trans ?_ (keeps_setReg _ _ _)
              exact Keeps.refl _
          · refine Keeps.ite ?_ ?_
            · refine Keeps.ite ?_ ?_
              · refine Keeps.trans ?_ (keeps_refuse _ _ _)
                exact Keeps.refl _
              · refine Keeps.trans ?_ (keeps_irqEval _)
                refine Keeps.trans ?_ (keeps_setReg _ _ _)
                exact Keeps.refl _
            · refine Keeps.ite ?_ ?_
              · refine Keeps.trans ?_ (keeps_msixRelease _)
                refine Keeps.trans ?_ (keeps_specWrite _ _ _)
                exact Keeps.refl _
              · refine Keeps.trans ?_ (keeps_irqEval _)
                refine Keeps.trans ?_ (keeps_specWrite _ _ _)
                exact Keeps.refl _

theorem keeps_writePwr (s : State) (p1 : Nat) (p2 : Nat) (p3 : Word) : Keeps 8388607 s (writePwr s p1 p2 p3) := by
  unfold writePwr
  refine Keeps.ite ?_ ?_
  · refine Keeps.trans ?_ (keeps_trimFollow _)
    refine Keeps.trans ?_ (keeps_specWrite _ _ _)
    exact Keeps.refl _
  · refine Keeps.ite ?_ ?_
    · refine Keeps.trans ?_ (keeps_pwrReqWrite _ _ _)
      exact Keeps.refl _
    · refine Keeps.ite ?_ ?_
      · refine Keeps.trans ?_ (keeps_gateWrite _ _)
        exact Keeps.refl _
      · refine Keeps.ite ?_ ?_
        · refine Keeps.trans ?_ (keeps_paceEdgeEval _)
          refine Keeps.trans ?_ (keeps_specWrite _ _ _)
          exact Keeps.refl _
        · refine Keeps.ite ?_ ?_
          · refine Keeps.ite ?_ ?_
            · refine Keeps.trans ?_ (keeps_softReset _)
              exact Keeps.refl _
            · exact Keeps.refl _
          · refine Keeps.ite ?_ ?_
            · refine Keeps.trans ?_ (keeps_bootCtrl _ _)
              exact Keeps.refl _
            · refine Keeps.trans ?_ (keeps_irqEval _)
              refine Keeps.trans ?_ (keeps_specWrite _ _ _)
              exact Keeps.refl _

theorem keeps_writePce (s : State) (p1 : Nat) (p2 : Word) : Keeps 23 s (writePce s p1 p2) := by
  unfold writePce
  refine Keeps.ite ?_ ?_
  · refine Keeps.trans ?_ (keeps_pceCfgStore _ _)
    exact Keeps.refl _
  · refine Keeps.ite ?_ ?_
    · refine Keeps.trans ?_ (keeps_pceCapStore _ _)
      exact Keeps.refl _
    · refine Keeps.ite ?_ ?_
      · extract_lets -underBinder -merge -useContext +onlyGivenNames x1
        have h1 : Keeps 23 s x1 := by
          unfold x1
          refine Keeps.ite ?_ ?_
          · refine Keeps.trans ?_ (keeps_pceCalStop _ _)
            exact Keeps.refl _
          · exact Keeps.refl _
        try clear_value x1
        refine Keeps.ite ?_ ?_
        · refine Keeps.trans ?_ (keeps_pceCalStart _)
          assumption
        · assumption
      · refine Keeps.trans ?_ (keeps_irqEval _)
        refine Keeps.trans ?_ (keeps_specWrite _ _ _)
        exact Keeps.refl _

theorem keeps_writeTim (s : State) (p1 : Nat) (p2 : Nat) (p3 : Word) : Keeps 2665919 s (writeTim s p1 p2 p3) := by
  unfold writeTim
  extract_lets -underBinder -merge -useContext +onlyGivenNames x1
  try clear_value x1
  extract_lets -underBinder -merge -useContext +onlyGivenNames x2
  try clear_value x2
  extract_lets -underBinder -merge -useContext +onlyGivenNames x3
  try clear_value x3
  refine Keeps.ite ?_ ?_
  · refine Keeps.trans ?_ (keeps_selectWrite _ _)
    exact Keeps.refl _
  · refine Keeps.ite ?_ ?_
    · extract_lets -underBinder -merge -useContext +onlyGivenNames x4
      try clear_value x4
      refine Keeps.ite ?_ ?_
      · refine Keeps.trans ?_ (keeps_domCfgWrite _ _ _)
        exact Keeps.refl _
      · refine Keeps.ite ?_ ?_
        · refine Keeps.trans ?_ (keeps_setReg _ _ _)
          exact Keeps.refl _
        · refine Keeps.ite ?_ ?_
          · refine Keeps.trans ?_ (keeps_domCmd _ _ _ _)
            exact Keeps.refl _
          · refine Keeps.trans ?_ (keeps_pinEval _)
            refine Keeps.trans ?_ (keeps_specWrite _ _ _)
            exact Keeps.refl _
    · refine Keeps.ite ?_ ?_
      · refine Keeps.ite ?_ ?_
        · refine Keeps.trans ?_ (keeps_setReg _ _ _)
          exact Keeps.refl _
        · refine Keeps.ite ?_ ?_
          · refine Keeps.trans ?_ (keeps_setReg _ _ _)
            exact Keeps.refl _
          · refine Keeps.ite ?_ ?_
            · refine Keeps.trans ?_ (keeps_leapWrite _ _ _)
              exact Keeps.refl _
            · exact Keeps.refl _
      · refine Keeps.ite ?_ ?_
        · refine Keeps.ite ?_ ?_
          · refine Keeps.trans ?_ (keeps_setReg _ _ _)
            exact Keeps.refl _
          · exact Keeps.refl _
        · refine Keeps.trans ?_ (keeps_irqEval _)
          refine Keeps.trans ?_ (keeps_specWrite _ _ _)
          exact Keeps.refl _

theorem keeps_writeKey (s : State) (p1 : Nat) (p2 : Nat) (p3 : Word) : Keeps 16391 s (writeKey s p1 p2 p3) := by
  unfold writeKey
  refine Keeps.ite ?_ ?_
  · refine Keeps.trans ?_ (keeps_setReg _ _ _)
    exact Keeps.refl _
  · refine Keeps.ite ?_ ?_
    · refine Keeps.trans ?_ (keeps_keyCmdWrite _ _ _)
      exact Keeps.refl _
    · refine Keeps.trans ?_ (keeps_irqEval _)
      refine Keeps.trans ?_ (keeps_specWrite _ _ _)
      exact Keeps.refl _

theorem keeps_writeVrd (s : State) (p1 : Nat) (p2 : Word) : Keeps 2138279 s (writeVrd s p1 p2) := by
  unfold writeVrd
  refine Keeps.ite ?_ ?_
  · refine Keeps.trans ?_ (keeps_pinClearWrite _ _)
    exact Keeps.refl _
  · refine Keeps.ite ?_ ?_
    · refine Keeps.trans ?_ (keeps_pinForceWrite _ _)
      exact Keeps.refl _
    · refine Keeps.trans ?_ (keeps_irqEval _)
      refine Keeps.trans ?_ (keeps_specWrite _ _ _)
      exact Keeps.refl _

theorem keeps_writeDsp (s : State) (p1 : Nat) (p2 : Nat) (p3 : Word) : Keeps 2132135 s (writeDsp s p1 p2 p3) := by
  unfold writeDsp
  refine Keeps.ite ?_ ?_
  · refine Keeps.trans ?_ (keeps_setReg _ _ _)
    exact Keeps.refl _
  · refine Keeps.ite ?_ ?_
    · refine Keeps.ite ?_ ?_
      · refine Keeps.trans ?_ (keeps_doorbellRing _ _ _)
        exact Keeps.refl _
      · exact Keeps.refl _
    · refine Keeps.trans ?_ (keeps_irqEval _)
      refine Keeps.trans ?_ (keeps_specWrite _ _ _)
      exact Keeps.refl _

theorem keeps_writePln (s : State) (p1 : Nat) (p2 : Word) : Keeps 2142135 s (writePln s p1 p2) := by
  unfold writePln
  refine Keeps.ite ?_ ?_
  · refine Keeps.trans ?_ (keeps_plnLoadWrite _ _)
    exact Keeps.refl _
  · refine Keeps.ite ?_ ?_
    · refine Keeps.trans ?_ (keeps_plnDataStore _ _)
      exact Keeps.refl _
    · refine Keeps.ite ?_ ?_
      · refine Keeps.trans ?_ (keeps_plnSwapWrite _ _)
        exact Keeps.refl _
      · refine Keeps.ite ?_ ?_
        · refine Keeps.trans ?_ (keeps_plnShort _ _)
          exact Keeps.refl _
        · refine Keeps.ite ?_ ?_
          · refine Keeps.trans ?_ (keeps_plnCommitWrite _ _)
            exact Keeps.refl _
          · refine Keeps.trans ?_ (keeps_irqEval _)
            refine Keeps.trans ?_ (keeps_specWrite _ _ _)
            exact Keeps.refl _

theorem keeps_writeVlt (s : State) (p1 : Nat) (p2 : Word) : Keeps 2131111 s (writeVlt s p1 p2) := by
  unfold writeVlt
  refine Keeps.ite ?_ ?_
  · refine Keeps.trans ?_ (keeps_forceCmd _ _)
    exact Keeps.refl _
  · refine Keeps.ite ?_ ?_
    · refine Keeps.trans ?_ (keeps_viewIndexHi _ _ _)
      exact Keeps.refl _
    · refine Keeps.ite ?_ ?_
      · refine Keeps.trans ?_ (keeps_viewIndexHi _ _ _)
        exact Keeps.refl _
      · refine Keeps.trans ?_ (keeps_irqEval _)
        refine Keeps.trans ?_ (keeps_specWrite _ _ _)
        exact Keeps.refl _

theorem keeps_writeAcc (s : State) (p1 : Nat) (p2 : Word) : Keeps 2138791 s (writeAcc s p1 p2) := by
  unfold writeAcc
  extract_lets -underBinder -merge -useContext +onlyGivenNames x1
  have h1 : ∀ z2 z3, Keeps 2138791 s (x1 z2 z3) := by
    intro z2 z3
    unfold x1
    refine Keeps.ite ?_ ?_
    · refine Keeps.trans ?_ (keeps_pinEval _)
      refine Keeps.trans ?_ (keeps_accCtlWrite _ _ _)
      exact Keeps.refl _
    · refine Keeps.trans ?_ (keeps_accBodyWrite _ _ _ _)
      exact Keeps.refl _
  try clear_value x1
  refine Keeps.ite ?_ ?_
  · exact h1 ..
  · refine Keeps.ite ?_ ?_
    · exact h1 ..
    · refine Keeps.trans ?_ (keeps_irqEval _)
      refine Keeps.trans ?_ (keeps_specWrite _ _ _)
      exact Keeps.refl _

theorem keeps_writeArc (s : State) (p1 : Nat) (p2 : Nat) (p3 : Word) : Keeps 65543 s (writeArc s p1 p2 p3) := by
  unfold writeArc
  refine Keeps.ite ?_ ?_
  · refine Keeps.trans ?_ (keeps_setReg _ _ _)
    exact Keeps.refl _
  · refine Keeps.ite ?_ ?_
    · refine Keeps.trans ?_ (keeps_arcCtrl _ _ _)
      exact Keeps.refl _
    · refine Keeps.trans ?_ (keeps_irqEval _)
      refine Keeps.trans ?_ (keeps_specWrite _ _ _)
      exact Keeps.refl _

theorem keeps_writeQue (s : State) (p1 : Nat) (p2 : Word) : Keeps 167 s (writeQue s p1 p2) := by
  unfold writeQue
  refine Keeps.ite ?_ ?_
  · refine Keeps.trans ?_ (keeps_qcfgWrite _ _)
    exact Keeps.refl _
  · refine Keeps.ite ?_ ?_
    · refine Keeps.trans ?_ (keeps_qlimWrite _ _ _)
      exact Keeps.refl _
    · refine Keeps.ite ?_ ?_
      · refine Keeps.trans ?_ (keeps_qlimWrite _ _ _)
        exact Keeps.refl _
      · refine Keeps.trans ?_ (keeps_irqEval _)
        refine Keeps.trans ?_ (keeps_specWrite _ _ _)
        exact Keeps.refl _

theorem keeps_writeEth (s : State) (p1 : Nat) (p2 : Word) : Keeps 7 s (writeEth s p1 p2) := by
  unfold writeEth
  extract_lets -underBinder -merge -useContext +onlyGivenNames x1
  try clear_value x1
  refine Keeps.ite ?_ ?_
  · exact Keeps.refl _
  · refine Keeps.trans ?_ (keeps_irqEval _)
    refine Keeps.trans ?_ (keeps_specWrite _ _ _)
    exact Keeps.refl _

theorem keeps_writeAfe (s : State) (p1 : Nat) (p2 : Word) : Keeps 262151 s (writeAfe s p1 p2) := by
  unfold writeAfe
  refine Keeps.ite ?_ ?_
  · refine Keeps.trans ?_ (keeps_afeCommitWrite _ _)
    exact Keeps.refl _
  · refine Keeps.ite ?_ ?_
    · refine Keeps.trans ?_ (keeps_owCtrl _ _)
      exact Keeps.refl _
    · refine Keeps.ite ?_ ?_
      · refine Keeps.trans ?_ (keeps_calCtrl _ _)
        exact Keeps.refl _
      · refine Keeps.ite ?_ ?_
        · refine Keeps.ite ?_ ?_
          · refine Keeps.trans ?_ (keeps_calSave _)
            exact Keeps.refl _
          · exact Keeps.refl _
        · refine Keeps.ite ?_ ?_
          · refine Keeps.ite ?_ ?_
            · refine Keeps.trans ?_ (keeps_refuse _ _ _)
              exact Keeps.refl _
            · refine Keeps.trans ?_ (keeps_specWrite _ _ _)
              exact Keeps.refl _
          · refine Keeps.ite ?_ ?_
            · refine Keeps.ite ?_ ?_
              · refine Keeps.trans ?_ (keeps_refuse _ _ _)
                exact Keeps.refl _
              · refine Keeps.trans ?_ (keeps_setReg _ _ _)
                exact Keeps.refl _
            · refine Keeps.ite ?_ ?_
              · refine Keeps.ite ?_ ?_
                · refine Keeps.trans ?_ (keeps_refuse _ _ _)
                  exact Keeps.refl _
                · refine Keeps.trans ?_ (keeps_setReg _ _ _)
                  exact Keeps.refl _
              · refine Keeps.ite ?_ ?_
                · refine Keeps.trans ?_ (keeps_lCfgStore _ _ _)
                  exact Keeps.refl _
                · refine Keeps.trans ?_ (keeps_irqEval _)
                  refine Keeps.trans ?_ (keeps_specWrite _ _ _)
                  exact Keeps.refl _

theorem keeps_writeFlt (s : State) (p1 : Nat) (p2 : Nat) (p3 : Word) : Keeps 262151 s (writeFlt s p1 p2 p3) := by
  unfold writeFlt
  refine Keeps.ite ?_ ?_
  · refine Keeps.trans ?_ (keeps_fltSwapWrite _ _ _)
    exact Keeps.refl _
  · refine Keeps.ite ?_ ?_
    · refine Keeps.trans ?_ (keeps_coefWrite _ _ _)
      exact Keeps.refl _
    · refine Keeps.trans ?_ (keeps_irqEval _)
      refine Keeps.trans ?_ (keeps_specWrite _ _ _)
      exact Keeps.refl _

theorem keeps_writeNrg (s : State) (p1 : Nat) (p2 : Word) : Keeps 524295 s (writeNrg s p1 p2) := by
  unfold writeNrg
  extract_lets -underBinder -merge -useContext +onlyGivenNames x1
  try clear_value x1
  refine Keeps.ite ?_ ?_
  · refine Keeps.trans ?_ (keeps_refuseC _ _ _)
    exact Keeps.refl _
  · refine Keeps.ite ?_ ?_
    · refine Keeps.trans ?_ (keeps_pulseCfgWrite _ _ _)
      exact Keeps.refl _
    · refine Keeps.ite ?_ ?_
      · refine Keeps.trans ?_ (keeps_pulseSetWrite _ _ _ _)
        exact Keeps.refl _
      · refine Keeps.ite ?_ ?_
        · refine Keeps.trans ?_ (keeps_intCfgWrite _ _ _ _)
          exact Keeps.refl _
        · refine Keeps.ite ?_ ?_
          · refine Keeps.trans ?_ (keeps_intCfgWrite _ _ _ _)
            exact Keeps.refl _
          · refine Keeps.trans ?_ (keeps_irqEval _)
            refine Keeps.trans ?_ (keeps_specWrite _ _ _)
            exact Keeps.refl _

theorem keeps_writeReg (s : State) (p1 : Nat) (p2 : Nat) (p3 : Word) : Keeps 8388607 s (writeReg s p1 p2 p3) := by
  unfold writeReg
  extract_lets -underBinder -merge -useContext +onlyGivenNames x1
  try clear_value x1
  refine Keeps.ite ?_ ?_
  · refine Keeps.trans ?_ (keeps_blkCtrlWrite _ _ _)
    exact Keeps.refl _
  · refine Keeps.ite ?_ ?_
    · refine Keeps.ite ?_ ?_
      · refine Keeps.trans ?_ (keeps_statClr _ _)
        exact Keeps.refl _
      · exact Keeps.refl _
    · refine Keeps.ite ?_ ?_
      · refine Keeps.trans ?_ (keeps_writeHst _ _ _)
        exact Keeps.refl _
      · refine Keeps.ite ?_ ?_
        · refine Keeps.trans ?_ (keeps_writePwr _ _ _ _)
          exact Keeps.refl _
        · refine Keeps.ite ?_ ?_
          · refine Keeps.trans ?_ (keeps_writePce _ _ _)
            exact Keeps.refl _
          · refine Keeps.ite ?_ ?_
            · refine Keeps.trans ?_ (keeps_writeTim _ _ _ _)
              exact Keeps.refl _
            · refine Keeps.ite ?_ ?_
              · refine Keeps.trans ?_ (keeps_writeKey _ _ _ _)
                exact Keeps.refl _
              · refine Keeps.ite ?_ ?_
                · refine Keeps.ite ?_ ?_
                  · refine Keeps.trans ?_ (keeps_setReg _ _ _)
                    exact Keeps.refl _
                  · refine Keeps.trans ?_ (keeps_irqEval _)
                    refine Keeps.trans ?_ (keeps_specWrite _ _ _)
                    exact Keeps.refl _
                · refine Keeps.ite ?_ ?_
                  · refine Keeps.ite ?_ ?_
                    · refine Keeps.trans ?_ (keeps_twnCtrlWrite _ _)
                      exact Keeps.refl _
                    · refine Keeps.trans ?_ (keeps_irqEval _)
                      refine Keeps.trans ?_ (keeps_specWrite _ _ _)
                      exact Keeps.refl _
                  · refine Keeps.ite ?_ ?_
                    · refine Keeps.trans ?_ (keeps_writeVrd _ _ _)
                      exact Keeps.refl _
                    · refine Keeps.ite ?_ ?_
                      · refine Keeps.trans ?_ (keeps_writeDsp _ _ _ _)
                        exact Keeps.refl _
                      · refine Keeps.ite ?_ ?_
                        · refine Keeps.trans ?_ (keeps_irqEval _)
                          refine Keeps.trans ?_ (keeps_specWrite _ _ _)
                          exact Keeps.refl _
                        · refine Keeps.ite ?_ ?_
                          · refine Keeps.trans ?_ (keeps_writePln _ _ _)
                            exact Keeps.refl _
                          · refine Keeps.ite ?_ ?_
                            · refine Keeps.trans ?_ (keeps_writeVlt _ _ _)
                              exact Keeps.refl _
                            · refine Keeps.ite ?_ ?_
                              · refine Keeps.trans ?_ (keeps_writeAcc _ _ _)
                                exact Keeps.refl _
                              · refine Keeps.ite ?_ ?_
                                · refine Keeps.trans ?_ (keeps_writeArc _ _ _ _)
                                  exact Keeps.refl _
                                · refine Keeps.ite ?_ ?_
                                  · refine Keeps.ite ?_ ?_
                                    · refine Keeps.trans ?_ (keeps_capCtrlWrite _ _)
                                      exact Keeps.refl _
                                    · refine Keeps.trans ?_ (keeps_irqEval _)
                                      refine Keeps.trans ?_ (keeps_specWrite _ _ _)
                                      exact Keeps.refl _
                                  · refine Keeps.ite ?_ ?_
                                    · refine Keeps.trans ?_ (keeps_writeQue _ _ _)
                                      exact Keeps.refl _
                                    · refine Keeps.ite ?_ ?_
                                      · refine Keeps.trans ?_ (keeps_writeEth _ _ _)
                                        exact Keeps.refl _
                                      · refine Keeps.ite ?_ ?_
                                        · refine Keeps.ite ?_ ?_
                                          · refine Keeps.ite ?_ ?_
                                            · refine Keeps.trans ?_ (keeps_absClear _)
                                              exact Keeps.refl _
                                            · exact Keeps.refl _
                                          · refine Keeps.trans ?_ (keeps_irqEval _)
                                            refine Keeps.trans ?_ (keeps_specWrite _ _ _)
                                            exact Keeps.refl _
                                        · refine Keeps.ite ?_ ?_
                                          · refine Keeps.trans ?_ (keeps_writeAcc _ _ _)
                                            exact Keeps.refl _
                                          · refine Keeps.ite ?_ ?_
                                            · refine Keeps.ite ?_ ?_
                                              · refine Keeps.trans ?_ (keeps_dramWinWrite _ _ _)
                                                exact Keeps.refl _
                                              · refine Keeps.trans ?_ (keeps_specWrite _ _ _)
                                                exact Keeps.refl _
                                            · refine Keeps.ite ?_ ?_
                                              · refine Keeps.trans ?_ (keeps_writeAfe _ _ _)
                                                exact Keeps.refl _
                                              · refine Keeps.ite ?_ ?_
                                                · refine Keeps.trans ?_ (keeps_writeFlt _ _ _ _)
                                                  exact Keeps.refl _
                                                · refine Keeps.trans ?_ (keeps_writeNrg _ _ _)
                                                  exact Keeps.refl _

end Sys2Proof.Machine
end

