-- ==== Sys2Proof/Laws/KeepsHostBus.lean ====
section
/-! SUPPORT. What each function of Machine/HostBus.lean leaves unchanged (the mask names the areas it may change). -/

set_option Elab.async false

namespace Sys2Proof.Machine

theorem keeps_offlineRecord (s : State) (p1 : Nat) (p2 : Bool) (p3 : Nat) (p4 : Nat) : Keeps 7 s (offlineRecord s p1 p2 p3 p4) := by
  unfold offlineRecord
  extract_lets -underBinder -merge -useContext +onlyGivenNames x1
  try clear_value x1
  extract_lets -underBinder -merge -useContext +onlyGivenNames x2
  have h2 : Keeps 7 s x2 := by
    unfold x2
    refine Keeps.trans ?_ (keeps_setRegN _ _ _)
    exact Keeps.refl _
  try clear_value x2
  extract_lets -underBinder -merge -useContext +onlyGivenNames x3
  have h3 : Keeps 7 s x3 := by
    unfold x3
    refine Keeps.trans ?_ (keeps_setRegN _ _ _)
    assumption
  try clear_value x3
  refine Keeps.trans ?_ (keeps_evt _ _ _)
  refine Keeps.trans ?_ (keeps_bump _ _)
  assumption

theorem keeps_undecodedRecord (s : State) : Keeps 7 s (undecodedRecord s) := by
  unfold undecodedRecord
  refine Keeps.trans ?_ (keeps_refuse _ _ _)
  refine Keeps.trans ?_ (keeps_evt _ _ _)
  refine Keeps.trans ?_ (keeps_bump _ _)
  exact Keeps.refl _

theorem keeps_offlineLatch (s : State) (p1 : Nat) (p2 : Nat) : Keeps 10 s (offlineLatch s p1 p2) := by
  unfold offlineLatch
  refine Keeps.ite ?_ ?_
  · extract_lets -underBinder -merge -useContext +onlyGivenNames x1
    try clear_value x1
    refine Keeps.upd (t := s) ?_ rfl rfl rfl (Nat.le_refl _)
    exact Keeps.refl _
  · split
    · exact Keeps.refl _
    · refine Keeps.trans ?_ (keeps_latchWords _ _ _ _)
      exact Keeps.refl _

theorem keeps_bar0Read (s : State) (p1 : Nat) (p2 : Nat) : KeepsF 2639967 s (bar0Read s p1 p2) := by
  unfold bar0Read
  extract_lets -underBinder -merge -useContext +onlyGivenNames x1
  have h1 : Keeps 2639967 s x1 := by
    unfold x1
    refine Keeps.trans ?_ (keeps_hostWake _)
    exact Keeps.refl _
  try clear_value x1
  refine KeepsF.ite ?_ ?_
  · refine KeepsF.mk ?_
    refine Keeps.trans ?_ (keeps_undecodedRecord _)
    assumption
  · refine KeepsF.ite ?_ ?_
    · refine KeepsF.mk ?_
      assumption
    · refine KeepsF.ite ?_ ?_
      · refine KeepsF.mk ?_
        refine Keeps.trans ?_ (keeps_offlineLatch _ _ _)
        refine Keeps.trans ?_ (keeps_offlineRecord _ _ _ _ _)
        assumption
      · refine KeepsF.trans ?_ (keeps_readReg _ _ _)
        assumption

theorem keeps_bar0Write (s : State) (p1 : Nat) (p2 : Nat) (p3 : Word) : Keeps 8388607 s (bar0Write s p1 p2 p3) := by
  unfold bar0Write
  extract_lets -underBinder -merge -useContext +onlyGivenNames x1
  have h1 : Keeps 8388607 s x1 := by
    unfold x1
    refine Keeps.trans ?_ (keeps_hostWake _)
    exact Keeps.refl _
  try clear_value x1
  refine Keeps.ite ?_ ?_
  · refine Keeps.trans ?_ (keeps_undecodedRecord _)
    assumption
  · refine Keeps.ite ?_ ?_
    · assumption
    · refine Keeps.ite ?_ ?_
      · refine Keeps.trans ?_ (keeps_offlineRecord _ _ _ _ _)
        assumption
      · refine Keeps.ite ?_ ?_
        · refine Keeps.trans ?_ (keeps_refuse _ _ _)
          assumption
        · refine Keeps.trans ?_ (keeps_writeReg _ _ _ _)
          assumption

theorem keeps_bar0Partial (s : State) (p1 : Nat) (p2 : Nat) (p3 : Word) : Keeps 8388607 s (bar0Partial s p1 p2 p3) := by
  unfold bar0Partial
  refine Keeps.ite ?_ ?_
  · refine Keeps.trans ?_ (keeps_bar0Write _ _ _ _)
    exact Keeps.refl _
  · refine Keeps.trans ?_ (keeps_refuse _ _ _)
    refine Keeps.trans ?_ (keeps_hostWake _)
    exact Keeps.refl _

theorem keeps_queueWinRead (s : State) (p1 : Nat) (p2 : Nat) (p3 : Nat) : KeepsF 167 s (queueWinRead s p1 p2 p3) := by
  unfold queueWinRead
  refine KeepsF.ite ?_ ?_
  · extract_lets -underBinder -merge -useContext +onlyGivenNames x1
    have h1 : Keeps 167 s x1 := by
      unfold x1
      refine Keeps.trans ?_ (keeps_queuePop _ _ _)
      exact Keeps.refl _
    try clear_value x1
    refine KeepsF.mk ?_
    assumption
  · refine KeepsF.ite ?_ ?_
    · refine KeepsF.mk ?_
      refine Keeps.trans ?_ (keeps_queRefuse _ _ _)
      exact Keeps.refl _
    · refine KeepsF.ite ?_ ?_
      · refine KeepsF.mk ?_
        exact Keeps.refl _
      · refine KeepsF.ite ?_ ?_
        · refine KeepsF.trans ?_ (keeps_rdN _ _)
          exact Keeps.refl _
        · refine KeepsF.ite ?_ ?_
          · extract_lets -underBinder -merge -useContext +onlyGivenNames x2
            have h2 : Keeps 167 s x2 := by
              unfold x2
              refine Keeps.nextOf ?_ (keeps_execPopDataRead _ _ _)
              exact Keeps.refl _
            try clear_value x2
            refine KeepsF.mk ?_
            assumption
          · refine KeepsF.mk ?_
            exact Keeps.refl _

theorem keeps_queueWinWrite (s : State) (p1 : Nat) (p2 : Nat) (p3 : Nat) (p4 : Word) : Keeps 167 s (queueWinWrite s p1 p2 p3 p4) := by
  unfold queueWinWrite
  refine Keeps.ite ?_ ?_
  · refine Keeps.nextOf ?_ (keeps_execQueueDone _ _ _)
    exact Keeps.refl _
  · refine Keeps.ite ?_ ?_
    · refine Keeps.nextOf ?_ (keeps_execPushStart _ _ _ _)
      exact Keeps.refl _
    · refine Keeps.ite ?_ ?_
      · refine Keeps.nextOf ?_ (keeps_execPushEnd _ _ _)
        exact Keeps.refl _
      · refine Keeps.ite ?_ ?_
        · refine Keeps.nextOf ?_ (keeps_execPushDataWrite _ _ _ _)
          exact Keeps.refl _
        · exact Keeps.refl _

theorem keeps_freeWord (s : State) : KeepsF 2097152 s (freeWord s) := by
  unfold freeWord
  refine KeepsF.mk ?_
  refine Keeps.trans ?_ (keeps_nextFree _)
  exact Keeps.refl _

theorem keeps_mramBootWord (s : State) (p1 : Nat) : KeepsF 2097152 s (mramBootWord s p1) := by
  unfold mramBootWord
  split
  · refine KeepsF.mk ?_
    exact Keeps.refl _
  · refine KeepsF.trans ?_ (keeps_freeWord _)
    exact Keeps.refl _

theorem keeps_mramRead (s : State) (p1 : Nat) : KeepsF 2097153 s (mramRead s p1) := by
  unfold mramRead
  extract_lets -underBinder -merge -useContext +onlyGivenNames x1
  try clear_value x1
  split
  · refine KeepsF.trans ?_ (keeps_rdN _ _)
    exact Keeps.refl _
  · refine KeepsF.trans ?_ (keeps_rdN _ _)
    exact Keeps.refl _
  · refine KeepsF.mk ?_
    refine Keeps.trans ?_ (keeps_refuse _ _ _)
    exact Keeps.refl _
  · refine KeepsF.mk ?_
    exact Keeps.refl _
  · refine KeepsF.mk ?_
    refine Keeps.trans ?_ (keeps_refuse _ _ _)
    exact Keeps.refl _
  · refine KeepsF.trans ?_ (keeps_mramBootWord _ _)
    exact Keeps.refl _
  · refine KeepsF.trans ?_ (keeps_freeWord _)
    exact Keeps.refl _
  · refine KeepsF.mk ?_
    exact Keeps.refl _

theorem putWord_wf (m : SMap Byte) (p1 : Nat) (p2 : Word) (h : smWf (fun _ => 0#8) m = true) :
    smWf (fun _ => 0#8) (putWord m p1 p2) = true := by
  unfold putWord
  generalize List.range 4 = l
  induction l generalizing m with
  | nil => exact h
  | cons i r ih => exact ih _ (smPut_wf (fun _ => 0#8) _ _ _ h)
theorem keeps_mramWrite (s : State) (p1 : Nat) (p2 : Word) : Keeps 3 s (mramWrite s p1 p2) := by
  unfold mramWrite
  extract_lets -underBinder -merge -useContext +onlyGivenNames m
  split
  · exact Keeps.upd (Keeps.refl s) rfl rfl rfl (Nat.le_refl _) (r4 := putWord_wf _ _ _)
  all_goals exact (keeps_refuse _ _ _).mono

theorem keeps_ddrRead (s : State) (p1 : Nat) : KeepsF 1 s (ddrRead s p1) := by
  unfold ddrRead
  refine KeepsF.ite ?_ ?_
  · refine KeepsF.mk ?_
    refine Keeps.trans ?_ (keeps_refuse _ _ _)
    exact Keeps.refl _
  · refine KeepsF.trans ?_ (keeps_rdN _ _)
    exact Keeps.refl _

theorem keeps_ddrWrite (s : State) (p1 : Nat) (p2 : Word) : Keeps 3 s (ddrWrite s p1 p2) := by
  unfold ddrWrite
  refine Keeps.ite (keeps_refuse _ _ _).mono ?_
  exact Keeps.upd (Keeps.refl s) rfl rfl rfl (Nat.le_refl _) (r5 := putWord_wf _ _ _)

theorem keeps_bar2Read (s : State) (p1 : Nat) (p2 : Nat) : KeepsF 2114807 s (bar2Read s p1 p2) := by
  unfold bar2Read
  extract_lets -underBinder -merge -useContext +onlyGivenNames x1
  have h1 : Keeps 2114807 s x1 := by
    unfold x1
    refine Keeps.trans ?_ (keeps_hostWake _)
    exact Keeps.refl _
  try clear_value x1
  refine KeepsF.ite ?_ ?_
  · refine KeepsF.mk ?_
    assumption
  · refine KeepsF.ite ?_ ?_
    · refine KeepsF.mk ?_
      refine Keeps.trans ?_ (keeps_offlineRecord _ _ _ _ _)
      assumption
    · refine KeepsF.ite ?_ ?_
      · refine KeepsF.trans ?_ (keeps_vaultRead _ _ _)
        assumption
      · refine KeepsF.ite ?_ ?_
        · refine KeepsF.trans ?_ (keeps_queueWinRead _ _ _ _)
          assumption
        · refine KeepsF.ite ?_ ?_
          · refine KeepsF.trans ?_ (keeps_ddrRead _ _)
            assumption
          · refine KeepsF.trans ?_ (keeps_mramRead _ _)
            assumption

theorem keeps_bar2Write (s : State) (p1 : Nat) (p2 : Nat) (p3 : Word) : Keeps 16631 s (bar2Write s p1 p2 p3) := by
  unfold bar2Write
  extract_lets -underBinder -merge -useContext +onlyGivenNames x1
  have h1 : Keeps 16631 s x1 := by
    unfold x1
    refine Keeps.trans ?_ (keeps_hostWake _)
    exact Keeps.refl _
  try clear_value x1
  refine Keeps.ite ?_ ?_
  · assumption
  · refine Keeps.ite ?_ ?_
    · refine Keeps.trans ?_ (keeps_offlineRecord _ _ _ _ _)
      assumption
    · refine Keeps.ite ?_ ?_
      · refine Keeps.trans ?_ (keeps_refuse _ _ _)
        assumption
      · refine Keeps.ite ?_ ?_
        · refine Keeps.trans ?_ (keeps_queueWinWrite _ _ _ _ _)
          assumption
        · refine Keeps.ite ?_ ?_
          · refine Keeps.trans ?_ (keeps_ddrWrite _ _ _)
            assumption
          · refine Keeps.trans ?_ (keeps_mramWrite _ _ _)
            assumption

theorem keeps_readWords {L : Nat} (p0 : State → Nat → Word × State) (s : State) (p2 : List Nat) (h : ∀ s o, KeepsF L s (p0 s o)) :
    KeepsF L s (readWords p0 s p2) := by
  induction p2 generalizing s with
  | nil => exact Keeps.refl _
  | cons o r ih => exact Keeps.trans (h s o) (ih _) (Nat.and_self L)

theorem keeps_writeWords {L : Nat} (p0 : State → Nat → Word → State) (s : State) (p2 : List (Nat × Word))
    (h : ∀ s o v, Keeps L s (p0 s o v)) : Keeps L s (writeWords p0 s p2) := by
  induction p2 generalizing s with
  | nil => exact Keeps.refl _
  | cons o r ih => exact Keeps.trans (h s _ _) (ih _) (Nat.and_self L)

theorem keeps_bar2ReadLen (s : State) (p1 : Nat) (p2 : Nat) (p3 : Nat) : KeepsF 2114807 s (bar2ReadLen s p1 p2 p3) := by
  unfold bar2ReadLen
  refine KeepsF.ite ?_ ?_
  · refine keeps_readWords (L := 2114807) _ _ _ (fun u1 u2 => ?_)
    refine KeepsF.trans ?_ (keeps_bar2Read _ _ _)
    exact Keeps.refl _
  · refine KeepsF.mk ?_
    refine Keeps.trans ?_ (keeps_refuse _ _ _)
    exact Keeps.refl _

theorem keeps_bar2WriteLen (s : State) (p1 : Nat) (p2 : Nat) (p3 : List Byte) : Keeps 16631 s (bar2WriteLen s p1 p2 p3) := by
  unfold bar2WriteLen
  refine Keeps.ite ?_ ?_
  · refine keeps_writeWords (L := 16631) _ _ _ (fun u1 u2 u3 => ?_)
    refine Keeps.trans ?_ (keeps_bar2Write _ _ _ _)
    exact Keeps.refl _
  · refine Keeps.trans ?_ (keeps_refuse _ _ _)
    exact Keeps.refl _

theorem keeps_spiBegin (s : State) : Keeps 7 s (spiBegin s) := by
  unfold spiBegin
  refine Keeps.trans ?_ (keeps_bump _ _)
  refine Keeps.upd (t := s) ?_ rfl rfl rfl (Nat.le_refl _)
  exact Keeps.refl _

theorem keeps_spaceRead (p0 : Nat) (s : State) (p2 : Nat) : KeepsF 2641151 s (spaceRead p0 s p2) := by
  unfold spaceRead
  extract_lets -underBinder -merge -useContext +onlyGivenNames x1
  try clear_value x1
  refine KeepsF.ite ?_ ?_
  · refine KeepsF.trans ?_ (keeps_bar0Read _ _ _)
    exact Keeps.refl _
  · refine KeepsF.ite ?_ ?_
    · refine KeepsF.trans ?_ (keeps_bar2Read _ _ _)
      exact Keeps.refl _
    · refine KeepsF.trans ?_ (keeps_freeWord _)
      exact Keeps.refl _

theorem keeps_spaceWrite (p0 : Nat) (s : State) (p2 : Nat) (p3 : Word) : Keeps 8388607 s (spaceWrite p0 s p2 p3) := by
  unfold spaceWrite
  refine Keeps.ite ?_ ?_
  · refine Keeps.trans ?_ (keeps_bar0Write _ _ _ _)
    exact Keeps.refl _
  · refine Keeps.trans ?_ (keeps_bar2Write _ _ _ _)
    exact Keeps.refl _

theorem keeps_spiWrite (s : State) (p1 : List Byte) : Keeps 8388607 s (spiWrite s p1) := by
  unfold spiWrite
  extract_lets -underBinder -merge -useContext +onlyGivenNames x1
  try clear_value x1
  extract_lets -underBinder -merge -useContext +onlyGivenNames x2
  try clear_value x2
  extract_lets -underBinder -merge -useContext +onlyGivenNames x3
  try clear_value x3
  extract_lets -underBinder -merge -useContext +onlyGivenNames x4
  have h4 : Keeps 8388607 s x4 := by
    unfold x4
    refine Keeps.trans ?_ (keeps_spiBegin _)
    exact Keeps.refl _
  try clear_value x4
  refine Keeps.ite ?_ ?_
  · extract_lets -underBinder -merge -useContext +onlyGivenNames x5
    extract_lets -underBinder -merge -useContext +onlyGivenNames x6
    have h6 : Keeps 8388607 s x6 := by
      unfold x6
      refine Keeps.upd (t := x4) ?_ rfl rfl rfl (Nat.le_refl _)
      assumption
    try clear_value x6
    refine Keeps.trans ?_ (keeps_writeWords (L := 8388607) _ _ _ (fun u7 u8 u9 => ?_))
    · assumption
    · refine Keeps.trans ?_ (keeps_spaceWrite _ _ _ _)
      exact Keeps.refl _
  · extract_lets -underBinder -merge -useContext +onlyGivenNames x10
    extract_lets -underBinder -merge -useContext +onlyGivenNames x11
    have h11 : Keeps 8388607 s x11 := by
      unfold x11
      refine Keeps.upd (t := x4) ?_ rfl rfl rfl (Nat.le_refl _)
      assumption
    try clear_value x11
    refine Keeps.trans ?_ (keeps_refuse _ _ _)
    refine Keeps.trans ?_ (keeps_evt _ _ _)
    refine Keeps.trans ?_ (keeps_bump _ _)
    assumption

theorem keeps_pcieReset (s : State) (p1 : Nat) (p2 : Nat) : Keeps 43 s (pcieReset s p1 p2) := by
  unfold pcieReset
  extract_lets -underBinder -merge -useContext +onlyGivenNames x1
  have h1 : Keeps 43 s x1 := by
    unfold x1
    refine Keeps.trans ?_ (keeps_clearRegs _ _)
    exact Keeps.refl _
  try clear_value x1
  refine Keeps.upd (t := x1) ?_ rfl rfl rfl (Nat.le_refl _)
  assumption

end Sys2Proof.Machine
end

