-- ==== Sys2Proof/Laws/KeepsHostCmds.lean ====
section
/-! SUPPORT. What each function of Machine/HostCmds.lean leaves unchanged (the mask names the areas it may change). -/

set_option Elab.async false

namespace Sys2Proof.Machine

theorem keeps_whenOn {L : Nat} (s : State) (p1 : State → State) (h : ∀ s, Keeps L s (p1 s)) : Keeps L s (whenOn s p1) :=
  Keeps.ite (Keeps.refl _) (h _)

theorem keeps_hostRead (s : State) (p1 : Nat) (p2 : Nat) : Keeps 2639967 s (hostRead s p1 p2) := by
  unfold hostRead
  refine keeps_whenOn (L := 2639967) _ _ (fun u1 => ?_)
  extract_lets -underBinder -merge -useContext +onlyGivenNames x2
  have h2 : KeepsF 2639967 u1 x2 := by
    unfold x2
    refine KeepsF.trans ?_ (keeps_bar0Read _ _ _)
    exact Keeps.refl _
  try clear_value x2
  refine Keeps.trans ?_ (keeps_respond _ _)
  refine KeepsF.snd ?_
  assumption

theorem keeps_execRegisterWrite (p0 : Nat) (p1 : Nat) (p2 : Nat) (p3 : Word) (s : State) : KeepsO 8388607 s (execRegisterWrite p0 p1 p2 p3 s) := by
  unfold execRegisterWrite
  refine KeepsO.done ?_
  refine keeps_whenOn (L := 8388607) _ _ (fun u1 => ?_)
  refine Keeps.ite ?_ ?_
  · refine Keeps.trans ?_ (keeps_bar0Write _ _ _ _)
    exact Keeps.refl _
  · refine Keeps.trans ?_ (keeps_bar0Partial _ _ _ _)
    exact Keeps.refl _

theorem keeps_execRcFieldRead (p0 : Nat) (p1 : Nat) (s : State) : KeepsO 2639967 s (execRcFieldRead p0 p1 s) := by
  unfold execRcFieldRead
  refine KeepsO.done ?_
  refine Keeps.trans ?_ (keeps_hostRead _ _ _)
  exact Keeps.refl _

theorem keeps_execLatchedLowWordRead (p0 : Nat) (p1 : Nat) (s : State) : KeepsO 2639967 s (execLatchedLowWordRead p0 p1 s) := by
  unfold execLatchedLowWordRead
  refine KeepsO.done ?_
  refine Keeps.trans ?_ (keeps_hostRead _ _ _)
  exact Keeps.refl _

theorem keeps_execHighWordRead (p0 : Nat) (p1 : Nat) (s : State) : KeepsO 2639967 s (execHighWordRead p0 p1 s) := by
  unfold execHighWordRead
  refine KeepsO.done ?_
  refine Keeps.trans ?_ (keeps_hostRead _ _ _)
  exact Keeps.refl _

theorem keeps_execStatClr (p0 : Nat) (p1 : Nat) (s : State) : KeepsO 8388607 s (execStatClr p0 p1 s) := by
  unfold execStatClr
  refine KeepsO.done ?_
  refine keeps_whenOn (L := 8388607) _ _ (fun u1 => ?_)
  split
  · refine Keeps.ite ?_ ?_
    · refine Keeps.trans ?_ (keeps_bar0Write _ _ _ _)
      exact Keeps.refl _
    · exact Keeps.refl _
  · exact Keeps.refl _

theorem keeps_execBlockEnable (p0 : Nat) (p1 : Nat) (s : State) : KeepsO 8388607 s (execBlockEnable p0 p1 s) := by
  unfold execBlockEnable
  refine KeepsO.done ?_
  refine keeps_whenOn (L := 8388607) _ _ (fun u1 => ?_)
  refine Keeps.ite ?_ ?_
  · refine Keeps.trans ?_ (keeps_bar0Write _ _ _ _)
    exact Keeps.refl _
  · exact Keeps.refl _

theorem keeps_execBlockDisable (p0 : Nat) (p1 : Nat) (s : State) : KeepsO 8388607 s (execBlockDisable p0 p1 s) := by
  unfold execBlockDisable
  refine KeepsO.done ?_
  refine keeps_whenOn (L := 8388607) _ _ (fun u1 => ?_)
  refine Keeps.ite ?_ ?_
  · refine Keeps.trans ?_ (keeps_bar0Write _ _ _ _)
    exact Keeps.refl _
  · exact Keeps.refl _

theorem keeps_execOfflineAccess (p0 : Nat) (p1 : Nat) (p2 : Bool) (s : State) : KeepsO 8388607 s (execOfflineAccess p0 p1 p2 s) := by
  unfold execOfflineAccess
  refine KeepsO.done ?_
  refine keeps_whenOn (L := 8388607) _ _ (fun u1 => ?_)
  extract_lets -underBinder -merge -useContext +onlyGivenNames x2
  try clear_value x2
  refine Keeps.ite ?_ ?_
  · exact Keeps.refl _
  · refine Keeps.ite ?_ ?_
    · refine Keeps.trans ?_ (keeps_bar0Write _ _ _ _)
      exact Keeps.refl _
    · extract_lets -underBinder -merge -useContext +onlyGivenNames x3
      have h3 : KeepsF 8388607 u1 x3 := by
        unfold x3
        refine KeepsF.trans ?_ (keeps_bar0Read _ _ _)
        exact Keeps.refl _
      try clear_value x3
      refine Keeps.trans ?_ (keeps_respond _ _)
      refine KeepsF.snd ?_
      assumption

theorem keeps_execUndecodedAccess (p0 : Nat) (p1 : Nat) (p2 : Bool) (s : State) : KeepsO 8388607 s (execUndecodedAccess p0 p1 p2 s) := by
  unfold execUndecodedAccess
  refine KeepsO.done ?_
  refine keeps_whenOn (L := 8388607) _ _ (fun u1 => ?_)
  extract_lets -underBinder -merge -useContext +onlyGivenNames x2
  try clear_value x2
  refine Keeps.ite ?_ ?_
  · exact Keeps.refl _
  · refine Keeps.ite ?_ ?_
    · refine Keeps.trans ?_ (keeps_bar0Write _ _ _ _)
      exact Keeps.refl _
    · extract_lets -underBinder -merge -useContext +onlyGivenNames x3
      have h3 : KeepsF 8388607 u1 x3 := by
        unfold x3
        refine KeepsF.trans ?_ (keeps_bar0Read _ _ _)
        exact Keeps.refl _
      try clear_value x3
      refine Keeps.trans ?_ (keeps_respond _ _)
      refine KeepsF.snd ?_
      assumption

theorem keeps_execVectorAck (p0 : Nat) (p1 : Nat) (s : State) : KeepsO 8388607 s (execVectorAck p0 p1 s) := by
  unfold execVectorAck
  refine KeepsO.done ?_
  refine keeps_whenOn (L := 8388607) _ _ (fun u1 => ?_)
  refine Keeps.trans ?_ (keeps_bar0Write _ _ _ _)
  exact Keeps.refl _

theorem keeps_execPcieReset (p0 : Nat) (p1 : Nat) (s : State) : KeepsO 43 s (execPcieReset p0 p1 s) := by
  unfold execPcieReset
  refine KeepsO.done ?_
  refine keeps_whenOn (L := 43) _ _ (fun u1 => ?_)
  refine Keeps.trans ?_ (keeps_pcieReset _ _ _)
  exact Keeps.refl _

theorem keeps_execBusMasterEnable (p0 : Bool) (s : State) : KeepsO 7 s (execBusMasterEnable p0 s) := by
  unfold execBusMasterEnable
  refine KeepsO.done ?_
  refine keeps_whenOn (L := 7) _ _ (fun u1 => ?_)
  extract_lets -underBinder -merge -useContext +onlyGivenNames x2
  extract_lets -underBinder -merge -useContext +onlyGivenNames x3
  have h3 : Keeps 7 u1 x3 := by
    unfold x3
    refine Keeps.upd (t := u1) ?_ rfl rfl rfl (Nat.le_refl _)
    exact Keeps.refl _
  try clear_value x3
  refine Keeps.ite ?_ ?_
  · refine Keeps.trans ?_ (keeps_msixRelease _)
    assumption
  · assumption

theorem keeps_execSpiRead (p0 : Nat) (p1 : Nat) (p2 : Nat) (s : State) : KeepsO 2641151 s (execSpiRead p0 p1 p2 s) := by
  unfold execSpiRead
  refine KeepsO.done ?_
  refine Keeps.ite ?_ ?_
  · exact Keeps.refl _
  · extract_lets -underBinder -merge -useContext +onlyGivenNames x1
    have h1 : KeepsF 2641151 s x1 := by
      unfold x1
      refine KeepsF.trans ?_ (keeps_readWords (L := 2641151) _ _ _ (fun u2 u3 => ?_))
      · refine Keeps.trans ?_ (keeps_spiBegin _)
        exact Keeps.refl _
      · refine KeepsF.trans ?_ (keeps_spaceRead _ _ _)
        exact Keeps.refl _
    try clear_value x1
    refine Keeps.trans ?_ (keeps_respond _ _)
    refine KeepsF.snd ?_
    assumption

theorem keeps_execSpiWrite (p0 : List Byte) (s : State) : KeepsO 8388607 s (execSpiWrite p0 s) := by
  unfold execSpiWrite
  refine KeepsO.done ?_
  refine Keeps.ite ?_ ?_
  · exact Keeps.refl _
  · refine Keeps.trans ?_ (keeps_spiWrite _ _)
    exact Keeps.refl _

theorem keeps_execDdrTrainingStart (p0 : Nat) (s : State) : KeepsO 8388607 s (execDdrTrainingStart p0 s) := by
  unfold execDdrTrainingStart
  refine KeepsO.done ?_
  refine keeps_whenOn (L := 8388607) _ _ (fun u1 => ?_)
  refine Keeps.trans ?_ (keeps_bar0Write _ _ _ _)
  exact Keeps.refl _

theorem keeps_execDdrTrainingStop (p0 : Nat) (s : State) : KeepsO 8388607 s (execDdrTrainingStop p0 s) := by
  unfold execDdrTrainingStop
  refine KeepsO.done ?_
  refine keeps_whenOn (L := 8388607) _ _ (fun u1 => ?_)
  refine Keeps.trans ?_ (keeps_bar0Write _ _ _ _)
  exact Keeps.refl _

theorem keeps_execDdrTrainingEnd (p0 : Bool) (p1 : Nat) (s : State) : KeepsO 7 s (execDdrTrainingEnd p0 p1 s) := by
  unfold execDdrTrainingEnd
  refine KeepsO.done ?_
  refine Keeps.ite ?_ ?_
  · exact Keeps.refl _
  · extract_lets -underBinder -merge -useContext +onlyGivenNames x1
    have h1 : Keeps 7 s x1 := by
      unfold x1
      refine Keeps.trans ?_ (keeps_opProgress _ _ _)
      exact Keeps.refl _
    try clear_value x1
    extract_lets -underBinder -merge -useContext +onlyGivenNames x2
    extract_lets -underBinder -merge -useContext +onlyGivenNames x3
    have h3 : Keeps 7 s x3 := by
      unfold x3
      refine Keeps.ite ?_ ?_
      · refine Keeps.upd (t := x1) ?_ rfl rfl rfl (Nat.le_refl _)
        assumption
      · assumption
    try clear_value x3
    extract_lets -underBinder -merge -useContext +onlyGivenNames x4
    have h4 : Keeps 7 s x4 := by
      unfold x4
      refine Keeps.ite ?_ ?_
      · refine Keeps.trans ?_ (keeps_opEnd _ _ _ _)
        assumption
      · refine Keeps.trans ?_ (keeps_opEnd _ _ _ _)
        assumption
    try clear_value x4
    refine Keeps.trans ?_ (keeps_evt _ _ _)
    assumption

theorem keeps_execMramWindowWrite (p0 : Nat) (p1 : Nat) (p2 : List Byte) (s : State) : KeepsO 16631 s (execMramWindowWrite p0 p1 p2 s) := by
  unfold execMramWindowWrite
  refine KeepsO.done ?_
  refine keeps_whenOn (L := 16631) _ _ (fun u1 => ?_)
  refine Keeps.trans ?_ (keeps_bar2WriteLen _ _ _ _)
  exact Keeps.refl _

theorem keeps_execMramWindowRead (p0 : Nat) (p1 : Nat) (p2 : Nat) (s : State) : KeepsO 2114807 s (execMramWindowRead p0 p1 p2 s) := by
  unfold execMramWindowRead
  refine KeepsO.done ?_
  refine keeps_whenOn (L := 2114807) _ _ (fun u1 => ?_)
  extract_lets -underBinder -merge -useContext +onlyGivenNames x2
  have h2 : KeepsF 2114807 u1 x2 := by
    unfold x2
    refine KeepsF.trans ?_ (keeps_bar2ReadLen _ _ _ _)
    exact Keeps.refl _
  try clear_value x2
  refine Keeps.trans ?_ (keeps_respond _ _)
  refine KeepsF.snd ?_
  assumption

theorem keeps_execDdrWindowAccess (p0 : Nat) (p1 : Nat) (p2 : Nat) (p3 : Bool) (p4 : List Byte) (s : State) : KeepsO 2114807 s (execDdrWindowAccess p0 p1 p2 p3 p4 s) := by
  unfold execDdrWindowAccess
  refine KeepsO.done ?_
  refine keeps_whenOn (L := 2114807) _ _ (fun u1 => ?_)
  extract_lets -underBinder -merge -useContext +onlyGivenNames x2
  try clear_value x2
  refine Keeps.ite ?_ ?_
  · refine Keeps.trans ?_ (keeps_bar2WriteLen _ _ _ _)
    exact Keeps.refl _
  · extract_lets -underBinder -merge -useContext +onlyGivenNames x3
    have h3 : KeepsF 2114807 u1 x3 := by
      unfold x3
      refine KeepsF.trans ?_ (keeps_bar2ReadLen _ _ _ _)
      exact Keeps.refl _
    try clear_value x3
    refine Keeps.trans ?_ (keeps_respond _ _)
    refine KeepsF.snd ?_
    assumption

theorem keeps_execMsixUnmask (p0 : Bool) (p1 : Bool) (p2 : Option Nat) (s : State) : KeepsO 7 s (execMsixUnmask p0 p1 p2 s) := by
  unfold execMsixUnmask
  refine KeepsO.done ?_
  refine keeps_whenOn (L := 7) _ _ (fun u1 => ?_)
  extract_lets -underBinder -merge -useContext +onlyGivenNames x2
  try clear_value x2
  extract_lets -underBinder -merge -useContext +onlyGivenNames x3
  extract_lets -underBinder -merge -useContext +onlyGivenNames x4
  have h4 : Keeps 7 u1 x4 := by
    unfold x4
    refine Keeps.upd (t := u1) ?_ rfl rfl rfl (Nat.le_refl _)
    exact Keeps.refl _
  try clear_value x4
  extract_lets -underBinder -merge -useContext +onlyGivenNames x5
  have h5 : Keeps 7 u1 x5 := by
    unfold x5
    split
    · refine Keeps.trans ?_ (keeps_setReg _ _ _)
      assumption
    · assumption
  try clear_value x5
  extract_lets -underBinder -merge -useContext +onlyGivenNames x6
  try clear_value x6
  extract_lets -underBinder -merge -useContext +onlyGivenNames x7
  have h7 : Keeps 7 u1 x7 := by
    unfold x7
    refine Keeps.ite ?_ ?_
    · refine Keeps.foldl ?_ (fun y8 a8 hy8 => ?_)
      · assumption
      · refine Keeps.trans ?_ (keeps_sendMsi _ _)
        assumption
    · assumption
  try clear_value x7
  refine Keeps.trans ?_ (keeps_msixRelease _)
  assumption

end Sys2Proof.Machine
end

