-- ==== Sys2Proof/Laws/KeepsStartUp.lean ====
section
/-! SUPPORT. What each function of Machine/StartUp.lean leaves unchanged (the mask names the areas it may change). -/

set_option Elab.async false

namespace Sys2Proof.Machine

theorem keeps_startStep1 (p0 : StartInputs) (s : State) : KeepsL 9 s (startStep1 p0 s) := by
  unfold startStep1
  refine KeepsL.mk ?_
  extract_lets -underBinder -merge -useContext +onlyGivenNames x1
  have h1 : Keeps 9 s x1 := by
    unfold x1
    refine Keeps.trans ?_ (keeps_setRegN _ _ _)
    exact Keeps.refl _
  refine Keeps.upd (t := x1) ?_ rfl rfl rfl (Nat.le_refl _)
  assumption

theorem keeps_startStep2 (p0 : StartInputs) (s : State) : KeepsL 16391 s (startStep2 p0 s) := by
  unfold startStep2
  extract_lets -underBinder -merge -useContext +onlyGivenNames x1
  have h1 : Keeps 16391 s x1 := by
    unfold x1
    refine Keeps.trans ?_ (keeps_pufRegen _ _ _)
    exact Keeps.refl _
  try clear_value x1
  refine KeepsL.mk ?_
  assumption

theorem keeps_startStep3 (s : State) : KeepsL 16391 s (startStep3 s) := by
  unfold startStep3
  extract_lets -underBinder -merge -useContext +onlyGivenNames x1
  have h1 : Keeps 16391 s x1 := by
    unfold x1
    refine Keeps.trans ?_ (keeps_keyLoad _)
    exact Keeps.refl _
  try clear_value x1
  refine KeepsL.mk ?_
  assumption

theorem keeps_startCounts (s : State) : Keeps 5 s (startCounts s) := by
  unfold startCounts
  extract_lets -underBinder -merge -useContext +onlyGivenNames x1
  try clear_value x1
  extract_lets -underBinder -merge -useContext +onlyGivenNames x2
  have h2 : Keeps 5 s x2 := by
    unfold x2
    refine Keeps.ite ?_ ?_
    · refine Keeps.trans ?_ (keeps_lifeBump _ _ _)
      exact Keeps.refl _
    · exact Keeps.refl _
  try clear_value x2
  extract_lets -underBinder -merge -useContext +onlyGivenNames x3
  have h3 : Keeps 5 s x3 := by
    unfold x3
    refine Keeps.ite ?_ ?_
    · refine Keeps.trans ?_ (keeps_lifeBump _ _ _)
      assumption
    · assumption
  try clear_value x3
  extract_lets -underBinder -merge -useContext +onlyGivenNames x4
  have h4 : Keeps 5 s x4 := by
    unfold x4
    refine Keeps.ite ?_ ?_
    · refine Keeps.trans ?_ (keeps_lifeBump _ _ _)
      assumption
    · assumption
  try clear_value x4
  refine Keeps.trans ?_ (keeps_lifeBump _ _ _)
  assumption

theorem keeps_startStep4 (p0 : StartInputs) (s : State) : KeepsL 1048583 s (startStep4 p0 s) := by
  unfold startStep4
  refine KeepsL.ite ?_ ?_
  · refine KeepsL.mk ?_
    exact Keeps.refl _
  · extract_lets -underBinder -merge -useContext +onlyGivenNames x1
    have h1 : Keeps 1048583 s x1 := by
      unfold x1
      refine Keeps.trans ?_ (keeps_logClearRestart _)
      refine Keeps.trans ?_ (keeps_lifeLoad _)
      exact Keeps.refl _
    try clear_value x1
    extract_lets -underBinder -merge -useContext +onlyGivenNames x2
    extract_lets -underBinder -merge -useContext +onlyGivenNames x3
    have h3 : Keeps 1048583 s x3 := by
      unfold x3
      refine Keeps.trans ?_ (keeps_startCounts _)
      refine Keeps.upd (t := x1) ?_ rfl rfl rfl (Nat.le_refl _)
      assumption
    try clear_value x3
    extract_lets -underBinder -merge -useContext +onlyGivenNames x4
    try clear_value x4
    extract_lets -underBinder -merge -useContext +onlyGivenNames x5
    extract_lets -underBinder -merge -useContext +onlyGivenNames x6
    have h6 : Keeps 1048583 s x6 := by
      unfold x6
      refine Keeps.upd (t := x3) ?_ rfl rfl rfl (Nat.le_refl _)
      assumption
    try clear_value x6
    refine KeepsL.mk ?_
    refine Keeps.trans ?_ (keeps_logEvent _ _ _ _)
    assumption

theorem keeps_startStep5 (p0 : StartInputs) (s : State) : KeepsL 19 s (startStep5 p0 s) := by
  unfold startStep5
  refine KeepsL.ite (KeepsL.mk (Keeps.refl _)) ?_
  extract_lets -underBinder -merge -useContext +onlyGivenNames c u
  have hu : Keeps 19 s u := by
    unfold u
    refine Keeps.trans ?_ (keeps_showVcore _)
    exact Keeps.upd (Keeps.refl s) rfl rfl rfl (Nat.le_refl _) (r8 := fun _ _ => vcoreOk_max)
  clear_value u
  exact KeepsL.mk (Keeps.upd hu rfl rfl rfl (Nat.le_refl _))

theorem keeps_startStep6 (p0 : StartInputs) (s : State) : KeepsL 17 s (startStep6 p0 s) := by
  unfold startStep6
  extract_lets -underBinder -merge -useContext +onlyGivenNames x1
  have h1 : Keeps 17 s x1 := by
    unfold x1
    refine Keeps.nextOf (m := 17) ?_ (KeepsO.trans ?_ (keeps_execPceCalEnd _ _))
    · exact Keeps.refl _
    · refine Keeps.trans ?_ (keeps_pceCalStart _)
      exact Keeps.refl _
  try clear_value x1
  refine KeepsL.mk ?_
  assumption

theorem keeps_startStep7 (p0 : StartInputs) (s : State) : KeepsL 8207 s (startStep7 p0 s) := by
  unfold startStep7
  refine KeepsL.ite ?_ ?_
  · refine KeepsL.mk ?_
    refine Keeps.trans ?_ (keeps_refChange _ _)
    exact Keeps.refl _
  · refine KeepsL.mk ?_
    exact Keeps.refl _

theorem keeps_bootLoad (s : State) (p1 : Nat) : Keeps 2134439 s (bootLoad s p1) := by
  unfold bootLoad
  extract_lets -underBinder -merge -useContext +onlyGivenNames x1
  have h1 : Keeps 2134439 s x1 := by
    unfold x1
    refine Keeps.trans ?_ (keeps_plnLoadStart _ _ _)
    exact Keeps.refl _
  try clear_value x1
  refine Keeps.ite ?_ ?_
  · refine Keeps.trans ?_ (keeps_loadRun _ _ _ _ _)
    refine Keeps.trans ?_ (keeps_loadCopied _ _ _)
    assumption
  · assumption

theorem keeps_bootSwap (s : State) : Keeps 2142135 s (bootSwap s) := by
  unfold bootSwap
  extract_lets -underBinder -merge -useContext +onlyGivenNames x1
  have h1 : Keeps 2142135 s x1 := by
    unfold x1
    refine Keeps.trans ?_ (keeps_plnSwapStart _ _ _ _)
    exact Keeps.refl _
  try clear_value x1
  split
  · refine Keeps.trans ?_ (keeps_swapRun _ _)
    assumption
  · assumption

theorem keeps_bootImage (s : State) (p1 : Nat) : Keeps 2146231 s (bootImage s p1) := by
  unfold bootImage
  extract_lets -underBinder -merge -useContext +onlyGivenNames x1
  have h1 : Keeps 2146231 s x1 := by
    unfold x1
    refine Keeps.trans ?_ (keeps_bootLoad _ _)
    exact Keeps.refl _
  try clear_value x1
  refine Keeps.ite ?_ ?_
  · refine Keeps.trans ?_ (keeps_bootSwap _)
    assumption
  · assumption

theorem keeps_bootShow (s : State) (p1 : Option SelRec) (p2 : Nat) : Keeps 1 s (bootShow s p1 p2) := by
  unfold bootShow
  split
  · refine Keeps.trans ?_ (keeps_setRegN _ _ _)
    exact Keeps.refl _
  · extract_lets -underBinder -merge -useContext +onlyGivenNames x1
    have h1 : Keeps 1 s x1 := by
      unfold x1
      refine Keeps.trans ?_ (keeps_setRegN _ _ _)
      exact Keeps.refl _
    try clear_value x1
    refine Keeps.trans ?_ (keeps_setRegN _ _ _)
    refine Keeps.trans ?_ (keeps_setRegN _ _ _)
    assumption

theorem keeps_bootOutcome (s : State) (p1 : Option SelRec) (p2 : Nat) (p3 : Nat) : Keeps 7 s (bootOutcome s p1 p2 p3) := by
  unfold bootOutcome
  extract_lets -underBinder -merge -useContext +onlyGivenNames x1
  have h1 : Keeps 7 s x1 := by
    unfold x1
    refine Keeps.trans ?_ (keeps_bootShow _ _ _)
    exact Keeps.refl _
  try clear_value x1
  extract_lets -underBinder -merge -useContext +onlyGivenNames x2
  have h2 : Keeps 7 s x2 := by
    unfold x2
    refine Keeps.ite ?_ ?_
    · refine Keeps.trans ?_ (keeps_evt _ _ _)
      assumption
    · assumption
  try clear_value x2
  refine Keeps.ite ?_ ?_
  · assumption
  · refine Keeps.trans ?_ (keeps_logEvent _ _ _ _)
    assumption

theorem keeps_autoboot (s : State) : Keeps 2146231 s (autoboot s) := by
  unfold autoboot
  extract_lets -underBinder -merge -useContext +onlyGivenNames x1
  try clear_value x1
  split
  · refine Keeps.trans ?_ (keeps_bootOutcome _ _ _ _)
    exact Keeps.refl _
  · refine Keeps.ite ?_ ?_
    · refine Keeps.trans ?_ (keeps_bootOutcome _ _ _ _)
      exact Keeps.refl _
    · extract_lets -underBinder -merge -useContext +onlyGivenNames x2
      have h2 : Keeps 2146231 s x2 := by
        unfold x2
        refine Keeps.trans ?_ (keeps_bootImage _ _)
        exact Keeps.refl _
      try clear_value x2
      refine Keeps.ite ?_ ?_
      · refine Keeps.trans ?_ (keeps_bootOutcome _ _ _ _)
        assumption
      · refine Keeps.ite ?_ ?_
        · refine Keeps.trans ?_ (keeps_bootOutcome _ _ _ _)
          assumption
        · extract_lets -underBinder -merge -useContext +onlyGivenNames x3
          have h3 : Keeps 2146231 s x3 := by
            unfold x3
            refine Keeps.trans ?_ (keeps_bootImage _ _)
            assumption
          try clear_value x3
          refine Keeps.ite ?_ ?_
          · refine Keeps.trans ?_ (keeps_bootOutcome _ _ _ _)
            assumption
          · refine Keeps.trans ?_ (keeps_bootOutcome _ _ _ _)
            assumption

theorem keeps_startStep8 (s : State) : KeepsL 2146231 s (startStep8 s) := by
  unfold startStep8
  extract_lets -underBinder -merge -useContext +onlyGivenNames x1
  have h1 : Keeps 2146231 s x1 := by
    unfold x1
    refine Keeps.trans ?_ (keeps_autoboot _)
    exact Keeps.refl _
  try clear_value x1
  refine KeepsL.mk ?_
  assumption

theorem keeps_bootEntries (p0 : List (Nat × Word)) (s : State) : KeepsOS 8388607 s (bootEntries p0 s) := by
  induction p0 generalizing s with
  | nil => exact KeepsOS.some (Keeps.refl _)
  | cons e l ih =>
    unfold bootEntries
    refine KeepsOS.ite ?_ KeepsOS.none
    exact KeepsOS.trans (Keeps.trans (Keeps.trans (keeps_setReg _ _ _).mono (keeps_writeReg _ _ _ _)) (keeps_setReg _ _ _)) (ih _)

theorem keeps_startStep9 (s : State) : KeepsL 8388607 s (startStep9 s) := by
  unfold startStep9
  split
  · refine KeepsL.mk ?_
    exact Keeps.refl _
  · split
    · rename_i v1 e2
      have h2 : Keeps 8388607 s v1 := by
        refine KeepsOS.of_eq e2 ?_
        refine KeepsOS.trans ?_ (keeps_bootEntries _ _)
        exact Keeps.refl _
      refine KeepsL.mk ?_
      assumption
    · refine KeepsL.mk ?_
      exact Keeps.refl _

theorem keeps_startEnables {L : Nat} (p0 : Nat) (p1 : List Nat) (p2 : State × Bool) (s : State) (h : KeepsL L s p2)
    (sub : 4096679 &&& L = 4096679 := by rfl) : KeepsL L s (startEnables p0 p1 p2) := by
  induction p1 generalizing p2 with
  | nil => exact h
  | cons p l ih =>
    obtain ⟨t, b⟩ := p2
    unfold startEnables
    refine KeepsL.ite (ih _ h) (ih _ ?_)
    exact Keeps.trans h (keeps_blkDecide _ _ _) sub

theorem keeps_startStep10 (s : State) : KeepsL 4096679 s (startStep10 s) := by
  unfold startStep10
  extract_lets -underBinder -merge -useContext +onlyGivenNames step9 x mask y
  have hx : Keeps 4096679 s x := Keeps.ite (Keeps.refl _) (Keeps.trans (keeps_calRestore _).mono (keeps_energyLoad _))
  exact keeps_startEnables _ _ _ s (Keeps.mono hx)

theorem keeps_startStep (p0 : StartInputs) (p1 : Nat) (s : State) : KeepsL 8388607 s (startStep p0 p1 s) := by
  unfold startStep
  refine KeepsL.ite ?_ ?_
  · refine KeepsL.trans ?_ (keeps_startStep1 _ _)
    exact Keeps.refl _
  · refine KeepsL.ite ?_ ?_
    · refine KeepsL.trans ?_ (keeps_startStep2 _ _)
      exact Keeps.refl _
    · refine KeepsL.ite ?_ ?_
      · refine KeepsL.trans ?_ (keeps_startStep3 _)
        exact Keeps.refl _
      · refine KeepsL.ite ?_ ?_
        · refine KeepsL.trans ?_ (keeps_startStep4 _ _)
          exact Keeps.refl _
        · refine KeepsL.ite ?_ ?_
          · refine KeepsL.trans ?_ (keeps_startStep5 _ _)
            exact Keeps.refl _
          · refine KeepsL.ite ?_ ?_
            · refine KeepsL.trans ?_ (keeps_startStep6 _ _)
              exact Keeps.refl _
            · refine KeepsL.ite ?_ ?_
              · refine KeepsL.trans ?_ (keeps_startStep7 _ _)
                exact Keeps.refl _
              · refine KeepsL.ite ?_ ?_
                · refine KeepsL.trans ?_ (keeps_startStep8 _)
                  exact Keeps.refl _
                · refine KeepsL.ite ?_ ?_
                  · refine KeepsL.trans ?_ (keeps_startStep9 _)
                    exact Keeps.refl _
                  · refine KeepsL.trans ?_ (keeps_startStep10 _)
                    exact Keeps.refl _

theorem keeps_ladderRun (p0 : StartInputs) (p1 : Nat) (s : State) : Keeps 8388607 s (ladderRun p0 p1 s) := by
  induction p1 generalizing s with
  | zero => exact Keeps.refl _
  | succ k ih =>
    unfold ladderRun
    extract_lets -underBinder -merge -useContext +onlyGivenNames n t x dur u
    have ht : Keeps 8388607 s t := (keeps_opProgress _ _ _).mono
    have hx : Keeps 8388607 s x.1 := Keeps.trans ht (keeps_startStep _ _ _)
    have hu : Keeps 8388607 s u := Keeps.trans hx (keeps_setRegN _ _ _)
    clear_value u
    refine Keeps.ite (Keeps.refl _) (Keeps.ite ?_ (Keeps.ite ?_ ?_))
    · exact Keeps.trans (Keeps.trans hu (keeps_setPwr _ _)) (keeps_opEnd _ _ _ _)
    · exact Keeps.trans (Keeps.trans hu (keeps_setPwr _ _)) (keeps_opEnd _ _ _ _)
    · exact Keeps.trans (Keeps.trans hu (keeps_setPwr _ _)) (ih _)

theorem keeps_ladderBegin (p0 : StartInputs) (s : State) : Keeps 69 s (ladderBegin p0 s) := by
  unfold ladderBegin
  extract_lets -underBinder -merge -useContext +onlyGivenNames x1
  have h1 : Keeps 69 s x1 := by
    unfold x1
    refine Keeps.trans ?_ (keeps_setSupplies _ _ _ _)
    exact Keeps.refl _
  try clear_value x1
  extract_lets -underBinder -merge -useContext +onlyGivenNames x2
  try clear_value x2
  extract_lets -underBinder -merge -useContext +onlyGivenNames x3
  extract_lets -underBinder -merge -useContext +onlyGivenNames x4
  have h4 : Keeps 69 s x4 := by
    unfold x4
    refine Keeps.trans ?_ (keeps_setPwr _ _)
    assumption
  try clear_value x4
  refine Keeps.trans ?_ (keeps_opStart _ _)
  assumption

theorem keeps_execStartUpLadder (p0 : StartInputs) (s : State) : KeepsO 8388607 s (execStartUpLadder p0 s) := by
  unfold execStartUpLadder
  refine KeepsO.done ?_
  refine Keeps.ite ?_ ?_
  · refine Keeps.trans ?_ (keeps_ladderRun _ _ _)
    exact Keeps.refl _
  · refine Keeps.ite ?_ ?_
    · exact Keeps.refl _
    · refine Keeps.trans ?_ (keeps_ladderRun _ _ _)
      refine Keeps.trans ?_ (keeps_ladderBegin _ _)
      exact Keeps.refl _

end Sys2Proof.Machine
end

