-- ==== Sys2Proof/Laws/State.lean ====
section
/-! SUPPORT. One lemma per named update of the state and per field it leaves alone. -/

set_option Elab.async false

namespace Sys2Proof.Machine

@[simp] theorem setReg_raw (s : State) (a : Nat) (v : Word) : (setReg s a v).raw = s.raw := rfl
@[simp] theorem setReg_part (s : State) (a : Nat) (v : Word) : (setReg s a v).part = s.part := rfl
@[simp] theorem setReg_freeCount (s : State) (a : Nat) (v : Word) : (setReg s a v).freeCount = s.freeCount := rfl
@[simp] theorem setReg_host (s : State) (a : Nat) (v : Word) : (setReg s a v).host = s.host := rfl
@[simp] theorem setReg_log (s : State) (a : Nat) (v : Word) : (setReg s a v).log = s.log := rfl
@[simp] theorem setReg_tim (s : State) (a : Nat) (v : Word) : (setReg s a v).tim = s.tim := rfl
@[simp] theorem setReg_pce (s : State) (a : Nat) (v : Word) : (setReg s a v).pce = s.pce := rfl
@[simp] theorem setReg_que (s : State) (a : Nat) (v : Word) : (setReg s a v).que = s.que := rfl
@[simp] theorem setReg_pwr (s : State) (a : Nat) (v : Word) : (setReg s a v).pwr = s.pwr := rfl
@[simp] theorem setReg_eth (s : State) (a : Nat) (v : Word) : (setReg s a v).eth = s.eth := rfl
@[simp] theorem setReg_pln (s : State) (a : Nat) (v : Word) : (setReg s a v).pln = s.pln := rfl
@[simp] theorem setReg_acc (s : State) (a : Nat) (v : Word) : (setReg s a v).acc = s.acc := rfl
@[simp] theorem setReg_vlt (s : State) (a : Nat) (v : Word) : (setReg s a v).vlt = s.vlt := rfl
@[simp] theorem setReg_dsp (s : State) (a : Nat) (v : Word) : (setReg s a v).dsp = s.dsp := rfl
@[simp] theorem setReg_doc (s : State) (a : Nat) (v : Word) : (setReg s a v).doc = s.doc := rfl
@[simp] theorem setReg_vrd (s : State) (a : Nat) (v : Word) : (setReg s a v).vrd = s.vrd := rfl
@[simp] theorem setReg_key (s : State) (a : Nat) (v : Word) : (setReg s a v).key = s.key := rfl
@[simp] theorem setReg_hsh (s : State) (a : Nat) (v : Word) : (setReg s a v).hsh = s.hsh := rfl
@[simp] theorem setReg_arc (s : State) (a : Nat) (v : Word) : (setReg s a v).arc = s.arc := rfl
@[simp] theorem setReg_twn (s : State) (a : Nat) (v : Word) : (setReg s a v).twn = s.twn := rfl
@[simp] theorem setReg_afe (s : State) (a : Nat) (v : Word) : (setReg s a v).afe = s.afe := rfl
@[simp] theorem setReg_nrg (s : State) (a : Nat) (v : Word) : (setReg s a v).nrg = s.nrg := rfl
@[simp] theorem setReg_cap (s : State) (a : Nat) (v : Word) : (setReg s a v).cap = s.cap := rfl
@[simp] theorem setReg_pending (s : State) (a : Nat) (v : Word) : (setReg s a v).pending = s.pending := rfl

@[simp] theorem setRegN_raw (s : State) (a v : Nat) : (setRegN s a v).raw = s.raw := rfl
@[simp] theorem setRegN_part (s : State) (a v : Nat) : (setRegN s a v).part = s.part := rfl
@[simp] theorem setRegN_freeCount (s : State) (a v : Nat) : (setRegN s a v).freeCount = s.freeCount := rfl
@[simp] theorem setRegN_host (s : State) (a v : Nat) : (setRegN s a v).host = s.host := rfl
@[simp] theorem setRegN_log (s : State) (a v : Nat) : (setRegN s a v).log = s.log := rfl
@[simp] theorem setRegN_tim (s : State) (a v : Nat) : (setRegN s a v).tim = s.tim := rfl
@[simp] theorem setRegN_pce (s : State) (a v : Nat) : (setRegN s a v).pce = s.pce := rfl
@[simp] theorem setRegN_que (s : State) (a v : Nat) : (setRegN s a v).que = s.que := rfl
@[simp] theorem setRegN_pwr (s : State) (a v : Nat) : (setRegN s a v).pwr = s.pwr := rfl
@[simp] theorem setRegN_eth (s : State) (a v : Nat) : (setRegN s a v).eth = s.eth := rfl
@[simp] theorem setRegN_pln (s : State) (a v : Nat) : (setRegN s a v).pln = s.pln := rfl
@[simp] theorem setRegN_acc (s : State) (a v : Nat) : (setRegN s a v).acc = s.acc := rfl
@[simp] theorem setRegN_vlt (s : State) (a v : Nat) : (setRegN s a v).vlt = s.vlt := rfl
@[simp] theorem setRegN_dsp (s : State) (a v : Nat) : (setRegN s a v).dsp = s.dsp := rfl
@[simp] theorem setRegN_doc (s : State) (a v : Nat) : (setRegN s a v).doc = s.doc := rfl
@[simp] theorem setRegN_vrd (s : State) (a v : Nat) : (setRegN s a v).vrd = s.vrd := rfl
@[simp] theorem setRegN_key (s : State) (a v : Nat) : (setRegN s a v).key = s.key := rfl
@[simp] theorem setRegN_hsh (s : State) (a v : Nat) : (setRegN s a v).hsh = s.hsh := rfl
@[simp] theorem setRegN_arc (s : State) (a v : Nat) : (setRegN s a v).arc = s.arc := rfl
@[simp] theorem setRegN_twn (s : State) (a v : Nat) : (setRegN s a v).twn = s.twn := rfl
@[simp] theorem setRegN_afe (s : State) (a v : Nat) : (setRegN s a v).afe = s.afe := rfl
@[simp] theorem setRegN_nrg (s : State) (a v : Nat) : (setRegN s a v).nrg = s.nrg := rfl
@[simp] theorem setRegN_cap (s : State) (a v : Nat) : (setRegN s a v).cap = s.cap := rfl
@[simp] theorem setRegN_pending (s : State) (a v : Nat) : (setRegN s a v).pending = s.pending := rfl

@[simp] theorem setRegFld_raw (s : State) (a hi lo v : Nat) : (setRegFld s a hi lo v).raw = s.raw := rfl
@[simp] theorem setRegFld_part (s : State) (a hi lo v : Nat) : (setRegFld s a hi lo v).part = s.part := rfl
@[simp] theorem setRegFld_freeCount (s : State) (a hi lo v : Nat) : (setRegFld s a hi lo v).freeCount = s.freeCount := rfl
@[simp] theorem setRegFld_host (s : State) (a hi lo v : Nat) : (setRegFld s a hi lo v).host = s.host := rfl
@[simp] theorem setRegFld_log (s : State) (a hi lo v : Nat) : (setRegFld s a hi lo v).log = s.log := rfl
@[simp] theorem setRegFld_tim (s : State) (a hi lo v : Nat) : (setRegFld s a hi lo v).tim = s.tim := rfl
@[simp] theorem setRegFld_pce (s : State) (a hi lo v : Nat) : (setRegFld s a hi lo v).pce = s.pce := rfl
@[simp] theorem setRegFld_que (s : State) (a hi lo v : Nat) : (setRegFld s a hi lo v).que = s.que := rfl
@[simp] theorem setRegFld_pwr (s : State) (a hi lo v : Nat) : (setRegFld s a hi lo v).pwr = s.pwr := rfl
@[simp] theorem setRegFld_eth (s : State) (a hi lo v : Nat) : (setRegFld s a hi lo v).eth = s.eth := rfl
@[simp] theorem setRegFld_pln (s : State) (a hi lo v : Nat) : (setRegFld s a hi lo v).pln = s.pln := rfl
@[simp] theorem setRegFld_acc (s : State) (a hi lo v : Nat) : (setRegFld s a hi lo v).acc = s.acc := rfl
@[simp] theorem setRegFld_vlt (s : State) (a hi lo v : Nat) : (setRegFld s a hi lo v).vlt = s.vlt := rfl
@[simp] theorem setRegFld_dsp (s : State) (a hi lo v : Nat) : (setRegFld s a hi lo v).dsp = s.dsp := rfl
@[simp] theorem setRegFld_doc (s : State) (a hi lo v : Nat) : (setRegFld s a hi lo v).doc = s.doc := rfl
@[simp] theorem setRegFld_vrd (s : State) (a hi lo v : Nat) : (setRegFld s a hi lo v).vrd = s.vrd := rfl
@[simp] theorem setRegFld_key (s : State) (a hi lo v : Nat) : (setRegFld s a hi lo v).key = s.key := rfl
@[simp] theorem setRegFld_hsh (s : State) (a hi lo v : Nat) : (setRegFld s a hi lo v).hsh = s.hsh := rfl
@[simp] theorem setRegFld_arc (s : State) (a hi lo v : Nat) : (setRegFld s a hi lo v).arc = s.arc := rfl
@[simp] theorem setRegFld_twn (s : State) (a hi lo v : Nat) : (setRegFld s a hi lo v).twn = s.twn := rfl
@[simp] theorem setRegFld_afe (s : State) (a hi lo v : Nat) : (setRegFld s a hi lo v).afe = s.afe := rfl
@[simp] theorem setRegFld_nrg (s : State) (a hi lo v : Nat) : (setRegFld s a hi lo v).nrg = s.nrg := rfl
@[simp] theorem setRegFld_cap (s : State) (a hi lo v : Nat) : (setRegFld s a hi lo v).cap = s.cap := rfl
@[simp] theorem setRegFld_pending (s : State) (a hi lo v : Nat) : (setRegFld s a hi lo v).pending = s.pending := rfl

@[simp] theorem setReg64_raw (s : State) (lo hi v : Nat) : (setReg64 s lo hi v).raw = s.raw := rfl
@[simp] theorem setReg64_part (s : State) (lo hi v : Nat) : (setReg64 s lo hi v).part = s.part := rfl
@[simp] theorem setReg64_freeCount (s : State) (lo hi v : Nat) : (setReg64 s lo hi v).freeCount = s.freeCount := rfl
@[simp] theorem setReg64_host (s : State) (lo hi v : Nat) : (setReg64 s lo hi v).host = s.host := rfl
@[simp] theorem setReg64_log (s : State) (lo hi v : Nat) : (setReg64 s lo hi v).log = s.log := rfl
@[simp] theorem setReg64_tim (s : State) (lo hi v : Nat) : (setReg64 s lo hi v).tim = s.tim := rfl
@[simp] theorem setReg64_pce (s : State) (lo hi v : Nat) : (setReg64 s lo hi v).pce = s.pce := rfl
@[simp] theorem setReg64_que (s : State) (lo hi v : Nat) : (setReg64 s lo hi v).que = s.que := rfl
@[simp] theorem setReg64_pwr (s : State) (lo hi v : Nat) : (setReg64 s lo hi v).pwr = s.pwr := rfl
@[simp] theorem setReg64_eth (s : State) (lo hi v : Nat) : (setReg64 s lo hi v).eth = s.eth := rfl
@[simp] theorem setReg64_pln (s : State) (lo hi v : Nat) : (setReg64 s lo hi v).pln = s.pln := rfl
@[simp] theorem setReg64_acc (s : State) (lo hi v : Nat) : (setReg64 s lo hi v).acc = s.acc := rfl
@[simp] theorem setReg64_vlt (s : State) (lo hi v : Nat) : (setReg64 s lo hi v).vlt = s.vlt := rfl
@[simp] theorem setReg64_dsp (s : State) (lo hi v : Nat) : (setReg64 s lo hi v).dsp = s.dsp := rfl
@[simp] theorem setReg64_doc (s : State) (lo hi v : Nat) : (setReg64 s lo hi v).doc = s.doc := rfl
@[simp] theorem setReg64_vrd (s : State) (lo hi v : Nat) : (setReg64 s lo hi v).vrd = s.vrd := rfl
@[simp] theorem setReg64_key (s : State) (lo hi v : Nat) : (setReg64 s lo hi v).key = s.key := rfl
@[simp] theorem setReg64_hsh (s : State) (lo hi v : Nat) : (setReg64 s lo hi v).hsh = s.hsh := rfl
@[simp] theorem setReg64_arc (s : State) (lo hi v : Nat) : (setReg64 s lo hi v).arc = s.arc := rfl
@[simp] theorem setReg64_twn (s : State) (lo hi v : Nat) : (setReg64 s lo hi v).twn = s.twn := rfl
@[simp] theorem setReg64_afe (s : State) (lo hi v : Nat) : (setReg64 s lo hi v).afe = s.afe := rfl
@[simp] theorem setReg64_nrg (s : State) (lo hi v : Nat) : (setReg64 s lo hi v).nrg = s.nrg := rfl
@[simp] theorem setReg64_cap (s : State) (lo hi v : Nat) : (setReg64 s lo hi v).cap = s.cap := rfl
@[simp] theorem setReg64_pending (s : State) (lo hi v : Nat) : (setReg64 s lo hi v).pending = s.pending := rfl

@[simp] theorem refuse_raw (s : State) (base code : Nat) : (refuse s base code).raw = s.raw := rfl
@[simp] theorem refuse_part (s : State) (base code : Nat) : (refuse s base code).part = s.part := rfl
@[simp] theorem refuse_freeCount (s : State) (base code : Nat) : (refuse s base code).freeCount = s.freeCount := rfl
@[simp] theorem refuse_host (s : State) (base code : Nat) : (refuse s base code).host = s.host := rfl
@[simp] theorem refuse_log (s : State) (base code : Nat) : (refuse s base code).log = s.log := rfl
@[simp] theorem refuse_tim (s : State) (base code : Nat) : (refuse s base code).tim = s.tim := rfl
@[simp] theorem refuse_pce (s : State) (base code : Nat) : (refuse s base code).pce = s.pce := rfl
@[simp] theorem refuse_que (s : State) (base code : Nat) : (refuse s base code).que = s.que := rfl
@[simp] theorem refuse_pwr (s : State) (base code : Nat) : (refuse s base code).pwr = s.pwr := rfl
@[simp] theorem refuse_eth (s : State) (base code : Nat) : (refuse s base code).eth = s.eth := rfl
@[simp] theorem refuse_pln (s : State) (base code : Nat) : (refuse s base code).pln = s.pln := rfl
@[simp] theorem refuse_acc (s : State) (base code : Nat) : (refuse s base code).acc = s.acc := rfl
@[simp] theorem refuse_vlt (s : State) (base code : Nat) : (refuse s base code).vlt = s.vlt := rfl
@[simp] theorem refuse_dsp (s : State) (base code : Nat) : (refuse s base code).dsp = s.dsp := rfl
@[simp] theorem refuse_doc (s : State) (base code : Nat) : (refuse s base code).doc = s.doc := rfl
@[simp] theorem refuse_vrd (s : State) (base code : Nat) : (refuse s base code).vrd = s.vrd := rfl
@[simp] theorem refuse_key (s : State) (base code : Nat) : (refuse s base code).key = s.key := rfl
@[simp] theorem refuse_hsh (s : State) (base code : Nat) : (refuse s base code).hsh = s.hsh := rfl
@[simp] theorem refuse_arc (s : State) (base code : Nat) : (refuse s base code).arc = s.arc := rfl
@[simp] theorem refuse_twn (s : State) (base code : Nat) : (refuse s base code).twn = s.twn := rfl
@[simp] theorem refuse_afe (s : State) (base code : Nat) : (refuse s base code).afe = s.afe := rfl
@[simp] theorem refuse_nrg (s : State) (base code : Nat) : (refuse s base code).nrg = s.nrg := rfl
@[simp] theorem refuse_cap (s : State) (base code : Nat) : (refuse s base code).cap = s.cap := rfl
@[simp] theorem refuse_pending (s : State) (base code : Nat) : (refuse s base code).pending = s.pending := rfl

@[simp] theorem refuseC_raw (s : State) (base cause : Nat) : (refuseC s base cause).raw = s.raw := rfl
@[simp] theorem refuseC_part (s : State) (base cause : Nat) : (refuseC s base cause).part = s.part := rfl
@[simp] theorem refuseC_freeCount (s : State) (base cause : Nat) : (refuseC s base cause).freeCount = s.freeCount := rfl
@[simp] theorem refuseC_host (s : State) (base cause : Nat) : (refuseC s base cause).host = s.host := rfl
@[simp] theorem refuseC_log (s : State) (base cause : Nat) : (refuseC s base cause).log = s.log := rfl
@[simp] theorem refuseC_tim (s : State) (base cause : Nat) : (refuseC s base cause).tim = s.tim := rfl
@[simp] theorem refuseC_pce (s : State) (base cause : Nat) : (refuseC s base cause).pce = s.pce := rfl
@[simp] theorem refuseC_que (s : State) (base cause : Nat) : (refuseC s base cause).que = s.que := rfl
@[simp] theorem refuseC_pwr (s : State) (base cause : Nat) : (refuseC s base cause).pwr = s.pwr := rfl
@[simp] theorem refuseC_eth (s : State) (base cause : Nat) : (refuseC s base cause).eth = s.eth := rfl
@[simp] theorem refuseC_pln (s : State) (base cause : Nat) : (refuseC s base cause).pln = s.pln := rfl
@[simp] theorem refuseC_acc (s : State) (base cause : Nat) : (refuseC s base cause).acc = s.acc := rfl
@[simp] theorem refuseC_vlt (s : State) (base cause : Nat) : (refuseC s base cause).vlt = s.vlt := rfl
@[simp] theorem refuseC_dsp (s : State) (base cause : Nat) : (refuseC s base cause).dsp = s.dsp := rfl
@[simp] theorem refuseC_doc (s : State) (base cause : Nat) : (refuseC s base cause).doc = s.doc := rfl
@[simp] theorem refuseC_vrd (s : State) (base cause : Nat) : (refuseC s base cause).vrd = s.vrd := rfl
@[simp] theorem refuseC_key (s : State) (base cause : Nat) : (refuseC s base cause).key = s.key := rfl
@[simp] theorem refuseC_hsh (s : State) (base cause : Nat) : (refuseC s base cause).hsh = s.hsh := rfl
@[simp] theorem refuseC_arc (s : State) (base cause : Nat) : (refuseC s base cause).arc = s.arc := rfl
@[simp] theorem refuseC_twn (s : State) (base cause : Nat) : (refuseC s base cause).twn = s.twn := rfl
@[simp] theorem refuseC_afe (s : State) (base cause : Nat) : (refuseC s base cause).afe = s.afe := rfl
@[simp] theorem refuseC_nrg (s : State) (base cause : Nat) : (refuseC s base cause).nrg = s.nrg := rfl
@[simp] theorem refuseC_cap (s : State) (base cause : Nat) : (refuseC s base cause).cap = s.cap := rfl
@[simp] theorem refuseC_pending (s : State) (base cause : Nat) : (refuseC s base cause).pending = s.pending := rfl

@[simp] theorem opStart_raw (s : State) (a : Nat) : (opStart s a).raw = s.raw := rfl
@[simp] theorem opStart_part (s : State) (a : Nat) : (opStart s a).part = s.part := rfl
@[simp] theorem opStart_freeCount (s : State) (a : Nat) : (opStart s a).freeCount = s.freeCount := rfl
@[simp] theorem opStart_host (s : State) (a : Nat) : (opStart s a).host = s.host := rfl
@[simp] theorem opStart_log (s : State) (a : Nat) : (opStart s a).log = s.log := rfl
@[simp] theorem opStart_tim (s : State) (a : Nat) : (opStart s a).tim = s.tim := rfl
@[simp] theorem opStart_pce (s : State) (a : Nat) : (opStart s a).pce = s.pce := rfl
@[simp] theorem opStart_que (s : State) (a : Nat) : (opStart s a).que = s.que := rfl
@[simp] theorem opStart_pwr (s : State) (a : Nat) : (opStart s a).pwr = s.pwr := rfl
@[simp] theorem opStart_eth (s : State) (a : Nat) : (opStart s a).eth = s.eth := rfl
@[simp] theorem opStart_pln (s : State) (a : Nat) : (opStart s a).pln = s.pln := rfl
@[simp] theorem opStart_acc (s : State) (a : Nat) : (opStart s a).acc = s.acc := rfl
@[simp] theorem opStart_vlt (s : State) (a : Nat) : (opStart s a).vlt = s.vlt := rfl
@[simp] theorem opStart_dsp (s : State) (a : Nat) : (opStart s a).dsp = s.dsp := rfl
@[simp] theorem opStart_doc (s : State) (a : Nat) : (opStart s a).doc = s.doc := rfl
@[simp] theorem opStart_vrd (s : State) (a : Nat) : (opStart s a).vrd = s.vrd := rfl
@[simp] theorem opStart_key (s : State) (a : Nat) : (opStart s a).key = s.key := rfl
@[simp] theorem opStart_hsh (s : State) (a : Nat) : (opStart s a).hsh = s.hsh := rfl
@[simp] theorem opStart_arc (s : State) (a : Nat) : (opStart s a).arc = s.arc := rfl
@[simp] theorem opStart_twn (s : State) (a : Nat) : (opStart s a).twn = s.twn := rfl
@[simp] theorem opStart_afe (s : State) (a : Nat) : (opStart s a).afe = s.afe := rfl
@[simp] theorem opStart_nrg (s : State) (a : Nat) : (opStart s a).nrg = s.nrg := rfl
@[simp] theorem opStart_cap (s : State) (a : Nat) : (opStart s a).cap = s.cap := rfl
@[simp] theorem opStart_pending (s : State) (a : Nat) : (opStart s a).pending = s.pending := rfl

@[simp] theorem opProgress_raw (s : State) (a n : Nat) : (opProgress s a n).raw = s.raw := rfl
@[simp] theorem opProgress_part (s : State) (a n : Nat) : (opProgress s a n).part = s.part := rfl
@[simp] theorem opProgress_freeCount (s : State) (a n : Nat) : (opProgress s a n).freeCount = s.freeCount := rfl
@[simp] theorem opProgress_host (s : State) (a n : Nat) : (opProgress s a n).host = s.host := rfl
@[simp] theorem opProgress_log (s : State) (a n : Nat) : (opProgress s a n).log = s.log := rfl
@[simp] theorem opProgress_tim (s : State) (a n : Nat) : (opProgress s a n).tim = s.tim := rfl
@[simp] theorem opProgress_pce (s : State) (a n : Nat) : (opProgress s a n).pce = s.pce := rfl
@[simp] theorem opProgress_que (s : State) (a n : Nat) : (opProgress s a n).que = s.que := rfl
@[simp] theorem opProgress_pwr (s : State) (a n : Nat) : (opProgress s a n).pwr = s.pwr := rfl
@[simp] theorem opProgress_eth (s : State) (a n : Nat) : (opProgress s a n).eth = s.eth := rfl
@[simp] theorem opProgress_pln (s : State) (a n : Nat) : (opProgress s a n).pln = s.pln := rfl
@[simp] theorem opProgress_acc (s : State) (a n : Nat) : (opProgress s a n).acc = s.acc := rfl
@[simp] theorem opProgress_vlt (s : State) (a n : Nat) : (opProgress s a n).vlt = s.vlt := rfl
@[simp] theorem opProgress_dsp (s : State) (a n : Nat) : (opProgress s a n).dsp = s.dsp := rfl
@[simp] theorem opProgress_doc (s : State) (a n : Nat) : (opProgress s a n).doc = s.doc := rfl
@[simp] theorem opProgress_vrd (s : State) (a n : Nat) : (opProgress s a n).vrd = s.vrd := rfl
@[simp] theorem opProgress_key (s : State) (a n : Nat) : (opProgress s a n).key = s.key := rfl
@[simp] theorem opProgress_hsh (s : State) (a n : Nat) : (opProgress s a n).hsh = s.hsh := rfl
@[simp] theorem opProgress_arc (s : State) (a n : Nat) : (opProgress s a n).arc = s.arc := rfl
@[simp] theorem opProgress_twn (s : State) (a n : Nat) : (opProgress s a n).twn = s.twn := rfl
@[simp] theorem opProgress_afe (s : State) (a n : Nat) : (opProgress s a n).afe = s.afe := rfl
@[simp] theorem opProgress_nrg (s : State) (a n : Nat) : (opProgress s a n).nrg = s.nrg := rfl
@[simp] theorem opProgress_cap (s : State) (a n : Nat) : (opProgress s a n).cap = s.cap := rfl
@[simp] theorem opProgress_pending (s : State) (a n : Nat) : (opProgress s a n).pending = s.pending := rfl

@[simp] theorem nextFree_regs (s : State) : (nextFree s).regs = s.regs := rfl
@[simp] theorem nextFree_raw (s : State) : (nextFree s).raw = s.raw := rfl
@[simp] theorem nextFree_part (s : State) : (nextFree s).part = s.part := rfl
@[simp] theorem nextFree_host (s : State) : (nextFree s).host = s.host := rfl
@[simp] theorem nextFree_log (s : State) : (nextFree s).log = s.log := rfl
@[simp] theorem nextFree_tim (s : State) : (nextFree s).tim = s.tim := rfl
@[simp] theorem nextFree_pce (s : State) : (nextFree s).pce = s.pce := rfl
@[simp] theorem nextFree_que (s : State) : (nextFree s).que = s.que := rfl
@[simp] theorem nextFree_pwr (s : State) : (nextFree s).pwr = s.pwr := rfl
@[simp] theorem nextFree_eth (s : State) : (nextFree s).eth = s.eth := rfl
@[simp] theorem nextFree_pln (s : State) : (nextFree s).pln = s.pln := rfl
@[simp] theorem nextFree_acc (s : State) : (nextFree s).acc = s.acc := rfl
@[simp] theorem nextFree_vlt (s : State) : (nextFree s).vlt = s.vlt := rfl
@[simp] theorem nextFree_dsp (s : State) : (nextFree s).dsp = s.dsp := rfl
@[simp] theorem nextFree_doc (s : State) : (nextFree s).doc = s.doc := rfl
@[simp] theorem nextFree_vrd (s : State) : (nextFree s).vrd = s.vrd := rfl
@[simp] theorem nextFree_key (s : State) : (nextFree s).key = s.key := rfl
@[simp] theorem nextFree_hsh (s : State) : (nextFree s).hsh = s.hsh := rfl
@[simp] theorem nextFree_arc (s : State) : (nextFree s).arc = s.arc := rfl
@[simp] theorem nextFree_twn (s : State) : (nextFree s).twn = s.twn := rfl
@[simp] theorem nextFree_afe (s : State) : (nextFree s).afe = s.afe := rfl
@[simp] theorem nextFree_nrg (s : State) : (nextFree s).nrg = s.nrg := rfl
@[simp] theorem nextFree_cap (s : State) : (nextFree s).cap = s.cap := rfl
@[simp] theorem nextFree_pending (s : State) : (nextFree s).pending = s.pending := rfl

@[simp] theorem skipFree_regs (s : State) (n : Nat) : (skipFree s n).regs = s.regs := rfl
@[simp] theorem skipFree_raw (s : State) (n : Nat) : (skipFree s n).raw = s.raw := rfl
@[simp] theorem skipFree_part (s : State) (n : Nat) : (skipFree s n).part = s.part := rfl
@[simp] theorem skipFree_host (s : State) (n : Nat) : (skipFree s n).host = s.host := rfl
@[simp] theorem skipFree_log (s : State) (n : Nat) : (skipFree s n).log = s.log := rfl
@[simp] theorem skipFree_tim (s : State) (n : Nat) : (skipFree s n).tim = s.tim := rfl
@[simp] theorem skipFree_pce (s : State) (n : Nat) : (skipFree s n).pce = s.pce := rfl
@[simp] theorem skipFree_que (s : State) (n : Nat) : (skipFree s n).que = s.que := rfl
@[simp] theorem skipFree_pwr (s : State) (n : Nat) : (skipFree s n).pwr = s.pwr := rfl
@[simp] theorem skipFree_eth (s : State) (n : Nat) : (skipFree s n).eth = s.eth := rfl
@[simp] theorem skipFree_pln (s : State) (n : Nat) : (skipFree s n).pln = s.pln := rfl
@[simp] theorem skipFree_acc (s : State) (n : Nat) : (skipFree s n).acc = s.acc := rfl
@[simp] theorem skipFree_vlt (s : State) (n : Nat) : (skipFree s n).vlt = s.vlt := rfl
@[simp] theorem skipFree_dsp (s : State) (n : Nat) : (skipFree s n).dsp = s.dsp := rfl
@[simp] theorem skipFree_doc (s : State) (n : Nat) : (skipFree s n).doc = s.doc := rfl
@[simp] theorem skipFree_vrd (s : State) (n : Nat) : (skipFree s n).vrd = s.vrd := rfl
@[simp] theorem skipFree_key (s : State) (n : Nat) : (skipFree s n).key = s.key := rfl
@[simp] theorem skipFree_hsh (s : State) (n : Nat) : (skipFree s n).hsh = s.hsh := rfl
@[simp] theorem skipFree_arc (s : State) (n : Nat) : (skipFree s n).arc = s.arc := rfl
@[simp] theorem skipFree_twn (s : State) (n : Nat) : (skipFree s n).twn = s.twn := rfl
@[simp] theorem skipFree_afe (s : State) (n : Nat) : (skipFree s n).afe = s.afe := rfl
@[simp] theorem skipFree_nrg (s : State) (n : Nat) : (skipFree s n).nrg = s.nrg := rfl
@[simp] theorem skipFree_cap (s : State) (n : Nat) : (skipFree s n).cap = s.cap := rfl
@[simp] theorem skipFree_pending (s : State) (n : Nat) : (skipFree s n).pending = s.pending := rfl

@[simp] theorem setDom_regs (s : State) (d : Nat) (x : Domain) : (setDom s d x).regs = s.regs := rfl
@[simp] theorem setDom_raw (s : State) (d : Nat) (x : Domain) : (setDom s d x).raw = s.raw := rfl
@[simp] theorem setDom_part (s : State) (d : Nat) (x : Domain) : (setDom s d x).part = s.part := rfl
@[simp] theorem setDom_freeCount (s : State) (d : Nat) (x : Domain) : (setDom s d x).freeCount = s.freeCount := rfl
@[simp] theorem setDom_host (s : State) (d : Nat) (x : Domain) : (setDom s d x).host = s.host := rfl
@[simp] theorem setDom_log (s : State) (d : Nat) (x : Domain) : (setDom s d x).log = s.log := rfl
@[simp] theorem setDom_pce (s : State) (d : Nat) (x : Domain) : (setDom s d x).pce = s.pce := rfl
@[simp] theorem setDom_que (s : State) (d : Nat) (x : Domain) : (setDom s d x).que = s.que := rfl
@[simp] theorem setDom_pwr (s : State) (d : Nat) (x : Domain) : (setDom s d x).pwr = s.pwr := rfl
@[simp] theorem setDom_eth (s : State) (d : Nat) (x : Domain) : (setDom s d x).eth = s.eth := rfl
@[simp] theorem setDom_pln (s : State) (d : Nat) (x : Domain) : (setDom s d x).pln = s.pln := rfl
@[simp] theorem setDom_acc (s : State) (d : Nat) (x : Domain) : (setDom s d x).acc = s.acc := rfl
@[simp] theorem setDom_vlt (s : State) (d : Nat) (x : Domain) : (setDom s d x).vlt = s.vlt := rfl
@[simp] theorem setDom_dsp (s : State) (d : Nat) (x : Domain) : (setDom s d x).dsp = s.dsp := rfl
@[simp] theorem setDom_doc (s : State) (d : Nat) (x : Domain) : (setDom s d x).doc = s.doc := rfl
@[simp] theorem setDom_vrd (s : State) (d : Nat) (x : Domain) : (setDom s d x).vrd = s.vrd := rfl
@[simp] theorem setDom_key (s : State) (d : Nat) (x : Domain) : (setDom s d x).key = s.key := rfl
@[simp] theorem setDom_hsh (s : State) (d : Nat) (x : Domain) : (setDom s d x).hsh = s.hsh := rfl
@[simp] theorem setDom_arc (s : State) (d : Nat) (x : Domain) : (setDom s d x).arc = s.arc := rfl
@[simp] theorem setDom_twn (s : State) (d : Nat) (x : Domain) : (setDom s d x).twn = s.twn := rfl
@[simp] theorem setDom_afe (s : State) (d : Nat) (x : Domain) : (setDom s d x).afe = s.afe := rfl
@[simp] theorem setDom_nrg (s : State) (d : Nat) (x : Domain) : (setDom s d x).nrg = s.nrg := rfl
@[simp] theorem setDom_cap (s : State) (d : Nat) (x : Domain) : (setDom s d x).cap = s.cap := rfl
@[simp] theorem setDom_pending (s : State) (d : Nat) (x : Domain) : (setDom s d x).pending = s.pending := rfl

@[simp] theorem setQ_regs (s : State) (q : Nat) (x : Queue) : (setQ s q x).regs = s.regs := rfl
@[simp] theorem setQ_raw (s : State) (q : Nat) (x : Queue) : (setQ s q x).raw = s.raw := rfl
@[simp] theorem setQ_part (s : State) (q : Nat) (x : Queue) : (setQ s q x).part = s.part := rfl
@[simp] theorem setQ_freeCount (s : State) (q : Nat) (x : Queue) : (setQ s q x).freeCount = s.freeCount := rfl
@[simp] theorem setQ_host (s : State) (q : Nat) (x : Queue) : (setQ s q x).host = s.host := rfl
@[simp] theorem setQ_log (s : State) (q : Nat) (x : Queue) : (setQ s q x).log = s.log := rfl
@[simp] theorem setQ_tim (s : State) (q : Nat) (x : Queue) : (setQ s q x).tim = s.tim := rfl
@[simp] theorem setQ_pce (s : State) (q : Nat) (x : Queue) : (setQ s q x).pce = s.pce := rfl
@[simp] theorem setQ_pwr (s : State) (q : Nat) (x : Queue) : (setQ s q x).pwr = s.pwr := rfl
@[simp] theorem setQ_eth (s : State) (q : Nat) (x : Queue) : (setQ s q x).eth = s.eth := rfl
@[simp] theorem setQ_pln (s : State) (q : Nat) (x : Queue) : (setQ s q x).pln = s.pln := rfl
@[simp] theorem setQ_acc (s : State) (q : Nat) (x : Queue) : (setQ s q x).acc = s.acc := rfl
@[simp] theorem setQ_vlt (s : State) (q : Nat) (x : Queue) : (setQ s q x).vlt = s.vlt := rfl
@[simp] theorem setQ_dsp (s : State) (q : Nat) (x : Queue) : (setQ s q x).dsp = s.dsp := rfl
@[simp] theorem setQ_doc (s : State) (q : Nat) (x : Queue) : (setQ s q x).doc = s.doc := rfl
@[simp] theorem setQ_vrd (s : State) (q : Nat) (x : Queue) : (setQ s q x).vrd = s.vrd := rfl
@[simp] theorem setQ_key (s : State) (q : Nat) (x : Queue) : (setQ s q x).key = s.key := rfl
@[simp] theorem setQ_hsh (s : State) (q : Nat) (x : Queue) : (setQ s q x).hsh = s.hsh := rfl
@[simp] theorem setQ_arc (s : State) (q : Nat) (x : Queue) : (setQ s q x).arc = s.arc := rfl
@[simp] theorem setQ_twn (s : State) (q : Nat) (x : Queue) : (setQ s q x).twn = s.twn := rfl
@[simp] theorem setQ_afe (s : State) (q : Nat) (x : Queue) : (setQ s q x).afe = s.afe := rfl
@[simp] theorem setQ_nrg (s : State) (q : Nat) (x : Queue) : (setQ s q x).nrg = s.nrg := rfl
@[simp] theorem setQ_cap (s : State) (q : Nat) (x : Queue) : (setQ s q x).cap = s.cap := rfl
@[simp] theorem setQ_pending (s : State) (q : Nat) (x : Queue) : (setQ s q x).pending = s.pending := rfl

@[simp] theorem setLevel_regs (s : State) (l : Nat) (js : List Job) : (setLevel s l js).regs = s.regs := rfl
@[simp] theorem setLevel_raw (s : State) (l : Nat) (js : List Job) : (setLevel s l js).raw = s.raw := rfl
@[simp] theorem setLevel_part (s : State) (l : Nat) (js : List Job) : (setLevel s l js).part = s.part := rfl
@[simp] theorem setLevel_freeCount (s : State) (l : Nat) (js : List Job) : (setLevel s l js).freeCount = s.freeCount := rfl
@[simp] theorem setLevel_host (s : State) (l : Nat) (js : List Job) : (setLevel s l js).host = s.host := rfl
@[simp] theorem setLevel_log (s : State) (l : Nat) (js : List Job) : (setLevel s l js).log = s.log := rfl
@[simp] theorem setLevel_tim (s : State) (l : Nat) (js : List Job) : (setLevel s l js).tim = s.tim := rfl
@[simp] theorem setLevel_pce (s : State) (l : Nat) (js : List Job) : (setLevel s l js).pce = s.pce := rfl
@[simp] theorem setLevel_que (s : State) (l : Nat) (js : List Job) : (setLevel s l js).que = s.que := rfl
@[simp] theorem setLevel_pwr (s : State) (l : Nat) (js : List Job) : (setLevel s l js).pwr = s.pwr := rfl
@[simp] theorem setLevel_eth (s : State) (l : Nat) (js : List Job) : (setLevel s l js).eth = s.eth := rfl
@[simp] theorem setLevel_pln (s : State) (l : Nat) (js : List Job) : (setLevel s l js).pln = s.pln := rfl
@[simp] theorem setLevel_acc (s : State) (l : Nat) (js : List Job) : (setLevel s l js).acc = s.acc := rfl
@[simp] theorem setLevel_vlt (s : State) (l : Nat) (js : List Job) : (setLevel s l js).vlt = s.vlt := rfl
@[simp] theorem setLevel_doc (s : State) (l : Nat) (js : List Job) : (setLevel s l js).doc = s.doc := rfl
@[simp] theorem setLevel_vrd (s : State) (l : Nat) (js : List Job) : (setLevel s l js).vrd = s.vrd := rfl
@[simp] theorem setLevel_key (s : State) (l : Nat) (js : List Job) : (setLevel s l js).key = s.key := rfl
@[simp] theorem setLevel_hsh (s : State) (l : Nat) (js : List Job) : (setLevel s l js).hsh = s.hsh := rfl
@[simp] theorem setLevel_arc (s : State) (l : Nat) (js : List Job) : (setLevel s l js).arc = s.arc := rfl
@[simp] theorem setLevel_twn (s : State) (l : Nat) (js : List Job) : (setLevel s l js).twn = s.twn := rfl
@[simp] theorem setLevel_afe (s : State) (l : Nat) (js : List Job) : (setLevel s l js).afe = s.afe := rfl
@[simp] theorem setLevel_nrg (s : State) (l : Nat) (js : List Job) : (setLevel s l js).nrg = s.nrg := rfl
@[simp] theorem setLevel_cap (s : State) (l : Nat) (js : List Job) : (setLevel s l js).cap = s.cap := rfl
@[simp] theorem setLevel_pending (s : State) (l : Nat) (js : List Job) : (setLevel s l js).pending = s.pending := rfl

@[simp] theorem levelPeak_regs (s : State) (l : Nat) : (levelPeak s l).regs = s.regs := rfl
@[simp] theorem levelPeak_raw (s : State) (l : Nat) : (levelPeak s l).raw = s.raw := rfl
@[simp] theorem levelPeak_part (s : State) (l : Nat) : (levelPeak s l).part = s.part := rfl
@[simp] theorem levelPeak_freeCount (s : State) (l : Nat) : (levelPeak s l).freeCount = s.freeCount := rfl
@[simp] theorem levelPeak_host (s : State) (l : Nat) : (levelPeak s l).host = s.host := rfl
@[simp] theorem levelPeak_log (s : State) (l : Nat) : (levelPeak s l).log = s.log := rfl
@[simp] theorem levelPeak_tim (s : State) (l : Nat) : (levelPeak s l).tim = s.tim := rfl
@[simp] theorem levelPeak_pce (s : State) (l : Nat) : (levelPeak s l).pce = s.pce := rfl
@[simp] theorem levelPeak_que (s : State) (l : Nat) : (levelPeak s l).que = s.que := rfl
@[simp] theorem levelPeak_pwr (s : State) (l : Nat) : (levelPeak s l).pwr = s.pwr := rfl
@[simp] theorem levelPeak_eth (s : State) (l : Nat) : (levelPeak s l).eth = s.eth := rfl
@[simp] theorem levelPeak_pln (s : State) (l : Nat) : (levelPeak s l).pln = s.pln := rfl
@[simp] theorem levelPeak_acc (s : State) (l : Nat) : (levelPeak s l).acc = s.acc := rfl
@[simp] theorem levelPeak_vlt (s : State) (l : Nat) : (levelPeak s l).vlt = s.vlt := rfl
@[simp] theorem levelPeak_doc (s : State) (l : Nat) : (levelPeak s l).doc = s.doc := rfl
@[simp] theorem levelPeak_vrd (s : State) (l : Nat) : (levelPeak s l).vrd = s.vrd := rfl
@[simp] theorem levelPeak_key (s : State) (l : Nat) : (levelPeak s l).key = s.key := rfl
@[simp] theorem levelPeak_hsh (s : State) (l : Nat) : (levelPeak s l).hsh = s.hsh := rfl
@[simp] theorem levelPeak_arc (s : State) (l : Nat) : (levelPeak s l).arc = s.arc := rfl
@[simp] theorem levelPeak_twn (s : State) (l : Nat) : (levelPeak s l).twn = s.twn := rfl
@[simp] theorem levelPeak_afe (s : State) (l : Nat) : (levelPeak s l).afe = s.afe := rfl
@[simp] theorem levelPeak_nrg (s : State) (l : Nat) : (levelPeak s l).nrg = s.nrg := rfl
@[simp] theorem levelPeak_cap (s : State) (l : Nat) : (levelPeak s l).cap = s.cap := rfl
@[simp] theorem levelPeak_pending (s : State) (l : Nat) : (levelPeak s l).pending = s.pending := rfl

@[simp] theorem setDocent_regs (s : State) (d : Nat) (x : Docent) : (setDocent s d x).regs = s.regs := rfl
@[simp] theorem setDocent_raw (s : State) (d : Nat) (x : Docent) : (setDocent s d x).raw = s.raw := rfl
@[simp] theorem setDocent_part (s : State) (d : Nat) (x : Docent) : (setDocent s d x).part = s.part := rfl
@[simp] theorem setDocent_freeCount (s : State) (d : Nat) (x : Docent) : (setDocent s d x).freeCount = s.freeCount := rfl
@[simp] theorem setDocent_host (s : State) (d : Nat) (x : Docent) : (setDocent s d x).host = s.host := rfl
@[simp] theorem setDocent_log (s : State) (d : Nat) (x : Docent) : (setDocent s d x).log = s.log := rfl
@[simp] theorem setDocent_tim (s : State) (d : Nat) (x : Docent) : (setDocent s d x).tim = s.tim := rfl
@[simp] theorem setDocent_pce (s : State) (d : Nat) (x : Docent) : (setDocent s d x).pce = s.pce := rfl
@[simp] theorem setDocent_que (s : State) (d : Nat) (x : Docent) : (setDocent s d x).que = s.que := rfl
@[simp] theorem setDocent_pwr (s : State) (d : Nat) (x : Docent) : (setDocent s d x).pwr = s.pwr := rfl
@[simp] theorem setDocent_eth (s : State) (d : Nat) (x : Docent) : (setDocent s d x).eth = s.eth := rfl
@[simp] theorem setDocent_pln (s : State) (d : Nat) (x : Docent) : (setDocent s d x).pln = s.pln := rfl
@[simp] theorem setDocent_acc (s : State) (d : Nat) (x : Docent) : (setDocent s d x).acc = s.acc := rfl
@[simp] theorem setDocent_vlt (s : State) (d : Nat) (x : Docent) : (setDocent s d x).vlt = s.vlt := rfl
@[simp] theorem setDocent_dsp (s : State) (d : Nat) (x : Docent) : (setDocent s d x).dsp = s.dsp := rfl
@[simp] theorem setDocent_vrd (s : State) (d : Nat) (x : Docent) : (setDocent s d x).vrd = s.vrd := rfl
@[simp] theorem setDocent_key (s : State) (d : Nat) (x : Docent) : (setDocent s d x).key = s.key := rfl
@[simp] theorem setDocent_hsh (s : State) (d : Nat) (x : Docent) : (setDocent s d x).hsh = s.hsh := rfl
@[simp] theorem setDocent_arc (s : State) (d : Nat) (x : Docent) : (setDocent s d x).arc = s.arc := rfl
@[simp] theorem setDocent_twn (s : State) (d : Nat) (x : Docent) : (setDocent s d x).twn = s.twn := rfl
@[simp] theorem setDocent_afe (s : State) (d : Nat) (x : Docent) : (setDocent s d x).afe = s.afe := rfl
@[simp] theorem setDocent_nrg (s : State) (d : Nat) (x : Docent) : (setDocent s d x).nrg = s.nrg := rfl
@[simp] theorem setDocent_cap (s : State) (d : Nat) (x : Docent) : (setDocent s d x).cap = s.cap := rfl
@[simp] theorem setDocent_pending (s : State) (d : Nat) (x : Docent) : (setDocent s d x).pending = s.pending := rfl

@[simp] theorem iramPut_regs (s : State) (d b a : Nat) (w : Word) : (iramPut s d b a w).regs = s.regs := rfl
@[simp] theorem iramPut_raw (s : State) (d b a : Nat) (w : Word) : (iramPut s d b a w).raw = s.raw := rfl
@[simp] theorem iramPut_part (s : State) (d b a : Nat) (w : Word) : (iramPut s d b a w).part = s.part := rfl
@[simp] theorem iramPut_freeCount (s : State) (d b a : Nat) (w : Word) : (iramPut s d b a w).freeCount = s.freeCount := rfl
@[simp] theorem iramPut_host (s : State) (d b a : Nat) (w : Word) : (iramPut s d b a w).host = s.host := rfl
@[simp] theorem iramPut_log (s : State) (d b a : Nat) (w : Word) : (iramPut s d b a w).log = s.log := rfl
@[simp] theorem iramPut_tim (s : State) (d b a : Nat) (w : Word) : (iramPut s d b a w).tim = s.tim := rfl
@[simp] theorem iramPut_pce (s : State) (d b a : Nat) (w : Word) : (iramPut s d b a w).pce = s.pce := rfl
@[simp] theorem iramPut_que (s : State) (d b a : Nat) (w : Word) : (iramPut s d b a w).que = s.que := rfl
@[simp] theorem iramPut_pwr (s : State) (d b a : Nat) (w : Word) : (iramPut s d b a w).pwr = s.pwr := rfl
@[simp] theorem iramPut_eth (s : State) (d b a : Nat) (w : Word) : (iramPut s d b a w).eth = s.eth := rfl
@[simp] theorem iramPut_pln (s : State) (d b a : Nat) (w : Word) : (iramPut s d b a w).pln = s.pln := rfl
@[simp] theorem iramPut_acc (s : State) (d b a : Nat) (w : Word) : (iramPut s d b a w).acc = s.acc := rfl
@[simp] theorem iramPut_vlt (s : State) (d b a : Nat) (w : Word) : (iramPut s d b a w).vlt = s.vlt := rfl
@[simp] theorem iramPut_dsp (s : State) (d b a : Nat) (w : Word) : (iramPut s d b a w).dsp = s.dsp := rfl
@[simp] theorem iramPut_vrd (s : State) (d b a : Nat) (w : Word) : (iramPut s d b a w).vrd = s.vrd := rfl
@[simp] theorem iramPut_key (s : State) (d b a : Nat) (w : Word) : (iramPut s d b a w).key = s.key := rfl
@[simp] theorem iramPut_hsh (s : State) (d b a : Nat) (w : Word) : (iramPut s d b a w).hsh = s.hsh := rfl
@[simp] theorem iramPut_arc (s : State) (d b a : Nat) (w : Word) : (iramPut s d b a w).arc = s.arc := rfl
@[simp] theorem iramPut_twn (s : State) (d b a : Nat) (w : Word) : (iramPut s d b a w).twn = s.twn := rfl
@[simp] theorem iramPut_afe (s : State) (d b a : Nat) (w : Word) : (iramPut s d b a w).afe = s.afe := rfl
@[simp] theorem iramPut_nrg (s : State) (d b a : Nat) (w : Word) : (iramPut s d b a w).nrg = s.nrg := rfl
@[simp] theorem iramPut_cap (s : State) (d b a : Nat) (w : Word) : (iramPut s d b a w).cap = s.cap := rfl
@[simp] theorem iramPut_pending (s : State) (d b a : Nat) (w : Word) : (iramPut s d b a w).pending = s.pending := rfl

@[simp] theorem dramWrite_regs (s : State) (d h a : Nat) (bs : List Byte) : (dramWrite s d h a bs).regs = s.regs := rfl
@[simp] theorem dramWrite_raw (s : State) (d h a : Nat) (bs : List Byte) : (dramWrite s d h a bs).raw = s.raw := rfl
@[simp] theorem dramWrite_part (s : State) (d h a : Nat) (bs : List Byte) : (dramWrite s d h a bs).part = s.part := rfl
@[simp] theorem dramWrite_freeCount (s : State) (d h a : Nat) (bs : List Byte) : (dramWrite s d h a bs).freeCount = s.freeCount := rfl
@[simp] theorem dramWrite_host (s : State) (d h a : Nat) (bs : List Byte) : (dramWrite s d h a bs).host = s.host := rfl
@[simp] theorem dramWrite_log (s : State) (d h a : Nat) (bs : List Byte) : (dramWrite s d h a bs).log = s.log := rfl
@[simp] theorem dramWrite_tim (s : State) (d h a : Nat) (bs : List Byte) : (dramWrite s d h a bs).tim = s.tim := rfl
@[simp] theorem dramWrite_pce (s : State) (d h a : Nat) (bs : List Byte) : (dramWrite s d h a bs).pce = s.pce := rfl
@[simp] theorem dramWrite_que (s : State) (d h a : Nat) (bs : List Byte) : (dramWrite s d h a bs).que = s.que := rfl
@[simp] theorem dramWrite_pwr (s : State) (d h a : Nat) (bs : List Byte) : (dramWrite s d h a bs).pwr = s.pwr := rfl
@[simp] theorem dramWrite_eth (s : State) (d h a : Nat) (bs : List Byte) : (dramWrite s d h a bs).eth = s.eth := rfl
@[simp] theorem dramWrite_pln (s : State) (d h a : Nat) (bs : List Byte) : (dramWrite s d h a bs).pln = s.pln := rfl
@[simp] theorem dramWrite_acc (s : State) (d h a : Nat) (bs : List Byte) : (dramWrite s d h a bs).acc = s.acc := rfl
@[simp] theorem dramWrite_vlt (s : State) (d h a : Nat) (bs : List Byte) : (dramWrite s d h a bs).vlt = s.vlt := rfl
@[simp] theorem dramWrite_dsp (s : State) (d h a : Nat) (bs : List Byte) : (dramWrite s d h a bs).dsp = s.dsp := rfl
@[simp] theorem dramWrite_vrd (s : State) (d h a : Nat) (bs : List Byte) : (dramWrite s d h a bs).vrd = s.vrd := rfl
@[simp] theorem dramWrite_key (s : State) (d h a : Nat) (bs : List Byte) : (dramWrite s d h a bs).key = s.key := rfl
@[simp] theorem dramWrite_hsh (s : State) (d h a : Nat) (bs : List Byte) : (dramWrite s d h a bs).hsh = s.hsh := rfl
@[simp] theorem dramWrite_arc (s : State) (d h a : Nat) (bs : List Byte) : (dramWrite s d h a bs).arc = s.arc := rfl
@[simp] theorem dramWrite_twn (s : State) (d h a : Nat) (bs : List Byte) : (dramWrite s d h a bs).twn = s.twn := rfl
@[simp] theorem dramWrite_afe (s : State) (d h a : Nat) (bs : List Byte) : (dramWrite s d h a bs).afe = s.afe := rfl
@[simp] theorem dramWrite_nrg (s : State) (d h a : Nat) (bs : List Byte) : (dramWrite s d h a bs).nrg = s.nrg := rfl
@[simp] theorem dramWrite_cap (s : State) (d h a : Nat) (bs : List Byte) : (dramWrite s d h a bs).cap = s.cap := rfl
@[simp] theorem dramWrite_pending (s : State) (d h a : Nat) (bs : List Byte) : (dramWrite s d h a bs).pending = s.pending := rfl

@[simp] theorem setPlanSlot_regs (s : State) (k : Nat) (x : PlanSlot) : (setPlanSlot s k x).regs = s.regs := rfl
@[simp] theorem setPlanSlot_raw (s : State) (k : Nat) (x : PlanSlot) : (setPlanSlot s k x).raw = s.raw := rfl
@[simp] theorem setPlanSlot_part (s : State) (k : Nat) (x : PlanSlot) : (setPlanSlot s k x).part = s.part := rfl
@[simp] theorem setPlanSlot_freeCount (s : State) (k : Nat) (x : PlanSlot) : (setPlanSlot s k x).freeCount = s.freeCount := rfl
@[simp] theorem setPlanSlot_host (s : State) (k : Nat) (x : PlanSlot) : (setPlanSlot s k x).host = s.host := rfl
@[simp] theorem setPlanSlot_log (s : State) (k : Nat) (x : PlanSlot) : (setPlanSlot s k x).log = s.log := rfl
@[simp] theorem setPlanSlot_tim (s : State) (k : Nat) (x : PlanSlot) : (setPlanSlot s k x).tim = s.tim := rfl
@[simp] theorem setPlanSlot_pce (s : State) (k : Nat) (x : PlanSlot) : (setPlanSlot s k x).pce = s.pce := rfl
@[simp] theorem setPlanSlot_que (s : State) (k : Nat) (x : PlanSlot) : (setPlanSlot s k x).que = s.que := rfl
@[simp] theorem setPlanSlot_pwr (s : State) (k : Nat) (x : PlanSlot) : (setPlanSlot s k x).pwr = s.pwr := rfl
@[simp] theorem setPlanSlot_eth (s : State) (k : Nat) (x : PlanSlot) : (setPlanSlot s k x).eth = s.eth := rfl
@[simp] theorem setPlanSlot_acc (s : State) (k : Nat) (x : PlanSlot) : (setPlanSlot s k x).acc = s.acc := rfl
@[simp] theorem setPlanSlot_vlt (s : State) (k : Nat) (x : PlanSlot) : (setPlanSlot s k x).vlt = s.vlt := rfl
@[simp] theorem setPlanSlot_dsp (s : State) (k : Nat) (x : PlanSlot) : (setPlanSlot s k x).dsp = s.dsp := rfl
@[simp] theorem setPlanSlot_doc (s : State) (k : Nat) (x : PlanSlot) : (setPlanSlot s k x).doc = s.doc := rfl
@[simp] theorem setPlanSlot_vrd (s : State) (k : Nat) (x : PlanSlot) : (setPlanSlot s k x).vrd = s.vrd := rfl
@[simp] theorem setPlanSlot_key (s : State) (k : Nat) (x : PlanSlot) : (setPlanSlot s k x).key = s.key := rfl
@[simp] theorem setPlanSlot_hsh (s : State) (k : Nat) (x : PlanSlot) : (setPlanSlot s k x).hsh = s.hsh := rfl
@[simp] theorem setPlanSlot_arc (s : State) (k : Nat) (x : PlanSlot) : (setPlanSlot s k x).arc = s.arc := rfl
@[simp] theorem setPlanSlot_twn (s : State) (k : Nat) (x : PlanSlot) : (setPlanSlot s k x).twn = s.twn := rfl
@[simp] theorem setPlanSlot_afe (s : State) (k : Nat) (x : PlanSlot) : (setPlanSlot s k x).afe = s.afe := rfl
@[simp] theorem setPlanSlot_nrg (s : State) (k : Nat) (x : PlanSlot) : (setPlanSlot s k x).nrg = s.nrg := rfl
@[simp] theorem setPlanSlot_cap (s : State) (k : Nat) (x : PlanSlot) : (setPlanSlot s k x).cap = s.cap := rfl
@[simp] theorem setPlanSlot_pending (s : State) (k : Nat) (x : PlanSlot) : (setPlanSlot s k x).pending = s.pending := rfl

@[simp] theorem setPort_regs (s : State) (p : Nat) (x : PortSt) : (setPort s p x).regs = s.regs := rfl
@[simp] theorem setPort_raw (s : State) (p : Nat) (x : PortSt) : (setPort s p x).raw = s.raw := rfl
@[simp] theorem setPort_part (s : State) (p : Nat) (x : PortSt) : (setPort s p x).part = s.part := rfl
@[simp] theorem setPort_freeCount (s : State) (p : Nat) (x : PortSt) : (setPort s p x).freeCount = s.freeCount := rfl
@[simp] theorem setPort_host (s : State) (p : Nat) (x : PortSt) : (setPort s p x).host = s.host := rfl
@[simp] theorem setPort_log (s : State) (p : Nat) (x : PortSt) : (setPort s p x).log = s.log := rfl
@[simp] theorem setPort_tim (s : State) (p : Nat) (x : PortSt) : (setPort s p x).tim = s.tim := rfl
@[simp] theorem setPort_pce (s : State) (p : Nat) (x : PortSt) : (setPort s p x).pce = s.pce := rfl
@[simp] theorem setPort_que (s : State) (p : Nat) (x : PortSt) : (setPort s p x).que = s.que := rfl
@[simp] theorem setPort_pwr (s : State) (p : Nat) (x : PortSt) : (setPort s p x).pwr = s.pwr := rfl
@[simp] theorem setPort_pln (s : State) (p : Nat) (x : PortSt) : (setPort s p x).pln = s.pln := rfl
@[simp] theorem setPort_acc (s : State) (p : Nat) (x : PortSt) : (setPort s p x).acc = s.acc := rfl
@[simp] theorem setPort_vlt (s : State) (p : Nat) (x : PortSt) : (setPort s p x).vlt = s.vlt := rfl
@[simp] theorem setPort_dsp (s : State) (p : Nat) (x : PortSt) : (setPort s p x).dsp = s.dsp := rfl
@[simp] theorem setPort_doc (s : State) (p : Nat) (x : PortSt) : (setPort s p x).doc = s.doc := rfl
@[simp] theorem setPort_vrd (s : State) (p : Nat) (x : PortSt) : (setPort s p x).vrd = s.vrd := rfl
@[simp] theorem setPort_key (s : State) (p : Nat) (x : PortSt) : (setPort s p x).key = s.key := rfl
@[simp] theorem setPort_hsh (s : State) (p : Nat) (x : PortSt) : (setPort s p x).hsh = s.hsh := rfl
@[simp] theorem setPort_arc (s : State) (p : Nat) (x : PortSt) : (setPort s p x).arc = s.arc := rfl
@[simp] theorem setPort_twn (s : State) (p : Nat) (x : PortSt) : (setPort s p x).twn = s.twn := rfl
@[simp] theorem setPort_afe (s : State) (p : Nat) (x : PortSt) : (setPort s p x).afe = s.afe := rfl
@[simp] theorem setPort_nrg (s : State) (p : Nat) (x : PortSt) : (setPort s p x).nrg = s.nrg := rfl
@[simp] theorem setPort_cap (s : State) (p : Nat) (x : PortSt) : (setPort s p x).cap = s.cap := rfl
@[simp] theorem setPort_pending (s : State) (p : Nat) (x : PortSt) : (setPort s p x).pending = s.pending := rfl

@[simp] theorem setPwr_regs (s : State) (x : PwrSt) : (setPwr s x).regs = s.regs := rfl
@[simp] theorem setPwr_raw (s : State) (x : PwrSt) : (setPwr s x).raw = s.raw := rfl
@[simp] theorem setPwr_part (s : State) (x : PwrSt) : (setPwr s x).part = s.part := rfl
@[simp] theorem setPwr_freeCount (s : State) (x : PwrSt) : (setPwr s x).freeCount = s.freeCount := rfl
@[simp] theorem setPwr_host (s : State) (x : PwrSt) : (setPwr s x).host = s.host := rfl
@[simp] theorem setPwr_log (s : State) (x : PwrSt) : (setPwr s x).log = s.log := rfl
@[simp] theorem setPwr_tim (s : State) (x : PwrSt) : (setPwr s x).tim = s.tim := rfl
@[simp] theorem setPwr_pce (s : State) (x : PwrSt) : (setPwr s x).pce = s.pce := rfl
@[simp] theorem setPwr_que (s : State) (x : PwrSt) : (setPwr s x).que = s.que := rfl
@[simp] theorem setPwr_eth (s : State) (x : PwrSt) : (setPwr s x).eth = s.eth := rfl
@[simp] theorem setPwr_pln (s : State) (x : PwrSt) : (setPwr s x).pln = s.pln := rfl
@[simp] theorem setPwr_acc (s : State) (x : PwrSt) : (setPwr s x).acc = s.acc := rfl
@[simp] theorem setPwr_vlt (s : State) (x : PwrSt) : (setPwr s x).vlt = s.vlt := rfl
@[simp] theorem setPwr_dsp (s : State) (x : PwrSt) : (setPwr s x).dsp = s.dsp := rfl
@[simp] theorem setPwr_doc (s : State) (x : PwrSt) : (setPwr s x).doc = s.doc := rfl
@[simp] theorem setPwr_vrd (s : State) (x : PwrSt) : (setPwr s x).vrd = s.vrd := rfl
@[simp] theorem setPwr_key (s : State) (x : PwrSt) : (setPwr s x).key = s.key := rfl
@[simp] theorem setPwr_hsh (s : State) (x : PwrSt) : (setPwr s x).hsh = s.hsh := rfl
@[simp] theorem setPwr_arc (s : State) (x : PwrSt) : (setPwr s x).arc = s.arc := rfl
@[simp] theorem setPwr_twn (s : State) (x : PwrSt) : (setPwr s x).twn = s.twn := rfl
@[simp] theorem setPwr_afe (s : State) (x : PwrSt) : (setPwr s x).afe = s.afe := rfl
@[simp] theorem setPwr_nrg (s : State) (x : PwrSt) : (setPwr s x).nrg = s.nrg := rfl
@[simp] theorem setPwr_cap (s : State) (x : PwrSt) : (setPwr s x).cap = s.cap := rfl
@[simp] theorem setPwr_pending (s : State) (x : PwrSt) : (setPwr s x).pending = s.pending := rfl

@[simp] theorem setTwn_regs (s : State) (x : TwnSt) : (setTwn s x).regs = s.regs := rfl
@[simp] theorem setTwn_raw (s : State) (x : TwnSt) : (setTwn s x).raw = s.raw := rfl
@[simp] theorem setTwn_part (s : State) (x : TwnSt) : (setTwn s x).part = s.part := rfl
@[simp] theorem setTwn_freeCount (s : State) (x : TwnSt) : (setTwn s x).freeCount = s.freeCount := rfl
@[simp] theorem setTwn_host (s : State) (x : TwnSt) : (setTwn s x).host = s.host := rfl
@[simp] theorem setTwn_log (s : State) (x : TwnSt) : (setTwn s x).log = s.log := rfl
@[simp] theorem setTwn_tim (s : State) (x : TwnSt) : (setTwn s x).tim = s.tim := rfl
@[simp] theorem setTwn_pce (s : State) (x : TwnSt) : (setTwn s x).pce = s.pce := rfl
@[simp] theorem setTwn_que (s : State) (x : TwnSt) : (setTwn s x).que = s.que := rfl
@[simp] theorem setTwn_pwr (s : State) (x : TwnSt) : (setTwn s x).pwr = s.pwr := rfl
@[simp] theorem setTwn_eth (s : State) (x : TwnSt) : (setTwn s x).eth = s.eth := rfl
@[simp] theorem setTwn_pln (s : State) (x : TwnSt) : (setTwn s x).pln = s.pln := rfl
@[simp] theorem setTwn_acc (s : State) (x : TwnSt) : (setTwn s x).acc = s.acc := rfl
@[simp] theorem setTwn_vlt (s : State) (x : TwnSt) : (setTwn s x).vlt = s.vlt := rfl
@[simp] theorem setTwn_dsp (s : State) (x : TwnSt) : (setTwn s x).dsp = s.dsp := rfl
@[simp] theorem setTwn_doc (s : State) (x : TwnSt) : (setTwn s x).doc = s.doc := rfl
@[simp] theorem setTwn_vrd (s : State) (x : TwnSt) : (setTwn s x).vrd = s.vrd := rfl
@[simp] theorem setTwn_key (s : State) (x : TwnSt) : (setTwn s x).key = s.key := rfl
@[simp] theorem setTwn_hsh (s : State) (x : TwnSt) : (setTwn s x).hsh = s.hsh := rfl
@[simp] theorem setTwn_arc (s : State) (x : TwnSt) : (setTwn s x).arc = s.arc := rfl
@[simp] theorem setTwn_afe (s : State) (x : TwnSt) : (setTwn s x).afe = s.afe := rfl
@[simp] theorem setTwn_nrg (s : State) (x : TwnSt) : (setTwn s x).nrg = s.nrg := rfl
@[simp] theorem setTwn_cap (s : State) (x : TwnSt) : (setTwn s x).cap = s.cap := rfl
@[simp] theorem setTwn_pending (s : State) (x : TwnSt) : (setTwn s x).pending = s.pending := rfl

@[simp] theorem respond_regs (s : State) (ws : List Word) : (respond s ws).regs = s.regs := rfl
@[simp] theorem respond_raw (s : State) (ws : List Word) : (respond s ws).raw = s.raw := rfl
@[simp] theorem respond_part (s : State) (ws : List Word) : (respond s ws).part = s.part := rfl
@[simp] theorem respond_freeCount (s : State) (ws : List Word) : (respond s ws).freeCount = s.freeCount := rfl
@[simp] theorem respond_log (s : State) (ws : List Word) : (respond s ws).log = s.log := rfl
@[simp] theorem respond_tim (s : State) (ws : List Word) : (respond s ws).tim = s.tim := rfl
@[simp] theorem respond_pce (s : State) (ws : List Word) : (respond s ws).pce = s.pce := rfl
@[simp] theorem respond_que (s : State) (ws : List Word) : (respond s ws).que = s.que := rfl
@[simp] theorem respond_pwr (s : State) (ws : List Word) : (respond s ws).pwr = s.pwr := rfl
@[simp] theorem respond_eth (s : State) (ws : List Word) : (respond s ws).eth = s.eth := rfl
@[simp] theorem respond_pln (s : State) (ws : List Word) : (respond s ws).pln = s.pln := rfl
@[simp] theorem respond_acc (s : State) (ws : List Word) : (respond s ws).acc = s.acc := rfl
@[simp] theorem respond_vlt (s : State) (ws : List Word) : (respond s ws).vlt = s.vlt := rfl
@[simp] theorem respond_dsp (s : State) (ws : List Word) : (respond s ws).dsp = s.dsp := rfl
@[simp] theorem respond_doc (s : State) (ws : List Word) : (respond s ws).doc = s.doc := rfl
@[simp] theorem respond_vrd (s : State) (ws : List Word) : (respond s ws).vrd = s.vrd := rfl
@[simp] theorem respond_key (s : State) (ws : List Word) : (respond s ws).key = s.key := rfl
@[simp] theorem respond_hsh (s : State) (ws : List Word) : (respond s ws).hsh = s.hsh := rfl
@[simp] theorem respond_arc (s : State) (ws : List Word) : (respond s ws).arc = s.arc := rfl
@[simp] theorem respond_twn (s : State) (ws : List Word) : (respond s ws).twn = s.twn := rfl
@[simp] theorem respond_afe (s : State) (ws : List Word) : (respond s ws).afe = s.afe := rfl
@[simp] theorem respond_nrg (s : State) (ws : List Word) : (respond s ws).nrg = s.nrg := rfl
@[simp] theorem respond_cap (s : State) (ws : List Word) : (respond s ws).cap = s.cap := rfl
@[simp] theorem respond_pending (s : State) (ws : List Word) : (respond s ws).pending = s.pending := rfl

@[simp] theorem latchWords_regs (s : State) (port tag : Nat) (ws : SMap Word) : (latchWords s port tag ws).regs = s.regs := rfl
@[simp] theorem latchWords_raw (s : State) (port tag : Nat) (ws : SMap Word) : (latchWords s port tag ws).raw = s.raw := rfl
@[simp] theorem latchWords_part (s : State) (port tag : Nat) (ws : SMap Word) : (latchWords s port tag ws).part = s.part := rfl
@[simp] theorem latchWords_freeCount (s : State) (port tag : Nat) (ws : SMap Word) : (latchWords s port tag ws).freeCount = s.freeCount := rfl
@[simp] theorem latchWords_log (s : State) (port tag : Nat) (ws : SMap Word) : (latchWords s port tag ws).log = s.log := rfl
@[simp] theorem latchWords_tim (s : State) (port tag : Nat) (ws : SMap Word) : (latchWords s port tag ws).tim = s.tim := rfl
@[simp] theorem latchWords_pce (s : State) (port tag : Nat) (ws : SMap Word) : (latchWords s port tag ws).pce = s.pce := rfl
@[simp] theorem latchWords_que (s : State) (port tag : Nat) (ws : SMap Word) : (latchWords s port tag ws).que = s.que := rfl
@[simp] theorem latchWords_pwr (s : State) (port tag : Nat) (ws : SMap Word) : (latchWords s port tag ws).pwr = s.pwr := rfl
@[simp] theorem latchWords_eth (s : State) (port tag : Nat) (ws : SMap Word) : (latchWords s port tag ws).eth = s.eth := rfl
@[simp] theorem latchWords_pln (s : State) (port tag : Nat) (ws : SMap Word) : (latchWords s port tag ws).pln = s.pln := rfl
@[simp] theorem latchWords_acc (s : State) (port tag : Nat) (ws : SMap Word) : (latchWords s port tag ws).acc = s.acc := rfl
@[simp] theorem latchWords_vlt (s : State) (port tag : Nat) (ws : SMap Word) : (latchWords s port tag ws).vlt = s.vlt := rfl
@[simp] theorem latchWords_dsp (s : State) (port tag : Nat) (ws : SMap Word) : (latchWords s port tag ws).dsp = s.dsp := rfl
@[simp] theorem latchWords_doc (s : State) (port tag : Nat) (ws : SMap Word) : (latchWords s port tag ws).doc = s.doc := rfl
@[simp] theorem latchWords_vrd (s : State) (port tag : Nat) (ws : SMap Word) : (latchWords s port tag ws).vrd = s.vrd := rfl
@[simp] theorem latchWords_key (s : State) (port tag : Nat) (ws : SMap Word) : (latchWords s port tag ws).key = s.key := rfl
@[simp] theorem latchWords_hsh (s : State) (port tag : Nat) (ws : SMap Word) : (latchWords s port tag ws).hsh = s.hsh := rfl
@[simp] theorem latchWords_arc (s : State) (port tag : Nat) (ws : SMap Word) : (latchWords s port tag ws).arc = s.arc := rfl
@[simp] theorem latchWords_twn (s : State) (port tag : Nat) (ws : SMap Word) : (latchWords s port tag ws).twn = s.twn := rfl
@[simp] theorem latchWords_afe (s : State) (port tag : Nat) (ws : SMap Word) : (latchWords s port tag ws).afe = s.afe := rfl
@[simp] theorem latchWords_nrg (s : State) (port tag : Nat) (ws : SMap Word) : (latchWords s port tag ws).nrg = s.nrg := rfl
@[simp] theorem latchWords_cap (s : State) (port tag : Nat) (ws : SMap Word) : (latchWords s port tag ws).cap = s.cap := rfl
@[simp] theorem latchWords_pending (s : State) (port tag : Nat) (ws : SMap Word) : (latchWords s port tag ws).pending = s.pending := rfl

@[simp] theorem setEx_regs (s : State) (x : Exhibit) : (setEx s x).regs = s.regs := rfl
@[simp] theorem setEx_raw (s : State) (x : Exhibit) : (setEx s x).raw = s.raw := rfl
@[simp] theorem setEx_part (s : State) (x : Exhibit) : (setEx s x).part = s.part := rfl
@[simp] theorem setEx_freeCount (s : State) (x : Exhibit) : (setEx s x).freeCount = s.freeCount := rfl
@[simp] theorem setEx_host (s : State) (x : Exhibit) : (setEx s x).host = s.host := rfl
@[simp] theorem setEx_log (s : State) (x : Exhibit) : (setEx s x).log = s.log := rfl
@[simp] theorem setEx_tim (s : State) (x : Exhibit) : (setEx s x).tim = s.tim := rfl
@[simp] theorem setEx_pce (s : State) (x : Exhibit) : (setEx s x).pce = s.pce := rfl
@[simp] theorem setEx_que (s : State) (x : Exhibit) : (setEx s x).que = s.que := rfl
@[simp] theorem setEx_pwr (s : State) (x : Exhibit) : (setEx s x).pwr = s.pwr := rfl
@[simp] theorem setEx_eth (s : State) (x : Exhibit) : (setEx s x).eth = s.eth := rfl
@[simp] theorem setEx_pln (s : State) (x : Exhibit) : (setEx s x).pln = s.pln := rfl
@[simp] theorem setEx_acc (s : State) (x : Exhibit) : (setEx s x).acc = s.acc := rfl
@[simp] theorem setEx_dsp (s : State) (x : Exhibit) : (setEx s x).dsp = s.dsp := rfl
@[simp] theorem setEx_doc (s : State) (x : Exhibit) : (setEx s x).doc = s.doc := rfl
@[simp] theorem setEx_vrd (s : State) (x : Exhibit) : (setEx s x).vrd = s.vrd := rfl
@[simp] theorem setEx_key (s : State) (x : Exhibit) : (setEx s x).key = s.key := rfl
@[simp] theorem setEx_hsh (s : State) (x : Exhibit) : (setEx s x).hsh = s.hsh := rfl
@[simp] theorem setEx_arc (s : State) (x : Exhibit) : (setEx s x).arc = s.arc := rfl
@[simp] theorem setEx_twn (s : State) (x : Exhibit) : (setEx s x).twn = s.twn := rfl
@[simp] theorem setEx_afe (s : State) (x : Exhibit) : (setEx s x).afe = s.afe := rfl
@[simp] theorem setEx_nrg (s : State) (x : Exhibit) : (setEx s x).nrg = s.nrg := rfl
@[simp] theorem setEx_cap (s : State) (x : Exhibit) : (setEx s x).cap = s.cap := rfl
@[simp] theorem setEx_pending (s : State) (x : Exhibit) : (setEx s x).pending = s.pending := rfl

@[simp] theorem setView_regs (s : State) (v : Nat) (x : VaultView) : (setView s v x).regs = s.regs := rfl
@[simp] theorem setView_raw (s : State) (v : Nat) (x : VaultView) : (setView s v x).raw = s.raw := rfl
@[simp] theorem setView_part (s : State) (v : Nat) (x : VaultView) : (setView s v x).part = s.part := rfl
@[simp] theorem setView_freeCount (s : State) (v : Nat) (x : VaultView) : (setView s v x).freeCount = s.freeCount := rfl
@[simp] theorem setView_host (s : State) (v : Nat) (x : VaultView) : (setView s v x).host = s.host := rfl
@[simp] theorem setView_log (s : State) (v : Nat) (x : VaultView) : (setView s v x).log = s.log := rfl
@[simp] theorem setView_tim (s : State) (v : Nat) (x : VaultView) : (setView s v x).tim = s.tim := rfl
@[simp] theorem setView_pce (s : State) (v : Nat) (x : VaultView) : (setView s v x).pce = s.pce := rfl
@[simp] theorem setView_que (s : State) (v : Nat) (x : VaultView) : (setView s v x).que = s.que := rfl
@[simp] theorem setView_pwr (s : State) (v : Nat) (x : VaultView) : (setView s v x).pwr = s.pwr := rfl
@[simp] theorem setView_eth (s : State) (v : Nat) (x : VaultView) : (setView s v x).eth = s.eth := rfl
@[simp] theorem setView_pln (s : State) (v : Nat) (x : VaultView) : (setView s v x).pln = s.pln := rfl
@[simp] theorem setView_acc (s : State) (v : Nat) (x : VaultView) : (setView s v x).acc = s.acc := rfl
@[simp] theorem setView_dsp (s : State) (v : Nat) (x : VaultView) : (setView s v x).dsp = s.dsp := rfl
@[simp] theorem setView_doc (s : State) (v : Nat) (x : VaultView) : (setView s v x).doc = s.doc := rfl
@[simp] theorem setView_vrd (s : State) (v : Nat) (x : VaultView) : (setView s v x).vrd = s.vrd := rfl
@[simp] theorem setView_key (s : State) (v : Nat) (x : VaultView) : (setView s v x).key = s.key := rfl
@[simp] theorem setView_hsh (s : State) (v : Nat) (x : VaultView) : (setView s v x).hsh = s.hsh := rfl
@[simp] theorem setView_arc (s : State) (v : Nat) (x : VaultView) : (setView s v x).arc = s.arc := rfl
@[simp] theorem setView_twn (s : State) (v : Nat) (x : VaultView) : (setView s v x).twn = s.twn := rfl
@[simp] theorem setView_afe (s : State) (v : Nat) (x : VaultView) : (setView s v x).afe = s.afe := rfl
@[simp] theorem setView_nrg (s : State) (v : Nat) (x : VaultView) : (setView s v x).nrg = s.nrg := rfl
@[simp] theorem setView_cap (s : State) (v : Nat) (x : VaultView) : (setView s v x).cap = s.cap := rfl
@[simp] theorem setView_pending (s : State) (v : Nat) (x : VaultView) : (setView s v x).pending = s.pending := rfl

@[simp] theorem setAcc_regs (s : State) (n : Nat) (x : AccEntry) : (setAcc s n x).regs = s.regs := rfl
@[simp] theorem setAcc_raw (s : State) (n : Nat) (x : AccEntry) : (setAcc s n x).raw = s.raw := rfl
@[simp] theorem setAcc_part (s : State) (n : Nat) (x : AccEntry) : (setAcc s n x).part = s.part := rfl
@[simp] theorem setAcc_freeCount (s : State) (n : Nat) (x : AccEntry) : (setAcc s n x).freeCount = s.freeCount := rfl
@[simp] theorem setAcc_host (s : State) (n : Nat) (x : AccEntry) : (setAcc s n x).host = s.host := rfl
@[simp] theorem setAcc_log (s : State) (n : Nat) (x : AccEntry) : (setAcc s n x).log = s.log := rfl
@[simp] theorem setAcc_tim (s : State) (n : Nat) (x : AccEntry) : (setAcc s n x).tim = s.tim := rfl
@[simp] theorem setAcc_pce (s : State) (n : Nat) (x : AccEntry) : (setAcc s n x).pce = s.pce := rfl
@[simp] theorem setAcc_que (s : State) (n : Nat) (x : AccEntry) : (setAcc s n x).que = s.que := rfl
@[simp] theorem setAcc_pwr (s : State) (n : Nat) (x : AccEntry) : (setAcc s n x).pwr = s.pwr := rfl
@[simp] theorem setAcc_eth (s : State) (n : Nat) (x : AccEntry) : (setAcc s n x).eth = s.eth := rfl
@[simp] theorem setAcc_pln (s : State) (n : Nat) (x : AccEntry) : (setAcc s n x).pln = s.pln := rfl
@[simp] theorem setAcc_vlt (s : State) (n : Nat) (x : AccEntry) : (setAcc s n x).vlt = s.vlt := rfl
@[simp] theorem setAcc_dsp (s : State) (n : Nat) (x : AccEntry) : (setAcc s n x).dsp = s.dsp := rfl
@[simp] theorem setAcc_doc (s : State) (n : Nat) (x : AccEntry) : (setAcc s n x).doc = s.doc := rfl
@[simp] theorem setAcc_vrd (s : State) (n : Nat) (x : AccEntry) : (setAcc s n x).vrd = s.vrd := rfl
@[simp] theorem setAcc_key (s : State) (n : Nat) (x : AccEntry) : (setAcc s n x).key = s.key := rfl
@[simp] theorem setAcc_hsh (s : State) (n : Nat) (x : AccEntry) : (setAcc s n x).hsh = s.hsh := rfl
@[simp] theorem setAcc_arc (s : State) (n : Nat) (x : AccEntry) : (setAcc s n x).arc = s.arc := rfl
@[simp] theorem setAcc_twn (s : State) (n : Nat) (x : AccEntry) : (setAcc s n x).twn = s.twn := rfl
@[simp] theorem setAcc_afe (s : State) (n : Nat) (x : AccEntry) : (setAcc s n x).afe = s.afe := rfl
@[simp] theorem setAcc_nrg (s : State) (n : Nat) (x : AccEntry) : (setAcc s n x).nrg = s.nrg := rfl
@[simp] theorem setAcc_cap (s : State) (n : Nat) (x : AccEntry) : (setAcc s n x).cap = s.cap := rfl
@[simp] theorem setAcc_pending (s : State) (n : Nat) (x : AccEntry) : (setAcc s n x).pending = s.pending := rfl

@[simp] theorem setBank_regs (s : State) (b : Nat) (x : Bank) : (setBank s b x).regs = s.regs := rfl
@[simp] theorem setBank_raw (s : State) (b : Nat) (x : Bank) : (setBank s b x).raw = s.raw := rfl
@[simp] theorem setBank_part (s : State) (b : Nat) (x : Bank) : (setBank s b x).part = s.part := rfl
@[simp] theorem setBank_freeCount (s : State) (b : Nat) (x : Bank) : (setBank s b x).freeCount = s.freeCount := rfl
@[simp] theorem setBank_host (s : State) (b : Nat) (x : Bank) : (setBank s b x).host = s.host := rfl
@[simp] theorem setBank_log (s : State) (b : Nat) (x : Bank) : (setBank s b x).log = s.log := rfl
@[simp] theorem setBank_tim (s : State) (b : Nat) (x : Bank) : (setBank s b x).tim = s.tim := rfl
@[simp] theorem setBank_pce (s : State) (b : Nat) (x : Bank) : (setBank s b x).pce = s.pce := rfl
@[simp] theorem setBank_que (s : State) (b : Nat) (x : Bank) : (setBank s b x).que = s.que := rfl
@[simp] theorem setBank_pwr (s : State) (b : Nat) (x : Bank) : (setBank s b x).pwr = s.pwr := rfl
@[simp] theorem setBank_eth (s : State) (b : Nat) (x : Bank) : (setBank s b x).eth = s.eth := rfl
@[simp] theorem setBank_pln (s : State) (b : Nat) (x : Bank) : (setBank s b x).pln = s.pln := rfl
@[simp] theorem setBank_acc (s : State) (b : Nat) (x : Bank) : (setBank s b x).acc = s.acc := rfl
@[simp] theorem setBank_vlt (s : State) (b : Nat) (x : Bank) : (setBank s b x).vlt = s.vlt := rfl
@[simp] theorem setBank_dsp (s : State) (b : Nat) (x : Bank) : (setBank s b x).dsp = s.dsp := rfl
@[simp] theorem setBank_doc (s : State) (b : Nat) (x : Bank) : (setBank s b x).doc = s.doc := rfl
@[simp] theorem setBank_key (s : State) (b : Nat) (x : Bank) : (setBank s b x).key = s.key := rfl
@[simp] theorem setBank_hsh (s : State) (b : Nat) (x : Bank) : (setBank s b x).hsh = s.hsh := rfl
@[simp] theorem setBank_arc (s : State) (b : Nat) (x : Bank) : (setBank s b x).arc = s.arc := rfl
@[simp] theorem setBank_twn (s : State) (b : Nat) (x : Bank) : (setBank s b x).twn = s.twn := rfl
@[simp] theorem setBank_afe (s : State) (b : Nat) (x : Bank) : (setBank s b x).afe = s.afe := rfl
@[simp] theorem setBank_nrg (s : State) (b : Nat) (x : Bank) : (setBank s b x).nrg = s.nrg := rfl
@[simp] theorem setBank_cap (s : State) (b : Nat) (x : Bank) : (setBank s b x).cap = s.cap := rfl
@[simp] theorem setBank_pending (s : State) (b : Nat) (x : Bank) : (setBank s b x).pending = s.pending := rfl

@[simp] theorem setTpl_regs (s : State) (t : Nat) (x : TplState) : (setTpl s t x).regs = s.regs := rfl
@[simp] theorem setTpl_raw (s : State) (t : Nat) (x : TplState) : (setTpl s t x).raw = s.raw := rfl
@[simp] theorem setTpl_part (s : State) (t : Nat) (x : TplState) : (setTpl s t x).part = s.part := rfl
@[simp] theorem setTpl_freeCount (s : State) (t : Nat) (x : TplState) : (setTpl s t x).freeCount = s.freeCount := rfl
@[simp] theorem setTpl_host (s : State) (t : Nat) (x : TplState) : (setTpl s t x).host = s.host := rfl
@[simp] theorem setTpl_log (s : State) (t : Nat) (x : TplState) : (setTpl s t x).log = s.log := rfl
@[simp] theorem setTpl_tim (s : State) (t : Nat) (x : TplState) : (setTpl s t x).tim = s.tim := rfl
@[simp] theorem setTpl_pce (s : State) (t : Nat) (x : TplState) : (setTpl s t x).pce = s.pce := rfl
@[simp] theorem setTpl_que (s : State) (t : Nat) (x : TplState) : (setTpl s t x).que = s.que := rfl
@[simp] theorem setTpl_pwr (s : State) (t : Nat) (x : TplState) : (setTpl s t x).pwr = s.pwr := rfl
@[simp] theorem setTpl_eth (s : State) (t : Nat) (x : TplState) : (setTpl s t x).eth = s.eth := rfl
@[simp] theorem setTpl_pln (s : State) (t : Nat) (x : TplState) : (setTpl s t x).pln = s.pln := rfl
@[simp] theorem setTpl_acc (s : State) (t : Nat) (x : TplState) : (setTpl s t x).acc = s.acc := rfl
@[simp] theorem setTpl_vlt (s : State) (t : Nat) (x : TplState) : (setTpl s t x).vlt = s.vlt := rfl
@[simp] theorem setTpl_dsp (s : State) (t : Nat) (x : TplState) : (setTpl s t x).dsp = s.dsp := rfl
@[simp] theorem setTpl_doc (s : State) (t : Nat) (x : TplState) : (setTpl s t x).doc = s.doc := rfl
@[simp] theorem setTpl_key (s : State) (t : Nat) (x : TplState) : (setTpl s t x).key = s.key := rfl
@[simp] theorem setTpl_hsh (s : State) (t : Nat) (x : TplState) : (setTpl s t x).hsh = s.hsh := rfl
@[simp] theorem setTpl_arc (s : State) (t : Nat) (x : TplState) : (setTpl s t x).arc = s.arc := rfl
@[simp] theorem setTpl_twn (s : State) (t : Nat) (x : TplState) : (setTpl s t x).twn = s.twn := rfl
@[simp] theorem setTpl_afe (s : State) (t : Nat) (x : TplState) : (setTpl s t x).afe = s.afe := rfl
@[simp] theorem setTpl_nrg (s : State) (t : Nat) (x : TplState) : (setTpl s t x).nrg = s.nrg := rfl
@[simp] theorem setTpl_cap (s : State) (t : Nat) (x : TplState) : (setTpl s t x).cap = s.cap := rfl
@[simp] theorem setTpl_pending (s : State) (t : Nat) (x : TplState) : (setTpl s t x).pending = s.pending := rfl

@[simp] theorem pinClearMask_regs (s : State) (mask : Nat) : (pinClearMask s mask).regs = s.regs := rfl
@[simp] theorem pinClearMask_raw (s : State) (mask : Nat) : (pinClearMask s mask).raw = s.raw := rfl
@[simp] theorem pinClearMask_part (s : State) (mask : Nat) : (pinClearMask s mask).part = s.part := rfl
@[simp] theorem pinClearMask_freeCount (s : State) (mask : Nat) : (pinClearMask s mask).freeCount = s.freeCount := rfl
@[simp] theorem pinClearMask_host (s : State) (mask : Nat) : (pinClearMask s mask).host = s.host := rfl
@[simp] theorem pinClearMask_log (s : State) (mask : Nat) : (pinClearMask s mask).log = s.log := rfl
@[simp] theorem pinClearMask_tim (s : State) (mask : Nat) : (pinClearMask s mask).tim = s.tim := rfl
@[simp] theorem pinClearMask_pce (s : State) (mask : Nat) : (pinClearMask s mask).pce = s.pce := rfl
@[simp] theorem pinClearMask_que (s : State) (mask : Nat) : (pinClearMask s mask).que = s.que := rfl
@[simp] theorem pinClearMask_pwr (s : State) (mask : Nat) : (pinClearMask s mask).pwr = s.pwr := rfl
@[simp] theorem pinClearMask_eth (s : State) (mask : Nat) : (pinClearMask s mask).eth = s.eth := rfl
@[simp] theorem pinClearMask_pln (s : State) (mask : Nat) : (pinClearMask s mask).pln = s.pln := rfl
@[simp] theorem pinClearMask_acc (s : State) (mask : Nat) : (pinClearMask s mask).acc = s.acc := rfl
@[simp] theorem pinClearMask_vlt (s : State) (mask : Nat) : (pinClearMask s mask).vlt = s.vlt := rfl
@[simp] theorem pinClearMask_dsp (s : State) (mask : Nat) : (pinClearMask s mask).dsp = s.dsp := rfl
@[simp] theorem pinClearMask_doc (s : State) (mask : Nat) : (pinClearMask s mask).doc = s.doc := rfl
@[simp] theorem pinClearMask_key (s : State) (mask : Nat) : (pinClearMask s mask).key = s.key := rfl
@[simp] theorem pinClearMask_hsh (s : State) (mask : Nat) : (pinClearMask s mask).hsh = s.hsh := rfl
@[simp] theorem pinClearMask_arc (s : State) (mask : Nat) : (pinClearMask s mask).arc = s.arc := rfl
@[simp] theorem pinClearMask_twn (s : State) (mask : Nat) : (pinClearMask s mask).twn = s.twn := rfl
@[simp] theorem pinClearMask_afe (s : State) (mask : Nat) : (pinClearMask s mask).afe = s.afe := rfl
@[simp] theorem pinClearMask_nrg (s : State) (mask : Nat) : (pinClearMask s mask).nrg = s.nrg := rfl
@[simp] theorem pinClearMask_cap (s : State) (mask : Nat) : (pinClearMask s mask).cap = s.cap := rfl
@[simp] theorem pinClearMask_pending (s : State) (mask : Nat) : (pinClearMask s mask).pending = s.pending := rfl

@[simp] theorem setChan_regs (s : State) (c : Nat) (x : Chan) : (setChan s c x).regs = s.regs := rfl
@[simp] theorem setChan_raw (s : State) (c : Nat) (x : Chan) : (setChan s c x).raw = s.raw := rfl
@[simp] theorem setChan_part (s : State) (c : Nat) (x : Chan) : (setChan s c x).part = s.part := rfl
@[simp] theorem setChan_freeCount (s : State) (c : Nat) (x : Chan) : (setChan s c x).freeCount = s.freeCount := rfl
@[simp] theorem setChan_host (s : State) (c : Nat) (x : Chan) : (setChan s c x).host = s.host := rfl
@[simp] theorem setChan_log (s : State) (c : Nat) (x : Chan) : (setChan s c x).log = s.log := rfl
@[simp] theorem setChan_tim (s : State) (c : Nat) (x : Chan) : (setChan s c x).tim = s.tim := rfl
@[simp] theorem setChan_pce (s : State) (c : Nat) (x : Chan) : (setChan s c x).pce = s.pce := rfl
@[simp] theorem setChan_que (s : State) (c : Nat) (x : Chan) : (setChan s c x).que = s.que := rfl
@[simp] theorem setChan_pwr (s : State) (c : Nat) (x : Chan) : (setChan s c x).pwr = s.pwr := rfl
@[simp] theorem setChan_eth (s : State) (c : Nat) (x : Chan) : (setChan s c x).eth = s.eth := rfl
@[simp] theorem setChan_pln (s : State) (c : Nat) (x : Chan) : (setChan s c x).pln = s.pln := rfl
@[simp] theorem setChan_acc (s : State) (c : Nat) (x : Chan) : (setChan s c x).acc = s.acc := rfl
@[simp] theorem setChan_vlt (s : State) (c : Nat) (x : Chan) : (setChan s c x).vlt = s.vlt := rfl
@[simp] theorem setChan_dsp (s : State) (c : Nat) (x : Chan) : (setChan s c x).dsp = s.dsp := rfl
@[simp] theorem setChan_doc (s : State) (c : Nat) (x : Chan) : (setChan s c x).doc = s.doc := rfl
@[simp] theorem setChan_vrd (s : State) (c : Nat) (x : Chan) : (setChan s c x).vrd = s.vrd := rfl
@[simp] theorem setChan_key (s : State) (c : Nat) (x : Chan) : (setChan s c x).key = s.key := rfl
@[simp] theorem setChan_hsh (s : State) (c : Nat) (x : Chan) : (setChan s c x).hsh = s.hsh := rfl
@[simp] theorem setChan_arc (s : State) (c : Nat) (x : Chan) : (setChan s c x).arc = s.arc := rfl
@[simp] theorem setChan_twn (s : State) (c : Nat) (x : Chan) : (setChan s c x).twn = s.twn := rfl
@[simp] theorem setChan_nrg (s : State) (c : Nat) (x : Chan) : (setChan s c x).nrg = s.nrg := rfl
@[simp] theorem setChan_cap (s : State) (c : Nat) (x : Chan) : (setChan s c x).cap = s.cap := rfl
@[simp] theorem setChan_pending (s : State) (c : Nat) (x : Chan) : (setChan s c x).pending = s.pending := rfl

@[simp] theorem setArcSlot_regs (s : State) (k : Nat) (x : ArcSlot) : (setArcSlot s k x).regs = s.regs := rfl
@[simp] theorem setArcSlot_raw (s : State) (k : Nat) (x : ArcSlot) : (setArcSlot s k x).raw = s.raw := rfl
@[simp] theorem setArcSlot_part (s : State) (k : Nat) (x : ArcSlot) : (setArcSlot s k x).part = s.part := rfl
@[simp] theorem setArcSlot_freeCount (s : State) (k : Nat) (x : ArcSlot) : (setArcSlot s k x).freeCount = s.freeCount := rfl
@[simp] theorem setArcSlot_host (s : State) (k : Nat) (x : ArcSlot) : (setArcSlot s k x).host = s.host := rfl
@[simp] theorem setArcSlot_log (s : State) (k : Nat) (x : ArcSlot) : (setArcSlot s k x).log = s.log := rfl
@[simp] theorem setArcSlot_tim (s : State) (k : Nat) (x : ArcSlot) : (setArcSlot s k x).tim = s.tim := rfl
@[simp] theorem setArcSlot_pce (s : State) (k : Nat) (x : ArcSlot) : (setArcSlot s k x).pce = s.pce := rfl
@[simp] theorem setArcSlot_que (s : State) (k : Nat) (x : ArcSlot) : (setArcSlot s k x).que = s.que := rfl
@[simp] theorem setArcSlot_pwr (s : State) (k : Nat) (x : ArcSlot) : (setArcSlot s k x).pwr = s.pwr := rfl
@[simp] theorem setArcSlot_eth (s : State) (k : Nat) (x : ArcSlot) : (setArcSlot s k x).eth = s.eth := rfl
@[simp] theorem setArcSlot_pln (s : State) (k : Nat) (x : ArcSlot) : (setArcSlot s k x).pln = s.pln := rfl
@[simp] theorem setArcSlot_acc (s : State) (k : Nat) (x : ArcSlot) : (setArcSlot s k x).acc = s.acc := rfl
@[simp] theorem setArcSlot_vlt (s : State) (k : Nat) (x : ArcSlot) : (setArcSlot s k x).vlt = s.vlt := rfl
@[simp] theorem setArcSlot_dsp (s : State) (k : Nat) (x : ArcSlot) : (setArcSlot s k x).dsp = s.dsp := rfl
@[simp] theorem setArcSlot_doc (s : State) (k : Nat) (x : ArcSlot) : (setArcSlot s k x).doc = s.doc := rfl
@[simp] theorem setArcSlot_vrd (s : State) (k : Nat) (x : ArcSlot) : (setArcSlot s k x).vrd = s.vrd := rfl
@[simp] theorem setArcSlot_key (s : State) (k : Nat) (x : ArcSlot) : (setArcSlot s k x).key = s.key := rfl
@[simp] theorem setArcSlot_hsh (s : State) (k : Nat) (x : ArcSlot) : (setArcSlot s k x).hsh = s.hsh := rfl
@[simp] theorem setArcSlot_twn (s : State) (k : Nat) (x : ArcSlot) : (setArcSlot s k x).twn = s.twn := rfl
@[simp] theorem setArcSlot_afe (s : State) (k : Nat) (x : ArcSlot) : (setArcSlot s k x).afe = s.afe := rfl
@[simp] theorem setArcSlot_nrg (s : State) (k : Nat) (x : ArcSlot) : (setArcSlot s k x).nrg = s.nrg := rfl
@[simp] theorem setArcSlot_cap (s : State) (k : Nat) (x : ArcSlot) : (setArcSlot s k x).cap = s.cap := rfl
@[simp] theorem setArcSlot_pending (s : State) (k : Nat) (x : ArcSlot) : (setArcSlot s k x).pending = s.pending := rfl

@[simp] theorem setCapRing_regs (s : State) (c : Nat) (x : CapRing) : (setCapRing s c x).regs = s.regs := rfl
@[simp] theorem setCapRing_raw (s : State) (c : Nat) (x : CapRing) : (setCapRing s c x).raw = s.raw := rfl
@[simp] theorem setCapRing_part (s : State) (c : Nat) (x : CapRing) : (setCapRing s c x).part = s.part := rfl
@[simp] theorem setCapRing_freeCount (s : State) (c : Nat) (x : CapRing) : (setCapRing s c x).freeCount = s.freeCount := rfl
@[simp] theorem setCapRing_host (s : State) (c : Nat) (x : CapRing) : (setCapRing s c x).host = s.host := rfl
@[simp] theorem setCapRing_log (s : State) (c : Nat) (x : CapRing) : (setCapRing s c x).log = s.log := rfl
@[simp] theorem setCapRing_tim (s : State) (c : Nat) (x : CapRing) : (setCapRing s c x).tim = s.tim := rfl
@[simp] theorem setCapRing_pce (s : State) (c : Nat) (x : CapRing) : (setCapRing s c x).pce = s.pce := rfl
@[simp] theorem setCapRing_que (s : State) (c : Nat) (x : CapRing) : (setCapRing s c x).que = s.que := rfl
@[simp] theorem setCapRing_pwr (s : State) (c : Nat) (x : CapRing) : (setCapRing s c x).pwr = s.pwr := rfl
@[simp] theorem setCapRing_eth (s : State) (c : Nat) (x : CapRing) : (setCapRing s c x).eth = s.eth := rfl
@[simp] theorem setCapRing_pln (s : State) (c : Nat) (x : CapRing) : (setCapRing s c x).pln = s.pln := rfl
@[simp] theorem setCapRing_acc (s : State) (c : Nat) (x : CapRing) : (setCapRing s c x).acc = s.acc := rfl
@[simp] theorem setCapRing_vlt (s : State) (c : Nat) (x : CapRing) : (setCapRing s c x).vlt = s.vlt := rfl
@[simp] theorem setCapRing_dsp (s : State) (c : Nat) (x : CapRing) : (setCapRing s c x).dsp = s.dsp := rfl
@[simp] theorem setCapRing_doc (s : State) (c : Nat) (x : CapRing) : (setCapRing s c x).doc = s.doc := rfl
@[simp] theorem setCapRing_vrd (s : State) (c : Nat) (x : CapRing) : (setCapRing s c x).vrd = s.vrd := rfl
@[simp] theorem setCapRing_key (s : State) (c : Nat) (x : CapRing) : (setCapRing s c x).key = s.key := rfl
@[simp] theorem setCapRing_hsh (s : State) (c : Nat) (x : CapRing) : (setCapRing s c x).hsh = s.hsh := rfl
@[simp] theorem setCapRing_arc (s : State) (c : Nat) (x : CapRing) : (setCapRing s c x).arc = s.arc := rfl
@[simp] theorem setCapRing_twn (s : State) (c : Nat) (x : CapRing) : (setCapRing s c x).twn = s.twn := rfl
@[simp] theorem setCapRing_afe (s : State) (c : Nat) (x : CapRing) : (setCapRing s c x).afe = s.afe := rfl
@[simp] theorem setCapRing_nrg (s : State) (c : Nat) (x : CapRing) : (setCapRing s c x).nrg = s.nrg := rfl
@[simp] theorem setCapRing_pending (s : State) (c : Nat) (x : CapRing) : (setCapRing s c x).pending = s.pending := rfl

@[simp] theorem putLive_regs (s : State) (e m p v : Nat) : (putLive s e m p v).regs = s.regs := rfl
@[simp] theorem putLive_raw (s : State) (e m p v : Nat) : (putLive s e m p v).raw = s.raw := rfl
@[simp] theorem putLive_part (s : State) (e m p v : Nat) : (putLive s e m p v).part = s.part := rfl
@[simp] theorem putLive_freeCount (s : State) (e m p v : Nat) : (putLive s e m p v).freeCount = s.freeCount := rfl
@[simp] theorem putLive_host (s : State) (e m p v : Nat) : (putLive s e m p v).host = s.host := rfl
@[simp] theorem putLive_log (s : State) (e m p v : Nat) : (putLive s e m p v).log = s.log := rfl
@[simp] theorem putLive_tim (s : State) (e m p v : Nat) : (putLive s e m p v).tim = s.tim := rfl
@[simp] theorem putLive_pce (s : State) (e m p v : Nat) : (putLive s e m p v).pce = s.pce := rfl
@[simp] theorem putLive_que (s : State) (e m p v : Nat) : (putLive s e m p v).que = s.que := rfl
@[simp] theorem putLive_pwr (s : State) (e m p v : Nat) : (putLive s e m p v).pwr = s.pwr := rfl
@[simp] theorem putLive_eth (s : State) (e m p v : Nat) : (putLive s e m p v).eth = s.eth := rfl
@[simp] theorem putLive_pln (s : State) (e m p v : Nat) : (putLive s e m p v).pln = s.pln := rfl
@[simp] theorem putLive_acc (s : State) (e m p v : Nat) : (putLive s e m p v).acc = s.acc := rfl
@[simp] theorem putLive_vlt (s : State) (e m p v : Nat) : (putLive s e m p v).vlt = s.vlt := rfl
@[simp] theorem putLive_dsp (s : State) (e m p v : Nat) : (putLive s e m p v).dsp = s.dsp := rfl
@[simp] theorem putLive_doc (s : State) (e m p v : Nat) : (putLive s e m p v).doc = s.doc := rfl
@[simp] theorem putLive_vrd (s : State) (e m p v : Nat) : (putLive s e m p v).vrd = s.vrd := rfl
@[simp] theorem putLive_key (s : State) (e m p v : Nat) : (putLive s e m p v).key = s.key := rfl
@[simp] theorem putLive_hsh (s : State) (e m p v : Nat) : (putLive s e m p v).hsh = s.hsh := rfl
@[simp] theorem putLive_arc (s : State) (e m p v : Nat) : (putLive s e m p v).arc = s.arc := rfl
@[simp] theorem putLive_twn (s : State) (e m p v : Nat) : (putLive s e m p v).twn = s.twn := rfl
@[simp] theorem putLive_afe (s : State) (e m p v : Nat) : (putLive s e m p v).afe = s.afe := rfl
@[simp] theorem putLive_cap (s : State) (e m p v : Nat) : (putLive s e m p v).cap = s.cap := rfl
@[simp] theorem putLive_pending (s : State) (e m p v : Nat) : (putLive s e m p v).pending = s.pending := rfl

@[simp] theorem setElemFlags_regs (s : State) (e m : Nat) : (setElemFlags s e m).regs = s.regs := rfl
@[simp] theorem setElemFlags_raw (s : State) (e m : Nat) : (setElemFlags s e m).raw = s.raw := rfl
@[simp] theorem setElemFlags_part (s : State) (e m : Nat) : (setElemFlags s e m).part = s.part := rfl
@[simp] theorem setElemFlags_freeCount (s : State) (e m : Nat) : (setElemFlags s e m).freeCount = s.freeCount := rfl
@[simp] theorem setElemFlags_host (s : State) (e m : Nat) : (setElemFlags s e m).host = s.host := rfl
@[simp] theorem setElemFlags_log (s : State) (e m : Nat) : (setElemFlags s e m).log = s.log := rfl
@[simp] theorem setElemFlags_tim (s : State) (e m : Nat) : (setElemFlags s e m).tim = s.tim := rfl
@[simp] theorem setElemFlags_pce (s : State) (e m : Nat) : (setElemFlags s e m).pce = s.pce := rfl
@[simp] theorem setElemFlags_que (s : State) (e m : Nat) : (setElemFlags s e m).que = s.que := rfl
@[simp] theorem setElemFlags_pwr (s : State) (e m : Nat) : (setElemFlags s e m).pwr = s.pwr := rfl
@[simp] theorem setElemFlags_eth (s : State) (e m : Nat) : (setElemFlags s e m).eth = s.eth := rfl
@[simp] theorem setElemFlags_pln (s : State) (e m : Nat) : (setElemFlags s e m).pln = s.pln := rfl
@[simp] theorem setElemFlags_acc (s : State) (e m : Nat) : (setElemFlags s e m).acc = s.acc := rfl
@[simp] theorem setElemFlags_vlt (s : State) (e m : Nat) : (setElemFlags s e m).vlt = s.vlt := rfl
@[simp] theorem setElemFlags_dsp (s : State) (e m : Nat) : (setElemFlags s e m).dsp = s.dsp := rfl
@[simp] theorem setElemFlags_doc (s : State) (e m : Nat) : (setElemFlags s e m).doc = s.doc := rfl
@[simp] theorem setElemFlags_vrd (s : State) (e m : Nat) : (setElemFlags s e m).vrd = s.vrd := rfl
@[simp] theorem setElemFlags_key (s : State) (e m : Nat) : (setElemFlags s e m).key = s.key := rfl
@[simp] theorem setElemFlags_hsh (s : State) (e m : Nat) : (setElemFlags s e m).hsh = s.hsh := rfl
@[simp] theorem setElemFlags_arc (s : State) (e m : Nat) : (setElemFlags s e m).arc = s.arc := rfl
@[simp] theorem setElemFlags_twn (s : State) (e m : Nat) : (setElemFlags s e m).twn = s.twn := rfl
@[simp] theorem setElemFlags_afe (s : State) (e m : Nat) : (setElemFlags s e m).afe = s.afe := rfl
@[simp] theorem setElemFlags_cap (s : State) (e m : Nat) : (setElemFlags s e m).cap = s.cap := rfl
@[simp] theorem setElemFlags_pending (s : State) (e m : Nat) : (setElemFlags s e m).pending = s.pending := rfl

@[simp] theorem setIntFlags_regs (s : State) (m : Nat) : (setIntFlags s m).regs = s.regs := rfl
@[simp] theorem setIntFlags_raw (s : State) (m : Nat) : (setIntFlags s m).raw = s.raw := rfl
@[simp] theorem setIntFlags_part (s : State) (m : Nat) : (setIntFlags s m).part = s.part := rfl
@[simp] theorem setIntFlags_freeCount (s : State) (m : Nat) : (setIntFlags s m).freeCount = s.freeCount := rfl
@[simp] theorem setIntFlags_host (s : State) (m : Nat) : (setIntFlags s m).host = s.host := rfl
@[simp] theorem setIntFlags_log (s : State) (m : Nat) : (setIntFlags s m).log = s.log := rfl
@[simp] theorem setIntFlags_tim (s : State) (m : Nat) : (setIntFlags s m).tim = s.tim := rfl
@[simp] theorem setIntFlags_pce (s : State) (m : Nat) : (setIntFlags s m).pce = s.pce := rfl
@[simp] theorem setIntFlags_que (s : State) (m : Nat) : (setIntFlags s m).que = s.que := rfl
@[simp] theorem setIntFlags_pwr (s : State) (m : Nat) : (setIntFlags s m).pwr = s.pwr := rfl
@[simp] theorem setIntFlags_eth (s : State) (m : Nat) : (setIntFlags s m).eth = s.eth := rfl
@[simp] theorem setIntFlags_pln (s : State) (m : Nat) : (setIntFlags s m).pln = s.pln := rfl
@[simp] theorem setIntFlags_acc (s : State) (m : Nat) : (setIntFlags s m).acc = s.acc := rfl
@[simp] theorem setIntFlags_vlt (s : State) (m : Nat) : (setIntFlags s m).vlt = s.vlt := rfl
@[simp] theorem setIntFlags_dsp (s : State) (m : Nat) : (setIntFlags s m).dsp = s.dsp := rfl
@[simp] theorem setIntFlags_doc (s : State) (m : Nat) : (setIntFlags s m).doc = s.doc := rfl
@[simp] theorem setIntFlags_vrd (s : State) (m : Nat) : (setIntFlags s m).vrd = s.vrd := rfl
@[simp] theorem setIntFlags_key (s : State) (m : Nat) : (setIntFlags s m).key = s.key := rfl
@[simp] theorem setIntFlags_hsh (s : State) (m : Nat) : (setIntFlags s m).hsh = s.hsh := rfl
@[simp] theorem setIntFlags_arc (s : State) (m : Nat) : (setIntFlags s m).arc = s.arc := rfl
@[simp] theorem setIntFlags_twn (s : State) (m : Nat) : (setIntFlags s m).twn = s.twn := rfl
@[simp] theorem setIntFlags_afe (s : State) (m : Nat) : (setIntFlags s m).afe = s.afe := rfl
@[simp] theorem setIntFlags_cap (s : State) (m : Nat) : (setIntFlags s m).cap = s.cap := rfl
@[simp] theorem setIntFlags_pending (s : State) (m : Nat) : (setIntFlags s m).pending = s.pending := rfl

@[simp] theorem takeSeq_regs (s : State) (cls : Nat) : (takeSeq s cls).regs = s.regs := rfl
@[simp] theorem takeSeq_raw (s : State) (cls : Nat) : (takeSeq s cls).raw = s.raw := rfl
@[simp] theorem takeSeq_part (s : State) (cls : Nat) : (takeSeq s cls).part = s.part := rfl
@[simp] theorem takeSeq_freeCount (s : State) (cls : Nat) : (takeSeq s cls).freeCount = s.freeCount := rfl
@[simp] theorem takeSeq_host (s : State) (cls : Nat) : (takeSeq s cls).host = s.host := rfl
@[simp] theorem takeSeq_log (s : State) (cls : Nat) : (takeSeq s cls).log = s.log := rfl
@[simp] theorem takeSeq_tim (s : State) (cls : Nat) : (takeSeq s cls).tim = s.tim := rfl
@[simp] theorem takeSeq_pce (s : State) (cls : Nat) : (takeSeq s cls).pce = s.pce := rfl
@[simp] theorem takeSeq_que (s : State) (cls : Nat) : (takeSeq s cls).que = s.que := rfl
@[simp] theorem takeSeq_pwr (s : State) (cls : Nat) : (takeSeq s cls).pwr = s.pwr := rfl
@[simp] theorem takeSeq_eth (s : State) (cls : Nat) : (takeSeq s cls).eth = s.eth := rfl
@[simp] theorem takeSeq_pln (s : State) (cls : Nat) : (takeSeq s cls).pln = s.pln := rfl
@[simp] theorem takeSeq_acc (s : State) (cls : Nat) : (takeSeq s cls).acc = s.acc := rfl
@[simp] theorem takeSeq_vlt (s : State) (cls : Nat) : (takeSeq s cls).vlt = s.vlt := rfl
@[simp] theorem takeSeq_dsp (s : State) (cls : Nat) : (takeSeq s cls).dsp = s.dsp := rfl
@[simp] theorem takeSeq_doc (s : State) (cls : Nat) : (takeSeq s cls).doc = s.doc := rfl
@[simp] theorem takeSeq_vrd (s : State) (cls : Nat) : (takeSeq s cls).vrd = s.vrd := rfl
@[simp] theorem takeSeq_key (s : State) (cls : Nat) : (takeSeq s cls).key = s.key := rfl
@[simp] theorem takeSeq_arc (s : State) (cls : Nat) : (takeSeq s cls).arc = s.arc := rfl
@[simp] theorem takeSeq_twn (s : State) (cls : Nat) : (takeSeq s cls).twn = s.twn := rfl
@[simp] theorem takeSeq_afe (s : State) (cls : Nat) : (takeSeq s cls).afe = s.afe := rfl
@[simp] theorem takeSeq_nrg (s : State) (cls : Nat) : (takeSeq s cls).nrg = s.nrg := rfl
@[simp] theorem takeSeq_cap (s : State) (cls : Nat) : (takeSeq s cls).cap = s.cap := rfl
@[simp] theorem takeSeq_pending (s : State) (cls : Nat) : (takeSeq s cls).pending = s.pending := rfl

end Sys2Proof.Machine
end

