-- ==== Sys2Proof/Laws/Regs.lean ====
section
/-! SUPPORT. Registers: what a read answers after each shared operation that writes one, and which registers the
operation leaves alone. -/

set_option Elab.async false

namespace Sys2Proof.Machine

theorem getReg_setReg (s : State) (a : Nat) (v : Word) (b : Nat) :
    getReg (setReg s a v) b = if b = a then v else getReg s b := by
  unfold getReg setReg
  exact smGet_smPut (regReset a) (regReset b) s.regs a b v (fun e => by rw [e])

@[simp] theorem getReg_setReg_self (s : State) (a : Nat) (v : Word) : getReg (setReg s a v) a = v := by
  rw [getReg_setReg, if_pos rfl]

theorem getReg_setReg_ne (s : State) (a : Nat) (v : Word) (b : Nat) (h : b ≠ a) : getReg (setReg s a v) b = getReg s b := by
  rw [getReg_setReg, if_neg h]

@[simp] theorem getReg_setRegN_self (s : State) (a v : Nat) : getReg (setRegN s a v) a = BitVec.ofNat 32 v :=
  getReg_setReg_self s a _

theorem getReg_setRegN_ne (s : State) (a v b : Nat) (h : b ≠ a) : getReg (setRegN s a v) b = getReg s b :=
  getReg_setReg_ne s a _ b h

theorem getReg_of_regs {s t : State} (h : t.regs = s.regs) (a : Nat) : getReg t a = getReg s a := by
  unfold getReg; rw [h]

/-! ### Which registers an operation leaves alone -/

theorem SameRegs.refl (l : List Nat) (s : State) : SameRegs l s s := fun _ _ => rfl

theorem SameRegs.trans {l m : List Nat} {s t u : State} (h : SameRegs l s t) (k : SameRegs m t u)
    (sub : ∀ a ∈ m, a ∈ l := by simp [sideRegs]) : SameRegs l s u :=
  fun a ha => (k a (fun hm => ha (sub a hm))).trans (h a ha)

theorem SameRegs.mono {l m : List Nat} {s t : State} (h : SameRegs m s t) (sub : ∀ a ∈ m, a ∈ l) : SameRegs l s t :=
  fun a ha => h a (fun hm => ha (sub a hm))

theorem SameRegs.of_eq {l : List Nat} {s t u : State} (h : SameRegs l s t) (e : u.regs = t.regs) : SameRegs l s u :=
  fun a ha => (getReg_of_regs e a).trans (h a ha)

theorem SameRegs.ite {l : List Nat} {s a b : State} {c : Prop} [Decidable c] (h : SameRegs l s a) (k : SameRegs l s b) :
    SameRegs l s (if c then a else b) := by split <;> assumption

theorem SameRegs.foldl {l : List Nat} {α : Type} {s i : State} {f : State → α → State} {xs : List α} (h : SameRegs l s i)
    (k : ∀ x a, a ∈ xs → SameRegs l s x → SameRegs l s (f x a)) : SameRegs l s (xs.foldl f i) := by
  induction xs generalizing i with
  | nil => exact h
  | cons a r ih =>
    exact ih (k i a (List.mem_cons_self ..) h) (fun x b hb => k x b (List.mem_cons_of_mem _ hb))

theorem sameRegs_setReg (s : State) (a : Nat) (v : Word) : SameRegs [a] s (setReg s a v) :=
  fun b hb => getReg_setReg_ne s a v b (by simpa using hb)

theorem sameRegs_setRegN (s : State) (a v : Nat) : SameRegs [a] s (setRegN s a v) := sameRegs_setReg s a _

theorem sameRegs_setRegFld (s : State) (a hi lo v : Nat) : SameRegs [a] s (setRegFld s a hi lo v) := sameRegs_setReg s a _

theorem sameRegs_setReg64 (s : State) (lo hi v : Nat) : SameRegs [lo, hi] s (setReg64 s lo hi v) :=
  ((sameRegs_setRegN s lo v).mono (by simp)).trans (sameRegs_setRegN _ hi _) (by simp)

theorem sameRegs_refuse (s : State) (base code : Nat) : SameRegs [base + 8] s (refuse s base code) :=
  sameRegs_setRegN s _ _

theorem sameRegs_refuseC (s : State) (base cause : Nat) : SameRegs [base + 8] s (refuseC s base cause) :=
  sameRegs_refuse s _ _

theorem sameRegs_bumpQuiet (s : State) (a : Nat) : SameRegs [a, blkBase a + 4] s (bumpQuiet s a) := by
  unfold bumpQuiet
  extract_lets v t
  refine SameRegs.ite (SameRegs.refl _ _) (SameRegs.ite ?_ ?_)
  · exact ((sameRegs_setRegN s a _).mono (by simp)).trans (sameRegs_setReg _ _ _) (by simp)
  · exact (sameRegs_setRegN s a _).mono (by simp)

theorem sameRegs_logPush (s : State) (event source : Nat) (data : List Byte) :
    SameRegs [Reg.logEvents, Reg.logCnt 2, 0x50004] s (logPush s event source data) := by
  unfold logPush
  refine SameRegs.ite ?_ (SameRegs.of_eq (SameRegs.refl _ s) rfl)
  refine SameRegs.of_eq ?_ rfl
  exact ((sameRegs_setReg s _ _).mono (by simp)).trans (sameRegs_bumpQuiet _ _) (by decide)

/-- A counter changes its own register and, when it saturates, its page's SAT flag and the logbook. -/
theorem sameRegs_bump (s : State) (a : Nat) : SameRegs (a :: (blkBase a + 4) :: sideRegs) s (bump s a) := by
  unfold bump
  extract_lets v t
  refine SameRegs.ite ?_ ((sameRegs_bumpQuiet s a).mono (by simp))
  exact ((sameRegs_bumpQuiet s a).mono (by simp)).trans (sameRegs_logPush _ _ _ _) (by simp [sideRegs])

theorem sameRegs_sendMsi (s : State) (v : Nat) : SameRegs sideRegs s (sendMsi s v) := by
  unfold sendMsi
  refine SameRegs.ite (SameRegs.refl _ _) (SameRegs.ite (SameRegs.of_eq (SameRegs.refl _ s) rfl) ?_)
  refine SameRegs.trans (SameRegs.of_eq (SameRegs.refl _ s) rfl) (sameRegs_bump _ _) (by decide)

theorem sameRegs_irqEval (s : State) : SameRegs sideRegs s (irqEval s) := by
  unfold irqEval
  exact SameRegs.foldl (SameRegs.of_eq (SameRegs.refl _ s) rfl) (fun x v _ h => h.trans (sameRegs_sendMsi x v) (by simp))

/-- Raising events changes the EVENTS register and what an interrupt message changes. -/
theorem sameRegs_evt (s : State) (a mask : Nat) : SameRegs (a :: sideRegs) s (evt s a mask) :=
  ((sameRegs_setReg s a _).mono (by simp)).trans (sameRegs_irqEval _) (by simp +contextual)

theorem getReg_evt (s : State) (a mask : Nat) (h : a ∉ sideRegs) :
    getReg (evt s a mask) a = getReg s a ||| BitVec.ofNat 32 mask := by
  unfold evt
  rw [sameRegs_irqEval _ a h, getReg_setReg_self]

theorem sameRegs_logEvent (s : State) (event source : Nat) (data : List Byte) :
    SameRegs sideRegs s (logEvent s event source data) := by
  unfold logEvent
  refine SameRegs.ite ((sameRegs_logPush s _ _ _).mono (by decide)) ?_
  exact ((sameRegs_logPush s _ _ _).mono (by decide)).trans (sameRegs_irqEval _) (by simp)

theorem getReg_bump (s : State) (a : Nat) (h : a ∉ sideRegs) (hb : a ≠ blkBase a + 4) :
    getReg (bump s a) a = if (getReg s a).toNat = 0xFFFFFFFF then getReg s a else BitVec.ofNat 32 ((getReg s a).toNat + 1) := by
  have hq : getReg (bumpQuiet s a) a =
      if (getReg s a).toNat = 0xFFFFFFFF then getReg s a else BitVec.ofNat 32 ((getReg s a).toNat + 1) := by
    unfold bumpQuiet
    extract_lets v t
    split
    · rfl
    · split
      · rw [getReg_setReg_ne _ _ _ _ hb]; exact getReg_setRegN_self s a _
      · exact getReg_setRegN_self s a _
  unfold bump
  extract_lets v t
  split
  · rw [sameRegs_logPush _ _ _ _ a (fun hm => h ((by decide : ∀ x ∈ [Reg.logEvents, Reg.logCnt 2, 0x50004], x ∈ sideRegs) a hm))]
    exact hq
  · exact hq

theorem getReg_bump_counted (s : State) (a : Nat) (h : a ∉ sideRegs) (hb : a ≠ blkBase a + 4) :
    getReg (bump s a) a = counted (getReg s a) := by
  rw [getReg_bump s a h hb]
  unfold counted
  have e : (getReg s a).toNat = 0xFFFFFFFF ↔ getReg s a = 0xFFFFFFFF#32 :=
    ⟨fun x => BitVec.eq_of_toNat_eq x, fun x => by rw [x]; rfl⟩
  simp only [e]
  split
  · rfl
  · apply BitVec.eq_of_toNat_eq
    rw [BitVec.toNat_ofNat, BitVec.toNat_add]
    rfl

/-- Below its limit a counter counts one, and nothing else happens. -/
theorem bump_eq (s : State) (a : Nat) (h : (getReg s a).toNat < 0xFFFFFFFE) :
    bump s a = setRegN s a ((getReg s a).toNat + 1) := by
  have h1 : ¬ (getReg s a).toNat + 1 = 0xFFFFFFFF := by omega
  have h2 : ¬ (getReg s a).toNat = 0xFFFFFFFF := by omega
  unfold bump bumpQuiet
  simp only [h1, h2, if_false]

theorem sameRegs_opStart (s : State) (a : Nat) : SameRegs [a] s (opStart s a) := sameRegs_setRegN s a _

theorem sameRegs_opProgress (s : State) (a n : Nat) : SameRegs [a] s (opProgress s a n) := sameRegs_setRegFld s a _ _ _

theorem sameRegs_opEnd (s : State) (a st cause : Nat) : SameRegs [a, blkBase a + 8] s (opEnd s a st cause) := by
  unfold opEnd
  extract_lets t
  exact SameRegs.ite (((sameRegs_setRegN s a _).mono (by simp)).trans (sameRegs_refuseC _ _ _) (by simp))
    ((sameRegs_setRegN s a _).mono (by simp))

end Sys2Proof.Machine
end

