-- ==== Sys2Proof/Laws/Doc.lean ====
section
/-! SUPPORT. A docent's instruction: what executing one leaves, for every meaning that completes. -/

set_option Elab.async false

namespace Sys2Proof.Machine

theorem docentOf_setDocent (s : State) (d : Nat) (x : Docent) (d' : Nat) :
    docentOf (setDocent s d x) d' = if d' = d then x else docentOf s d' := by
  unfold docentOf setDocent
  exact smGet_smPut _ _ s.doc.d d d' x (fun _ => rfl)

theorem docentOf_of_doc {s t : State} (h : t.doc.d = s.doc.d) (d : Nat) : docentOf t d = docentOf s d := by
  unfold docentOf; rw [h]

theorem slotCtx_putCtx (x : Docent) (k : Nat) (c : Option JobCtx) : slotCtx (putCtx x k c) k = c := by
  unfold slotCtx putCtx; split <;> simp_all

theorem slotCtx_putCtx_ne (x : Docent) (k k' : Nat) (c : Option JobCtx) (h : ¬ (k = 0 ↔ k' = 0)) :
    slotCtx (putCtx x k c) k' = slotCtx x k' := by
  unfold slotCtx putCtx; split <;> split <;> simp_all

@[simp] theorem putCtx_active (x : Docent) (k : Nat) (c : Option JobCtx) : (putCtx x k c).active = x.active := by
  unfold putCtx; split <;> rfl

@[simp] theorem putCtx_steps (x : Docent) (k : Nat) (c : Option JobCtx) : (putCtx x k c).steps = x.steps := by
  unfold putCtx; split <;> rfl

theorem ctxRuns_ready (c : JobCtx) (h : c.wait = .ready) : ctxRuns (some c) = true := by
  simp [ctxRuns, vldWaits, h]

/-- Storing a running context leaves the other slot in place. -/
theorem docSwitch_id (x : Docent) (h : ctxRuns (slotCtx x x.active) = true) : docSwitch x = x := by
  unfold docSwitch; rw [h]; rfl

theorem executed_docStore (s : State) (d : Nat) (c : JobCtx) (n : Nat) (hw : c.wait = .ready) :
    Executed s (docStore s d (docentOf s d).active c n) d c c.pc n := by
  have e : docStore s d (docentOf s d).active c n = setDocent s d { putCtx (docentOf s d) (docentOf s d).active
      (some { c with steps := c.steps + n }) with steps := ((docentOf s d).steps + n) % 2 ^ 64 } := by
    unfold docStore
    extract_lets x
    rw [docSwitch_id]
    show ctxRuns (slotCtx (putCtx (docentOf s d) (docentOf s d).active _) (putCtx (docentOf s d) _ _).active) = true
    rw [putCtx_active, slotCtx_putCtx]
    exact ctxRuns_ready _ hw
  rw [e]
  have h : docentOf (setDocent s d { putCtx (docentOf s d) (docentOf s d).active
      (some { c with steps := c.steps + n }) with steps := ((docentOf s d).steps + n) % 2 ^ 64 }) d =
      { putCtx (docentOf s d) (docentOf s d).active
      (some { c with steps := c.steps + n }) with steps := ((docentOf s d).steps + n) % 2 ^ 64 } := by
    rw [docentOf_setDocent, if_pos rfl]
  refine ⟨?_, ?_, ?_, ?_, ?_, rfl, rfl, ?_⟩
  · rw [h]; exact putCtx_active _ _ _
  · rw [h]
    show slotCtx (putCtx _ _ _) _ = _
    rw [slotCtx_putCtx, ← hw]
  · rw [h]
    show slotCtx (putCtx _ _ _) _ = _
    exact slotCtx_putCtx_ne _ _ _ _ (by omega)
  · rw [h]
  · intro d' hd
    rw [docentOf_setDocent, if_neg hd]
  · exact (keeps_setDocent s d _).sameBut _

theorem stepBudget_of_pln {s t : State} (h : t.pln = s.pln) (j : Job) : stepBudget t j = stepBudget s j := by
  unfold stepBudget tourOfSlot planAt planSlot
  rw [h]

theorem planAt_of_pln {s t : State} (h : t.pln = s.pln) (k : Nat) : planAt t k = planAt s k := by
  unfold planAt planSlot
  rw [h]

theorem getEx_of_vlt {s t : State} (h : t.vlt = s.vlt) (e : Nat) : getEx t e = getEx s e := by
  unfold getEx
  rw [h]

theorem keeps_fetched (s : State) (fe : Nat) : Keeps 7 s (fetched s fe) := by
  unfold fetched
  exact Keeps.ite (keeps_memCorrected s) (Keeps.refl s)

@[simp] theorem fetched_zero (s : State) : fetched s 0 = s := rfl

@[simp] theorem fetched_doc (s : State) (fe : Nat) : (fetched s fe).doc = s.doc := (keeps_fetched s fe).frame .doc rfl

@[simp] theorem fetched_pln (s : State) (fe : Nat) : (fetched s fe).pln = s.pln := (keeps_fetched s fe).frame .pln rfl

@[simp] theorem fetched_vlt (s : State) (fe : Nat) : (fetched s fe).vlt = s.vlt := (keeps_fetched s fe).frame .vlt rfl

@[simp] theorem fetched_vrd (s : State) (fe : Nat) : (fetched s fe).vrd = s.vrd := (keeps_fetched s fe).frame .vrd rfl

/-- A defined word that the command accepts, within the budget: what the meaning gives is applied. -/
theorem docRun_at {s : State} {d fe : Nat} {is : Nat → Bool} {cost : JobCtx → Nat → Nat}
    {sem : State → JobCtx → Nat → Eff} {c : JobCtx} {w n : Nat} (h : AtWord s d c w n) (hf : fe < 2) (hi : is w = true)
    (hn : cost c w = n) :
    docRun s d fe is cost sem =
      docApply (fetched s fe) d (docentOf s d).active n c (sem (fetched s fe) { c with pc := c.pc + 4 } w) := by
  have hb : ¬ stepBudget (fetched s fe) c.job < c.steps + n := by
    rw [stepBudget_of_pln (fetched_pln s fe)]; exact Nat.not_lt.2 h.budget
  have hwait : (vldWaits c && !(match c.wait with
        | .vld i => (match getEx s i with | some v => v.st != .opened && v.st != .closing | none => true)
        | _ => true)) = false := by
    have hw := h.wait
    unfold waitOver at hw
    cases hc : c.wait with
    | vld i =>
      rw [hc] at hw
      simp only [] at hw ⊢
      cases he : getEx s i with
      | none => simp
      | some x => have := hw x he; simp [this.1, this.2]
    | _ => simp
  unfold docRun
  extract_lets -underBinder +onlyGivenNames x
  have hx : slotCtx x x.active = some c := h.slot
  rw [hx]
  simp only []
  refine Eq.trans (if_neg (Bool.eq_false_iff.1 hwait)) ?_
  rw [if_neg (by have := h.pc; omega), if_neg (by omega)]
  rw [h.word]
  rw [if_neg (by rw [hi]; exact Bool.noConfusion), hn]
  simp only [show (if fe = 1 then memCorrected s else s) = fetched s fe from rfl, if_neg hb, List.append_nil, List.isEmpty_nil, if_true]
  split <;> rename_i e
  · rw [e]
  · rfl

theorem docFix_at {s : State} {d fe n : Nat} {is : Nat → Bool} {sem : State → JobCtx → Nat → Eff} {c : JobCtx} {w : Nat}
    (h : AtWord s d c w n) (hf : fe < 2) (hi : is w = true) :
    docFix s d fe is n sem =
      docApply (fetched s fe) d (docentOf s d).active n c (sem (fetched s fe) { c with pc := c.pc + 4 } w) :=
  docRun_at h hf (by rw [h.defined_, hi]; rfl) rfl

/-- An instruction that completes is executed. -/
theorem executed_ok {s u : State} {d n : Nat} {c c' : JobCtx} (hu : u.doc.d = s.doc.d) :
    Executed u (docApply s d (docentOf s d).active n c (.ok c' u)) d c' c'.pc n := by
  have e := docentOf_of_doc hu d
  unfold docApply
  extract_lets c1
  show Executed u (docStore u d (docentOf s d).active { c' with wait := .ready } n) d c' c'.pc n
  rw [← e]
  have h := executed_docStore u d { c' with wait := .ready } n rfl
  exact ⟨h.1, h.2, h.3, h.4, h.5, h.6, h.7, h.8⟩

end Sys2Proof.Machine
end

