-- ==== Sys2Proof/WellFormed.lean ====
section
/-! DEFINITION. The well-formed commands: each operand that names a part of the device, a port, a docent, a queue, a
level, lies in the range the spec gives that part, and each enumerated operand is one of its values. -/

namespace Sys2Proof

/-- Every operand of the command names something the device has (log entry 2). The meanings are total: they answer on
other operands too. -/
def Instr.wf (i : Instr) : Bool :=
  match i with
  | .registerWrite port a be _ => decide (port < 2) && decide (a < 0x1000000) && decide (be < 16)
  | .rcFieldRead port a | .latchedLowWordRead port a | .highWordRead port a => decide (port < 2) && decide (a < 0x1000000)
  | .statClr port base | .blockEnable port base => decide (port < 2) && decide (base < 0x1F0000)
  | .blockCheckEnd c => decide (c.base < 0x1F0000)
  | .blockDisable port base => decide (port < 2) && decide (base < 0x1F0000)
  | .paceWindowEnd counts tj => decide (tj < 65536) && decide (counts.length = 20)
  | .pceCfgWrite _ => true
  | .pceCalStart => true
  | .pceCalStop pts | .pceCalEnd pts => decide (pts.length ≤ 11)
  | .frameReceive p len _ kind ⟨cnt, smd⟩ _ sb data =>
    decide (p < 6) && decide (kind < 6) && decide (cnt < 4) && decide (smd < 4) && decide (sb < 8) && decide (data.length ≤ len)
  | .admission p _ _ => decide (p < 6)
  | .accessionEnable n _ => decide (n < 0x4004)
  | .registrationCheckEnd => true
  | .accessionRetire n _ => decide (n < 0x4004)
  | .accAllocRead => true
  | .exhibitTimeReached e | .closingTimeReached e | .closeEvent e | .sealTimeReached e | .sealEvent e
    | .exhibitRelease e => decide (e < 2 ^ 48)
  | .forceClose | .forceSeal => true
  | .viewBind v _ => decide (v < 2)
  | .viewHeaderLatch port v => decide (port < 2) && decide (v < 2)
  | .vaultWindowWrite off _ => decide (off < 0x1000000)
  | .plnLoad _ | .plnStop _ => true
  | .plnSwapEnd => true
  | .plnLoadEnd _ _ r => decide (r.ph ≤ 5 ∧ r.n < 65536)
  | .plnDataWrite _ | .plnSwap _ => true
  | .withdraw => true
  | .discard slot => decide (slot < 2)
  | .plnCommit _ => true
  | .plnCommitEnd _ n => decide (n < 65536)
  | .add d fe | .sub d fe | .and d fe | .or d fe | .xor d fe | .andn d fe | .shl d fe | .shr d fe | .sar d fe
    | .mul d fe | .mulh d fe | .mulhu d fe | .div d fe | .divu d fe | .rem d fe | .remu d fe | .min d fe
    | .max d fe | .minu d fe | .maxu d fe | .clz d fe | .ctz d fe | .popc d fe | .sext32 d fe | .zext32 d fe
    | .eq d fe | .ne d fe | .lt d fe | .ge d fe | .ltu d fe | .geu d fe | .feq d fe | .flt d fe | .fle d fe
    | .fun d fe | .pand d fe | .por d fe | .pxor d fe | .pandn d fe | .pnot d fe | .pget d fe | .pset d fe
    | .sel d fe | .fadd d fe | .fsub d fe | .fmul d fe | .fdiv d fe | .fsqrt d fe | .fmin d fe | .fmax d fe
    | .fmac d fe | .fabs d fe | .fneg d fe | .fcvtDS d fe | .fcvtSD d fe | .fcvtSL d fe | .fcvtDL d fe
    | .fcvtLS d fe | .fcvtLD d fe | .addi d fe | .andi d fe | .ori d fe | .xori d fe | .shli d fe | .shri d fe
    | .sari d fe | .movi d fe | .movk d fe | .cmpiEq d fe | .cmpiLt d fe | .cmpiLtu d fe | .brp d fe | .jal d fe
    | .jr d fe => decide (d < 64) && decide (fe < 3)
  | .ldb d fe me | .ldh d fe me | .ldw d fe me | .ldd d fe me | .ldbs d fe me | .ldhs d fe me | .ldws d fe me => decide (d < 64) && decide (fe < 3) && decide (me < 3)
  | .stb d fe | .sth d fe | .stw d fe | .std d fe => decide (d < 64) && decide (fe < 3)
  | .vldl d fe me => decide (d < 64) && decide (fe < 3) && decide (me < 256)
  | .vstl d fe | .vadd d fe | .vsub d fe | .vmul d fe | .vmac d fe | .vmin d fe | .vmax d fe | .vsum d fe
    | .vbcast d fe | .vext d fe | .vins d fe | .vzero d fe | .vmov d fe | .vscale d fe | .cadd d fe | .csub d fe
    | .cmul d fe | .cmulj d fe | .cmac d fe | .cconj d fe | .cabs d fe | .carg d fe | .crot d fe | .csum d fe
    | .vldd d fe | .vldv d fe | .tblw d fe | .tbld d fe | .tblv d fe | .lga d fe | .lgaf d fe | .lgas d fe
    | .raise d fe | .nop d fe | .yield d fe | .done d fe | .fence d fe | .abort d fe | .rdsys d fe
    | .illegalInstruction d fe => decide (d < 64) && decide (fe < 3)
  | .dramWindowRead port d me => decide (port < 2) && decide (d < 64) && decide (me < 3)
  | .dramWindowWrite d _ => decide (d < 64)
  | .iramWindowRead d me => decide (d < 64) && decide (me < 3)
  | .jobPlace => true
  | .heldLandingCommit l | .eventFifoRaise l => decide (l < 8)
  | .timerFire t => decide (t < 16)
  | .timerPendingRaise l | .heldHiashJobRaise l => decide (l < 8)
  | .doorbell port tour => decide (port < 2) && decide (tour < 256)
  | .reductionEnd _ _ => true
  | .keepSetCopied b | .bankCleared b => decide (b < 16)
  | .pinPulseEnd p => decide (p < 16)
  | .pinClear _ | .pinForce _ => true
  | .gooseRetransmit t => decide (t < 256)
  | .urgentAlarmReceived p _ | .urgentTriggerReceived p _ | .absenceDigestReceived p _
    | .exhibitCloseReceived p _ | .exhibitSealedReceived p _ | .addendumReceived p _
    | .archiveMessageReceived p _ | .helloReceived p _ | .dupNoticeReceived p _ | .controlMessageReceived p _ => decide (p < 6)
  | .helloSend => true
  | .absenceEntryFree n => decide (n < 1024)
  | .absenceOverflowWindow | .relayEntryFree | .absenceClear => true
  | .frameTransmit p cls _ _ => decide (p < 6) && decide (cls < 2)
  | .holdEnd p | .verifyMpacketTimer p | .respondMpacketReceived p => decide (p < 6)
  | .pauseReceived p quanta => decide (p < 6) && decide (quanta < 65536)
  | .pfcReceived p mask quanta => decide (p < 6) && decide (mask < 256) && decide (quanta.length = 8)
  | .pauseExpire p | .pauseRenew p => decide (p < 6)
  | .t1sCollision p cls _ => decide (p < 6) && decide (cls < 2)
  | .plcaBeacon p | .plcaInactive p | .linkDown p | .linkUp p => decide (p < 6)
  | .pushStart port q len => decide (port < 2) && decide (q < 2048) && decide (len < 65536)
  | .pushReserved port q => decide (port < 2) && decide (q < 2048)
  | .pushDataWrite port q _ => decide (port < 2) && decide (q < 2048)
  | .pushEnd port q | .pop port q => decide (port < 2) && decide (q < 2048)
  | .popWaitEnd => true
  | .popDataRead port q | .queueDone port q => decide (port < 2) && decide (q < 2048)
  | .queueEnable _ | .queueDisable _ => true
  | .producerWaitCommit => true
  | .domainRate port d _ | .domainStep port d _ | .domainErr port d _ | .domainReacquire port d _ => decide (port < 2) && decide (d < 2)
  | .domainUpdateTimeout d | .domainLost d => decide (d < 2)
  | .ppsInEdge _ sb => decide (sb < 8)
  | .irigFrame _ sb time control binary =>
    decide (sb < 8) && decide (time < 4 ^ 50) && decide (control < 4 ^ 30) && decide (binary < 4 ^ 20)
  | .ppsSourceTimeout d => decide (d < 2)
  | .ppsMissing => true
  | .select _ => true
  | .slewEnd | .autoSwitchRetry | .domainCompare | .refclkLost | .refclkLock => true
  | .leapEntryWrite k _ => decide (k < 32)
  | .ppsOutEdge | .ppsOutEnd => true
  | .txtsPop port p => decide (port < 2) && decide (p < 6)
  | .domainSetLatch port d => decide (port < 2) && decide (d < 2)
  | .channelOutputSample c _ _ sb => decide (c < 16) && decide (sb < 8)
  | .afeCommit _ => true
  | .fltSwap port _ => decide (port < 2)
  | .coefficientWrite c b t _ => decide (c < 16) && decide (b < 2) && decide (t < 96)
  | .openWireStart _ => true
  | .openWireStop => true
  | .openWireChannelEnd _ | .afeCalStart _ => true
  | .afeCalStop | .afeCalEnd | .afeCalSave => true
  | .lCfgWrite m _ => decide (m < 4)
  | .localEstimate m e phasors _ _ => decide (m < 4) && decide (e < 2 ^ 48) && decide (phasors.length ≤ 16)
  | .powerStep _ _ => true
  | .pulseEnd n => decide (n < 4)
  | .pulseEnable n _ | .pulseDisable n _ => decide (n < 4)
  | .energyCommit => true
  | .energyCommitEnd _ => true
  | .zcLost c => decide (c < 16)
  | .intValRead port e k => decide (port < 2) && decide (e < 2) && decide (k < 32)
  | .rocEvaluation _ => true
  | .triggerBusEdge n sb _ => decide (n < 4) && decide (sb < 8)
  | .busDrive => true
  | .busPulseEnd n => decide (n < 4)
  | .capForce | .capRearm | .capRelease | .recordEnd | .recordStored | .capRdDataRead | .archiveBlockStart => true
  | .archiveBlockCommit _ => true
  | .arcCompress port | .arcDecompress port | .arcSave port | .arcRestore port => decide (port < 2)
  | .arcJobStop => true
  | .arcJobEnd _ _ _ => true
  | .keyWorkingKey port | .keyErase port | .keyTake port | .keyReturn port | .keyVoid port | .keyLogClear port
    | .keyEnroll port => decide (port < 2)
  | .keyStop phase => decide (phase ≤ 4)
  | .keyCommitEnd _ | .twinTake _ => true
  | .takeoverGapEnd | .twinHbToggle => true
  | .twinLand p _ | .twinMark p _ | .twinJob p _ | .twinCtrl p _ | .twinDigest p _ | .twinTaken p _
    | .twinHello p _ => decide (p < 6)
  | .deferredExpire | .demote => true
  | .vmainLoss _ _ _ | .vmainReturn _ _ _ => true
  | .powerWarning _ _ _ _ => true
  | .braceEnd _ => true
  | .warningEnd _ _ vsys low => decide (low ≤ vsys)
  | .dipRecordWrite => true
  | .brownOut _ _ _ => true
  | .thermalReset _ => true
  | .softReset | .keepOvercurrent | .resetN => true
  | .startUpLadder _ => true
  | .idleEvaluation => true
  | .napRequest port | .keepRequest port | .wakeRequest port => decide (port < 2)
  | .wakeEvent kind _ => decide (kind < 5)
  | .deadlineWake => true
  | .powerTransitionEnd _ _ _ _ => true
  | .blockGate _ => true
  | .offlineAccess port _ _ => decide (port < 2)
  | .bootrecStart | .bootrecErase => true
  | .bootrecEnd _ _ _ => true
  | .logRecordWrite => true
  | .logWindowLatch port | .logAutoAdvance port => decide (port < 2)
  | .lifetimeCommit _ => true
  | .logClearPass => true
  | .undecodedAccess port a _ => decide (port < 2) && decide (a < 0x1000000)
  | .vectorAck port v => decide (port < 2) && decide (v < 64)
  | .pcieReset _ _ => true
  | .busMasterEnable _ => true
  | .spiRead cmd _ _ => decide (cmd < 256)
  | .spiWrite _ => true
  | .ddrTrainingStart port | .ddrTrainingStop port => decide (port < 2)
  | .ddrTrainingEnd _ prog => decide (prog ≤ 100)
  | .mramWindowWrite port w _ | .mramWindowRead port w _ => decide (port < 2) && decide (w < 0x2000000)
  | .ddrWindowAccess port w _ _ _ => decide (port < 2) && decide (w < 0x800000)
  | .vbackLoss _ _ => true
  | .vioLoss b | .vioReturn b => decide (b < 4)
  | .backgroundScrub d me => decide (d < 64) && decide (me < 3)
  | .msixUnmask _ _ _ => true

end Sys2Proof
end

