-- ==== Sys2Proof/Tests/Slice0.lean ====
section
/-! SUPPORT. Tests: terms each check of WellFormed refuses, and, for each statement with hypotheses, a concrete
state and operands that meet them. -/

namespace Sys2Proof.Tests

set_option Elab.async false

open Sys2Proof Sys2Proof.Machine

/-! ## Well-formed commands -/

/-- Host, pace, port and accession commands with one operand out of range. -/
theorem test_wf_refuses_host_and_admission : ([.registerWrite 2 0x14 15 0#32, .registerWrite 0 0x1000000 15 0#32,
    .registerWrite 0 0x14 16 0#32, .rcFieldRead 2 0x2C, .rcFieldRead 0 0x1000000, .latchedLowWordRead 2 0x30028,
    .latchedLowWordRead 0 0x1000000, .highWordRead 2 0x3002C, .highWordRead 0 0x1000000, .statClr 2 0, .statClr 0 0x1F0000,
    .blockEnable 2 0, .blockEnable 0 0x1F0000, .blockDisable 2 0, .blockDisable 0 0x1F0000, .blockCheckEnd ⟨0x1F0000, false⟩,
    .paceWindowEnd [] 0, .paceWindowEnd (List.replicate 20 0) 65536, .pceCalStop (List.replicate 12 []),
    .pceCalEnd (List.replicate 12 []), .frameReceive 6 64 0 0 ⟨0, 0⟩ 0 0 [], .frameReceive 0 64 0 6 ⟨0, 0⟩ 0 0 [],
    .frameReceive 0 64 0 0 ⟨4, 0⟩ 0 0 [], .frameReceive 0 64 0 0 ⟨0, 4⟩ 0 0 [], .frameReceive 0 64 0 0 ⟨0, 0⟩ 0 8 [],
    .frameReceive 0 0 0 0 ⟨0, 0⟩ 0 0 [0#8], .admission 6 true none,
    .accessionEnable 0x4004 0#32, .accessionRetire 0x4004 0#32] : List Instr).all (fun i => !i.wf) = true := by decide

/-- Exhibit, plan and docent commands with one operand out of range. -/
theorem test_wf_refuses_exhibits_and_docents : ([.exhibitTimeReached (2 ^ 48), .closingTimeReached (2 ^ 48),
    .closeEvent (2 ^ 48), .sealTimeReached (2 ^ 48), .sealEvent (2 ^ 48), .exhibitRelease (2 ^ 48), .viewBind 2 0#32,
    .viewHeaderLatch 2 0, .viewHeaderLatch 0 2, .vaultWindowWrite 0x1000000 0#32, .plnLoadEnd [] false ⟨6, 0⟩, .plnLoadEnd [] false ⟨0, 65536⟩, .discard 2,
    .plnCommitEnd true 65536, .add 64 0, .add 0 3, .fadd 64 0, .ldb 64 0 0, .ldb 0 3 0, .ldb 0 0 3, .stb 64 0, .stb 0 3,
    .vldl 64 0 0, .vldl 0 3 0, .vldl 0 0 256, .nop 64 0, .illegalInstruction 0 3, .dramWindowRead 2 0 0, .dramWindowRead 0 64 0,
    .dramWindowRead 0 0 3, .dramWindowWrite 64 0#32, .iramWindowRead 64 0, .iramWindowRead 0 3, .heldLandingCommit 8,
    .eventFifoRaise 8, .timerFire 16, .timerPendingRaise 8, .heldHiashJobRaise 8, .doorbell 2 0, .doorbell 0 256,
    .keepSetCopied 16, .bankCleared 16, .pinPulseEnd 16, .gooseRetransmit 256, .backgroundScrub 64 0,
    .backgroundScrub 0 3] : List Instr).all (fun i => !i.wf) = true := by decide

/-- Link, port, queue and time commands with one operand out of range. -/
theorem test_wf_refuses_links_and_time : ([.urgentAlarmReceived 6 true, .helloReceived 6 true, .controlMessageReceived 6 true,
    .absenceEntryFree 1024, .frameTransmit 6 0 true 0, .frameTransmit 0 2 true 0, .holdEnd 6, .verifyMpacketTimer 6,
    .respondMpacketReceived 6, .pauseReceived 6 0, .pauseReceived 0 65536, .pfcReceived 6 0 (List.replicate 8 0),
    .pfcReceived 0 256 (List.replicate 8 0), .pfcReceived 0 0 [], .pauseExpire 6, .pauseRenew 6, .t1sCollision 6 0 false,
    .t1sCollision 4 2 false, .plcaBeacon 6, .plcaInactive 6, .linkDown 6, .linkUp 6, .pushStart 2 64 1, .pushStart 0 2048 1,
    .pushStart 0 64 65536, .pushReserved 2 64, .pushReserved 0 2048, .pushDataWrite 2 64 0#32, .pushDataWrite 0 2048 0#32,
    .pushEnd 2 64, .pushEnd 0 2048, .pop 2 64, .pop 0 2048, .popDataRead 2 64, .popDataRead 0 2048, .queueDone 2 64,
    .queueDone 0 2048, .domainRate 2 0 0#32, .domainRate 0 2 0#32, .domainStep 2 0 0#32, .domainErr 0 2 0#32,
    .domainReacquire 0 2 0#32, .domainUpdateTimeout 2, .domainLost 2, .ppsInEdge true 8, .irigFrame 0 8 0 0 0, .irigFrame 0 0 (4 ^ 50) 0 0, .irigFrame 0 0 0 (4 ^ 30) 0,
    .irigFrame 0 0 0 0 (4 ^ 20),
    .ppsSourceTimeout 2, .leapEntryWrite 32 0#32, .txtsPop 2 0, .txtsPop 0 6, .domainSetLatch 2 0,
    .domainSetLatch 0 2] : List Instr).all (fun i => !i.wf) = true := by decide

/-- Analog, capture, key, twin, power and logbook commands with one operand out of range. -/
theorem test_wf_refuses_analog_and_power : ([.channelOutputSample 16 0 false 0, .channelOutputSample 0 0 false 8,
    .fltSwap 2 0#32, .coefficientWrite 16 0 0 0#32, .coefficientWrite 0 2 0 0#32, .coefficientWrite 0 0 96 0#32,
    .lCfgWrite 4 0#32, .localEstimate 4 0 [] 0 false, .localEstimate 0 (2 ^ 48) [] 0 false,
    .localEstimate 0 0 (List.replicate 17 (0, 0)) 0 false, .pulseEnd 4, .pulseEnable 4 0#32, .pulseDisable 4 0#32, .zcLost 16,
    .intValRead 2 0 0, .intValRead 0 2 0, .intValRead 0 0 32, .triggerBusEdge 4 0 true, .triggerBusEdge 0 8 true,
    .busPulseEnd 4, .arcCompress 2, .arcRestore 2, .keyWorkingKey 2, .keyEnroll 2, .keyStop 5, .twinLand 6 true,
    .twinHello 6 true, .warningEnd 0 0 0 1, .napRequest 2, .wakeRequest 2, .wakeEvent 5 0, .offlineAccess 2 0 true,
    .logWindowLatch 2, .logAutoAdvance 2, .undecodedAccess 2 0 true, .undecodedAccess 0 0x1000000 true, .vectorAck 2 0,
    .vectorAck 0 64, .spiRead 256 0 1, .ddrTrainingStart 2, .ddrTrainingStop 2, .ddrTrainingEnd true 101,
    .mramWindowWrite 2 0 [], .mramWindowWrite 0 0x2000000 [], .mramWindowRead 2 0 4, .mramWindowRead 0 0x2000000 4,
    .ddrWindowAccess 2 0 4 true [], .ddrWindowAccess 0 0x800000 4 true [], .vioLoss 4,
    .vioReturn 4] : List Instr).all (fun i => !i.wf) = true := by decide

/-- The last operand of each range is well-formed. -/
theorem test_wf_takes_boundaries : ([.registerWrite 1 0xFFFFFC 15 0#32, .paceWindowEnd (List.replicate 20 0) 65535,
    .accessionEnable 0x4003 0#32, .exhibitTimeReached (2 ^ 48 - 1), .add 63 2, .ldb 63 2 2, .pushStart 1 2047 9216,
    .pop 0 64, .timerFire 15, .keyStop 4, .intValRead 1 1 31, .wakeEvent 4 0, .vectorAck 1 63] : List Instr).all
    Instr.wf = true := by decide

/-! ## Small states -/

/-- The machine after reset with other values of some registers. -/
def rg (l : List (Nat × Nat)) (s : State) : State := l.foldl (fun s p => setRegN s p.1 p.2) s

/-- A plan with one tour of kind 0 and priority 3, and one slot of one granule for accession 0. -/
def plan0 : Plan :=
  { planId := 7, silence := 3, verdictDiv := 1, baseRate := 50, reqPace := 0, closeDrain := 1000, cd := 1000, lh := 1000,
    hashSeed := 1, extentPages := 1, heldMax := 1, worst := 1, features := 0, closeTour := 0, sealTour := 0, templates := [],
    vaultMap := [0x80010000#32],
    tours := [{ codeLen := 4, iramOff := 0, codeSrc := 0, budget := 100, kind := 0, priority := 3, affinity := 0 }],
    code := [], lines := [], pins := [], msgs := [], msgBody := [], timers := [],
    tables := [(2, { esize := 32, count := 1, data := List.replicate 32 1#8 })] }

/-- A plan slot with that plan. -/
def slot0 (st : SlotState) : PlanSlot := { PlanSlot.reset with st := st, plan := some plan0 }

/-- Exhibit 5, open, verdict-bearing, with accession 0 landed. -/
def ex5 : Exhibit :=
  { index := 5, slot := 0, planId := 7, openSeq := 0, st := .opened, revision := 0, closeCause := 0, sealCause := 0,
    sealCond := false, expMask := 1, presMask := 1, addMask := 0, locExp := 0, locPres := 0, presentAtClose := 0, onTime := 0,
    verdict := true, bank := 2, bankValid := true, vaultLoss := false, paceLate := false, openTime := 0, condTime := 0,
    closeTime := 0, sealTime := 0, revTime := 0, digest := 0, pages := 0, slots := [(0, List.replicate 64 1#8)], landRev := [],
    digested := 0, outflow := 0, sealSeg := 0 }

/-- A LIVE plan in slot 0 and exhibit 5 held. -/
def live5 (x : Exhibit) : State :=
  { State.reset with
    pln := { PlnSt.reset with s0 := slot0 .live }
    vlt := { VltSt.reset with ex := [(5, x)] }
    vrd := { VrdSt.reset with banks := [(2, { Bank.reset with st := .held, index := 5 })] } }

/-! ## Docents -/

/-- The job of exhibit 5's landing of accession 0. -/
def job0 (revision : Nat) : Job :=
  { tour := 0, kind := 0, slot := 0, priority := 3, revision := revision, entry := 0, acc := 0, index := 5, arg := 0,
    raiseLo := 0, affinity := 0, raised := 0 }

def ctx0 : JobCtx :=
  { job := job0 0, g := [(1, 5#64), (3, 0xFFFFFFFFFFFFFFFF#64)], v := [], p := 0, pc := 0, steps := 0, wait := .ready }

/-- Docent 0 runs the context in local slot 0 over a word at address 0. -/
def docState (c : JobCtx) (w : Nat) : State :=
  { live5 ex5 with doc := { d := [(0, { Docent.reset with s0 := some c })], iram := [(0, BitVec.ofNat 32 w)], dram := [] } }

theorem at_word (w n : Nat) (hw : w < 2 ^ 32) (ho : wordOk w = true) (hn : n ≤ 12) : AtWord (docState ctx0 w) 0 ctx0 w n where
  slot := rfl
  wait := trivial
  pc := by decide
  word := by
    simp only [iramAt, docState, ctx0, job0, smGet, Nat.reduceMul, Nat.reduceAdd, Nat.reduceDiv, if_true, BitVec.toNat_ofNat]
    omega
  defined_ := ho
  budget := by show 0 + n ≤ 100; omega

/-- Every INT function, with RD 0 and with RD 1, meets the hypotheses of its clause. -/
theorem witness_IntegerFunctionsWriteTheirResults : ∀ fn ∈ [0x00, 0x01, 0x02, 0x03, 0x04, 0x05, 0x08, 0x09, 0x0A, 0x10, 0x11, 0x12,
    0x14, 0x15, 0x16, 0x17, 0x18, 0x19, 0x1A, 0x1B, 0x20, 0x21, 0x22, 0x24, 0x25], ∀ rd ∈ [0, 0x100000],
    AtWord (docState ctx0 (rd + 0x8000 + fn)) 0 ctx0 (rd + 0x8000 + fn) 12 ∧ isFn 0x00 fn (rd + 0x8000 + fn) = true := by
  have h : ∀ fn ∈ [0x00, 0x01, 0x02, 0x03, 0x04, 0x05, 0x08, 0x09, 0x0A, 0x10, 0x11, 0x12, 0x14, 0x15, 0x16, 0x17, 0x18, 0x19,
    0x1A, 0x1B, 0x20, 0x21, 0x22, 0x24, 0x25], ∀ rd ∈ [0, 0x100000], rd + 0x8000 + fn < 2 ^ 32 ∧ wordOk (rd + 0x8000 + fn) = true ∧
      isFn 0x00 fn (rd + 0x8000 + fn) = true := by decide
  exact fun fn hf rd hr => ⟨at_word _ 12 (h fn hf rd hr).1 (h fn hf rd hr).2.1 (by decide), (h fn hf rd hr).2.2⟩

/-- The words of a list all meet the hypotheses of the clauses of their form. -/
theorem forms_met (l : List ((Nat → Bool) × Nat)) (h : (l.all fun x => decide (x.2 < 2 ^ 32) && wordOk x.2 && x.1 x.2) = true) :
    ∀ x ∈ l, AtWord (docState ctx0 x.2) 0 ctx0 x.2 12 ∧ x.1 x.2 = true := by
  intro x hx
  have := List.all_eq_true.mp h x hx
  simp only [Bool.and_eq_true, decide_eq_true_eq] at this
  exact ⟨at_word _ 12 this.1.1 this.1.2 (by decide), this.2⟩

/-- Comparisons and predicate operations; SEL with p0. -/
theorem witness_ComparisonsAndPredicatesWriteTheirResults :
    ∀ x ∈ ([0x00, 0x01, 0x02, 0x03, 0x04, 0x05, 0x10, 0x11, 0x12, 0x13, 0x18, 0x19, 0x1A, 0x1B].map
        (fun f => (isFn 0x01 f, 0x04108000 + f)) ++
      [0x00, 0x01, 0x02, 0x03, 0x04, 0x08, 0x09].map (fun f => (isFn 0x02 f, 0x08108000 + f)) ++ [(isOp 0x03, 0x0C108000)]),
      AtWord (docState ctx0 x.2) 0 ctx0 x.2 12 ∧ x.1 x.2 = true :=
  forms_met _ (by decide)

/-- The immediate forms, with IMM16 all ones where any value is allowed. -/
theorem witness_ImmediateInstructionsWriteTheirResults :
    ∀ x ∈ ([0x0, 0x1, 0x2, 0x3, 0x8, 0xC, 0xD, 0xE, 0xF].map (fun u => (isSub 0x08 u, 0x2010FFFF + u * 65536)) ++
      [0x4, 0x5, 0x6].map (fun u => (isSub 0x08 u, 0x2010003F + u * 65536)) ++
      [(isOp 0x09, 0x2411FFFF), (isOp 0x0A, 0x2811FFFF), (isOp 0x0B, 0x2C11FFFF)]),
      AtWord (docState ctx0 x.2) 0 ctx0 x.2 12 ∧ x.1 x.2 = true :=
  forms_met _ (by decide)

/-- A BRP not taken, a BRP taken, a JAL and a JR, each to a target inside the bank. -/
theorem witness_TransfersReachTheirTargets :
    (AtWord (docState ctx0 0x30100003) 0 ctx0 0x30100003 1 ∧ isOp 0x0C 0x30100003 = true ∧
      xor (getP ctx0 (wRd 0x30100003 % 8)) ((wRd 0x30100003).testBit 5) = false) ∧
    (AtWord (docState ctx0 0x30000FFF) 0 ctx0 0x30000FFF 2 ∧ isOp 0x0C 0x30000FFF = true ∧
      xor (getP ctx0 (wRd 0x30000FFF % 8)) ((wRd 0x30000FFF).testBit 5) = true ∧
      ((0x3FFC : Nat) : Int) = ctx0.pc + 4 * (BitVec.ofNat 16 0x30000FFF).toInt) ∧
    (AtWord (docState ctx0 0x34100FFF) 0 ctx0 0x34100FFF 2 ∧ isOp 0x0D 0x34100FFF = true ∧
      ((0x3FFC : Nat) : Int) = ctx0.pc + 4 * (BitVec.ofNat 16 0x34100FFF).toInt) ∧
    (AtWord (docState ctx0 0x38000FFF) 0 ctx0 0x38000FFF 2 ∧ isOp 0x0E 0x38000FFF = true ∧
      0x3FFC = (getG ctx0 (wRd 0x38000FFF) + 4 * (BitVec.ofNat 16 0x38000FFF).signExtend 64).toNat) := by
  refine ⟨⟨at_word _ _ ?_ ?_ ?_, ?_, ?_⟩, ⟨at_word _ _ ?_ ?_ ?_, ?_, ?_, ?_⟩, ⟨at_word _ _ ?_ ?_ ?_, ?_, ?_⟩,
    ⟨at_word _ _ ?_ ?_ ?_, ?_, ?_⟩⟩ <;> decide

/-- Loads at an aligned place; a VLDL whose words all hold corrected errors, and one whose last word is beyond correction. -/
theorem witness_LocalLoadsReadTheJobsHalf : ∀ x ∈ [(0x10, 1), (0x11, 2), (0x12, 4), (0x13, 8), (0x14, 1), (0x15, 2), (0x16, 4),
    (0x1C, 32)], isOp x.1 (x.1 * 2 ^ 26 + 0x1000) = true ∧
    AtWord (docState ctx0 (x.1 * 2 ^ 26 + 0x1000)) 0 ctx0 (x.1 * 2 ^ 26 + 0x1000) 2 ∧
    localOk (localAt ctx0 (x.1 * 2 ^ 26 + 0x1000)) x.2 ∧ AtRest (docState ctx0 (x.1 * 2 ^ 26 + 0x1000)) 0 ctx0 ∧
    (∀ k, k < 4 → 0x55 / 4 ^ k % 4 < 2) ∧ (∃ k, k < 4 ∧ 2 ≤ 0x80 / 4 ^ k % 4) := by
  have h : ∀ x ∈ [(0x10, 1), (0x11, 2), (0x12, 4), (0x13, 8), (0x14, 1), (0x15, 2), (0x16, 4), (0x1C, 32)],
      isOp x.1 (x.1 * 2 ^ 26 + 0x1000) = true ∧ x.1 * 2 ^ 26 + 0x1000 < 2 ^ 32 ∧ wordOk (x.1 * 2 ^ 26 + 0x1000) = true ∧
      localAt ctx0 (x.1 * 2 ^ 26 + 0x1000) % x.2 = 0 ∧ localAt ctx0 (x.1 * 2 ^ 26 + 0x1000) + x.2 ≤ 0xC000 := by decide
  exact fun x hx => ⟨(h x hx).1, at_word _ 2 (h x hx).2.1 (h x hx).2.2.1 (by decide), (h x hx).2.2.2,
    ⟨by decide, rfl, trivial, rfl⟩, by decide, 3, by decide⟩

/-- Stores at an aligned address. -/
theorem witness_LocalStoresWriteTheJobsHalf : ∀ x ∈ [(0x18, 1), (0x19, 2), (0x1A, 4), (0x1B, 8), (0x1D, 32)],
    isOp x.1 (x.1 * 2 ^ 26 + 0x1000) = true ∧
    AtWord (docState ctx0 (x.1 * 2 ^ 26 + 0x1000)) 0 ctx0 (x.1 * 2 ^ 26 + 0x1000) 2 ∧
    localOk (localAt ctx0 (x.1 * 2 ^ 26 + 0x1000)) x.2 := by
  have h : ∀ x ∈ [(0x18, 1), (0x19, 2), (0x1A, 4), (0x1B, 8), (0x1D, 32)],
      isOp x.1 (x.1 * 2 ^ 26 + 0x1000) = true ∧ x.1 * 2 ^ 26 + 0x1000 < 2 ^ 32 ∧ wordOk (x.1 * 2 ^ 26 + 0x1000) = true ∧
      localAt ctx0 (x.1 * 2 ^ 26 + 0x1000) % x.2 = 0 ∧ localAt ctx0 (x.1 * 2 ^ 26 + 0x1000) + x.2 ≤ 0xC000 := by decide
  exact fun x hx => ⟨(h x hx).1, at_word _ 2 (h x hx).2.1 (h x hx).2.2.1 (by decide), (h x hx).2.2.2⟩

/-- A job at rest over an undefined word, beyond the bank, before a transfer out of range, a misaligned access and a
spent budget. -/
theorem witness_DocentFaultsAreRecorded :
    (AtRest (docState ctx0 0xFFFFFFFF) 0 ctx0 ∧ wordOk (iramAt (docState ctx0 0xFFFFFFFF) 0 0 0) = false) ∧
    (AtRest (docState { ctx0 with pc := 0x4000 } 0) 0 { ctx0 with pc := 0x4000 }) ∧
    (AtRest (docState ctx0 0x30001000) 0 ctx0 ∧ AtWord (docState ctx0 0x30001000) 0 ctx0 0x30001000 2 ∧
      isOp 0x0C 0x30001000 = true ∧ xor (getP ctx0 (wRd 0x30001000 % 8)) ((wRd 0x30001000).testBit 5) = true ∧
      ¬ (ctx0.pc : Int) + 4 * (BitVec.ofNat 16 0x30001000).toInt ≤ 0x3FFC) ∧
    (AtRest (docState ctx0 0x48000002) 0 ctx0 ∧ AtWord (docState ctx0 0x48000002) 0 ctx0 0x48000002 1 ∧
      isOp 0x12 0x48000002 = true ∧ ¬ localOk (localAt ctx0 0x48000002) 4) ∧
    (AtRest (docState ctx0 0x6C000004) 0 ctx0 ∧ AtWord (docState ctx0 0x6C000004) 0 ctx0 0x6C000004 1 ∧
      isOp 0x1B 0x6C000004 = true ∧ ¬ localOk (localAt ctx0 0x6C000004) 8) ∧
    (∀ w ∈ [0x00108000, 0xF4000002], AtRest (docState { ctx0 with steps := 100 } w) 0 { ctx0 with steps := 100 } ∧
      iramAt (docState { ctx0 with steps := 100 } w) 0 0 0 = w ∧ wordOk w = true ∧
      stepBudget (docState { ctx0 with steps := 100 } w) (job0 0) < 101) := by
  refine ⟨⟨⟨by decide, rfl, trivial, rfl⟩, by decide⟩, ⟨by decide, rfl, trivial, rfl⟩,
    ⟨⟨by decide, rfl, trivial, rfl⟩, at_word _ _ (by decide) (by decide) (by decide), by decide, by decide, by decide⟩,
    ⟨⟨by decide, rfl, trivial, rfl⟩, at_word _ _ (by decide) (by decide) (by decide), by decide, ?_⟩,
    ⟨⟨by decide, rfl, trivial, rfl⟩, at_word _ _ (by decide) (by decide) (by decide), by decide, ?_⟩, ?_⟩
  · rintro ⟨h, -⟩; exact absurd h (by decide)
  · rintro ⟨h, -⟩; exact absurd h (by decide)
  · intro w hw
    refine ⟨⟨by decide, rfl, trivial, rfl⟩, ?_⟩
    revert w; decide

/-- The FP functions in both precisions. -/
theorem witness_FloatFunctionsWriteTheirResults :
    ∀ x ∈ ([0x00, 0x01, 0x02, 0x03, 0x04, 0x05, 0x06, 0x07, 0x08, 0x09, 0x10, 0x11, 0x12, 0x13, 0x14, 0x15, 0x16, 0x17, 0x18, 0x19,
      0x20, 0x21, 0x22, 0x23, 0x24, 0x25].map (fun f => (isFn 0x04 f, 0x10108000 + f))),
      AtWord (docState ctx0 x.2) 0 ctx0 x.2 12 ∧ x.1 x.2 = true :=
  forms_met _ (by decide)

/-- The VF functions, with registers 0 where a field must be 0. -/
theorem witness_VectorFunctionsWriteTheirLanes :
    ∀ x ∈ ([0x00, 0x01, 0x02, 0x03, 0x04, 0x05, 0x08, 0x09, 0x0A, 0x0B, 0x0C, 0x0D, 0x0E].map (fun f => (isFn 0x20 f, 0x80000000 + f))),
      AtWord (docState ctx0 x.2) 0 ctx0 x.2 12 ∧ x.1 x.2 = true :=
  forms_met _ (by decide)

/-- The VC functions. -/
theorem witness_ComplexFunctionsWriteTheirLanes :
    ∀ x ∈ ([0x00, 0x01, 0x02, 0x03, 0x04, 0x05, 0x06, 0x07, 0x08, 0x09].map (fun f => (isFn 0x21 f, 0x84400000 + f))),
      AtWord (docState ctx0 x.2) 0 ctx0 x.2 12 ∧ x.1 x.2 = true :=
  forms_met _ (by decide)

/-- A NaN and a number, two NaNs, and a sum that is NaN, in both formats. -/
theorem witness_FloatResultsFollowTheChosenRules : ∀ f ∈ [f32, f64], fIsNan f (fNan f) = true ∧ fIsNan f 0 = false ∧
    fIsNan f (fadd f (fInfBits f) (fInfBits f + fSignW f)) = true ∧ fIsNan f (fsub f (fInfBits f) (fInfBits f)) = true ∧
    fIsNan f (fmul f (fInfBits f) 0) = true ∧ fIsNan f (ffma f (fInfBits f) 0 0) = true := by decide

/-- The job of exhibit 6. -/
def ctx6 : JobCtx :=
  { ctx0 with
    g := [(1, 6#64), (3, 0xFFFFFFFFFFFFFFFF#64)]
    job := { job0 0 with index := 6 } }

theorem at_word6 (w n : Nat) (hw : w < 2 ^ 32) (ho : wordOk w = true) (hn : n ≤ 12) : AtWord (docState ctx6 w) 0 ctx6 w n where
  slot := rfl
  wait := trivial
  pc := by decide
  word := by
    simp only [iramAt, docState, ctx6, ctx0, job0, smGet, Nat.reduceMul, Nat.reduceAdd, Nat.reduceDiv, if_true, BitVec.toNat_ofNat]
    omega
  defined_ := ho
  budget := by show 0 + n ≤ 100; omega

/-- A VLDD and a VLDV of the job's own exhibit, and of the exhibit before it, which is still open. -/
theorem witness_VaultGathersReadWhatLanded :
    (∀ x ∈ [(0xC0000000, 8), (0xC4000000, 32)], AtWord (docState ctx0 x.1) 0 ctx0 x.1 5 ∧
      MayGather (docState ctx0 x.1) ctx0 x.1 x.2 ex5 ∧ namesOwn ctx0 x.1) ∧
    (∀ x ∈ [(0xC0000300, 8), (0xC4000300, 32)], AtWord (docState ctx6 x.1) 0 ctx6 x.1 5 ∧
      MayGather (docState ctx6 x.1) ctx6 x.1 x.2 ex5 ∧ ¬ namesOwn ctx6 x.1) := by
  refine ⟨fun x hx => ?_, fun x hx => ?_⟩
  · have h : x.1 < 2 ^ 32 ∧ wordOk x.1 = true ∧ namedExhibit ctx0 x.1 = 5 ∧ (getG ctx0 (wRb x.1)).toInt ≤ 0 ∧ namedAcc ctx0 x.1 = 0 ∧
        8 * wFn x.1 + x.2 ≤ 64 := by revert x; decide
    exact ⟨at_word _ _ h.1 h.2.1 (by decide),
      ⟨h.2.2.2.1, by rw [h.2.2.1]; rfl, by decide, by rw [h.2.2.2.2.1]; decide,
        ⟨plan0, 0, 1, rfl, by rw [h.2.2.2.2.1]; rfl, h.2.2.2.2.2⟩⟩, ⟨by decide, h.2.2.1.symm⟩⟩
  · have h : x.1 < 2 ^ 32 ∧ wordOk x.1 = true ∧ namedExhibit ctx6 x.1 = 5 ∧ (getG ctx6 (wRb x.1)).toInt ≤ 0 ∧ namedAcc ctx6 x.1 = 0 ∧
        8 * wFn x.1 + x.2 ≤ 64 := by revert x; decide
    exact ⟨at_word6 _ _ h.1 h.2.1 (by decide),
      ⟨h.2.2.2.1, by rw [h.2.2.1]; rfl, by decide, by rw [h.2.2.2.2.1]; decide,
        ⟨plan0, 0, 1, rfl, by rw [h.2.2.2.2.1]; rfl, h.2.2.2.2.2⟩⟩, fun c => by
          rw [namesOwn, h.2.2.1] at c; exact absurd c.2 (by decide)⟩

/-- A TBL of each size, of the plan's one table. -/
theorem witness_TableReadsReadThePlan : ∀ x ∈ [(0xD0000002, 4), (0xD4000002, 8), (0xD8000002, 32)],
    AtWord (docState ctx0 x.1) 0 ctx0 x.1 4 ∧ planAt (docState ctx0 x.1) 0 = some plan0 ∧
    ∃ u, smFind plan0.tables (wFn x.1) = some u ∧ (getG ctx0 (wRa x.1)).toNat < u.count ∧ (getG ctx0 (wRb x.1)).toNat % x.2 = 0 ∧
      (getG ctx0 (wRb x.1)).toNat + x.2 ≤ u.esize := by
  intro x hx
  have h : x.1 < 2 ^ 32 ∧ wordOk x.1 = true ∧ wFn x.1 = 2 ∧ (getG ctx0 (wRa x.1)).toNat = 0 ∧ (getG ctx0 (wRb x.1)).toNat = 0 ∧
      x.2 ≤ 32 := by revert x; decide
  exact ⟨at_word _ _ h.1 h.2.1 (by decide), rfl, _, by rw [h.2.2.1]; rfl, by rw [h.2.2.2.1]; decide,
    by rw [h.2.2.2.2.1]; exact Nat.zero_mod _, by rw [h.2.2.2.2.1]; exact (Nat.zero_add _).symm ▸ h.2.2.2.2.2⟩

/-- LGA, LGAF and LGAS of cell 0 by a job of a verdict-bearing exhibit whose bank is held; an LGAF out of range; a job
of a later revision before cell 4,096. -/
theorem witness_LedgerAddsReachTheirCell :
    (∀ w ∈ [0xE0000000, 0xE4000000, 0xE8000000], AtWord (docState ctx0 w) 0 ctx0 w 2 ∧ (getG ctx0 (wRa w)).toNat < 4096 ∧
      ledgerOpen (docState ctx0 w) ctx0 ∧ bankOf (docState ctx0 w) 5 (· == .held) = some 2) ∧
    (fltToInt f64 0 (fInfBits f64)).2 = true ∧ regBit (docState ctx0 0xE4000000) Reg.docCfg 1 = false ∧
    4096 ≤ (getG { ctx0 with job := job0 1 } (wRa 0xE000C000)).toNat := by
  refine ⟨fun w hw => ?_, by decide, by decide, by decide⟩
  have h : w < 2 ^ 32 ∧ wordOk w = true ∧ (getG ctx0 (wRa w)).toNat < 4096 := by revert w; decide
  exact ⟨at_word _ _ h.1 h.2.1 (by decide), h.2.2, ⟨rfl, ex5, rfl, rfl⟩, rfl⟩

/-- RAISE of a close-time and of an addendum job, NOP, FENCE, YIELD and RDSYS. -/
theorem witness_SystemFunctionsDoWhatTheTableSays :
    (∀ x ∈ [(isOp 0x3C, 0xF0000081), (isFn 0x3D 0x00, 0xF4000000), (isFn 0x3D 0x03, 0xF4000003), (isFn 0x3D 0x01, 0xF4000001),
      (isFn 0x3D 0x10, 0xF4138010)], AtWord (docState ctx0 x.2) 0 ctx0 x.2 12 ∧ x.1 x.2 = true) ∧
    jobPosted (docState ctx0 0xF4000001) (job0 0) = false ∧ planAt (docState ctx0 0xF4000010) 0 = some plan0 ∧
    jobPosted { docState ctx0 0xF4000003 with vrd := { VrdSt.reset with waitLga := [⟨5, 0, 0, 0, 0#64⟩] } } (job0 0) = true :=
  ⟨forms_met _ (by decide), rfl, rfl, rfl⟩

/-- DONE and ABORT of a job at rest, and DONE of one with a contribution still posted. -/
theorem witness_DoneAndAbortRetireTheJob :
    (∀ w ∈ [0xF4000002, 0xF4004004], AtRest (docState ctx0 w) 0 ctx0 ∧ AtWord (docState ctx0 w) 0 ctx0 w 2) ∧
    jobPosted { docState ctx0 0xF4000002 with vrd := { VrdSt.reset with waitLga := [⟨5, 0, 0, 0, 0#64⟩] } } (job0 0) = true := by
  refine ⟨fun w hw => ⟨⟨by decide, rfl, trivial, rfl⟩, ?_⟩, rfl⟩
  have h : w < 2 ^ 32 ∧ wordOk w = true := by revert w; decide
  exact at_word _ _ h.1 h.2 (by decide)

/-- The DRAM window at its last place, the IRAM window at its last word, and SCRUB with an idle docent. -/
theorem witness_MemoryWindowsReachTheDocents :
    (let s := rg [(Reg.docDramAddr 63, 0x17FF8), (Reg.docIramAddr 63, 0x7FFC)] State.reset
     regFld s (Reg.docDramAddr 63) 16 0 = 0x17FF8 ∧ (planSlot s (0x17FF8 / 0xC000)).st = .empty ∧
     regFld s (Reg.docIramAddr 63) 14 0 % 4 = 0) ∧
    (let s := rg [(Reg.docCfg, 1)] State.reset
     regBit s Reg.docCfg 0 = true ∧ (docentOf s 0).s0 = none ∧ (docentOf s 0).s1 = none) := by decide

/-- A VLDD and a VLDV of the job's own exhibit. -/
theorem witness_HardWiredRegistersDiscardWrites : ∀ x ∈ [(0xC0000000, 8), (0xC4000000, 32)],
    AtWord (docState ctx0 x.1) 0 ctx0 x.1 5 ∧ MayGather (docState ctx0 x.1) ctx0 x.1 x.2 ex5 ∧ namesOwn ctx0 x.1 :=
  witness_VaultGathersReadWhatLanded.1

/-! ## The block, the time base, pace and the logbook -/

theorem witness_StepRunsTheFrontCommand : ({ State.reset with pending := [.softReset, .resetN] } : State).pending =
    Instr.softReset :: [Instr.resetN] := rfl

theorem witness_IdleStepLetsOneNanosecondPass : State.reset.pending = [] := rfl

/-- The empty stores are canonical, and a step from reset answers a next state. -/
theorem witness_StepsKeepTheStateWellFormed : State.reset.wf ∧ step State.reset = .next (idle State.reset) :=
  ⟨⟨rfl, rfl, rfl, rfl, rfl, rfl, by decide, by unfold vcoreOk; decide, by unfold vcoreOk; decide, by decide, rfl⟩, rfl⟩

/-- A domain in a state, last locked at raw 0. -/
def dom (st : DomState) : Domain := { Domain.reset with st := st, lastLock := some 0 }

/-- The machine at a raw time with a time base. -/
def timed (raw : Nat) (t : TimSt) : State := { State.reset with raw := raw, tim := t }

/-- RATE, STEP and ERR on the reset state; REACQUIRE on a SOURCE 1 domain. -/
theorem witness_DomainCommitsStoreTheirValues :
    (let s := State.reset
     let t8 : Int := domTime8 (domOf s 1).vals (8 * s.raw)
     regFld s (Reg.timDomCfg 1) 0 0 = 0 ∧ bit 0#32 8 = false ∧ 8 * (s.raw : Int) ≤ t8 ∧ t8 < 8 * (s.raw : Int) + 8000000000 * 2 ^ 48 ∧
     s.tim.slew = none ∧ s.tim.valid = false ∧ (getReg s (portReg 0 (0x30100 + 0x80 * 1 + 0x30))).toNat < 1000000000) ∧
    regFld (rg [(Reg.timDomCfg 1, 1)] State.reset) (Reg.timDomCfg 1) 0 0 = 1 := by decide

/-- ERR with LOCK 1 on an enabled time base. -/
theorem witness_LockUpdatesLockTheDomain :
    (let s := rg [(Reg.timBase, 1)] State.reset
     bit 0x100#32 8 = true ∧ regFld s (Reg.timDomCfg 0) 0 0 = 0 ∧ enabled s Reg.timBase = true ∧ (domOf s 0).st ≠ .locked ∧
     0 = s.tim.sel ∧ 1 ≠ s.tim.sel) := by decide

/-- A SOURCE 0 domain and a SOURCE 1 domain at and before their time-outs; an estimate above and at HOLD_LIMIT. -/
theorem witness_DomainsFallBackAsTheTableSays :
    (∀ raw ∈ [4000000000, 3999999999], let s := timed raw { TimSt.reset with domA := dom .locked }
     (domOf s 0).st = .locked ∧ regFld s (Reg.timDomCfg 0) 0 0 = 0 ∧ (domOf s 0).lastLock = some 0 ∧
     regFld s (Reg.timDomCfg 0) 10 8 = 4) ∧
    (∀ raw ∈ [3000000000, 2999999999], let s := rg [(Reg.timDomCfg 1, 1)] (timed raw { TimSt.reset with domB := dom .locked })
     (domOf s 1).st = .locked ∧ regFld s (Reg.timDomCfg 1) 0 0 = 1 ∧ (domOf s 1).lastUsable = 0) ∧
    (∀ x ∈ [(10000000001, true, true), (10000000000, true, false), (10000000000, false, true)],
     let s := timed x.1 { TimSt.reset with domA := dom .holdover, refLock := x.2.1 }
     (domOf s 0).st = .holdover ∧ (domOf s 0).lastLock = some 0 ∧ s.tim.refLock = x.2.1 ∧
     decide ((getReg s (Reg.timHoldLimit 0)).toNat * 1000000000 <
       Nat.min (0xFFFFFFFF * 1000000000) ((domOf s 0).errLast * 125000000 + s.raw * ((getReg s (Reg.timHoldDrift 0)).toNat +
         if s.tim.refLock then 0 else (getReg s Reg.timRefDrift).toNat))) = x.2.2) := by decide

/-- An IRIG frame with its position identifiers in place, every other element 0. -/
def irigBlank : Nat := sumNat ((List.range 11).map (fun k => 2 * 4 ^ (10 * k - 1)))

/-- Day 1 of the year 0, with the parity element set. -/
def irigDay1 : Nat := irigBlank + 4 ^ 30 + 4 ^ 75

/-- The first PPS_IN edge, one too early, frames with each defect, a usable one, a missing edge, an output edge and its
end. -/
theorem witness_PulsesAndFramesAreCaptured :
    (true ≠ regBit State.reset Reg.timPpsCfg 28 ∧ State.reset.tim.ppsLast = none ∧ State.reset.tim.irigLast = none ∧
      State.reset.raw < 2 ^ 64) ∧
    (let s := timed 499999999 { TimSt.reset with ppsLast := some (0, 0) }
     s.tim.ppsLast = some (0, 0) ∧ s.raw < 0 + 500000000) ∧
    (irigEl 0 0 ≠ 2 ∧ 2 ≤ irigEl (irigDay1 + 2 * 4) 1 ∧ 60 < irigSec (irigDay1 + 4 ^ 6 + 4 ^ 7 + 4 ^ 8) ∧
      59 < irigMin (irigDay1 + 4 ^ 15 + 4 ^ 16 + 4 ^ 17) ∧ 23 < irigHour (irigDay1 + 4 ^ 25 + 4 ^ 26) ∧ irigDay irigBlank = 0 ∧
      366 < irigDay (irigDay1 + 4 ^ 35 + 4 ^ 36 + 4 ^ 37 + 4 ^ 38 + 4 ^ 40 + 4 ^ 41)) ∧
    (∀ f ∈ [0, irigBlank, irigDay1, irigDay1 + 2 * 4, 4 ^ 100 - 1],
      irigElements (f % 4 ^ 50) (f / 4 ^ 50 % 4 ^ 30) (f / 4 ^ 80) = f) ∧
    (irigUsable irigDay1 = true ∧ irigSec irigDay1 < 60 ∧ irigYear irigDay1 = 0 ∧ irigOffset irigDay1 = 0 ∧ irigUtc irigDay1 = 946684800 ∧
      ((946684800 : Int) + taiMinusUtc State.reset 946684800).toNat < 2 ^ 48) ∧
    (let s := timed 1500000000 { TimSt.reset with ppsLast := some (0, 0), lastLabel := some 5 }
     s.tim.ppsLast.isSome = true ∧ s.tim.ppsMiss + 1500000000 ≤ s.raw ∧ s.tim.lastLabel = some 5) ∧
    (let s := rg [(Reg.timPpsCfg, 0x800186A0)] (timed 0 { TimSt.reset with valid := true })
     regBit s Reg.timPpsCfg 31 = true ∧ s.tim.valid = true ∧
     (selTime8 s (8 * s.raw) - 8 * toSigned 32 (getReg s Reg.timPpsOutOffset).toNat) % 8000000000 = 0) ∧
    (let s := timed 100000 { TimSt.reset with ppsOut := true, ppsOutEnd := 100000 }
     s.tim.ppsOut = true ∧ s.tim.ppsOutEnd ≤ s.raw) ∧
    (let s := rg [(Reg.pwrStartOpstat, 0x20000000)] State.reset
     inLadder s = false ∧ s.pwr.st ≠ .off ∧ s.host.vio.testBit 3 = true) := by decide +kernel

/-- SELECT during a slew, of the selected domain, of a domain not LOCKED, without valid time, too far apart and just
near enough; a slew's end; two domains to compare; AUTO_SWITCH. -/
theorem witness_SelectionFollowsTheTable :
    (let s := timed 1000000000 { TimSt.reset with slew := some ⟨0, 0, none⟩ }
     s.tim.slew.isSome = true ∧ s.tim.slew = some ⟨0, 0, none⟩ ∧ 0 + 1000000000 ≤ s.raw) ∧
    (fld 0#32 0 0 = State.reset.tim.sel ∧ State.reset.tim.slew = none ∧ fld 1#32 0 0 ≠ State.reset.tim.sel ∧
      (domOf State.reset 1).st ≠ .locked) ∧
    (let s := timed 0 { TimSt.reset with domB := dom .locked }
     (domOf s 1).st = .locked ∧ s.tim.valid = false ∧ s.tim.slew = none) ∧
    (∀ x ∈ [(201, true), (200, false)],
     let s := timed 0 { TimSt.reset with domA := dom .locked, domB := { dom .locked with vals := ⟨0, x.1, 0, 0, 0⟩ }, valid := true }
     (domOf s 1).st = .locked ∧ s.tim.valid = true ∧ s.tim.domA.st ≠ .free ∧ s.tim.domB.st ≠ .free ∧
     (8 * ((regFld s Reg.timCfg 7 0 : Nat) : Int) < ((domTime8 s.tim.domB.vals 0 - domTime8 s.tim.domA.vals 0).natAbs : Int) ↔
       x.2 = true) ∧ -2147483647 ≤ (domTime8 s.tim.domB.vals 0 - domTime8 s.tim.domA.vals 0) / 8) ∧
    (let s := timed 0 { TimSt.reset with domA := dom .lost, domB := dom .locked }
     s.tim.sel < 2 ∧ regBit s Reg.timCfg 8 = true ∧ (domOf s (1 - s.tim.sel)).st = .locked ∧ s.tim.slew = none ∧
     (domOf s s.tim.sel).st = .lost ∧ s.tim.valid = false) := by decide

/-- REFCLK's lock both ways, the first leap entry and one whose step is wrong, an empty and a filled timestamp queue. -/
theorem witness_ReferenceLeapTableAndLatches :
    (timed 0 { TimSt.reset with refLock := true }).tim.refLock = true ∧ State.reset.tim.refLock = false ∧
    (bit 0x8000000B#32 31 = true ∧ toSigned 16 (fld 0x8000000B#32 15 0) = toSigned 16 (regFld State.reset Reg.timLeapBase 15 0) + 1 ∧
      smFind State.reset.tim.leap 0 = none) ∧
    (toSigned 16 (fld 0x8000000A#32 15 0) ≠ toSigned 16 (regFld State.reset Reg.timLeapBase 15 0) + 1 ∧
      toSigned 16 (fld 0x8000000A#32 15 0) ≠ toSigned 16 (regFld State.reset Reg.timLeapBase 15 0) - 1) ∧
    smGet [] State.reset.tim.txts 5 = [] ∧
    smGet [] (timed 0 { TimSt.reset with txts := [(5, [⟨0, 0, 1, 0, 0⟩])] }).tim.txts 5 = [⟨0, 0, 1, 0, 0⟩] := by decide

/-- A window after reset, a stale one, and one below a required pace. -/
theorem witness_WindowsMeasurePaceAndMoveVcore :
    (∀ b : Bool, let s : State := { State.reset with pce := { PceSt.reset with stale := b } }
     s.pwr.st ≠ .nap ∧ s.pwr.st ≠ .keep ∧ s.pwr.st ≠ .off ∧ opRunning s Reg.pceCalOpstat = false ∧ s.pce.stale = b) ∧
    (let s := rg [(Reg.pcePaceReq, 1)] State.reset
     regBit s Reg.pceStatus 3 = false ∧ 0 < (getReg s Reg.pcePaceReq).toNat) := by decide

/-- HEADROOM 50 and 51; START with and without an exhibit held and while one runs; the first and the last point; points that
fail and that are too slow. -/
theorem witness_CalibrationRunsItsPoints :
    (fld 0x3200#32 13 8 ≤ 50 ∧ 50 < fld 0x3300#32 13 8) ∧
    (opRunning State.reset Reg.pceCalOpstat = false ∧ State.reset.vlt.ex = [] ∧ (live5 ex5).vlt.ex ≠ []) ∧
    (∀ l ∈ [[], List.replicate 10 57600],
     let s : State := rg [(Reg.pceCalOpstat, 0x10000000)] { State.reset with pce := { PceSt.reset with calPts := l } }
     let lows := s.pce.calPts ++ [List.replicate 20 57600].map calLow
     opRunning s Reg.pceCalOpstat = true ∧ s.pce.calPts.length < 11 ∧ lows.length = l.length + 1 ∧ (∀ c ∈ lows, c ≠ 0) ∧
     900 * 65536 ≤ Nat.min 0xFFFFFFFF ((lows[0]?).getD 0 * 65536 / 64)) ∧
    calLow [] = 0 ∧ (calLow (List.replicate 20 57599) ≠ 0 ∧
      Nat.min 0xFFFFFFFF (calLow (List.replicate 20 57599) * 65536 / 64) < 900 * 65536) := by decide

/-- A record of the ring. -/
def rec0 : LogRec :=
  { recnum := 0, opSeconds := 0, powerCycles := 0, event := 0x0445, source := 0xFFFF, tai := 0, data := [], rep := 0, keep := false,
    brace := false }

/-- An event of a code, granted at raw 0. -/
def logEv (code : Nat) : LogEvent := ⟨code, 0xFFFF, 0, [], 0, false⟩

/-- An event that opens a record, one that folds into the newest record, and lost events. -/
theorem witness_EventsBecomeRecords :
    (let s : State := { State.reset with log := { LogSt.reset with fifo := [logEv 0x0341] } }
     s.log.fifo = logEv 0x0341 :: [] ∧ repeatCounted (logEv 0x0341).event = false ∧ s.log.lost = 0) ∧
    (let s : State := { State.reset with log := { LogSt.reset with next := 1, ring := [(0, rec0)], foldable := true, fifo := [logEv 0x0445] } }
     s.log.fifo = logEv 0x0445 :: [] ∧ repeatCounted (logEv 0x0445).event = true ∧ s.log.lost = 0 ∧ s.log.foldable = true ∧
     smFind s.log.ring (logHead s % 65536) = some rec0 ∧ rec0.recnum = logHead s ∧ rec0.event = (logEv 0x0445).event ∧
     rec0.source = (logEv 0x0445).source ∧
     (logEv 0x0445).grant ≤ s.log.newestGrant + 1000000 * regFld s Reg.logCfg 15 0 ∧ rec0.rep < 65535) ∧
    (let s : State := { State.reset with log := { LogSt.reset with lost := 1, fifo := List.replicate 57 (logEv 0x0445) } }
     s.log.fifo = logEv 0x0445 :: List.replicate 56 (logEv 0x0445) ∧ s.log.lost ≠ 0 ∧
     (List.replicate 56 (logEv 0x0445)).length ≤ 56) := by decide

/-- A cursor at a held record and one past the newest, a window latched, a background pass, a commit. -/
theorem witness_TheLogIsReadClearedAndCommitted :
    (let s : State := { State.reset with log := { LogSt.reset with next := 1, ring := [(0, rec0)], window := [(1, (0, []))] } }
     let c := (getReg s (portReg 1 Reg.logCursor)).toNat
     smFind s.log.ring (c % 65536) = some rec0 ∧ rec0.recnum = c ∧ belowFloor s c = false ∧ logAge s c ≤ 65536 ∧
     ¬ (1 ≤ (c + 2 ^ 32 - logHead s) % 2 ^ 32 ∧ (c + 2 ^ 32 - logHead s) % 2 ^ 32 ≤ 2 ^ 31) ∧
     smFind s.log.window 1 = some (0, [])) ∧
    (let s : State := rg [(Reg.logCursor, 1)] { State.reset with log := { LogSt.reset with next := 1, ring := [(0, rec0)] } }
     let c := (getReg s (portReg 0 Reg.logCursor)).toNat
     1 ≤ (c + 2 ^ 32 - logHead s) % 2 ^ 32 ∧ (c + 2 ^ 32 - logHead s) % 2 ^ 32 ≤ 2 ^ 31) ∧
    (let s : State := { State.reset with log := { LogSt.reset with clearPos := some (65535, 64) } }
     s.log.clearPos = some (65535, 64)) ∧
    (let a : LifeSlot := ⟨1, [], 0, 0, 0, 0, none⟩
     let b : LifeSlot := ⟨2, [], 0, 0, 0, 0, none⟩
     let s : State := rg [(Reg.pwrStartOpstat, 0x20000000)] { State.reset with log := { LogSt.reset with slot0 := some a, slot1 := some b } }
     s.log.slot0 = some a ∧ s.log.slot1 = some b ∧ a.gen < b.gen ∧ opState s Reg.pwrStartOpstat = 2 ∧
     s.log.lifeSec ≠ some (s.raw / 1000000000)) := by decide

/-! ## Keys -/

/-- An update message of usage 1 for a UID, with a tag. -/
def keyWords (u : BitVec 64) (tag : List Byte) : List Word :=
  [0x4B555044#32, 0x01010001#32, u.setWidth 32, (u >>> 32).setWidth 32, 1#32, 0#32, 0#32, 0#32, 0#32, 0#32, 0#32, 0#32,
   0#32, 0#32, 0#32, 0#32, 0#32, 0#32, 0#32, 0#32,
   BitVec.ofNat 32 (le tag 0 4), BitVec.ofNat 32 (le tag 4 4), BitVec.ofNat 32 (le tag 8 4), BitVec.ofNat 32 (le tag 12 4)]

/-- The first 32 bytes of that message. -/
def keyAad (u : BitVec 64) : List Byte :=
  leBytes 4 0x4B555044 ++ leBytes 4 0x01010001 ++ leBytes 4 (u.setWidth 32).toNat ++ leBytes 4 ((u >>> 32).setWidth 32).toNat ++
    leBytes 4 1 ++ List.replicate 12 0#8

def zeros32 : List Byte := List.replicate 32 0#8

/-- The tag of that message under a KEK of zeros. -/
def keyTag (u : BitVec 64) : List Byte := gcmTag zeros32 (List.replicate 12 0#8) (keyAad u) zeros32

/-- The key block ISSUED under a KEK of zeros, the message with a tag in the PCIe port's copy. -/
def keyState (u : BitVec 64) (tag : List Byte) : State :=
  { State.reset with
    regs := (0x40000, 1#32) :: ((List.range 24).zip (keyWords u tag)).map (fun x => (0x40040 + 4 * x.1, x.2))
    key := { KeySt.reset with rootOk := true, lc := 1, kek := some zeros32 } }

theorem aesRounds_length (ks : List (List Nat)) (st : List Nat) (h : ∀ k ∈ ks, k.length = 16) (hs : st.length = 16) :
    (aesRounds ks st).length = 16 := by
  have a (l : List Nat) : (shiftRows l).length = 16 := by simp [shiftRows]
  have b (m l : List Nat) : (mixWith m l).length = 16 := by simp [mixWith]
  induction ks generalizing st with
  | nil => exact hs
  | cons k r ih =>
    have hk := h k (List.mem_cons_self ..)
    match r with
    | [] => simp [aesRounds, xorList, a, hk]
    | k' :: r' => exact ih _ (fun x hx => h x (List.mem_cons_of_mem _ hx)) (by simp [xorList, b, hk])

theorem keyTag_length (u : BitVec 64) : (keyTag u).length = 16 := by
  have h (n y : Nat) : (bytesOf n y).length = n := by
    induction n generalizing y with
    | zero => rfl
    | succ n ih => simp [bytesOf, ih]
  have a : (aesEncK (roundKeys (toNats zeros32)) (toNats (List.replicate 12 0#8) ++ [0, 0, 0, 1])).length = 16 := by
    have k : ∀ x ∈ roundKeys (toNats zeros32), x.length = 16 := by decide
    match roundKeys (toNats zeros32), k with
    | [], _ => rfl
    | x :: r, k => exact aesRounds_length r _ (fun y hy => k y (List.mem_cons_of_mem _ hy)) (by
        rw [xorList, List.length_zipWith, k x (List.mem_cons_self ..)]; rfl)
  rw [keyTag, gcmTag]
  simp only [toBytes, xorList, List.length_map, List.length_zipWith, h, a, Nat.min_self]

theorem leBytes_le (t : List Byte) (o : Nat) (h : o + 4 ≤ t.length) :
    leBytes 4 (BitVec.ofNat 32 (le t o 4)).toNat = slice t o 4 := by
  obtain ⟨a, b, c, d, e⟩ : ∃ a b c d, slice t o 4 = [a, b, c, d] := by
    have : (slice t o 4).length = 4 := by simp [slice]; omega
    match slice t o 4, this with
    | [a, b, c, d], _ => exact ⟨a, b, c, d, rfl⟩
  have ha := a.isLt; have hb := b.isLt; have hc := c.isLt; have hd := d.isLt
  simp only [le, e, leNat, leBytes, BitVec.toNat_ofNat, List.cons.injEq, and_true]
  refine ⟨?_, ?_, ?_, ?_⟩ <;> apply BitVec.eq_of_toNat_eq <;> simp only [BitVec.toNat_ofNat] <;> omega

theorem slices16 (t : List Byte) (h : t.length = 16) : slice t 0 4 ++ slice t 4 4 ++ slice t 8 4 ++ slice t 12 4 = t := by
  match t, h with
  | [_, _, _, _, _, _, _, _, _, _, _, _, _, _, _, _], _ => rfl

/-- The message as it stands in the registers. -/
def keyMsg (u : BitVec 64) (tag : List Byte) : List Byte := keyAad u ++ List.replicate 48 0#8 ++ tag

theorem keyMsgBytes_of_words (s : State) (port : Nat) (ws : List Word)
    (h : (List.range 24).map (fun w => getReg s (portReg port (0x40040 + 4 * w))) = ws) :
    keyMsgBytes s port = ws.flatMap (fun w => leBytes 4 w.toNat) := by
  rw [← h, List.flatMap_map]; rfl

theorem keyMsgBytes_keyState (u : BitVec 64) (tag : List Byte) (h : tag.length = 16) :
    keyMsgBytes (keyState u tag) 0 = keyMsg u tag := by
  have r : (List.range 24).map (fun w => getReg (keyState u tag) (portReg 0 (0x40040 + 4 * w))) = keyWords u tag := by
    rw [keyState, keyWords]
    generalize u.setWidth 32 = w2, (u >>> 32).setWidth 32 = w3
    generalize BitVec.ofNat 32 (le tag 0 4) = a, BitVec.ofNat 32 (le tag 4 4) = b, BitVec.ofNat 32 (le tag 8 4) = c,
      BitVec.ofNat 32 (le tag 12 4) = d
    rfl
  rw [keyMsgBytes_of_words _ _ _ r, keyMsg, keyAad]
  simp only [keyWords, List.flatMap_cons, List.flatMap_nil, List.append_nil, List.append_assoc]
  rw [leBytes_le tag 0 (by omega), leBytes_le tag 4 (by omega), leBytes_le tag 8 (by omega), leBytes_le tag 12 (by omega)]
  have e := slices16 tag h
  simp only [List.append_assoc] at e
  rw [e]; rfl

theorem leNat_uid (u : BitVec 64) :
    leNat (leBytes 4 (u.setWidth 32).toNat ++ leBytes 4 ((u >>> 32).setWidth 32).toNat) = u.toNat := by
  have := u.isLt
  show leNat [_, _, _, _, _, _, _, _] = _
  simp only [leNat, BitVec.toNat_ofNat, BitVec.toNat_setWidth, BitVec.toNat_ushiftRight, Nat.shiftRight_eq_div_pow]
  omega

theorem uid_le (u : BitVec 64) (tag : List Byte) : le (keyMsg u tag) 8 8 = u.toNat := leNat_uid u

theorem tag_slice (u : BitVec 64) (tag : List Byte) (h : tag.length = 16) : slice (keyMsg u tag) 0x50 16 = tag := by
  have e : slice (keyMsg u tag) 0x50 16 = tag.take 16 := rfl
  rw [e, List.take_of_length_le (by omega)]

theorem keyMsg_parts (u : BitVec 64) (tag : List Byte) : slice (keyMsg u tag) 0x20 12 = List.replicate 12 0#8 ∧
    (keyMsg u tag).take 32 = keyAad u ∧ slice (keyMsg u tag) 0x30 32 = zeros32 := ⟨rfl, rfl, rfl⟩

theorem keyMsg_fields (u : BitVec 64) (tag : List Byte) :
    (le (keyMsg u tag) 0 4 = 0x4B555044 ∧ le (keyMsg u tag) 7 1 = 1 ∧ le (keyMsg u tag) 0x18 8 = 0 ∧ le (keyMsg u tag) 0x2C 4 = 0) ∧
    le (keyMsg u tag) 6 1 = 1 ∧ le (keyMsg u tag) 0x10 4 = 1 ∧ le (keyMsg u tag) 4 2 = 1 := by
  have a : slice (keyMsg u tag) 0 4 = leBytes 4 0x4B555044 := rfl
  have b : slice (keyMsg u tag) 7 1 = [1#8] := rfl
  have c : slice (keyMsg u tag) 0x18 8 = List.replicate 8 0#8 := rfl
  have d : slice (keyMsg u tag) 0x2C 4 = List.replicate 4 0#8 := rfl
  have e : slice (keyMsg u tag) 6 1 = [1#8] := rfl
  have f : slice (keyMsg u tag) 0x10 4 = leBytes 4 1 := rfl
  have g : slice (keyMsg u tag) 4 2 = [1#8, 0#8] := rfl
  simp only [le, a, b, c, d, e, f, g]
  decide

theorem keyState_ready (u : BitVec 64) (tag : List Byte) : opRunning (keyState u tag) Reg.keyOpstat = false ∧
    enabled (keyState u tag) Reg.keyBase = true ∧ (getReg (keyState u tag) Reg.keyCounter).toNat = 0 := by
  have a : getReg (keyState u tag) Reg.keyOpstat = 0#32 := rfl
  have b : getReg (keyState u tag) Reg.keyBase = 1#32 := rfl
  have c : getReg (keyState u tag) Reg.keyCounter = 0#32 := rfl
  simp only [opRunning, opState, enabled, regFld, regBit, a, b, c]
  decide

/-- A message of usage 1 that passes every test. -/
theorem witness_UpdateMessagesAreTested :
    KeyMessagePasses (keyState Config.uid (keyTag Config.uid)) 0 1 zeros32 (keyMsg Config.uid (keyTag Config.uid)) ∧
    IsKeyCommand (.keyWorkingKey 0) 1 0 := by
  have h := keyTag_length Config.uid
  have d : keyTag Config.uid = gcmTag zeros32 (List.replicate 12 0#8) (keyAad Config.uid) zeros32 := rfl
  generalize keyTag Config.uid = t at h d ⊢
  have p := keyMsg_parts Config.uid t
  have f := keyMsg_fields Config.uid t
  have r := keyState_ready Config.uid t
  exact ⟨{ msg := keyMsgBytes_keyState _ _ h
           idle := r.1
           calm := rfl
           enabled := r.2.1
           format := f.1
           uid := uid_le _ _
           usage := f.2.1
           root := ⟨rfl, rfl, show 1 ≠ 0 by decide, show 1 ≠ 4 by decide⟩
           taken := ⟨fun h => absurd (show (1 : Nat) = 2 from h) (by decide), fun _ => ⟨.inl rfl, .inl rfl⟩⟩
           counter := by rw [r.2.2, f.2.2.1]; decide
           tag := by rw [tag_slice _ _ h, p.1, p.2.1, p.2.2, d]
           payload := fun h => absurd rfl h
           permit := fun _ => by rw [f.2.2.2]; decide }, .inl ⟨rfl, rfl⟩⟩

/-- A message that is no update message, of usage 4, before a disabled and an enabled key block, with and without an
operation running and a warning. -/
theorem witness_UpdateMessagesAreRefused :
    (∀ x ∈ [(0, 0), (1, 0), (1, 0x10000000)],
      let s := rg [(0x40000, x.1), (0x40044, 0x00040000), (Reg.keyOpstat, x.2)] State.reset
      IsKeyCommand (.keyReturn 0) 4 0 ∧ le (keyMsgBytes s 0) 6 1 = 4 ∧ le (keyMsgBytes s 0) 0 4 ≠ 0x4B555044 ∧
      enabled s Reg.keyBase = (x.1 == 1) ∧ opRunning s Reg.keyOpstat = (x.2 != 0) ∧ s.pwr.warn = false) ∧
    (∃ s : State, s.pwr.warn = true ∧ opRunning s Reg.keyOpstat = false ∧ le (keyMsgBytes s 0) 6 1 = 0) := by
  refine ⟨fun x hx => ⟨.inr (.inr (.inr (.inl ⟨rfl, rfl⟩))), ?_⟩, { State.reset with pwr := { PwrSt.reset with warn := true } }, ?_⟩
  · revert x; decide
  · decide

/-- The message of usage 7 for a UID in the SPI port's copy, the key block BLANK. -/
def enrollWords (u : BitVec 64) : List Word :=
  [0x4B555044#32, 0x01070000#32, u.setWidth 32, (u >>> 32).setWidth 32, 1#32] ++ List.replicate 19 0#32

def enrollState (u : BitVec 64) : State :=
  { State.reset with
    regs := (0x40000, 1#32) :: ((List.range 24).zip (enrollWords u)).map (fun x => (0x1040040 + 4 * x.1, x.2)) }

theorem enroll_bytes (u : BitVec 64) : (enrollWords u).flatMap (fun w => leBytes 4 w.toNat) =
    (leBytes 4 0x4B555044 ++ leBytes 4 0x01070000) ++
      (leBytes 4 (u.setWidth 32).toNat ++ (leBytes 4 ((u >>> 32).setWidth 32).toNat ++ (leBytes 4 1 ++ List.replicate 76 0#8))) := by
  simp only [enrollWords, List.cons_append, List.nil_append, List.flatMap_cons, List.append_assoc]
  rfl

theorem enroll_fields (u : BitVec 64) : ∀ m, m = (enrollWords u).flatMap (fun w => leBytes 4 w.toNat) →
    le m 0 4 = 0x4B555044 ∧ le m 7 1 = 1 ∧ le m 0x18 8 = 0 ∧ le m 0x2C 4 = 0 ∧ le m 8 8 = u.toNat ∧ le m 6 1 = 7 ∧
      slice m 0x50 16 = List.replicate 16 0 := by
  intro m hm
  rw [enroll_bytes] at hm
  have a : slice m 0 4 = leBytes 4 0x4B555044 := by subst hm; rfl
  have b : slice m 7 1 = [1#8] := by subst hm; rfl
  have c : slice m 0x18 8 = List.replicate 8 0#8 := by subst hm; rfl
  have d : slice m 0x2C 4 = List.replicate 4 0#8 := by subst hm; rfl
  have e : slice m 6 1 = [7#8] := by subst hm; rfl
  have g : slice m 0x50 16 = List.replicate 16 0#8 := by subst hm; rfl
  have f : le m 8 8 = u.toNat := by
    have f : slice m 8 8 = leBytes 4 (u.setWidth 32).toNat ++ leBytes 4 ((u >>> 32).setWidth 32).toNat := by subst hm; rfl
    rw [le, f, leNat_uid]
  refine ⟨?_, ?_, ?_, ?_, f, ?_, g⟩ <;> simp only [le, a, b, c, d, e] <;> decide

/-- ENROLL; a message in phases 2 and 3 to be stopped; a message to commit into slot 1. -/
theorem witness_KeyCommitsTakeEffectWhole :
    (∃ m, keyMsgBytes (enrollState Config.uid) 1 = m ∧ (enrollState Config.uid).key.lc = 0 ∧
      enabled (enrollState Config.uid) Reg.keyBase = true ∧ opRunning (enrollState Config.uid) Reg.keyOpstat = false ∧
      (enrollState Config.uid).pwr.warn = false ∧ le m 0 4 = 0x4B555044 ∧ le m 7 1 = 1 ∧ le m 0x18 8 = 0 ∧ le m 0x2C 4 = 0 ∧
      le m 8 8 = Config.uid.toNat ∧ le m 6 1 = 7 ∧ slice m 0x50 16 = List.replicate 16 0) ∧
    (∀ n ∈ [2, 3], let s := rg [(Reg.keyOpstat, 0x10000000 + n)] State.reset
      opRunning s Reg.keyOpstat = true ∧ regFld s Reg.keyOpstat 15 0 = n) ∧
    (let u : KeyUpdate := ⟨1, ⟨1, 1, 0, 1, 0, none, [], [], true⟩, none⟩
     let s := rg [(Reg.keyOpstat, 0x10000000)] { State.reset with key := { KeySt.reset with update := some u } }
     s.key.update = some u ∧ opRunning s Reg.keyOpstat = true ∧ keySelect s = some (1, 0)) := by
  refine ⟨?_, by decide, by decide⟩
  generalize Config.uid = u
  have h := keyMsgBytes_of_words (enrollState u) 1 (enrollWords u) (by
    rw [enrollState, enrollWords]
    generalize u.setWidth 32 = w2, (u >>> 32).setWidth 32 = w3
    rfl)
  refine ⟨_, h, rfl, ?_, ?_, rfl, ?_⟩
  · have b : getReg (enrollState u) Reg.keyBase = 1#32 := rfl
    simp only [enabled, regBit, b]; decide
  · have b : getReg (enrollState u) Reg.keyOpstat = 0#32 := rfl
    simp only [opRunning, opState, regFld, b]; decide
  · exact enroll_fields u _ rfl

/-! ## Capture, energy and the analog front end -/

def capRec0 : CapRec :=
  { first := 0, latest := 0, firstSrc := 0, sources := 1, triggers := 1, maskFail := 0, stopAt := none, start := 0, flags := 0,
    tag := 0, copied := [] }

/-- Three samples of channel 0 that cover two cycles of 50 Hz up to raw 40 ms. -/
def twoCycles : SMap Chan := [(0, { Chan.reset with hist := [⟨320000000, 1000, 0⟩, ⟨160000000, 0, 0⟩, ⟨1, 0, 0⟩] })]

/-- The machine while a record is open, at raw 40 ms, with the samples above. -/
def recordingState (l : List (Nat × Nat)) : State :=
  rg l { State.reset with
    raw := 40000000
    cap := { CapSt.reset with st := .recording, cur := some capRec0 }
    afe := { AfeSt.reset with ch := twoCycles } }

/-- A host trigger in IDLE, RECORDING and ARMED; a bus edge; a ROC result; a mask's violation. -/
theorem witness_TriggersOpenAndExtendRecords :
    (∀ m : CapMode, ∀ c : Option CapRec, let s : State := { State.reset with cap := { CapSt.reset with st := m, cur := c } }
      regBit s Reg.capSrcEn 7 = true ∧ s.cap.lastEnd ≤ s.raw ∧ s.cap.st = m ∧ s.cap.cur = c ∧ capTarget s = 0 ∧
      regFld s Reg.capBus 23 16 = 0 ∧ regFld s Reg.capRemote 15 8 = 0) ∧
    (let s := recordingState [(Reg.capBase, 1), (Reg.capBus, 0x08000000), (Reg.capSrcEn, 0x20)]
     s.cap.cur = some capRec0 ∧ enabled s Reg.capBase = true ∧ regBit s Reg.capSrcEn 5 = true ∧
     (regFld s Reg.capBus 27 24).testBit 3 = true ∧ s.cap.hostTx.testBit 3 = false ∧ smFind s.cap.driving 3 = none ∧
     regFld s Reg.capBus 23 16 = 0 ∧ regFld s Reg.capRemote 15 8 = 0 ∧
     s.cap.lastEnd ≤ ((((8 * s.raw + 7 : Nat) : Int) - 8000 * ((getReg s Reg.capBusLat).toNat : Int) -
        (getReg s Reg.capBusDelay).toInt) / 8).toNat) ∧
    (let s := recordingState [(Reg.capBase, 1), (Reg.capCfg, 0x00010000), (Reg.capSrcEn, 4), (Reg.capChTrg 0, 4), (Reg.capRoc 0, 10)]
     enabled s Reg.capBase = true ∧ 40000000 % 250000 = 0 ∧ s.cap.rocAt < 40000000 ∧ bitList 16 (capChan s) = [0] ∧
     bit (getReg s (Reg.capChTrg 0)) 2 = true ∧ (∀ m, m < 8 → bit (getReg s (Reg.capMaskCfg m)) 31 = false) ∧
     regBit s Reg.capSrcEn 2 = true ∧ rocTest s 0 40000000 = some true ∧ (capRing s 0).roc = false ∧
     s.cap.lastEnd ≤ lastStamp s 0 40000000) ∧
    (let s := recordingState [(Reg.capBase, 1), (Reg.capCfg, 0x00010000), (Reg.capSrcEn, 0), (Reg.capChTrg 0, 0),
       (Reg.capMaskCfg 7, 0x80000000)]
     bitList 16 (capChan s) = [0] ∧ bit (getReg s (Reg.capChTrg 0)) 2 = false ∧
     (∀ k, k < 8 → bit (getReg s (Reg.capMaskCfg k)) 31 = decide (k = 7)) ∧ regBit s Reg.capSrcEn 3 = false ∧
     capRec0.maskFail.testBit 7 = false ∧ capRec0.first ≤ 40000000 ∧ maskBroken s 7 capRec0.first 40000000 = true) := by
  refine ⟨fun m c => ?_, ?_, ?_, ?_⟩
  · have a : regBit State.reset Reg.capSrcEn 7 = true ∧ capTarget State.reset = 0 ∧ regFld State.reset Reg.capBus 23 16 = 0 ∧
      regFld State.reset Reg.capRemote 15 8 = 0 := by decide
    exact ⟨a.1, Nat.le_refl _, rfl, rfl, a.2.1, a.2.2.1, a.2.2.2⟩
  · decide
  · decide +kernel
  · decide +kernel

/-- A record that has ended and one that has not; a record to store; REARM and RELEASE; a planned assertion due and not
due; a pulse; an aligned and a misaligned address. -/
theorem witness_RecordsEndAndAreStored :
    (∀ x ∈ [(500000000, true), (499999999, false)],
      let s : State := { State.reset with raw := x.1, cap := { CapSt.reset with cur := some capRec0 } }
      s.cap.cur = some capRec0 ∧ capTarget s = 0 ∧ capRec0.stopAt = none ∧ (decide (Nat.min (capRec0.latest + 1000000 *
        regFld s Reg.capRec 15 0) (capRec0.first + 1000000 * (getReg s Reg.capMax).toNat) ≤ s.raw) = x.2)) ∧
    (let d : CapDone := ⟨0, 0, List.replicate 60 0#8, [], false⟩
     let s : State := { State.reset with cap := { CapSt.reset with storing := [d] } }
     s.cap.storing = d :: [] ∧ d.header.length = 60) ∧
    (let s : State := { State.reset with cap := { CapSt.reset with st := .halted } }
     s.cap.st = .halted ∧ State.reset.cap.st ≠ .halted ∧ capTarget State.reset = 0 ∧ State.reset.cap.cur = none) ∧
    (let s : State := { State.reset with cap := { CapSt.reset with drives := [(0, 15)], driving := [(3, 0)] } }
     s.cap.drives = (0, 15) :: [] ∧ 0 ≤ s.raw ∧ s.twn.st ≠ .taking ∧ smFind s.cap.driving 3 = some 0) ∧
    (let s : State := { State.reset with cap := { CapSt.reset with drives := [(1, 15)] } }
     s.cap.drives = (1, 15) :: [] ∧ s.raw < 1) ∧
    regFld (rg [(Reg.capRdAddr, 0x3FFFFC)] State.reset) Reg.capRdAddr 21 0 % 4 = 0 ∧
    regFld (rg [(Reg.capRdAddr, 0x3FFFFE)] State.reset) Reg.capRdAddr 21 0 % 4 ≠ 0 := by decide

/-- Element 0 on, RCODE 7 on its channels, one sample of each in the step, or none. -/
def stepState (h : List Sample) : State :=
  rg ([(Reg.nrgBase, 1), (Reg.nrgCfg, 1), (Reg.afeBase, 1), (Reg.afeCfg, 0x7F)] ++
    (List.range 7).map (fun c => (Reg.afeChCfg c, 0x04700060 + 0x10000000 * (c + 1))) ++
    (List.range 7).map (fun c => (Reg.afeScale c, 0x447A0000)))
  { State.reset with
    raw := 250000
    nrg := { NrgSt.reset with run := { EnergySnap.reset with opened := true } }
    afe := { AfeSt.reset with ch := (List.range 7).map (fun c => (c, { Chan.reset with hist := h })) } }

/-- A step with every sample, with power above creep, one whose sample is still to come and one that misses it. -/
theorem witness_PowerStepsFeedTheTotals :
    (∀ x ∈ [([(⟨2000000, 0x40000000, 0⟩ : Sample)], true, false), ([], false, true), ([⟨2000001, 0, 0⟩], false, false)],
      let s := stepState x.1
      nrgOn s = true ∧ 250000 % 250000 = 0 ∧ s.nrg.lastStep < 250000 ∧ 250000 ≤ s.raw ∧ 250000 ≤ s.nrg.lastStep + 250000 ∧
      elemOn s 0 = true ∧ elemOn s 1 = false ∧ s.nrg.run.opened = true ∧ s.tim.valid = false ∧
      (∀ n, n < 4 → regBit s (Reg.nrgPulseCfg n) 31 = false) ∧ stepComplete s 0 250000 = x.2.1 ∧
      stepWaits s 250000 = x.2.2) ∧
    (let s := stepState [⟨2000000, 0x40000000, 0⟩]
     stepMarks s 0 250000 = 0 ∧ ∃ P, (phaseVal s 0 2 250000 0).p = some P ∧ 0 < P ∧ atOrBelow P 1 (creepOf s 0) = false) := by
  refine ⟨by decide +kernel, by decide +kernel, _, rfl, by decide +kernel, by decide +kernel⟩

/-- The parts: the gld9600 after reset, and the gld9610. -/
theorem witness_parts : State.reset.part = .gld9600 ∧ ({ State.reset with part := .gld9610 } : State).part = .gld9610 := ⟨rfl, rfl⟩

/-- A pulse that ends; a pulse output enabled, refused and disabled, with each QUANT at its limit; a commit, its end; a lost
crossing. -/
theorem witness_PulsesCommitsAndIntervalReads :
    (fld 0x00600000#32 23 20 < 7 ∧ 7 ≤ fld 0x00700000#32 23 20) ∧
    (let s : State := { State.reset with nrg := { NrgSt.reset with pulses := [(3, { Pulse.reset with endAt := some 0 })] } }
     (smGet Pulse.reset s.nrg.pulses 3).endAt = some 0 ∧ 0 ≤ s.raw) ∧
    (∀ x ∈ [(10, true), (60000, true), (9, false), (60001, false)],
      let s := rg [(Reg.nrgBase, 1), (Reg.nrgCfg, 1), (Reg.nrgPulseConst 3, 1), (Reg.nrgPulseWidth 3, x.1)] State.reset
      regBit s (Reg.nrgPulseCfg 3) 31 = false ∧ getReg s (Reg.nrgPulseConst 3) ≠ 0 ∧ elemOn s (fld 0#32 28 28) = true ∧
      (decide (10 ≤ regFld s (Reg.nrgPulseWidth 3) 15 0 ∧ regFld s (Reg.nrgPulseWidth 3) 15 0 ≤ 60000) = x.2)) ∧
    regBit (rg [(Reg.nrgPulseCfg 3, 0x80000000)] State.reset) (Reg.nrgPulseCfg 3) 31 = true ∧
    (let s : State := rg [(Reg.nrgBase, 1)]
       { State.reset with nrg := { NrgSt.reset with rec0 := some (1, EnergySnap.reset), rec1 := some (2, EnergySnap.reset) } }
     nrgOn s = true ∧ s.nrg.commit = none ∧ s.nrg.repeatPos = none ∧ s.nrg.commitSec ≠ some (s.raw / 1000000000) ∧
     s.nrg.rec0 = some (1, EnergySnap.reset) ∧ s.nrg.rec1 = some (2, EnergySnap.reset)) ∧
    (let s : State := { State.reset with nrg := { NrgSt.reset with commit := some EnergySnap.reset } }
     s.nrg.commit = some EnergySnap.reset ∧ s.nrg.again = false) ∧
    (let s : State := rg [(Reg.nrgBase, 1), (Reg.nrgCfg, 3)] { State.reset with raw := 4000000000 }
     9 = 7 * 1 + 9 % 7 ∧ chRole s 9 = 2 + 1 ∧ elemOn s 1 = true ∧ regBit s Reg.nrgStatus (16 + 3 * 1 + 2) = false ∧
     (chan s 9).zcBase + 8000000 * regFld s Reg.nrgZcCfg 31 16 ≤ 8 * s.raw) := by decide


/-- Channel 0 on, one tap, at raw 1 ms. -/
def channelState (x : Chan) : State :=
  rg [(Reg.afeBase, 1), (Reg.afeCfg, 3), (Reg.afeChCfg 0, 0x04400001), (Reg.afeChCfg 1, 0x04400001)]
    { State.reset with raw := 1000000, afe := { AfeSt.reset with ch := [(0, x)] } }

def chan0 : Chan := { Chan.reset with fir := List.replicate 8 0, hist := [⟨0, 0, 0⟩] }

/-- A channel that emits plainly, one with a commit, one with a swap without and with a fade; a swap refused twice and taken;
a coefficient of the idle and of the active bank. -/
theorem witness_ChannelsEmitStampedSamples :
    (∀ x ∈ [chan0, { chan0 with commit := some ⟨0, 0, 0, 0⟩ }, { chan0 with swap := some 0 }, { chan0 with swap := some 2 }],
      let s := channelState x
      chan s 0 = x ∧ chOn s 0 = true ∧ s.pwr.st ≠ .keep ∧ s.pwr.st ≠ .off ∧ enabled s Reg.capBase = false ∧
      (∀ p ∈ (chan s 0).hist.head?, p.stamp < stampOf (8 * s.raw + 7) (gdHalf s 0)) ∧ x.fade = none) ∧
    (chan0.use_ = ⟨0, 2 ^ 30, 2 ^ 30, 0⟩ ∧ chan0.commit = none ∧ chan0.swap = none ∧ chan0.fir[7]? = some 0 ∧
      chTaps (channelState chan0) 0 = 1 ∧ 1 ≤ chan0.corr.length + 1) ∧
    (let s := channelState { chan0 with swap := some 2 }
     bit 1#32 0 = true ∧ (chan s 0).swap.isSome = true) ∧
    (fld 0x10010001#32 28 16 = 4097 ∧ fld 0x10000001#32 28 16 = 4096 ∧ ∀ c, c < 16 → (chan State.reset c).swap = none) ∧
    ((chan State.reset 15).bank ≠ 1 ∧ (chan State.reset 15).fade = none ∧ (chan State.reset 15).bank = 0) := by decide

/-- A calibration in progress over channel 0, with one partial and one whole cycle. -/
def calState (r : CalRun) (l : List (Nat × Nat)) : State :=
  rg ([(Reg.afeCalOpstat, 0x10000000), (Reg.afeCalCfg, 1)] ++ l) { channelState chan0 with afe := { AfeSt.reset with cal := some r } }

def calRun0 (full : Bool) (a : CalAcc) : CalRun := ⟨1, full, false, true, 0, [(0, [⟨0, 0, 0, 0, 0⟩, a])], 0⟩

/-- Starts taken and refused; a channel's test that ends with each verdict; a ZERO that passes, one that fails and one not
at its end; a FULL that passes. -/
theorem witness_TestsAndCalibrationMeasureTheirChannels :
    (let s := channelState chan0
     bit 1#32 17 = false ∧ opRunning s Reg.afeOwOpstat = false ∧ opRunning s Reg.afeCalOpstat = false ∧ fld 1#32 15 0 ≠ 0 ∧
     chOn s 0 = true ∧ calBusy s 0 = false ∧ owBusy s 0 = false ∧ bit 1#32 18 = false ∧ bit 0x40001#32 18 = true ∧
     s.afe.zeroed.testBit 0 = false ∧ fld 0#32 15 0 = 0 ∧ chOn s 2 = false) ∧
    calBusy (calState (calRun0 false ⟨0, 0, 0, 0, 0⟩) []) 0 = true ∧
    (∀ l ∈ [[], [1]], ∀ w ∈ [0, 65535],
     let r : OwRun := ⟨0 :: l, 65534, 0⟩
     let s := rg [(Reg.afeOwOpstat, 0x10000000), (Reg.afeOwCfg, 0x00010000 + w)]
       { channelState chan0 with afe := { AfeSt.reset with ow := some r, ch := [(0, { chan0 with hist := [⟨400000000, 5, 0⟩] })] } }
     s.afe.ow = some r ∧ r.done + 1 < 65536 ∧ opRunning s Reg.afeOwOpstat = true ∧
     (chan s 0).hist.head? = some ⟨400000000, 5, 0⟩ ∧ owHalves s 0 = [(16000000, 176000000), (192000000, 352000000)] ∧
     8 * r.start + 352000000 ≤ 400000000) ∧
    (∀ x ∈ [(0, 0), (2 ^ 31, 9)],
     let r := calRun0 false ⟨1, x.1, 0, 0, 0⟩
     let s := calState r []
     s.afe.cal = some r ∧ opRunning s Reg.afeCalOpstat = true ∧ bitList 16 r.mask = [0] ∧
     calCycles s r 0 = some [⟨1, x.1, 0, 0, 0⟩] ∧ calCause r 0 [(0, [⟨1, x.1, 0, 0, 0⟩], calTotal [⟨1, x.1, 0, 0, 0⟩])] = x.2) ∧
    (let r : CalRun := { calRun0 false ⟨0, 0, 0, 0, 0⟩ with acc := [] }
     (bitList 16 r.mask).length = 1 ∧ calCycles (calState r []) r 0 = none ∧ r.wrote.testBit 0 = false ∧
     ({ r with wrote := 1 } : CalRun).wrote.testBit 0 = true) ∧
    (let a : CalAcc := ⟨1, 2 ^ 30, 0, 0, 0⟩
     let r := calRun0 true a
     let s := calState r [(Reg.afeCalRef, 2 ^ 30)]
     calCycles s r 0 = some [a] ∧ calCause r (toSigned 32 (getReg s Reg.afeCalRef).toNat) [(0, [a], calTotal [a])] = 0) := by
  decide

/-- L_CFG refused twice and taken, with the entry VACANT, CHECKING and RETIRED; an estimate of L2 for exhibit 0 under a LIVE
plan. -/
theorem witness_LocalEstimatesFillTheirFrames :
    (∀ st ∈ [AccState.checking, .retired],
     let s : State := { State.reset with acc := { AccSt.reset with entries := [(0x4002, { AccEntry.reset with st := st })] } }
     (getAcc s 0x4002).st = st ∧ accIsEnabled (getAcc s 0x4002) = false) ∧
    (let s : State := { State.reset with acc := { AccSt.reset with entries := [(0x4002, { AccEntry.reset with st := .live })] } }
     accIsEnabled (getAcc s 0x4002) = true ∧ accIsEnabled (getAcc s 0x4003) = false ∧
     fld 0x00010001#32 23 16 ≠ 0 ∧ fld 0x00010001#32 15 0 ≠ 0 ∧ bit 0x00010001#32 (fld 0x00010001#32 27 24) = true ∧
     bit 0x01010001#32 (fld 0x01010001#32 27 24) = false) ∧
    (∀ x ∈ [AccState.vacant, .live],
     let s : State := rg [(Reg.afeBase, 1), (Reg.afeLCfg 2, 0x00010001), (accAddr 0x4002 + 20, 0x07010101)]
       { live5 ex5 with acc := { AccSt.reset with entries := [(0x4002, { AccEntry.reset with st := x })] } }
     ratePlan s = some plan0 ∧ afeOn s = true ∧ lValid s 2 = true ∧ fld (accFmt s 0x4002) 7 0 = 1 ∧
     timeReached s (exhibitTime plan0.baseRate 0) = true ∧ (getAcc s 0x4002).st = x ∧ twinDrops s = false ∧
     s.twn.st ≠ .isolated) := by decide


/-! ## The host interface -/

/-- Is an access to an offset of a machine that is up served by the offset's register? -/
def served (s : State) (a : Nat) : Bool :=
  s.pwr.st != .off && s.pwr.st != .nap && s.pwr.trans != some .nap && !undecoded a && !absentAt s a && !offlineAt s a

theorem reaches_of {s : State} {a : Nat} (h : served s a = true) : Reaches s a := by
  simp only [served, Bool.and_eq_true, bne_iff_ne, ne_eq, Bool.not_eq_true'] at h
  exact ⟨⟨h.1.1.1.1.1, h.1.1.1.1.2, h.1.1.1.2⟩, h.1.1.2, h.1.2, h.2⟩

theorem writes_of {s : State} {a : Nat} (h : (served s a && !opRunning s Reg.pwrStartOpstat) = true) : Writes s a := by
  simp only [Bool.and_eq_true, Bool.not_eq_true'] at h
  exact ⟨reaches_of h.1, by simp only [ladderHolds, h.2, Bool.false_and]⟩

theorem all_write (l : List Nat) (h : (l.all fun a => served State.reset a && !opRunning State.reset Reg.pwrStartOpstat) = true) :
    ∀ a ∈ l, Writes State.reset a := fun a ha => writes_of (List.all_eq_true.mp h a ha)

/-- The last register of every plain row; a low word and a high word of a counter; a block that is enabled. -/
theorem witness_PlainRegistersAndPairs :
    (∀ r ∈ plainRows, r.count - 1 < r.count ∧ Writes State.reset (r.base + r.stride * (r.count - 1))) ∧
    (isPairLow 0x7002C = true ∧ lowOf 0x7002C = none ∧ Reaches State.reset 0x7002C ∧ (curWord State.reset 1 0x7002C).2 = State.reset) ∧
    (lowOf 0x70030 = some 0x7002C ∧ Reaches State.reset 0x70030 ∧ (curWord State.reset 1 0x70030).2 = State.reset ∧
      smFind State.reset.host.latch 1 = none) ∧
    (enabled (rg [(0x60000, 1)] State.reset) (blkBase 0x60014) = true ∧
      (getReg State.reset 0x60014 &&& BitVec.ofNat 32 0xFFFF) ≠ (~~~(getReg State.reset 0x60014) &&& BitVec.ofNat 32 0xFFFF)) := by
  refine ⟨fun r hr => ?_, ⟨by decide, by decide, reaches_of (by decide), rfl⟩,
    ⟨by decide, reaches_of (by decide), rfl, rfl⟩, by decide⟩
  have h : plainRows.all (fun r => decide (r.count - 1 < r.count) && (served State.reset (r.base + r.stride * (r.count - 1)) &&
    !opRunning State.reset Reg.pwrStartOpstat)) = true := by decide +kernel
  have := List.all_eq_true.mp h r hr
  simp only [Bool.and_eq_true, decide_eq_true_eq] at this
  exact ⟨this.1, writes_of (by simp only [this.2.1, this.2.2, Bool.and_self])⟩

/-- EVENTS and IRQ_EN of every block, the log's cursor, each field that clears on read, a latch and a port without one. -/
theorem witness_RegisterAccessesFollowTheAccessCodes :
    (State.reset.pwr.st ≠ .off ∧ State.reset.log.fifo.length + 8 ≤ 64) ∧
    (∀ a ∈ eventMasks.map (fun p => (srcRegs p.1).1) ++ eventMasks.map (fun p => (srcRegs p.1).2) ++ [Reg.logCursor, 0x2C,
      Reg.pcePaceMin, Reg.vrdReduceMax, Reg.dspWaitMax 7, Reg.vltPagesMin, Reg.quePoolMin, Reg.timRaw 0, Reg.timRaw 1],
      Writes State.reset a) ∧
    (let s : State := { State.reset with host := { HostSt.reset with latch := [(1, ⟨Reg.timRaw 0, [(Reg.timRaw 1, 5#32)]⟩)] } }
     Reg.timRaw 1 % 4 = 0 ∧ lowOf (Reg.timRaw 1) = some (Reg.timRaw 0) ∧ Reaches s (Reg.timRaw 1) ∧
     smFind s.host.latch 1 = some ⟨Reg.timRaw 0, [(Reg.timRaw 1, 5#32)]⟩) ∧
    smFind State.reset.host.latch 0 = none :=
  ⟨by decide, all_write _ (by decide), ⟨by decide, by decide, reaches_of (by decide), rfl⟩, rfl⟩

/-- Every page may be written; checking, enabled and idle pages, with and without a held write; a check that passes and one
that fails. -/
theorem witness_BlocksEnableAfterTheirChecks :
    (∀ a ∈ blkPages ++ [0x40000 + 0xB4], Writes State.reset a) ∧
    (∀ base ∈ blkPages, base ≠ 0 → blkChecking State.reset base = false ∧
      blkChecking (rg [(base + 4, 1)] State.reset) base = true ∧ smFind State.reset.host.heldCtrl base = none) ∧
    (enabled State.reset 0x40000 = false ∧ enabled (rg [(0x40000, 1)] State.reset) 0x40000 = true) ∧
    blkCheck (rg [(0x80004, 1)] State.reset) 0x80000 = 0 ∧
    blkCheck (rg [(0x80004, 1), (Reg.dspQuota 0, 1025)] State.reset) 0x80000 = 2 ∧
    (smFind ({ State.reset with host := { HostSt.reset with heldCtrl := [(0x40000, [false])] } } : State).host.heldCtrl 0x40000 =
      some [false]) ∧
    statClrOff 0x40000 = some 0xB4 := by
  refine ⟨all_write _ (by decide), ?_⟩
  decide

/-- An offset not decoded and one of a gated block; a vector pending, masked and not; a masked message; SPI transactions
with the last legal registers, with a right and a wrong check. -/
theorem witness_LinksAndOfflineAccessesAreServed :
    (undecoded 0x8FFFC = true ∧ undecoded 0x88FFC = false) ∧
    (let s := rg [(Reg.pwrGate, 8)] State.reset
     undecoded 0xB0000 = false ∧ absentAt s 0xB0000 = false ∧ offlineAt s 0xB0000 = true ∧ s.pwr.st ≠ .off) ∧
    Writes State.reset Reg.hstVecAck ∧ (pendingVectors State.reset).testBit 0 = false ∧
    (∀ m : Bool,
     let s : State := rg [(0x20, 2), (0x24, 2), (Reg.hstVecMap 1, 63), (0x83FC, 0)] { State.reset with host := { HostSt.reset with msixEn := true, busMaster := true, funcMask := m, msixPba := 2 ^ 63 } }
     (pendingVectors s).testBit 63 = true ∧ s.host.msixEn = true ∧ vecMasked s 63 = m ∧ s.host.busMaster = true ∧
     s.host.msixPba = 2 ^ 63 ∧ s.pwr.st ≠ .off) ∧
    (spiLive State.reset = true ∧ (0xC0 : Nat).testBit 7 = true ∧ (0xC0 : Nat).testBit 6 = true ∧ 0xC0 / 16 % 4 = 0 ∧
      ∀ a ∈ (List.range 64).map Reg.hstVecMap ++ [Reg.logCursor], Writes State.reset a) ∧
    (∀ x ∈ [(0, true), (1, false)],
      let h := [0#8] ++ leBytes 4 Reg.logCursor ++ leBytes 4 5
      let b := h ++ [BitVec.ofNat 8 (crc8 h + x.1)]
      b.length = 10 ∧ (le b 0 1).testBit 7 = false ∧ le b 0 1 / 16 % 4 = 0 ∧ le b 1 4 = Reg.logCursor ∧
      (crc8 (b.take 9) == le b 9 1) = x.2) := by
  refine ⟨by decide, by decide, writes_of (by decide), by decide, by decide, ⟨by decide, by decide, by decide, by decide,
    all_write _ (by decide +kernel)⟩, by decide +kernel⟩

/-- Training idle and running; every area's last word of the MRAM window; the memory trained and not. -/
theorem witness_MemoryWindowsFollowTheirAreas :
    Writes State.reset Reg.hstDdrCtrl ∧
    (opRunning State.reset Reg.hstDdrOpstat = false ∧ regFld State.reset Reg.hstDdrCfg 2 0 = 0 ∧
      regFld (rg [(Reg.hstDdrCfg, 1)] State.reset) Reg.hstDdrCfg 2 0 ≠ 0 ∧
      opRunning (rg [(Reg.hstDdrOpstat, 0x10000000)] State.reset) Reg.hstDdrOpstat = true) ∧
    windowsOpen State.reset ∧
    (∀ x ∈ [(0, 0xFFFFFC, MramArea.user), (0, 0x13FFFFC, .ring), (2, 0x7FFFFC, .plans), (2, 0x821FFC, .keys), (2, 0x837FFC, .boot),
        (3, 0xFFFFFC, .capture), (2, 0x80007C, .records), (0, 0x1FFFFFC, .reserved)],
      let s := rg [(Reg.hstMramWin, x.1)] State.reset
      x.2.1 < 0x2000000 ∧ x.2.1 % 4 = 0 ∧ mramArea (mramAt s x.2.1) = x.2.2) ∧
    (regBit State.reset Reg.pwrGate 4 = false ∧ State.reset.host.ddrTrained = false ∧
      ({ State.reset with host := { HostSt.reset with ddrTrained := true } } : State).host.ddrTrained = true) :=
  ⟨writes_of (by decide), by decide, by unfold windowsOpen; decide, by decide, by decide⟩


/-! ## Ethernet ports, the parser, queues and accessions -/

/-- Port 0 and the queues on, in promiscuous reception, with a port's state. -/
def portState (x : PortSt) (l : List (Nat × Nat)) : State :=
  rg ([(0xE0000, 1), (0xE0010, 0x05EE0001), (0xE001C, 2), (Reg.queBase, 1)] ++ l) { State.reset with eth := ⟨[(0, x)]⟩ }

def linkUp0 : PortSt := { PortSt.reset with link := true, pe := .active }

/-- A frame in reassembly: its first 60 bytes, SMD number 1, the next fragment to be number 3. -/
def frag0 (full dead : Bool) : RxFrag :=
  { data := if dead then [] else List.replicate 60 0#8, next := 3, smd := 1, arrival := 7, sub := 1,
    cells := if full || dead then 0 else 1, full := full, dead := dead }

/-- Frames for the port: plain, MAC control, unprotected with MACsec on; fragments in reception, of a frame kept, refused and
dropped; no room. -/
theorem witness_ReceivedFramesAreTestedInOrder :
    (let s := portState linkUp0 []
     let d : List Byte := List.replicate 60 0#8
     ethOn s 0 = true ∧ ethMaxLen s 0 = 1518 ∧ (getPort s 0).rx = none ∧ isMacControl d = false ∧ addrAccepts s 0 (d.take 6) = true ∧
     macsecOn s 0 = false ∧ canTake s 0 (cellsFor d.length) = true) ∧
    (let s := portState linkUp0 [(0xE001C, 0), (0xE0014, 1)]
     addrAccepts s 0 (List.replicate 6 0#8) = false) ∧
    (let s := portState linkUp0 [(0xE0030, 1)]
     let d : List Byte := List.replicate 60 0#8
     macsecOn s 0 = true ∧ be d 12 2 ≠ 0x88E5 ∧ isPtp d = false) ∧
    (let s := portState linkUp0 [(Reg.queBase, 0)]
     canTake s 0 (cellsFor 60) = false) ∧
    (∀ b ∈ [false, true], let s := portState { linkUp0 with rx := some (frag0 b false) } []
     let all := (frag0 b false).data ++ List.replicate 80 0#8
     (getPort s 0).rx = some (frag0 b false) ∧ all.length + 4 ≤ ethMaxLen s 0 ∧ isMacControl all = false ∧
     addrAccepts s 0 (all.take 6) = true ∧ (frag0 b false).cells < cellsFor all.length ∧ cellsFor 61 ≤ (frag0 false false).cells ∧
     canTake s 0 (cellsFor all.length - (frag0 b false).cells) = true) ∧
    (let s := portState { linkUp0 with rx := some (frag0 false true) } []
     (getPort s 0).rx = some (frag0 false true) ∧ (frag0 false true).cells = 0) := by decide +kernel

/-- A packet of some bytes. -/
def pkt (d : List Byte) : Packet := { source := 0xF, port := 0, arrival := 0, sub := 0, data := d }

/-- The bytes of a PTP Sync message's frame. -/
def ptpFrame : List Byte := List.replicate 12 0#8 ++ [0x88#8, 0xF7#8] ++ List.replicate 44 0#8

/-- A port with a packet in queue q of its express (6) or preemptable (12) class. -/
def sendState (x : PortSt) (q : Nat) (d : List Byte) : State :=
  let s := portState x []
  setQ s q { getQ s q with pkts := [pkt d], held := 1 }

/-- A frame of 120 bytes that a port sends from its own queue. -/
def tx0 (q sent : Nat) : TxPart :=
  { queue := q, pkt := pkt (List.replicate 120 0#8), wire := List.replicate 120 0#8, sent := sent, count := 0, smd := 0, start8 := 0,
    frag8 := 0, live := true }

/-- Links up and down, verification, pauses, HOLD; a frame of each class to send, a PTP frame. -/
theorem witness_PortsSendHoldAndPause :
    (∀ b : Bool, let s := portState { linkUp0 with link := b, rx := some (frag0 false false), flowOn := true, hold := true } [(0xE0024, 0x00000804)]
     ethOn s 0 = true ∧ (getPort s 0).link = b ∧ (getPort s 0).rx = some (frag0 false false) ∧ (getPort s 0).express = none ∧ regBit s 0xE0024 11 = true ∧
     (getPort s 0).flowOn = true ∧ ethFlow s 0 3 2 ≠ 0 ∧
     (getPort s 0).flowAt + ceilDiv (ethFlow s 0 31 16 * 256 * 1000) (ethMbps s 0) ≤ s.raw ∧
     (getPort s 0).hold = true ∧ (getPort s 0).holdEnd ≤ s.raw ∧ (getQ s 6).pkts = [] ∧ (getQ s (ethHostQ s 0 0)).pkts = []) ∧
    (∀ x ∈ [(0, 0, true), (2, 11000000, true), (3, 11000000, true), (3, 10999999, false)],
     let s : State := { portState { linkUp0 with pe := .verifying, verifies := x.1 } [(0xE0020, 0x00000A00)] with raw := x.2.1 }
     (getPort s 0).pe = .verifying ∧ (getPort s 0).verifies = x.1 ∧ decide ((getPort s 0).verifies = 0 ∨
       (getPort s 0).verAt + 1000000 * (regFld s (ethBase 0 + 0x20) 14 8 + 1) ≤ s.raw) = x.2.2) ∧
    (∀ d ∈ [[], ptpFrame], let s := sendState linkUp0 6 d
     txPick s 0 0 = some 6 ∧ (getQ s 6).pkts = [pkt d] ∧ (getPort s 0).flowTx = [] ∧ needsMacsec s 0 d = false ∧
     (getPort s 0).express = none ∧ wireFree s 0 = true ∧ mediumMay s 0 = true ∧ (pkt d).bad = false ∧
     (getPort s 0).pauseExp ≤ s.raw ∧ (getPort s 0).coll = 0 ∧ (getPort s 0).link = true) ∧
    (isPtp ptpFrame = true ∧ le ptpFrame (etypeAt ptpFrame + 2) 1 % 16 < 4 ∧ (smGet [] State.reset.tim.txts 0).length < 16) ∧
    (let s := sendState linkUp0 12 []
     txPick s 0 1 = some 12 ∧ (getPort s 0).part = none ∧ preMay s 0 = true ∧
     preMay (sendState { linkUp0 with hold := true } 12 []) 0 = false) := by decide +kernel

/-- Fragments in transmission, a link that is down, a flow control frame, PLCA and collisions. -/
theorem witness_PortsCutPauseAndCollide :
    (let s := portState { linkUp0 with hold := true, part := some (tx0 12 0) } []
     (getPort s 0).part = some (tx0 12 0) ∧ (getPort s 0).pe = .active ∧ cutReason s 0 = some 0 ∧
     Nat.max (64 * (1 + regFld s (ethBase 0 + 0x20) 3 2) - 4) (4 * ceilDiv (onWire s 0 (tx0 12 0) 0) 4) = 60 ∧
     0 + 60 + 64 ≤ (tx0 12 0).wire.length + 4) ∧
    (∀ n ∈ [0, 60], let s := portState { linkUp0 with part := some (tx0 12 n) } []
     (getPort s 0).part = some (tx0 12 n) ∧ cutReason s 0 = none ∧ (tx0 12 n).pkt.bad = false ∧ (getPort s 0).coll = 0) ∧
    (let s := sendState PortSt.reset 6 []
     (getPort s 0).link = false ∧ txPick s 0 0 = some 6) ∧
    (let s := portState { linkUp0 with flowTx := [5] } []
     (getPort s 0).link = true ∧ (getPort s 0).flowTx = [5] ∧ wireFree s 0 = true) ∧
    (∀ c ∈ [14, 15], ∀ b ∈ [true, false],
     let s := rg [(0xEA000, 1), (0xEA040, 0x80000101), (Reg.queBase, 1)]
       (setQ (setPort State.reset 5 { PortSt.reset with plca := b, coll := c }) 11 { getQ State.reset 11 with pkts := [pkt []] })
     ethOn s 5 = true ∧ txPick s 5 0 = some 11 ∧ (getPort s 5).coll = c ∧ regBit s (ethBase 5 + 0x40) 31 = true ∧
     (getPort s 5).plca = b ∧ plcaOn s 5 = b ∧ txOf (getPort s 5) 0 = none ∧
     (getPort s 5).lastBeacon + 400 * regFld s (ethBase 5 + 0x40) 15 8 * regFld s (ethBase 5 + 0x40) 7 0 ≤ s.raw + 400) ∧
    (let s := rg [(0xEA000, 1), (Reg.queBase, 1)] (setPort State.reset 5 { PortSt.reset with express := some (tx0 11 0) })
     ethOn s 5 = true ∧ plcaOn s 5 = false ∧ (getPort s 5).express = some (tx0 11 0) ∧ (tx0 11 0).queue = 11 ∧
     (getPort s 5).coll < 15) := by decide +kernel

/-- A UDP datagram to port 4712 over IPv4 with a payload. -/
def udpFrame (l : List Byte) : List Byte :=
  List.replicate 12 0#8 ++ [0x08#8, 0x00#8, 0x45#8] ++ List.replicate 8 0#8 ++ [17#8] ++ List.replicate 10 0#8 ++
    [0#8, 0#8] ++ beBytes 2 4712 ++ beBytes 2 (l.length + 8) ++ [0#8, 0#8] ++ l

/-- A C37.118 data frame for a UTC second and fraction, of a stated size, without a phasor. -/
def c37Frame (ver size sec frac : Nat) : List Byte :=
  let l := [0xAA#8, BitVec.ofNat 8 ver] ++ beBytes 2 size ++ beBytes 2 1 ++ beBytes 4 sec ++ [0#8] ++ beBytes 3 frac ++
    List.replicate 6 0#8
  l ++ beBytes 2 (crcCcitt l)

def c37Key : List Byte := List.replicate 10 0#8 ++ [0xFF#8, 0xFF#8] ++ List.replicate 4 0#8 ++ beBytes 2 4712 ++ beBytes 2 1 ++
  [0#8, 0#8, 0#8]

/-- Accession 0 installed for the frames above, exhibit 500 open, valid time, at raw 10 s; a frame in port 0's queue. -/
def parserState (l : List (Nat × Nat)) (d : List Byte) : State :=
  let s := rg ([(0xEC000, 1), (Reg.accBase, 1), (accAddr 0 + 20, 1), (accAddr 0 + 28, 1000000), (Reg.queBase, 1)] ++ l)
    { State.reset with
      raw := 10000000000
      tim := { TimSt.reset with valid := true }
      pln := { PlnSt.reset with s0 := { slot0 .live with closed := 500 } }
      vlt := { VltSt.reset with ex := [(500, { ex5 with index := 500, slots := [], presMask := 0 })] }
      acc := { AccSt.reset with entries := [(0, { AccEntry.reset with st := .live })],
                                ident := (identInsert [] (accSeed State.reset) 0 c37Key).getD [] } }
  setQ s 0 { getQ s 0 with pkts := [pkt d], held := 1 }

/-- A frame that passes every test, and one that fails each of them. -/
theorem witness_AdmissionTakesTheHeadFrame :
    (let s := parserState [] (udpFrame (c37Frame 1 22 0 0))
     (getQ s 0).pkts = [pkt (udpFrame (c37Frame 1 22 0 0))] ∧ s.dsp.heldLand = [] ∧ rowOf s (pkt (udpFrame (c37Frame 1 22 0 0))) = 0 ∧
     enabled s 0xEC000 = true ∧ enabled s Reg.accBase = true ∧ routeOf s (udpFrame (c37Frame 1 22 0 0)) none = .c37 ∧
     s.twn.st = .off ∧ s.tim.valid = true ∧ lapsePast s = s ∧ ratePlan s = some plan0 ∧ c37Time s 0 (c37Frame 1 22 0 0) = some 10000000000 ∧
     rateTests s 0 10000000000 = (500, 0) ∧ indexTests s 0 500 false true = 0 ∧ duplicate s 0 500 = false) ∧
    (∀ l ∈ [c37Frame 1 22 0 0, c37Frame 3 22 0 0, c37Frame 1 23 0 0, c37Frame 1 22 0 1000000],
      let s := parserState [] (udpFrame l)
      routeOf s (udpFrame l) none = .c37 ∧ (udpOf (udpFrame l)).map (·.payload) = some l ∧
      crcCcitt (l.take (l.length - 2)) = be l (l.length - 2) 2 ∧
      (udpOf (udpFrame l)).bind (fun f => identFind s (rxKey f (be l 4 2) 0)) = some 0) ∧
    (let l := c37Frame 3 22 0 0; 2 < le l 1 1 % 16) ∧
    (let l := c37Frame 1 23 0 0; be l 2 2 ≠ l.length ∧ l.length = 22 ∧ c37Size 1#32 = 22) ∧
    c37Time (parserState [] []) 0 (c37Frame 1 22 0 1000000) = none ∧
    (let l := (c37Frame 1 22 0 0).take 20 ++ [0#8, 0#8]; crcCcitt (l.take (l.length - 2)) ≠ be l (l.length - 2) 2) ∧
    (let s := parserState [(Reg.ethParseCfg, 64)] [0#8]
     let u := setQ s 64 { getQ s 64 with cfg := 0x80000000#32, lim := 0x00490000#32 }
     routeOf u [0#8] none = .other ∧ regFld u Reg.ethParseCfg 10 0 = 64 ∧ copyRoom u 64 1 = true) := by decide +kernel


/-- Host queue 64 as given. -/
def hostQ (x : Queue) : State := rg [(Reg.queBase, 1)] (setQ State.reset 64 x)

def q64 : Queue := { getQ State.reset 64 with cfg := 0x80000000#32, lim := 0x00490000#32, wm := 0x00400010#32 }

/-- No host queue; a push at its limits, waiting, open, short and whole; pops of a filled and an empty queue, waiting and
not; an enable that passes and one that fails; a producer that waited. -/
theorem witness_QueuesPushPopAndRelease :
    (isHostQueue State.reset 2047 = false ∧ isHostQueue State.reset 0 = false) ∧
    (let s := hostQ q64
     isHostQueue s 64 = true ∧ (getQ s 64).push = [] ∧ (getQ s 64).pop = [] ∧ (getQ s 64).pkts = [] ∧ bit (getQ s 64).cfg 27 = false ∧
     cellsFor 9216 = 73 ∧ canTake s 64 (cellsFor 9216) = true) ∧
    canTake (hostQ { q64 with held := 1 }) 64 (cellsFor 9216) = false ∧
    (∀ x ∈ [(HPush.mk 5 [] false), ⟨5, [], true⟩, ⟨1, [0#8], true⟩], let s := hostQ { q64 with push := [(1, x)], held := 1 }
     isHostQueue s 64 = true ∧ smFind (getQ s 64).push 1 = some x ∧ canTake s 64 (cellsFor x.len) = true) ∧
    (let s := hostQ { q64 with pkts := [pkt []], held := 1, pop := [(1, ⟨pkt [], 0⟩)] }
     (getQ s 64).pkts = [pkt []] ∧ smFind (getQ s 64).pop 0 = none ∧ smFind (getQ s 64).pop 1 = some ⟨pkt [], 0⟩) ∧
    (∀ l ∈ [[], [pkt []]],
     let s : State := hostQ { q64 with cfg := 0x88000032#32, pkts := l }
     let u : State := { s with raw := 50000, que := { s.que with popWait := [(64, 0)] } }
     isHostQueue u 64 = true ∧ bit (getQ u 64).cfg 27 = true ∧ (getQ u 64).pkts = l ∧
     u.que.popWait.find? (popEnds { u with raw := 0 }) = (if l = [] then none else some (64, 0)) ∧
     u.que.popWait.find? (popEnds u) = some (64, 0)) ∧
    (∀ x ∈ [(0x00490000#32, 0), (0x00480000#32, 0x0E01)],
     let s := rg [(Reg.queSel, 64)] (hostQ { q64 with cfg := 0#32, lim := x.1 })
     regFld s Reg.queSel 10 0 = 64 ∧ bit (getQ s 64).cfg 31 = false ∧ fld 0x80000032#32 5 0 ≤ 50 ∧
     queueCheck (setQ s 64 { getQ s 64 with cfg := qcfgFields 64 0#32 0x80000032#32 }) 64 = x.2) ∧
    (let s : State := hostQ q64
     let u : State := { s with que := { s.que with waiting := [(64, pkt [])] } }
     firstReady u u.que.waiting [] = some ((64, pkt []), [])) := by decide +kernel

/-- A plan with a phasor group. -/
def plan1 : Plan := { plan0 with tables := [(0, { esize := 16, count := 1, data := List.replicate 16 0#8 })] }

/-- The machine with accession 0 in a state and a record that may register under plan1. -/
def accState (st : AccState) : State :=
  rg [(Reg.accBase, 1), (accAddr 0, 1), (accAddr 0 + 20, 1), (accAddr 0 + 24, 0xFFF), (accAddr 0 + 28, 1000000)]
    { State.reset with
      pln := { PlnSt.reset with s0 := { slot0 .live with plan := some plan1 } }
      acc := { AccSt.reset with entries := [(0, { AccEntry.reset with st := st })], checks := [0] } }

theorem smGet_map {β : Type} (d : β) (f : Nat → β) (l : List Nat) (n : Nat) (h : n ∈ l) :
    smGet d (l.map (fun k => (k, f k))) n = f n := by
  induction l with
  | nil => cases h
  | cons a r ih =>
    simp only [List.map_cons, smGet]
    by_cases e : a = n
    · simp [e]
    · simp only [e, if_false]; exact ih (by cases h with | head => exact absurd rfl e | tail _ h => exact h)

/-- Every accession of a list LIVE. -/
def allLive (l : List Nat) : State :=
  { State.reset with acc := { AccSt.reset with entries := l.map (fun n => (n, { AccEntry.reset with st := .live })) } }

theorem allLive_taken (l : List Nat) (n : Nat) (h : n ∈ l) : (getAcc (allLive l) n).st ≠ .vacant := by
  have e : getAcc (allLive l) n = { AccEntry.reset with st := .live } := smGet_map _ _ l n h
  rw [e]; decide

/-- A twin standby; an accession in each state, with and without exhibits that hold it; a check that passes and one that
fails; the first vacant entry. -/
theorem witness_AccessionsRegisterAndRetire :
    (∀ st ∈ [TwinState.standby, .taking], ({ State.reset with twn := { TwnSt.reset with st := st } } : State).twn.st = st) ∧
    (∀ st : AccState, let s := accState st
     s.twn.st = .off ∧ (getAcc s 0).st = st ∧ s.acc.checks = [0] ∧ (getAcc s 0).heldCtl = []) ∧
    (accIsEnabled (getAcc (accState .live) 0) = true ∧ fld 5#32 23 0 ≠ regFld (accState .live) (accAddr 0 + 28) 23 0) ∧
    (∀ b : Bool, let s : State := { accState .live with vlt := { VltSt.reset with ex := if b then [(5, ex5)] else [] }, acc.seq := 1 }
     s.vlt.ex.any (fun p => p.2.openSeq < s.acc.seq && p.2.st != .sealed) = b) ∧
    registrationCause (accState .checking) 0 = 0 ∧ registrationCause { accState .checking with pln := PlnSt.reset } 0 = 0x1104 ∧
    ((getAcc State.reset 0).st = .vacant ∧ (∀ m, m < 0 → (getAcc State.reset m).st ≠ .vacant)) ∧
    (∀ n, n < 0x4000 → (getAcc (allLive (List.range 0x4000)) n).st ≠ .vacant) := by
  refine ⟨by decide, fun st => ⟨rfl, rfl, rfl, rfl⟩, by decide, by decide, by decide +kernel, by decide +kernel, by decide, ?_⟩
  exact fun n hn => allLive_taken _ n (List.mem_range.mpr hn)


/-! ## Exhibits and plans -/

theorem plan0_levels (t : Nat) : (match plan0.tours[t]? with | some x => x.priority | none => 0) < 8 := by
  match t with
  | 0 => decide
  | _ + 1 => show 0 < 8; decide

/-- No tour of a machine whose slot 0 holds plan0 and whose slot 1 holds no plan is of a level above 7. -/
theorem levels_low {s : State} (h0 : s.pln.s0.plan = some plan0) (h1 : s.pln.s1.plan = none) (k t : Nat) :
    tourLevel s k t < 8 := by
  rw [tourLevel, tourOfSlot, planAt, planSlot]
  by_cases e : k = 0
  · rw [if_pos e, h0]; exact plan0_levels t
  · rw [if_neg e, h1]; show 0 < 8; decide

/-- Valid time at raw 100 ms, with exhibit 5 as given under plan0 in slot 0. -/
def exState (x : Exhibit) (raw : Nat) : State := { live5 x with raw := raw, tim := { TimSt.reset with valid := true } }

/-- Exhibit 5, whose CLOSE went up, on an upward link. -/
def upState (x : Exhibit) : State :=
  rg [(Reg.hshBase, 1), (Reg.hshCfg, 0x80000), (Reg.hshUpId, 9)] { live5 x with hsh := { HshSt.reset with up := [(5, ⟨0, 0, 0, [], [], []⟩)] } }

/-- Exhibit 5 may open, with a bank and without; each condition and each state; force commands and the read window. -/
theorem witness_ExhibitsOpenCloseSealAndGo :
    (let s : State := { exState ex5 100000000 with
       vlt := VltSt.reset
       pln := { PlnSt.reset with s0 := { slot0 .live with start := 5 } } }
     s.twn.st = .off ∧ lapsePast s = s ∧ getEx s 5 = none ∧ mayOpenByTime s 5 = some (0, plan0) ∧ openLack s true = none ∧
     openLack { s with vrd := { VrdSt.reset with banks := (List.range 16).map (fun b => (b, { Bank.reset with st := .held })) } } true =
       some 2) ∧
    (let s : State := { exState ex5 101000000 with
       pln := { PlnSt.reset with s0 := { slot0 .live with start := 5, closed := 6 } } }
     getEx s 5 = some ex5 ∧ ex5.index = 5 ∧ planAt s 0 = some plan0 ∧ ex5.st = .opened ∧ slotRetire (lapsePast s) = s ∧
     s.tim.valid = true ∧ timeReached s (closingTime plan0 5) = true ∧ ex5.sealCond = false) ∧
    (let x := { ex5 with st := .closing }
     let s : State := { live5 x with pln := { PlnSt.reset with s0 := { slot0 .live with start := 5 } } }
     closeReady s 5 x = true ∧ x.verdict = true ∧ s.vlt.reclaim = false ∧ x.expMask &&& x.presMask = x.expMask ∧
     x.locExp &&& x.locPres = x.locExp) ∧
    (∀ k t, tourLevel { live5 { ex5 with st := .closing } with
       pln := { PlnSt.reset with s0 := { slot0 .live with start := 5 } } } k t < 8) ∧ timeReached (exState ex5 102000000) (sealTimeOf plan0 5) = true ∧
    (let x := { ex5 with st := .sealing }
     let s := live5 x
     jobsOf s 5 (fun _ => true) = false ∧ x.revision ≤ x.digested ∧ s.vlt.reclaim = false ∧ sealsUp s x = false) ∧
    (let x := { ex5 with st := .sealing }
     let s := upState x
     x.st = .sealing ∧ jobsOf s 5 (fun _ => true) = false ∧ x.revision ≤ x.digested ∧ s.vlt.reclaim = false ∧
     sealsUp s x = true) ∧
    (∀ k t, tourLevel (upState { ex5 with st := .sealing }) k t < 8) ∧
    (∀ k t, tourLevel (live5 { ex5 with st := .sealing }) k t < 8) ∧
    (let x := { ex5 with st := .sealed, outflow := 2, slots := [(0, List.replicate 1400 1#8)] }
     x.st = .sealed ∧ x.outflow.testBit 1 = true ∧ hshSends (upState x) 2 = true ∧
     x.sealSeg + 1 < ceilDiv (serialise plan0 x false).length 1400) ∧
    (let s := live5 { ex5 with st := .sealed }
     s.vlt.reclaim = false ∧ s.vlt.waitOpen = [] ∧ retiringSlot s = none ∧ s.twn.own = [] ∧ s.twn.partner = [] ∧
     s.arc.cur ≠ some 5 ∧ s.vlt.reserve ≤ 512) ∧
    (let s := rg [(Reg.vltForceLo, 5)] (live5 ex5)
     (getReg s Reg.vltForceLo).toNat + regFld s Reg.vltForceHi 15 0 * 2 ^ 32 = 5 ∧ getEx s 5 = some ex5) ∧
    (getEx State.reset 5 = none ∧ ({ ex5 with st := .closed, sealCond := true } : Exhibit).sealCond = true) ∧
    (let s := rg [(Reg.vltViewIndexLo 1, 0xFFFFFFFF)] State.reset
     (getReg s (Reg.vltViewIndexLo 1)).toNat + fld 0xFFFF#32 15 0 * 2 ^ 32 = 2 ^ 48 - 1) ∧
    (let s : State := { live5 ex5 with vlt := { VltSt.reset with ex := [(5, ex5)], views := [(1, ⟨1, 5, []⟩)] } }
     (getView s 1).status = 1 ∧ getEx s (getView s 1).index = some ex5) := by
  refine ⟨by decide +kernel, by decide +kernel, by decide, fun k t => levels_low rfl rfl k t, by decide, by decide,
    by decide +kernel, fun k t => levels_low rfl rfl k t, fun k t => levels_low rfl rfl k t, by decide +kernel⟩

/-- The header fields of a plan image of 1,024 bytes with one slot, one tour and one word of code; FEATURES 1. -/
def planFields : List Byte :=
  leBytes 4 0x50484C47 ++ leBytes 4 0x00010000 ++ leBytes 4 1024 ++ leBytes 4 7 ++ leBytes 4 0x03010132 ++ leBytes 4 1 ++
    leBytes 4 1 ++ leBytes 4 1000 ++ leBytes 4 1000 ++ leBytes 4 1 ++ leBytes 4 0x00010003 ++ leBytes 4 9 ++ leBytes 4 1 ++
    leBytes 4 0xFFFF

def planHeader : List Byte := planFields ++ (List.replicate 98 0#8 ++ List.replicate 98 0#8)

/-- A directory entry of a plan image. -/
def dirEntry (typ off len cnt : Nat) : List Byte := leBytes 4 typ ++ leBytes 4 off ++ leBytes 4 len ++ leBytes 4 cnt

/-- The bytes from the header's CRC to the tour, in the image's order. -/
def planParts : List Byte :=
  leBytes 4 0xB57BA2AC ++ dirEntry 2 0x140 4 1 ++ dirEntry 3 0x180 32 1 ++ dirEntry 4 0x1C0 4 4 ++ List.replicate 16 0#8 ++
    leBytes 4 0x80010000 ++ List.replicate 60 0#8 ++ leBytes 4 0x00040000 ++ leBytes 4 0 ++ leBytes 4 100 ++ leBytes 4 3 ++ leBytes 8 1

def planZeros : List Byte := List.replicate 153 0#8

def planImage : List Byte :=
  (planHeader ++ (planParts ++ (planZeros ++ (planZeros ++ (planZeros ++ planZeros))))) ++ leBytes 4 802888779

/-- crcRefl as a fold over the list's recursor, each register value compared with itself so that an evaluation works it
out before it goes on. -/
noncomputable abbrev crcForced (poly : Nat) (l : List Byte) : Nat → Nat :=
  List.rec (motive := fun _ => Nat → Nat) (fun c => c)
    (fun b _ ih c => bif Nat.beq (crcBitsRefl poly 8 (c ^^^ b.toNat)) (crcBitsRefl poly 8 (c ^^^ b.toNat)) then
      ih (crcBitsRefl poly 8 (c ^^^ b.toNat)) else 0) l

theorem crcForced_eq (poly c : Nat) (l : List Byte) : crcForced poly l c = crcRefl poly c l := by
  induction l generalizing c with
  | nil => rfl
  | cons b l ih =>
    show (bif Nat.beq _ _ then crcForced poly l _ else 0) = _
    rw [Nat.beq_refl, cond_true, ih]; rfl

theorem crcRefl_append (poly c : Nat) (a b : List Byte) : crcRefl poly c (a ++ b) = crcRefl poly (crcRefl poly c a) b :=
  List.foldl_append

theorem crc_fields : crcRefl 0x82F63B78 0xFFFFFFFF planFields = 2529273396 := by rw [← crcForced_eq]; decide +kernel
theorem crc_gap0 : crcRefl 0x82F63B78 2529273396 (List.replicate 98 0#8) = 1845555881 := by rw [← crcForced_eq]; decide +kernel
theorem crc_gap1 : crcRefl 0x82F63B78 1845555881 (List.replicate 98 0#8) = 1250188627 := by rw [← crcForced_eq]; decide +kernel
theorem crc_parts : crcRefl 0x82F63B78 1250188627 planParts = 690670479 := by rw [← crcForced_eq]; decide +kernel
theorem crc_zeros0 : crcRefl 0x82F63B78 690670479 planZeros = 2449723152 := by rw [← crcForced_eq]; decide +kernel
theorem crc_zeros1 : crcRefl 0x82F63B78 2449723152 planZeros = 3605459133 := by rw [← crcForced_eq]; decide +kernel
theorem crc_zeros2 : crcRefl 0x82F63B78 3605459133 planZeros = 3756183327 := by rw [← crcForced_eq]; decide +kernel
theorem crc_zeros3 : crcRefl 0x82F63B78 3756183327 planZeros = 3492078516 := by rw [← crcForced_eq]; decide +kernel

theorem planHeader_fold : crcRefl 0x82F63B78 0xFFFFFFFF planHeader = 1250188627 := by
  rw [planHeader, crcRefl_append, crcRefl_append, crc_fields, crc_gap0, crc_gap1]

theorem planHeader_crc : crcNat planHeader = 3044778668 := by
  rw [crcNat, crc32c, planHeader_fold]; decide

theorem planBody_crc :
    crcNat (planHeader ++ (planParts ++ (planZeros ++ (planZeros ++ (planZeros ++ planZeros))))) = 802888779 := by
  rw [crcNat, crc32c, crcRefl_append, crcRefl_append, crcRefl_append, crcRefl_append, crcRefl_append, planHeader_fold, crc_parts,
    crc_zeros0, crc_zeros1, crc_zeros2, crc_zeros3]
  decide

theorem planImage_length : planImage.length = 1024 := by decide +kernel

theorem planImage_header : planImage.take 0xFC = planHeader := by
  rw [planImage, List.append_assoc]; exact List.take_left' (by decide +kernel)

theorem planImage_body :
    planImage.take (1024 - 4) = planHeader ++ (planParts ++ (planZeros ++ (planZeros ++ (planZeros ++ planZeros)))) := by
  rw [planImage]; exact List.take_left' (by decide +kernel)

theorem planImage_frame : frameFail planImage 1024 = none := by
  simp only [frameFail, planImage_length, planImage_header, planImage_body, planHeader_crc, planBody_crc]
  decide +kernel

theorem planImage_sections : sectionsFail .gld9600 planImage = none ∧ sectionsFail .gld9610 planImage = some ⟨0x17, 0, 0, 0x30⟩ := by
  decide +kernel

/-- The plan block with an operation in progress. -/
def plnState (p : PlnSt) (l : List (Nat × Nat)) : State := rg ((Reg.plnOpstat, 0x10000000) :: l) { State.reset with pln := p }

def sel (g a : Nat) : SelRec := ⟨g, a, 7, 1024, false, false⟩

/-- A plan with one enabled template. -/
def planTpl : Plan := { plan0 with templates := [[1#32, 0#32, 0#32, 0#32, 0#32, 1#32, 0xFFF#32, 0x80000001#32]] }

/-- Every cause and outcome of LOAD, SWAP, WITHDRAW, DISCARD and COMMIT; the operations in progress. -/
theorem witness_PlansLoadSwapAndCommit :
    (opRunning State.reset Reg.plnOpstat = false ∧ (planSlot State.reset 1).st = .empty ∧ selRec State.reset = none ∧
      regFld State.reset Reg.plnSrcLo 5 0 = 0 ∧ regFld (rg [(Reg.plnSrcLo, 63)] State.reset) Reg.plnSrcLo 5 0 ≠ 0) ∧
    (fld 0x35#32 2 2 = 1 ∧ fld 0x35#32 5 4 = 3 ∧ bit 0x35#32 1 = false) ∧
    (∀ st ∈ [SlotState.live, .retiring, .loaded], (planSlot { State.reset with pln := { PlnSt.reset with s1 := slot0 st } } 1).st = st) ∧
    (let s : State := { State.reset with pln := { PlnSt.reset with sel0 := some (sel 2 0), sel1 := some (sel 1 1), area0 := [1#8] } }
     selRec s = some (sel 2 0) ∧ s.pln.area0 ≠ [] ∧ s.pln.area1 = []) ∧
    (∀ op ∈ [1, 2, 3], let s := plnState { PlnSt.reset with op := op, opSlot := 1 } []
     opRunning s Reg.plnOpstat = true ∧ s.pln.op = op ∧ s.pln.opSlot < 2) ∧
    (∀ x ∈ [(4, true), (3, false)],
     let s := plnState { PlnSt.reset with op := 1, source := 3, data := [0#8, 0#8, 0#8] } [(Reg.plnSrcLen, x.1)]
     s.pln.source = 3 ∧ plnPhase s = 0 ∧ (decide (s.pln.data.length < regFld s Reg.plnSrcLen 22 0)) = x.2) ∧
    (∀ src ∈ [0, 1, 2], ∀ b ∈ [true, false],
     let s : State := { plnState { PlnSt.reset with op := 1, source := src, sel0 := some (sel 2 0), area0 := planImage }
       [(Reg.plnSrcLen, 1024)] with host := { HostSt.reset with busMaster := b } }
     plnPhase s = 0 ∧ s.pln.source = src ∧ s.host.busMaster = b ∧ selRec s = some (sel 2 0) ∧ (sel 2 0).area < 2 ∧
     phaseUnits s 0 0 = (if src = 2 then 0 else 1)) ∧
    (∀ ph ∈ [1, 2, 3, 4],
     let s := plnState { PlnSt.reset with op := 1, s0 := { slot0 .loading with image := planImage } } [(Reg.plnOp, ph * 16 + 1)]
     plnPhase s = ph ∧ phaseFail s 0 ph 0 = none ∧ phaseUnits s 0 ph = (if 2 < ph then 0 else 1)) ∧
    (let s : State := { plnState { PlnSt.reset with op := 1 } [(Reg.plnSrcLen, 1024)] with host := { HostSt.reset with busMaster := true } }
     s.pln.source = 0 ∧ s.host.busMaster = true ∧ s.twn.st = .off ∧ regFld s Reg.plnSrcLen 22 0 = 1024 ∧
     crossFail s (parsePlan planImage) (readsEnabled s).length = none ∧ enabled s Reg.accBase = false) ∧
    padTo 1024 planImage = planImage ∧ frameFail planImage 1024 = none ∧ frameFail [] 0 = some ⟨1, 0, 0, 8⟩ ∧
    sectionsFail .gld9600 planImage = none ∧ sectionsFail .gld9610 planImage = some ⟨0x17, 0, 0, 0x30⟩ ∧
    crossFail (rg [(accAddr 0 + 20, 7)] (accState .checking)) (parsePlan planImage) 1 = some (1, ⟨0x16, 0xFFFF, 0, 0⟩) ∧
    (readsEnabled (accState .checking)).length = 1 := by
  refine ⟨by decide, by decide, by decide, by decide, ?_⟩
  refine ⟨by decide, by decide, by decide +kernel, by decide +kernel, by decide +kernel, ?_, planImage_frame, ?_⟩
  rotate_left
  · exact ⟨by decide, planImage_sections.1, planImage_sections.2, by decide +kernel⟩
  rw [padTo, planImage_length]
  exact (List.take_of_length_le (by rw [List.length_append, planImage_length]; decide)).trans (List.append_nil _)

/-- Further clauses: SWAP, its end, WITHDRAW and COMMIT. -/
theorem witness_PlansSwapWithdrawAndCommit :
    (let s : State := { State.reset with pln := { PlnSt.reset with s1 := slot0 .loaded } }
     swapCause s 1 0 = 0 ∧ planAt s 1 = some plan0 ∧ slotActive s 0 = false ∧ swapCause s 0 0 = 0x20) ∧
    (let s : State := { exState { ex5 with slot := 1 } 0 with pln := { PlnSt.reset with s0 := slot0 .loaded, s1 := slot0 .live } }
     swapCause s 0 1 = 0 ∧ planAt s 0 = some plan0 ∧ (planSlot s 1).st = .live ∧ s.vlt.ex.any (fun x => x.2.slot = 1) = true) ∧
    (let s := plnState { PlnSt.reset with op := 2, applyTpl := true, s0 := { slot0 .live with plan := some planTpl } } []
     s.twn.st = .off ∧ planAt s s.pln.opSlot = some planTpl ∧ enabledTemplates planTpl = [0] ∧ planTpl.templates.length < 65536 ∧
     regFld s Reg.plnOpstat 15 0 = 0 ∧ (getAcc s 0).st = .vacant) ∧
    accCountWord (accState .live) / 65536 ≠ 0 ∧ (accCountWord State.reset / 65536 = 0 ∧ liveSlot State.reset = none) ∧
    (∀ x ∈ [([(5, ex5)], true), ([], false)],
     let s : State := { live5 ex5 with vlt := { VltSt.reset with ex := x.1 } }
     liveSlot s = some 0 ∧ planAt s 0 = some plan0 ∧ slotActive s 1 = false ∧ slotBusy s 0 = x.2 ∧
     slotDone s { planSlot s 0 with st := .retiring, stop := withdrawEnd s (planSlot s 0) plan0, retSeq := s.acc.seq } = true) ∧
    (let s := plnState { PlnSt.reset with op := 3, s0 := slot0 .loaded, sel0 := some (sel 2 0), sel1 := some (sel 1 1) } []
     planAt s s.pln.opSlot = some plan0 ∧ selRec s = some (sel 2 0) ∧ (sel 2 0).gen ≠ (sel 1 1).gen) ∧
    planAt (plnState { PlnSt.reset with op := 3 } []) 0 = none ∧
    (let s := plnState { PlnSt.reset with op := 3, s0 := { slot0 .loaded with image := planImage } } []
     s.pln.op = 3 ∧ ((planSlot s 0).image).length / 1024 = 1 ∧ selRec s = none ∧ planAt s 0 = some plan0) := by decide +kernel


/-! ## Dispatch, verdicts and the Hiash link -/

/-- A plan with a close-time, a timer, a doorbell and a Hiash tour, all of level 3, one timer of 1 ms, and one line that is
revised over cell 0. -/
def planJobs : Plan :=
  { plan0 with
    tours := [0, 3, 4, 5].map (fun k => { codeLen := 4, iramOff := 0, codeSrc := 0, budget := 100, kind := k, priority := 3, affinity := 1 })
    timers := [⟨1, 1000, 0⟩]
    lines := [leBytes 4 0x24000000 ++ List.replicate 20 0#8 ++ leBytes 4 0x08400000 ++ List.replicate 4 0#8] }

def landing0 (e : Nat) : Landing :=
  { acc := 0, port := 0, arrival := 0, arrived := 0, sub := 0, index := e, offset := 0, commit := 0, status := 0, digs := [], freq := 0, rocof := 0,
    phasors := [], analogs := [] }

/-- The dispatcher and the docents on over planJobs and exhibit 5, as the dispatcher stands. -/
def dspState (d : DspSt) (x : Exhibit) : State :=
  rg [(Reg.dspBase, 1), (Reg.docBase, 1), (Reg.dspQuota 3, 1)]
    { live5 x with
      dsp := d
      tim := { TimSt.reset with valid := true }
      pln := { PlnSt.reset with s0 := { slot0 .live with plan := some planJobs } } }

/-- A landing of accession 0 held before level 3. -/
def heldState (x : Exhibit) (valid : Bool) (a : AccState) : State :=
  rg [(Reg.accBase, 1)] { dspState { DspSt.reset with heldLand := [landing0 5] } x with
    tim := { TimSt.reset with valid := valid }
    acc := { AccSt.reset with entries := [(0, { AccEntry.reset with st := a })] } }

/-- A job to place; one of every source of level 3; landings too late, twice there and new; timers and doorbells. -/
theorem witness_JobsEnterTheirLevelsAndDocents :
    (let s := dspState { DspSt.reset with levels := [(3, [{ job0 0 with affinity := 1 }])] } ex5
     enabled s Reg.dspBase = true ∧ enabled s Reg.docBase = true ∧ nextPlace s 8 = some (3, { job0 0 with affinity := 1 }, 0, [])) ∧
    (let s := dspState { DspSt.reset with evFifo := [job0 0] } ex5
     s.twn.st = .off ∧ levelRoom s 3 = true ∧ takeLevel s 3 s.dsp.evFifo = some (job0 0, []) ∧ fifoHas s 3 = true) ∧
    (let s := dspState { DspSt.reset with timerPend := [(0, 1)] } ex5
     levelRoom s 3 = true ∧ fifoHas s 3 = false ∧ liveSlot s = some 0 ∧ pendingTimer s 3 = some (0, 1) ∧
     timerLevel s 0 = some (3, ⟨1, 1000, 0⟩)) ∧
    (let s := dspState { DspSt.reset with heldHsh := [job0 0] } ex5
     fifoHas s 3 = false ∧ pendingTimer s 3 = none ∧ takeLevel s 3 s.dsp.heldHsh = some (job0 0, [])) ∧
    (∀ x ∈ [(ex5, false, true), ({ ex5 with sealCond := true }, true, true), ({ ex5 with slots := [], presMask := 0 }, false, false)],
     ∀ b ∈ [true, false], ∀ a ∈ [AccState.live, .vacant],
     let s := heldState x.1 b a
     s.twn.st = .off ∧ fifoHas s 3 = false ∧ pendingTimer s 3 = none ∧ hshHas s 3 = false ∧ levelRoom s 3 = true ∧
     takeHeld s 3 s.dsp.heldLand = some (landing0 5, []) ∧ (landing0 5).port < 6 ∧ lapsePast s = s ∧
     enabled s Reg.accBase = true ∧ s.tim.valid = b ∧ (getAcc s 0).st = a ∧ (getAcc s 0).commitSeq = (landing0 5).commit ∧
     tooLate s 0 5 = x.2.1 ∧ duplicate s 0 5 = x.2.2 ∧ x.1.st = .opened ∧
     planAt s 0 = some planJobs ∧ mapSlot planJobs 0 = some (0, 1) ∧ (newPages x.1 0 1).length ≤ s.vlt.general) ∧
    (∀ d ∈ [DspSt.reset, { DspSt.reset with fullSince := [(3, 0)] }, { DspSt.reset with timerPend := [(0, 1)] }],
     let s := dspState d ex5
     s.twn.st = .off ∧ timerLevel s 0 = some (3, ⟨1, 1000, 0⟩) ∧ timeReached s (1000 * (0 + 1000 * nextFiring s 0 0 ⟨1, 1000, 0⟩)) = true ∧
     levelOpen s 3 = !(levelFull s 3) ∧ levelFull s 3 = !d.fullSince.isEmpty) ∧
    (let s := dspState DspSt.reset ex5
     doorbellCause s 2 = 0 ∧ tourLevel s 0 2 = 3 ∧ doorbellCause s 255 = 0x0904) := by
  refine ⟨by decide +kernel, ?_⟩
  refine ⟨by decide +kernel, ?_⟩
  refine ⟨by decide +kernel, by decide +kernel, by decide +kernel, ?_⟩
  decide +kernel

/-- The reduction of exhibit 5 from bank 2. -/
def red0 : Reduction :=
  { index := 5, slot := 0, bank := some 2, present := 1, expected := 1, closeCause := 1, paceLate := false, raises := [] }

/-- Bank 2 of exhibit 5 in a state, under planJobs. -/
def bankState (st : BankState) (v : VrdSt) : State :=
  { live5 ex5 with
    vrd := { v with banks := [(2, { Bank.reset with st := st, index := 5 })] }
    pln := { PlnSt.reset with s0 := { slot0 .live with plan := some planJobs } } }

/-- A template's state, published with and without a tag. -/
def tpl0 (gmac : Nat) : TplState :=
  { stNum := 1, sqNum := 0, spdu := 0, interval := 1, nextAt := 0, image := [],
    elem := leBytes 4 0 ++ leBytes 4 (0x00010000 + gmac), body := [] }

/-- A reduction of a line; a bank to keep, with and without an addendum that waits, and to clear; pins; a template with
and without a tag, without a key. -/
theorem witness_ReductionsBanksAndPins :
    (let s := bankState .reducing { VrdSt.reset with queue := [red0] }
     s.vrd.queue = red0 :: [] ∧ planAt s 0 = some planJobs ∧ (planSlot s 0).st ≠ .retiring ∧ (planSlot s 1).st ≠ .retiring ∧ (getBank s 2).index = 5 ∧ (planLines planJobs).length = 1 ∧
     (evalLines (planLines planJobs) (getBank s 2).cells).length = 1 ∧ getEx s 5 = some ex5) ∧
    (∀ l ∈ [[], [(⟨5, 0, 0, 0, 0#64⟩ : Lga)]],
     let s := bankState .keeping { VrdSt.reset with waitLga := l }
     (getBank s 2).st = .keeping ∧ (getBank s 2).index = 5 ∧ ex5.revision ≤ ex5.digested ∧ ex5.st ≠ .sealed ∧
     reviseLines planJobs ≠ [] ∧ (keepSet planJobs).contains 0 = true ∧ s.vrd.waitLga = l) ∧
    (let s := bankState .clearing VrdSt.reset
     (getBank s 2).st = .clearing ∧ s.vlt.waitOpen = []) ∧
    (let s : State := { State.reset with vrd := { VrdSt.reset with pulses := [(15, 0)] } }
     smFind s.vrd.pulses 15 = some 0 ∧ 0 ≤ s.raw) ∧
    (fld 0x0000FFFF#32 31 16 = 0 ∧ fld 0x80000000#32 31 16 ≠ 0) ∧
    (∀ g ∈ [0, 0x8000],
     let s : State := { State.reset with vrd := { VrdSt.reset with tpl := [(255, tpl0 g)] } }
     smFind s.vrd.tpl 255 = some (tpl0 g) ∧ (tpl0 g).nextAt ≤ s.raw ∧ (templateWith (tpl0 g).elem (tpl0 g).body).gmac = (g != 0) ∧
     keyUsable s 1 = false) := by decide +kernel

/-- A message from device 3 to device 2. -/
def hmsg0 (cls sub hops dst : Nat) (body : List Byte) : HMsg :=
  { hops := hops, flags := 0, cls := cls, dst := dst, src := 3, origin := 3, seq := 1, time := 10000000000, segs := 1, seg := 0,
    sub := sub, revision := 0, body := body }

def hmsgFrame (m : HMsg) : List Byte := List.replicate 12 0#8 ++ beBytes 2 0x88B5 ++ hmsgBytes State.reset m

/-- The link on as device 2, in a topology, with a frame of a message at the head of port 0. -/
def linkState (topo : Nat) (l : List (Nat × Nat)) (m : HMsg) : State :=
  rg ([(Reg.hshBase, 1), (Reg.hshEtype, 0x88B5), (Reg.hshId, 2), (Reg.hshCfg, topo * 1024), (Reg.hshPorts, 0x00000100)] ++ l)
    (parserState [] (hmsgFrame m))

/-- A record for device 3's exhibits. -/
def withOrigin3 (s : State) : State :=
  { s with acc := { s.acc with ident := (identInsert [] (accSeed s) 0 (rxKey ⟨List.replicate 16 0#8, 0, 14, [], false⟩ 3 3)).getD [] } }

def rows : List (Nat × Nat × Nat) :=
  [(1, 1, 0), (2, 1, 1), (3, 1, 2), (4, 2, 0), (5, 2, 1), (6, 3, 0), (7, 4, 0), (8, 5, 0), (9, 5, 1), (10, 5, 2)]

/-- A message of every row passes the tests, and its frame stands at the head. -/
theorem messages_pass : ∀ x ∈ rows, let m := hmsg0 x.2.1 x.2.2 1 2 (List.replicate 24 0#8)
    let s := linkState 0 [] m
    (getQ s 0).pkts = [pkt (hmsgFrame m)] ∧ s.dsp.heldLand = [] ∧ rowOf s (pkt (hmsgFrame m)) = x.1 ∧ enabled s 0xEC000 = true ∧
    (hiashOf s (hmsgFrame m)).map (fun f => (hmsgParse f.payload, hshFail s f.payload m true)) = some (m, none) ∧ s.twn.st = .off ∧
    hshOnline s = true ∧ mine s m = true ∧ treeUp s m = false ∧ hshTopo s = 0 ∧ m.origin ≠ hshId s ∧ m.dst = hshId s ∧
    m.flags.testBit 0 = false := by decide +kernel

theorem no_levels {s : State} (h0 : s.pln.s0.plan = some plan0) (h1 : s.pln.s1.plan = none) : ∀ k t, tourLevel s k t < 8 :=
  levels_low h0 h1

/-- Messages for this device and for others, in a tree and not; those that fail a test; relays refused and taken; a
trigger for an open record; an absence repeated, new and beyond the table; HELLO; the data of an exhibit. -/
theorem witness_MessagesAreTestedDeliveredAndRelayed :
    (∀ x ∈ rows, let m := hmsg0 x.2.1 x.2.2 1 2 (List.replicate 24 0#8)
      let s := linkState 0 [(Reg.hshBind 0, 0)] m
      originDup s (pkt (hmsgFrame m)) m = s ∧
      (hiashOf s (hmsgFrame m)) = some ⟨List.replicate 16 0#8, 0, 14, hmsgBytes State.reset m, false⟩ ∧
      (∀ k t, tourLevel s k t < 8) ∧ bit (getReg s (Reg.hshBind 0)) 31 = false ∧ bit (getReg s (Reg.hshBind 0)) 30 = false ∧
      s.hsh.hellos = []) ∧
    (let m := hmsg0 1 0 1 2 []
     let s := linkState 0 [(Reg.hshBase, 0), (0xEC000, 0)] m
     enabled s 0xEC000 = false ∧ hshFail s (hmsgBytes State.reset m) m true = some 8) ∧
    (let m := hmsg0 1 0 1 4 []
     mine (linkState 0 [] m) m = false ∧ hshTopo (linkState 0 [] m) = 0) ∧
    (∀ h ∈ [0, 1], ∀ r ∈ [[], [(3, 1, 1)]],
     let m := hmsg0 1 0 h 4 []
     let s : State := { linkState 1 [] m with hsh := { HshSt.reset with relayed := r } }
     mine s m = false ∧ hshTopo s ≠ 0 ∧ m.hops = h ∧ m.origin ≠ hshId s ∧ s.hsh.relayed.contains (3, 1, 1) = !r.isEmpty ∧
     relayPorts s 0 false ≠ []) ∧
    (let m := hmsg0 1 1 1 2 ([1#8] ++ List.replicate 23 0#8)
     let s : State := { linkState 0 [(Reg.capBase, 1), (Reg.capRemote, 0x01000000), (Reg.capSrcEn, 0x40), (Reg.capBus, 0)] m with
       cap := { CapSt.reset with st := .recording, cur := some capRec0 } }
     le m.body 0 1 % 16 &&& regFld s Reg.capRemote 27 24 ≠ 0 ∧ enabled s Reg.capBase = true ∧ regBit s Reg.capSrcEn 6 = true ∧
     s.cap.cur = some capRec0 ∧ s.cap.st ≠ .idle ∧ s.cap.st ≠ .halted ∧
     s.cap.lastEnd ≤ (if s.tim.valid then rawOfTai s (le m.body 4 8) else s.raw) ∧ regFld s Reg.capBus 31 28 = 0 ∧
     regFld s Reg.capRemote 15 8 = 0) ∧
    (let e : AbsEntry := ⟨0, 0, 0, 0, 3, 0, false, false, 0⟩
     let s : State := { State.reset with hsh := { HshSt.reset with abs := [(1023, e)] } }
     absFind s 0 0 = some (1023, e) ∧ absFind State.reset 0 0 = none ∧ absFree State.reset = some 0 ∧
     le [(0 : Byte), 0, 2] 2 1 % 4 = 2 ∧ State.reset.hsh.overEp = none ∧ e.last + absWindowNs { s with raw := 65535000000 } ≤ 65535000000) ∧
    (∀ n ∈ [0, 1], let o : Overflow := ⟨⟨2, 0, 0, 0, 3, 0, false, false, 0⟩, 0, n⟩
     let s : State := { State.reset with raw := 65535000000, hsh := { HshSt.reset with overEp := some o } }
     s.hsh.overEp = some o ∧ o.windowStart + absWindowNs s ≤ s.raw) ∧
    (∀ x ∈ [(2, 0), (3, 0)], let m := hmsg0 x.1 x.2 1 2 (List.replicate 24 0#8)
     let s := withOrigin3 (linkState 0 [] m)
     hmsgCrcBad (hmsgBytes State.reset m) = false ∧ hmsgAuthBad s m true = false ∧ le (hmsgBytes State.reset m) 0 1 = 1 ∧
     identFind s (rxKey ⟨List.replicate 16 0#8, 0, 14, [], false⟩ m.origin 3) = some 0 ∧ hmsgFits (hmsgBytes State.reset m) = true ∧
     le m.body 0 1 = fld (accFmt s 0) 22 16 ∧ le m.body 1 1 = fld (accFmt s 0) 15 11 ∧ m.body.length = 24 ∧
     rateTests s 0 (m.time : Int) = (500, 0) ∧ indexTests s 0 500 false true = 0 ∧ duplicate s 0 500 = false ∧
     s.tim.valid = true ∧ lapsePast s = s ∧ ratePlan s = some plan0) ∧
    (let m := hmsg0 2 0 1 2 []
     hmsgCrcBad ((hmsgBytes State.reset m).take 32 ++ List.replicate 4 0#8) = true ∧
     hmsgAuthBad (linkState 0 [(Reg.hshCfg, 0x00020000)] m) m true = true) ∧
    (let s := rg [(Reg.hshBase, 1), (Reg.hshUpId, 1), (Reg.hshCfg, 0)] State.reset
     s.hsh.helloAt = none ∧ hshTopo s = 0 ∧ hshUpId s = 1 ∧ hshOnline s = true ∧ hshTagOk s = true ∧ hshUpId State.reset = 0) ∧
    (let m := hmsg0 5 0 1 2 (List.replicate 24 0#8)
     let h : HelloRec := ⟨3, 9, 0, 0, [], 9999999999⟩
     let s : State := { linkState 0 [] m with hsh := { HshSt.reset with hellos := [h] } }
     s.hsh.hellos = [h] ∧ s.raw < h.heard + 3000000000 ∧ h.id = m.origin ∧ m.origin ≠ hshId s ∧ h.uid ≠ le m.body 0 8 ∧
     hshTagOk s = true ∧ originDup s (pkt (hmsgFrame m)) m = s) := by
  refine ⟨?_, by decide +kernel, by decide +kernel, by decide +kernel, by decide +kernel, ?_⟩
  rotate_left
  · exact ⟨by decide +kernel, by decide +kernel, by decide +kernel, by decide +kernel⟩
  have a : ∀ x ∈ rows, let m := hmsg0 x.2.1 x.2.2 1 2 (List.replicate 24 0#8)
      let s := linkState 0 [(Reg.hshBind 0, 0)] m
      originDup s (pkt (hmsgFrame m)) m = s ∧
      (hiashOf s (hmsgFrame m)) = some ⟨List.replicate 16 0#8, 0, 14, hmsgBytes State.reset m, false⟩ ∧
      bit (getReg s (Reg.hshBind 0)) 31 = false ∧ bit (getReg s (Reg.hshBind 0)) 30 = false ∧ s.hsh.hellos = [] := by decide +kernel
  exact fun x hx => ⟨(a x hx).1, (a x hx).2.1, no_levels rfl rfl, (a x hx).2.2.1, (a x hx).2.2.2.1, (a x hx).2.2.2.2⟩


/-! ## The archive engine and the twin pair -/

/-- The stream on over exhibit 5, as bus master, with registers beside. -/
def arcState (a : ArcSt) (l : List (Nat × Nat)) : State :=
  rg ([(Reg.arcBase, 1), (Reg.arcCfg, 0x80000004), (Reg.arcRingLen, 65536)] ++ l)
    { live5 ex5 with
      arc := a
      host := { HostSt.reset with busMaster := true } }

/-- A job over host memory: its operation, flags of word 0 and source length. -/
def jobSt (op flags src : Nat) : ArcSt :=
  { ArcSt.reset with
    jobOp := op
    jobSlot := 1
    job := [BitVec.ofNat 32 (op * 2 ^ 28 + 2 ^ 24 + flags), 0#32, 0#32, BitVec.ofNat 32 src, 4096#32, 0#32, 36864#32, 0#32] }

/-- The descriptor of a port for a job. -/
def portJob (op dst : Nat) : List (Nat × Nat) :=
  [(portReg 1 0xB0040, op * 2 ^ 28 + 2 ^ 24), (portReg 1 0xB004C, 36864), (portReg 1 0xB0058, dst)]

/-- A block to start in a run and at its start; to commit to each target, verified and not, held by the ring, by its key or by the
bus; jobs checked; jobs that end. -/
theorem witness_ArchiveBlocksAndHostJobs :
    (∀ n ∈ [0, 2], let s := arcState { ArcSt.reset with waiting := [5], runLeft := n } []
     s.arc.cur = none ∧ s.arc.waiting = [5] ∧ getEx s 5 = some ex5 ∧ planAt s ex5.slot = some plan0 ∧ arcStreamOn s = true) ∧
    (∀ x ∈ [(0, 0, true), (0, 65500, false), (1, 0, true), (2, 0, true)],
     let s := arcState { ArcSt.reset with cur := some 5 } [(Reg.arcCfg, 0x80000004 + x.1 * 2 ^ 29), (Reg.arcRingWp, 100), (Reg.arcRingRp, 101 * b2n (!x.2.2))]
     s.arc.cur = some 5 ∧ getEx s 5 = some ex5 ∧ ex5.index = 5 ∧ regBit s Reg.arcCfg 26 = false ∧ arcTarget s = x.1 ∧
     s.host.busMaster = true ∧ 37 ≤ arcRingLen s ∧ arcBlocked s 37 = !x.2.2 ∧ s.arc.ringWait = false ∧
     (streamCheck s [0, 0, 0, 0xFF, 0xFF] false).1 = true ∧ (streamCheck s [0xFF] false).1 = false) ∧
    (let s := arcState { ArcSt.reset with cur := some 5 } [(Reg.arcCfg, 0x84000004)]
     regBit s Reg.arcCfg 26 = true ∧ keyUsable s 4 = false) ∧
    (∀ x ∈ [1, 2, 3, 4], ∀ d ∈ [36864, 0], ∀ r ∈ [0, 1],
     let s := arcState ArcSt.reset (portJob x d ++ [(Reg.arcJobOpstat, r * 0x10000000)])
     let ws := (List.range 8).map (fun k => getReg s (portReg 1 (0xB0040 + 4 * k)))
     portJobOp s 1 = x ∧ portJobOp s 0 ≠ x ∧ opRunning s Reg.arcJobOpstat = decide (r = 1) ∧
     arcJobCheck { s with arc := { s.arc with job := ws, jobPort := 1, jobOp := x, jobSlot := 1 } } =
       if d = 0 ∧ x ≠ 4 then 4 else 0) ∧
    (∀ x ∈ [1, 2, 3, 4], let s := arcState (jobSt x (2 ^ 22) 1) [(Reg.arcJobOpstat, 0x10000000)]
     opRunning s Reg.arcJobOpstat = true ∧ s.host.busMaster = true ∧ 1 ≤ s.arc.jobOp ∧ s.arc.jobOp ≤ 4 ∧ bit (jobW s 0) 17 = false ∧
     bit (jobW s 0) 20 = false ∧ bit (jobW s 0) 23 = false) ∧
    (let s := arcState (jobSt 2 (2 ^ 22) 1) []
     (∀ y ∈ [([(7 : Byte)], some 0x11), ([1, 0, 0, 0xFF, 0xFF], none)],
       let x0 := infLoad { ArcSlot.reset with op := 2, zlib := false } y.1 36864 (if guardOn s then some (regFld s Reg.arcGuard 10 0) else none)
       (match (infRun (infFuel x0) x0).1 with | .err c => some c | .stop => none | _ => some 0) = y.2)) ∧
    (let s := arcState (jobSt 1 (2 ^ 22) 0) []
     let emit := bitsOfBytes [1, 0, 0, 0xFF, 0xFF]
     let r := arcVerify { { ArcSlot.reset with op := 1 } with bits := [] } 0 emit 1
     (match r.1 with | .err _ => false | _ => true) = true ∧ r.2.out.reverse = [] ∧ r.2.bits = [] ∧ r.2.st = .ended ∧
     5 ≤ (jobW s 6).toNat ∧ (match (arcVerify { ArcSlot.reset with op := 1 } 0 (bitsOfBytes [7]) 1).1 with | .err _ => true | _ => false) = true) := by
  refine ⟨by decide +kernel, by decide +kernel, by decide +kernel, ?_⟩
  exact ⟨by decide +kernel, by decide +kernel⟩


/-- The link as device 2, TWN on with partner 3, in a twin state, with a message of the partner at the head of port 0. -/
def twinState (t : TwnSt) (sub : Nat) (body : List Byte) : State :=
  { linkState 0 [(Reg.twnBase, 1), (Reg.twnPartnerId, 3), (Reg.hshUpId, 1)] (hmsg0 6 sub 1 2 body) with twn := t }

/-- A standby that has heard its partner. -/
def standby0 : TwnSt :=
  { TwnSt.reset with st := .standby, plansEqual := true, partnerUid := some 9, partnerPlans := (0, 7), seqRx := some 1,
                     own := [(500 * 256, 4), (501 * 256, 3)] }

/-- Row of Table 18.3, subtype and body: HELLO, LAND, MARK in its three forms, JOB, CTRL in its four, DIGEST, TAKEN. -/
def twinRows : List (Nat × Nat × List Byte) :=
  [(11, 0, leBytes 4 0 ++ leBytes 8 9 ++ leBytes 4 7 ++ leBytes 4 0 ++ leBytes 4 5),
   (12, 1, leBytes 8 500 ++ List.replicate 24 0#8),
   (13, 2, leBytes 8 501 ++ leBytes 4 0), (13, 2, leBytes 8 500 ++ leBytes 4 0x201), (13, 2, leBytes 8 500 ++ leBytes 4 2),
   (14, 3, leBytes 4 (3 * 2 ^ 21) ++ leBytes 4 0),
   (15, 4, leBytes 4 1 ++ leBytes 4 1 ++ leBytes 4 (recordCrc (linkState 0 [] (hmsg0 6 4 1 2 [])) 1)),
   (15, 4, leBytes 4 2 ++ leBytes 4 0 ++ leBytes 4 0), (15, 4, leBytes 4 3 ++ leBytes 4 1 ++ leBytes 4 0),
   (15, 4, leBytes 4 4 ++ leBytes 4 1 ++ leBytes 8 600),
   (16, 5, leBytes 8 500 ++ leBytes 4 0 ++ leBytes 8 3), (17, 6, leBytes 8 9)]

/-- A message of every form passes the tests in every role, with its SEQ the next and with a gap. -/
theorem twin_messages_pass : ∀ x ∈ twinRows, let m := hmsg0 6 x.2.1 1 2 x.2.2
    ∀ t ∈ [standby0, { standby0 with synced := true, seqRx := some 0 }, { standby0 with st := .active },
      { standby0 with st := .taking }, { standby0 with st := .off }],
    let s := twinState t x.2.1 x.2.2
    (getQ s 0).pkts = [pkt (hmsgFrame m)] ∧ s.dsp.heldLand = [] ∧ rowOf s (pkt (hmsgFrame m)) = x.1 ∧ enabled s 0xEC000 = true ∧
    (hiashOf s (hmsgFrame m)) = some ⟨List.replicate 16 0#8, 0, 14, hmsgBytes State.reset m, false⟩ ∧
    m = hmsgParse (hmsgBytes State.reset m) ∧ hshFail s (hmsgBytes State.reset m) m true = none ∧ hshOnline s = true ∧ mine s m = true ∧
    originDup s (pkt (hmsgFrame m)) m = s ∧ m.cls = 6 ∧
    fromPartner s m = true ∧ twnOn s = true ∧ s.twn = t ∧ m.seq = 1 ∧ t.gapStart ≤ 0 := by decide +kernel

/-- A gap in SEQ and a failed test lose sync; what each message of the stream needs of a standby; TAKEN, HELLO, takeover and its end,
the heartbeat, deferral and DEMOTE. -/
theorem witness_TwinReplaysAndTakesOver :
    (∀ t k j, tourLevel (twinState t 1 []) k j < 8) ∧
    (let t := { standby0 with synced := true, seqRx := some 0 }
     t.st = .standby ∧ t.synced = true ∧ t.seqRx = some 0 ∧ (0 : Nat) ≠ 1 ∧
     (hshFail (twinState t 1 []) ((hmsgBytes State.reset (hmsg0 6 1 1 2 [])).take 32 ++ List.replicate 4 0#8)
       (hmsg0 6 1 1 2 []) true).isSome = true) ∧
    (let s := twinState standby0 1 (leBytes 8 500 ++ List.replicate 24 0#8)
     let x := { ex5 with index := 500, slots := [], presMask := 0 }
     getEx s 500 = some x ∧ x.st = .opened ∧ planAt s 0 = some plan0 ∧ mapSlot plan0 0 = some (0, 1) ∧ landed x 0 = false ∧
     (newPages x 0 1).length ≤ s.vlt.general ∧ x.sealCond = false ∧ getEx s 501 = none ∧ governing s 501 = some 0 ∧
     openLack s true = none ∧ s.twn.st = .standby ∧ s.twn.seqRx = some 1 ∧ tourLevel s 0 (bindTour s 0) = 3 ∧
     levelOpen s 3 = false ∧ levelOpen (rg [(Reg.dspBase, 1), (Reg.dspQuota 3, 1)] s) 3 = true) ∧
    (let w := le (leBytes 4 (3 * 2 ^ 21) ++ leBytes 4 0) 0 4
     3 ≤ w / 2 ^ 21 % 8 ∧ w / 2 ^ 21 % 8 ≤ 5) ∧
    (let s : State := { twinState standby0 4 [] with
       acc := { AccSt.reset with seq := 1, entries := [(0, { AccEntry.reset with st := .live })] } }
     (getAcc s 1).st = .vacant ∧ recordCrc s 1 = recordCrc (linkState 0 [] (hmsg0 6 4 1 2 [])) 1 ∧ accIsEnabled (getAcc s 0) = true ∧
     s.vlt.ex.any (fun x => x.2.openSeq < s.acc.seq && x.2.st != .sealed) = true) ∧
    (let s : State := { twinState standby0 4 [] with pln := { PlnSt.reset with s1 := slot0 .loaded } }
     planAt s 1 = some plan0 ∧ (planSlot s 1).st = .loaded ∧ slotActive s 0 = false ∧ plan0.planId = s.twn.partnerPlans.2) ∧
    (∀ x ∈ [(500, 4), (501, 3)], smFind standby0.own (digestKey x.1 0) = some x.2) ∧
    standby0.partnerUid = some (le (leBytes 8 9) 0 8) ∧ hshTagOk (twinState standby0 0 []) = true ∧
    (let s : State := { exState ex5 101000000 with twn := { TwnSt.reset with st := .taking } }
     s.twn.st = .taking ∧ intakeClosed s = true ∧ s.twn.deferred = [] ∧ s.tim.valid = true ∧ getEx s 5 = some ex5 ∧
     timeReached s (closingTime plan0 5) = true) ∧
    (let s : State := { State.reset with twn := { TwnSt.reset with st := .standby, synced := true } }
     twinFit s = true ∧ s.twn.hbAt + 1000 * regFld s Reg.twnTiming 31 16 ≤ 65535000 ∧ twinFit State.reset = false ∧
     ({ s with raw := 65535000 } : State).twn.st = .standby) := by
  refine ⟨fun t k j => no_levels rfl rfl k j, by decide +kernel, ?_⟩
  refine ⟨by decide +kernel, by decide +kernel, ?_⟩
  exact ⟨by decide +kernel, by decide +kernel⟩

/-- The state of the gap above is well-formed. -/
theorem witness_TakeoverGap_wf : ({ exState ex5 101000000 with twn := { TwnSt.reset with st := .taking } } : State).wf :=
  ⟨rfl, rfl, rfl, rfl, rfl, rfl, by decide, by unfold vcoreOk; decide, by unfold vcoreOk; decide, by decide, rfl⟩


/-! ## Supplies, resets, start-up and power states -/

/-- The machine in a power state, with registers beside. -/
def pwrState (x : PwrSt) (raw : Nat) (l : List (Nat × Nat)) : State := rg l { State.reset with pwr := x, raw := raw }

def inputs0 (vsys last : Nat) : StartInputs :=
  { vmain := 12000, vback := 12000, vsys := vsys, refSel := false, pufOk := true, pufBits := 0, mramOk := true, crcBad := false,
    railOk := true, speed := 0, width := 0, calPts := [], refLock := true, durs := [], last := last }

def dip0 : Dip := { start := 0, repeats := 0, total := 0, longest := 0, lowest := 0, lastEnd := 0 }

/-- A loss of the main supply and its return, in KEEP too; a warning that starts, goes on and ends, with a dip that goes on and
one that ends; the resets; steps of the ladder; boot records. -/
theorem witness_SuppliesResetsAndStart :
    (let s := pwrState PwrSt.reset 0 []
     s.pwr.onBackup = false ∧ 9000 < vWarn s + 400 ∧ vWarn s + 400 ≤ 12000 ∧ s.pwr.warn = false ∧ 9000 < vWarn s ∧
     vWarn s ≤ 12000 ∧ s.pwr.st ≠ .keep) ∧
    (let s := pwrState { PwrSt.reset with onBackup := true, mainGood := some 0, vback := 12000 } 16383000000 []
     s.pwr.onBackup = true ∧ 0 + 1000000 * regFld s Reg.pwrCfg 13 0 ≤ s.raw ∧ vWarn s + 800 ≤ 12000 ∧ vWarn s + 400 ≤ s.pwr.vback) ∧
    (let s := pwrState { PwrSt.reset with onBackup := true, mainGood := some 0, st := .keep, keepBackup := true } 16383000000 []
     s.pwr.st = .keep ∧ s.pwr.keepBackup = true ∧ s.pwr.trans = none) ∧
    (∀ d ∈ [0, 100000001], let s := pwrState { PwrSt.reset with warn := true, brace := true, warnStart := d, dip := some dip0 } 200000001 []
     s.pwr.warn = true ∧ s.pwr.brace = true ∧ vWarn s + 200 < 12000 ∧ s.pwr.dip = some dip0 ∧
     dip0.lastEnd + 100000000 ≤ s.raw ∧ decide (dip0.lastEnd + 100000000 < s.pwr.warnStart) = decide (d ≠ 0)) ∧
    ((125 * 256 : Int) ≤ toSigned 16 32000 ∧ toSigned 16 0 < (125 * 256 : Int) ∧ State.reset.pwr.st ≠ .off ∧
     State.reset.host.vio.testBit 2 = true ∧
     ({ State.reset.host with vio := 0 } : HostSt).vio.testBit 2 = false) ∧
    (∀ n ∈ [1, 5, 10], let s := pwrState { PwrSt.reset with ladder := n } 0 [(Reg.pwrStartOpstat, 0x10000000)]
     opRunning s Reg.pwrStartOpstat = true ∧ 1 ≤ s.pwr.ladder ∧ s.pwr.ladder ≤ 10 ∧ (inputs0 12000 n).last = s.pwr.ladder ∧
     s.pwr.warn = false) ∧
    (opState (pwrState PwrSt.reset 0 [(Reg.pwrStartOpstat, 0)]) Reg.pwrStartOpstat = 0 ∧ 9200 ≤ (inputs0 12000 1).vsys ∧
     (inputs0 12000 1).last = 1 ∧ (inputs0 9000 1).vsys < 9200) ∧
    (∀ r ∈ [0, 1], let s := pwrState PwrSt.reset 0 [(Reg.pwrBootrecOpstat, r * 0x10000000)]
     s.pwr.st ≠ .nap ∧ s.pwr.trans ≠ some .nap ∧ opRunning s Reg.pwrBootrecOpstat = decide (r = 1)) ∧
    (let b := leBytes 4 1 ++ leBytes 4 0 ++ leBytes 4 3
     let s : State := { pwrState PwrSt.reset 0 [(Reg.pwrBootrecOpstat, 0x10000000), (Reg.pwrBootrecLen, 16)] with
       host := { HostSt.reset with busMaster := true } }
     opRunning s Reg.pwrBootrecOpstat = true ∧ s.host.busMaster = true ∧
     bootParse (padTo (regFld s Reg.pwrBootrecLen 14 0) (b ++ leBytes 4 (crc32c b))) = some ⟨1, 3, []⟩ ∧
     bootParse (padTo (regFld s Reg.pwrBootrecLen 14 0) b) = none) := by
  refine ⟨by decide +kernel, by decide +kernel, by decide +kernel, ?_⟩
  exact ⟨by decide +kernel, by decide +kernel⟩

/-- A deadline of the host so far ahead. -/
def dueState (x : PwrSt) (ns : Nat) (l : List (Nat × Nat)) : State := pwrState x 0 ((Reg.pwrHostNext 0, ns) :: l)

/-- An idle machine with a deadline near, at some distance, far and none, with NAP allowed and KEEP blocked and not; requests
refused and taken; wake events; transitions that end, from KEEP and to it; gates held and free. -/
theorem witness_PowerStatesFollowEventsAndRequests :
    (∀ x ∈ [(19999, 0), (20000, 0x40000000), (2000000, 0), (2000001, 0x40000000), (2000001, 0)],
     let s := dueState PwrSt.reset x.1 [(Reg.pwrCfg, x.2)]
     s.pwr.st ≠ .nap ∧ s.pwr.trans = none ∧ isAwake s = true ∧ coreIdle s = true ∧ s.pwr.warn = false ∧ s.pwr.napOff = false ∧
     regBit s Reg.pwrCfg 30 = decide (x.2 ≠ 0) ∧ nextDelta s = some x.1 ∧ keepBlock (keepEvaluate s) ≠ 0) ∧
    (let s := pwrState PwrSt.reset 0 [(Reg.pwrCfg, 0x80000000)]
     s.pwr.st ≠ .nap ∧ s.pwr.trans = none ∧ isAwake s = true ∧ coreIdle s = true ∧ s.pwr.warn = false ∧ nextDelta s = none ∧
     keepBlock (keepEvaluate s) = 0) ∧
    (let s := pwrState { PwrSt.reset with warn := true } 0 []
     s.pwr.st ≠ .nap ∧ s.pwr.trans = none ∧ isAwake s = true ∧ s.pwr.warn = true) ∧
    (let s := pwrState { PwrSt.reset with st := .keep } 5 [(Reg.pwrKeepWake 0, 5)]
     s.pwr.st = .keep ∧ s.pwr.trans = none ∧ s.pwr.pendReq = none ∧
     getReg64 s (Reg.pwrKeepWake 0) (Reg.pwrKeepWake 1) ≠ 0 ∧ getReg64 s (Reg.pwrKeepWake 0) (Reg.pwrKeepWake 1) ≤ s.raw) ∧
    (let s := pwrState { PwrSt.reset with st := .nap } 0 []
     s.pwr.st = .nap ∧ ¬ (State.reset.pwr.st = .nap ∨ State.reset.pwr.trans = some .nap ∨ State.reset.pwr.st = .keep ∨
       State.reset.pwr.trans = some .keep)) ∧
    (∀ x ∈ [(PState.nap, 10000), (.keep, 602000)],
     let s := dueState { PwrSt.reset with st := x.1 } x.2 []
     nextDelta s = some x.2 ∧ isAsleep s = true ∧ s.pwr.trans = none ∧ x.2 ≤ (if s.pwr.st = .keep then 602000 else 10000) ∧
     s.pwr.pendReq = none) ∧
    (∀ x ∈ [PState.nap, .keep, .run], ∀ l ∈ [0, 0x10000000, 0x08000000],
     let s := pwrState { PwrSt.reset with st := if x = .run then .keep else .run, trans := some x } 0 [(Reg.pwrCfg, l)]
     s.pwr.wakeAfter = false ∧ s.pwr.pendReq = none ∧ s.pwr.trans = some x ∧ compatMode s = decide (l = 0x10000000) ∧
     regBit s Reg.pwrCfg 27 = decide (l = 0x08000000)) ∧
    (∀ r ∈ [0, 1], let s := pwrState PwrSt.reset 0 [(Reg.arcBase, r)]
     s.pwr.st ≠ .nap ∧ s.pwr.trans ≠ some .nap ∧
     (bitList 14 ((0x3F1F : Nat) &&& gateBits s)).any (fun i => (gatePages i).any (enabled s)) = decide (r = 1) ∧
     (getReg s Reg.pwrGate).toNat = 0 ∧
     (∀ p, p < 6 → (getPort s p).rx = none ∧ (getPort s p).express = none ∧ (getPort s p).part = none)) := by
  refine ⟨by decide +kernel, by decide +kernel, by decide +kernel, ?_⟩
  exact ⟨by decide +kernel, by decide +kernel, by decide +kernel, by decide +kernel, by decide +kernel⟩


/-- A VLDD and a VLDV of another exhibit, which has had its close event. -/
theorem witness_GathersFromAClosedExhibit : ∀ x ∈ [(0xC0000300, 8), (0xC4000300, 32)],
    let y := { ex5 with st := .closed }
    let s : State := { docState ctx6 x.1 with vlt := { VltSt.reset with ex := [(5, y)] } }
    AtWord s 0 ctx6 x.1 5 ∧ MayGather s ctx6 x.1 x.2 y ∧ ¬ namesOwn ctx6 x.1 ∧ y.st ≠ .opened ∧ y.st ≠ .closing := by
  intro x hx
  have h := witness_VaultGathersReadWhatLanded.2 x hx
  have k : namedExhibit ctx6 x.1 = 5 := by clear h; revert x; decide
  obtain ⟨p, o, len, hp, hm, hl⟩ := h.2.1.slot
  exact ⟨⟨h.1.slot, trivial, h.1.pc, h.1.word, h.1.defined_, h.1.budget⟩,
    ⟨h.2.1.range, by rw [k]; rfl, by decide, h.2.1.acc, ⟨p, o, len, hp, hm, hl⟩⟩, h.2.2, by decide, by decide⟩

end Sys2Proof.Tests
end

section
/-! Pace windows (02_pace.md, R55–R67): the lemmas that settle O30. -/

namespace Sys2Proof.Machine

/-! ### Single bits of a word -/

theorem bit_eq_getLsbD {n : Nat} (w : BitVec n) (i : Nat) : bit w i = w.getLsbD i := rfl

theorem getLsbD_ofNat_one_shiftLeft (n i j : Nat) :
    (BitVec.ofNat n (1 <<< i)).getLsbD j = (decide (j < n) && decide (i = j)) := by
  rw [BitVec.getLsbD_ofNat, Nat.one_shiftLeft, Nat.testBit_two_pow]

theorem bit_setBit {n : Nat} (w : BitVec n) (i j : Nat) (b : Bool) (h : i < n) :
    bit (setBit w i b) j = if j = i then b else bit w j := by
  unfold setBit
  rw [bit_eq_getLsbD, bit_eq_getLsbD]
  by_cases e : j = i
  · subst e
    cases b <;> simp [-BitVec.getLsbD_eq_getElem, getLsbD_ofNat_one_shiftLeft, h]
  · have e' : ¬ i = j := Ne.symm e
    cases b
    · simpa [getLsbD_ofNat_one_shiftLeft, e, e'] using BitVec.lt_of_getLsbD
    · simp [getLsbD_ofNat_one_shiftLeft, e, e']

/-- A field is its bits. -/
theorem fld_congr {n : Nat} {v w : BitVec n} {hi lo : Nat} (h : ∀ j, lo ≤ j → j ≤ hi → bit v j = bit w j) :
    fld v hi lo = fld w hi lo := by
  apply Nat.eq_of_testBit_eq
  intro i
  unfold fld
  rw [Nat.testBit_mod_two_pow, Nat.testBit_mod_two_pow, Nat.testBit_shiftRight, Nat.testBit_shiftRight]
  by_cases hi' : i < hi + 1 - lo
  · have e : v.toNat.testBit (lo + i) = w.toNat.testBit (lo + i) := h (lo + i) (by omega) (by omega)
    rw [e]
  · simp [hi']

theorem regBit_setReg_setBit (s : State) (a : Nat) (b : Bool) (i j : Nat) (h : i < 32) :
    regBit (setReg s a (setBit (getReg s a) i b)) a j = if j = i then b else regBit s a j := by
  unfold regBit
  rw [getReg_setReg_self, bit_setBit _ _ _ _ h]

theorem SameRegs.regBit {l : List Nat} {s t : State} (h : SameRegs l s t) {a : Nat} (i : Nat) (ha : a ∉ l) :
    regBit t a i = regBit s a i := by
  unfold Machine.regBit
  rw [h a ha]

theorem sameRegs_bumpBy (s : State) (a n : Nat) : SameRegs (a :: (blkBase a + 4) :: sideRegs) s (bumpBy s a n) := by
  unfold bumpBy
  extract_lets v
  refine SameRegs.ite (SameRegs.refl _ _) (SameRegs.ite ?_ ((sameRegs_setRegN s a _).mono (by simp)))
  exact ((sameRegs_setRegN s a _).mono (by simp)).trans (sameRegs_bump _ _) (by simp)

/-! ### The measurement (R55) -/

/-- The pace of ring k from the steps counted over a window of `us` µs. -/
def ringPaceAt (counts : List Nat) (us k : Nat) : Nat :=
  ringPace (match counts[k]? with | some c => c | none => 0) us

/-- The lowest of the first n values, starting from the largest a pace register holds. -/
def lowestOf (p : Nat → Nat) (n : Nat) : Nat := (List.range n).foldl (fun m k => Nat.min m (p k)) 0xFFFFFFFF

/-- The pace registers of the first n rings set. -/
def ringsStored (s : State) (p : Nat → Nat) (n : Nat) : State :=
  (List.range n).foldl (fun s k => setRegN s (Reg.pceRingPace k) (p k)) s

theorem ringPaceAt_le (counts : List Nat) (us k : Nat) : ringPaceAt counts us k ≤ 0xFFFFFFFF := Nat.min_le_left _ _

theorem lowestOf_succ (p : Nat → Nat) (n : Nat) : lowestOf p (n + 1) = Nat.min (lowestOf p n) (p n) := by
  simp [lowestOf, List.range_succ]

theorem lowestOf_le_start (p : Nat → Nat) (n : Nat) : lowestOf p n ≤ 0xFFFFFFFF := by
  induction n with
  | zero => exact Nat.le_refl _
  | succ n ih => exact lowestOf_succ p n ▸ Nat.le_trans (Nat.min_le_left _ _) ih

theorem lowestOf_le (p : Nat → Nat) (n : Nat) : ∀ k, k < n → lowestOf p n ≤ p k := by
  induction n with
  | zero => intro k h; omega
  | succ n ih =>
    intro k h
    rw [lowestOf_succ]
    rcases Nat.lt_succ_iff_lt_or_eq.1 h with h | rfl
    · exact Nat.le_trans (Nat.min_le_left _ _) (ih k h)
    · exact Nat.min_le_right _ _

/-- The lowest of some values that registers can hold is one of them. -/
theorem lowestOf_attained (p : Nat → Nat) (hp : ∀ k, p k ≤ 0xFFFFFFFF) (n : Nat) :
    ∃ k, k < n + 1 ∧ lowestOf p (n + 1) = p k := by
  induction n with
  | zero => exact ⟨0, Nat.one_pos, by rw [lowestOf_succ]; exact Nat.min_eq_right (hp 0)⟩
  | succ n ih =>
    obtain ⟨k, hk, e⟩ := ih
    rw [lowestOf_succ]
    rcases Nat.le_total (lowestOf p (n + 1)) (p (n + 1)) with h | h
    · exact ⟨k, by omega, (Nat.min_eq_left h).trans e⟩
    · exact ⟨n + 1, by omega, Nat.min_eq_right h⟩

theorem ringsStored_succ (s : State) (p : Nat → Nat) (n : Nat) :
    ringsStored s p (n + 1) = setRegN (ringsStored s p n) (Reg.pceRingPace n) (p n) := by
  simp [ringsStored, List.range_succ]

theorem getReg_ringsStored (s : State) (p : Nat → Nat) (n : Nat) :
    ∀ k, k < n → getReg (ringsStored s p n) (Reg.pceRingPace k) = BitVec.ofNat 32 (p k) := by
  induction n with
  | zero => intro k h; omega
  | succ n ih =>
    intro k h
    rw [ringsStored_succ]
    rcases Nat.lt_succ_iff_lt_or_eq.1 h with h | rfl
    · rw [getReg_setRegN_ne _ _ _ _ (by simp; omega), ih k h]
    · exact getReg_setRegN_self _ _ _

/-- No ring's register is in a list that does not hold the 20. -/
theorem pceRingPace_notin {l : List Nat} (k : Nat) (h : k < 20) (hl : ∀ k, k < 20 → Reg.pceRingPace k ∉ l := by decide) :
    Reg.pceRingPace k ∉ l := hl k h

/-- The registers a measurement sets. -/
def measureRegs : List Nat := Reg.pcePaceNow :: Reg.pcePaceMin :: (List.range 20).map Reg.pceRingPace

theorem sameRegs_ringsStored (s : State) (p : Nat → Nat) : SameRegs measureRegs s (ringsStored s p 20) :=
  SameRegs.foldl (SameRegs.refl _ _) fun x k hk h => h.trans (sameRegs_setRegN x _ _) fun a ha => by
    rw [List.mem_singleton.1 ha]
    exact List.mem_cons_of_mem _ (List.mem_cons_of_mem _ (List.mem_map_of_mem hk))

/-- The rings, then PCE_PACE_NOW. -/
def paceStored (s : State) (p : Nat → Nat) : State := setRegN (ringsStored s p 20) Reg.pcePaceNow (lowestOf p 20)

/-- Beside the rings and PCE_PACE_NOW a measurement sets at most PCE_PACE_MIN. -/
theorem sameRegs_setRings_of_paceStored (s : State) (counts : List Nat) (us : Nat) :
    SameRegs [Reg.pcePaceMin] (paceStored s (ringPaceAt counts us)) (setRings s counts us) := by
  have e : setRings s counts us = (if lowestOf (ringPaceAt counts us) 20 <
        (getReg (paceStored s (ringPaceAt counts us)) Reg.pcePaceMin).toNat
      then setRegN (paceStored s (ringPaceAt counts us)) Reg.pcePaceMin (lowestOf (ringPaceAt counts us) 20)
      else paceStored s (ringPaceAt counts us)) := by
    unfold setRings paceStored ringsStored lowestOf ringPaceAt
    rfl
  rw [e]
  exact SameRegs.ite (sameRegs_setRegN _ _ _) (SameRegs.refl _ _)

theorem sameRegs_setRings (s : State) (counts : List Nat) (us : Nat) : SameRegs measureRegs s (setRings s counts us) :=
  ((sameRegs_ringsStored s _).trans (sameRegs_setRegN _ _ _) (by simp [measureRegs])).trans
    (sameRegs_setRings_of_paceStored s counts us) (by simp [measureRegs])

theorem getReg_setRings_ring (s : State) (counts : List Nat) (us k : Nat) (h : k < 20) :
    getReg (setRings s counts us) (Reg.pceRingPace k) = BitVec.ofNat 32 (ringPaceAt counts us k) := by
  rw [sameRegs_setRings_of_paceStored s counts us _ (pceRingPace_notin k h), paceStored,
    getReg_setRegN_ne _ _ _ _ (List.ne_of_not_mem_cons (pceRingPace_notin (l := [_]) k h)), getReg_ringsStored _ _ _ k h]

theorem getReg_setRings_now (s : State) (counts : List Nat) (us : Nat) :
    getReg (setRings s counts us) Reg.pcePaceNow = BitVec.ofNat 32 (lowestOf (ringPaceAt counts us) 20) := by
  rw [sameRegs_setRings_of_paceStored s counts us _ (by decide), paceStored, getReg_setRegN_self]

theorem sameRegs_setTj (s : State) (tj : Nat) : SameRegs [Reg.pceTj, Reg.logTjMax] s (setTj s tj) := by
  unfold setTj
  extract_lets x
  have hx : SameRegs [Reg.pceTj, Reg.logTjMax] s x := (sameRegs_setRegN s _ _).mono (by simp)
  exact SameRegs.ite (hx.trans (sameRegs_setRegN _ _ _) (by simp)) hx

/-- The state that holds the measurement of a window: the rings' pace and Tj. -/
def windowMeasured (s : State) (counts : List Nat) (tj : Nat) : State := setTj (setRings s counts (windowUs s)) tj

theorem keeps_windowMeasured (s : State) (counts : List Nat) (tj : Nat) : Keeps 1 s (windowMeasured s counts tj) :=
  (keeps_setRings s counts _).trans (keeps_setTj _ tj)

theorem sameRegs_windowMeasured (s : State) (counts : List Nat) (tj : Nat) :
    SameRegs (Reg.pceTj :: Reg.logTjMax :: measureRegs) s (windowMeasured s counts tj) :=
  ((sameRegs_setRings s counts _).mono (by simp +contextual)).trans (sameRegs_setTj _ tj) (by simp)

theorem getReg_windowMeasured_ring (s : State) (counts : List Nat) (tj k : Nat) (h : k < 20) :
    getReg (windowMeasured s counts tj) (Reg.pceRingPace k) = BitVec.ofNat 32 (ringPaceAt counts (windowUs s) k) :=
  (sameRegs_setTj _ tj _ (pceRingPace_notin k h)).trans (getReg_setRings_ring s counts _ k h)

/-- PCE_PACE_NOW after a measurement is the lowest of the 20 rings. -/
theorem windowMeasured_now (s : State) (counts : List Nat) (tj : Nat) :
    (getReg (windowMeasured s counts tj) Reg.pcePaceNow).toNat = lowestOf (ringPaceAt counts (windowUs s)) 20 := by
  have e : getReg (windowMeasured s counts tj) Reg.pcePaceNow = BitVec.ofNat 32 (lowestOf (ringPaceAt counts (windowUs s)) 20) :=
    (sameRegs_setTj _ tj _ (by decide)).trans (getReg_setRings_now s counts _)
  have h := lowestOf_le_start (ringPaceAt counts (windowUs s)) 20
  rw [e, BitVec.toNat_ofNat, Nat.mod_eq_of_lt (by omega)]

/-! ### The voltage controller (R62) -/

@[simp] theorem windowEnds_regs (s : State) (us : Nat) : (windowEnds s us).regs = s.regs := by unfold windowEnds; split <;> rfl
@[simp] theorem windowEnds_pwr (s : State) (us : Nat) : (windowEnds s us).pwr = s.pwr := by unfold windowEnds; split <;> rfl
@[simp] theorem windowEnds_edge (s : State) (us : Nat) : (windowEnds s us).pce.edge = s.pce.edge := by
  unfold windowEnds; split <;> rfl
@[simp] theorem windowEnds_vcore (s : State) (us : Nat) : (windowEnds s us).pce.vcore = s.pce.vcore := by
  unfold windowEnds; split <;> rfl
@[simp] theorem windowEnds_cap (s : State) (us : Nat) : (windowEnds s us).pce.cap = s.pce.cap := by
  unfold windowEnds; split <;> rfl

@[simp] theorem paceEdgeEval_regs (s : State) : (paceEdgeEval s).regs = s.regs := windowEnds_regs _ _
@[simp] theorem paceEdgeEval_pwr (s : State) : (paceEdgeEval s).pwr = s.pwr := windowEnds_pwr _ _
@[simp] theorem paceEdgeEval_edge (s : State) : (paceEdgeEval s).pce.edge = paceEdge s := windowEnds_edge _ _
@[simp] theorem paceEdgeEval_vcore (s : State) : (paceEdgeEval s).pce.vcore = s.pce.vcore := windowEnds_vcore _ _
@[simp] theorem paceEdgeEval_cap (s : State) : (paceEdgeEval s).pce.cap = s.pce.cap := windowEnds_cap _ _

/-- The set-point R62 gives from a pace, the lower edge, HEADROOM, the set-point and the cap. -/
def vcoreNext (now edge head vcore cap : Nat) : Nat :=
  if now < edge ∧ vcore < 1700 ∧ vcore < cap then vcore + 5
  else if edge * (100 + head) < now * 100 ∧ 1200 < vcore then vcore - 5
  else if cap < vcore then vcore - 5
  else vcore

/-- HEADROOM as the controller takes it: 0 in TRIM. -/
def headroom (s : State) : Nat := if s.pwr.st = .trim then 0 else regFld s Reg.pceCfg 13 8

theorem vcoreStep_pce (s : State) (now : Nat) : (vcoreStep s now).pce =
    { s.pce with vcore := vcoreNext now s.pce.edge (headroom s) s.pce.vcore s.pce.cap } := by
  simp only [vcoreStep, showVcore, vcoreNext, canRaise, aboveUpper, headroom, setReg_pce, setRegN_pce, Bool.and_eq_true,
    decide_eq_true_eq]
  rfl

theorem sameRegs_showVcore (s : State) : SameRegs [Reg.pceVcoreNow, Reg.pceStatus] s (showVcore s) :=
  ((sameRegs_setRegN s _ _).mono (by simp)).trans (sameRegs_setReg _ _ _) (by simp)

theorem getReg_showVcore_now (s : State) : getReg (showVcore s) Reg.pceVcoreNow = BitVec.ofNat 32 (s.pce.vcore / 2) :=
  (getReg_setReg_ne _ _ _ _ (by decide)).trans (getReg_setRegN_self _ _ _)

/-- AT_CAP is the only bit of PCE_STATUS that follows the set-point. -/
theorem regBit_showVcore_status (s : State) {j : Nat} (h : j ≠ 1) :
    regBit (showVcore s) Reg.pceStatus j = regBit s Reg.pceStatus j :=
  (regBit_setReg_setBit _ _ _ _ j (by decide)).trans ((if_neg h).trans ((sameRegs_setRegN s _ _).regBit j (by decide)))

theorem sameRegs_vcoreStep (s : State) (now : Nat) : SameRegs [Reg.pceVcoreNow, Reg.pceStatus] s (vcoreStep s now) := by
  have h (v : Nat) : SameRegs [Reg.pceVcoreNow, Reg.pceStatus] s { s with pce := { s.pce with vcore := v } } := fun _ _ => rfl
  exact (h _).trans (sameRegs_showVcore _) (fun _ h => h)

theorem regBit_vcoreStep_status (s : State) (now : Nat) {j : Nat} (h : j ≠ 1) :
    regBit (vcoreStep s now) Reg.pceStatus j = regBit s Reg.pceStatus j := by
  unfold vcoreStep
  exact regBit_showVcore_status _ h

theorem getReg_vcoreStep_now (s : State) (now : Nat) :
    getReg (vcoreStep s now) Reg.pceVcoreNow = BitVec.ofNat 32 ((vcoreStep s now).pce.vcore / 2) := by
  unfold vcoreStep
  exact getReg_showVcore_now _

/-- The state after the measurement and the controller's step. -/
def windowMoved (s : State) (counts : List Nat) (tj : Nat) : State :=
  let m := windowMeasured s counts tj
  vcoreStep (paceEdgeEval m) (getReg m Reg.pcePaceNow).toNat

theorem sameRegs_windowMoved (s : State) (counts : List Nat) (tj : Nat) :
    SameRegs [Reg.pceVcoreNow, Reg.pceStatus] (windowMeasured s counts tj) (windowMoved s counts tj) := by
  have h : SameRegs [Reg.pceVcoreNow, Reg.pceStatus] (windowMeasured s counts tj) (paceEdgeEval (windowMeasured s counts tj)) :=
    .of_eq (SameRegs.refl _ _) (paceEdgeEval_regs _)
  exact h.trans (sameRegs_vcoreStep _ _) (fun _ h => h)

theorem regBit_windowMoved_status (s : State) (counts : List Nat) (tj : Nat) {j : Nat} (h : j ≠ 1) :
    regBit (windowMoved s counts tj) Reg.pceStatus j = regBit s Reg.pceStatus j := calc
  _ = regBit (paceEdgeEval (windowMeasured s counts tj)) Reg.pceStatus j := regBit_vcoreStep_status _ _ h
  _ = regBit (windowMeasured s counts tj) Reg.pceStatus j := by unfold regBit; rw [getReg_of_regs (paceEdgeEval_regs _)]
  _ = _ := (sameRegs_windowMeasured s counts tj).regBit j (by decide)

/-- A measurement moves neither the lower edge nor HEADROOM. -/
theorem paceEdge_windowMeasured (s : State) (counts : List Nat) (tj : Nat) :
    paceEdge (windowMeasured s counts tj) = paceEdge s := by
  have k := (keeps_windowMeasured s counts tj).frame
  have r := sameRegs_windowMeasured s counts tj
  unfold paceEdge regFld
  rw [k .pwr rfl, k .vlt rfl, r Reg.pwrTrim (by decide), r Reg.pcePaceTarget (by decide)]

theorem headroom_paceEdgeEval_windowMeasured (s : State) (counts : List Nat) (tj : Nat) :
    headroom (paceEdgeEval (windowMeasured s counts tj)) = headroom s := by
  unfold headroom regFld
  rw [paceEdgeEval_pwr, getReg_of_regs (paceEdgeEval_regs _), (keeps_windowMeasured s counts tj).frame .pwr rfl,
    sameRegs_windowMeasured s counts tj Reg.pceCfg (by decide)]

theorem windowMoved_vcore (s : State) (counts : List Nat) (tj : Nat) : (windowMoved s counts tj).pce.vcore =
    vcoreNext (lowestOf (ringPaceAt counts (windowUs s)) 20) (paceEdge s) (headroom s) s.pce.vcore s.pce.cap := by
  unfold windowMoved
  rw [vcoreStep_pce, windowMeasured_now, headroom_paceEdgeEval_windowMeasured, paceEdgeEval_edge, paceEdge_windowMeasured,
    paceEdgeEval_vcore, paceEdgeEval_cap, (keeps_windowMeasured s counts tj).frame .pce rfl]

theorem windowMoved_cap (s : State) (counts : List Nat) (tj : Nat) : (windowMoved s counts tj).pce.cap = s.pce.cap := by
  unfold windowMoved
  rw [vcoreStep_pce, paceEdgeEval_cap, (keeps_windowMeasured s counts tj).frame .pce rfl]

theorem getReg_windowMoved_vcoreNow (s : State) (counts : List Nat) (tj : Nat) :
    getReg (windowMoved s counts tj) Reg.pceVcoreNow = BitVec.ofNat 32 ((windowMoved s counts tj).pce.vcore / 2) :=
  getReg_vcoreStep_now _ _

/-! ### The pace conditions (Table 2.4, R67) -/

/-- The registers the pace conditions and the pins that follow them may change; 0x20004 and 0x70004 hold the SAT flags of
their two pages. -/
def conditionRegs : List Nat :=
  [Reg.pceStatus, Reg.pceEvents, Reg.pceShortCount, Reg.pceShortSeconds, 0x20004, Reg.vrdCnt 12, 0x70004] ++ sideRegs

/-- From s to t only registers of the conditions changed, PCE_STATUS at most in the bits of l, and VCORE stands. -/
structure PaceReports (l : List Nat) (s t : State) : Prop where
  regs : SameRegs conditionRegs s t
  status : ∀ j, j ∉ l → regBit t Reg.pceStatus j = regBit s Reg.pceStatus j
  vcore : t.pce.vcore = s.pce.vcore
  cap : t.pce.cap = s.pce.cap

theorem PaceReports.refl (l : List Nat) (s : State) : PaceReports l s s := ⟨SameRegs.refl _ _, fun _ _ => rfl, rfl, rfl⟩

theorem PaceReports.trans {l m : List Nat} {s t u : State} (h : PaceReports l s t) (k : PaceReports m t u)
    (sub : ∀ j ∈ m, j ∈ l := by simp) : PaceReports l s u :=
  ⟨h.regs.trans k.regs (fun _ ha => ha), fun j hj => (k.status j (fun hm => hj (sub j hm))).trans (h.status j hj),
    k.vcore.trans h.vcore, k.cap.trans h.cap⟩

theorem PaceReports.ite {l : List Nat} {s a b : State} {c : Prop} [Decidable c] (h : PaceReports l s a) (k : PaceReports l s b) :
    PaceReports l s (if c then a else b) := by split <;> assumption

/-- A branch that goes on from the other's state. -/
theorem PaceReports.iteFrom {l : List Nat} {s a b : State} {c : Prop} [Decidable c] (h : PaceReports l s b)
    (k : PaceReports l s b → PaceReports l s a) : PaceReports l s (if c then a else b) := .ite (k h) h

/-- A change of PCE's own state that leaves VCORE. -/
theorem PaceReports.pce {l : List Nat} {s t : State} {p : PceSt} (h : PaceReports l s t) (hv : p.vcore = t.pce.vcore := by rfl)
    (hc : p.cap = t.pce.cap := by rfl) : PaceReports l s { t with pce := p } :=
  ⟨h.regs, h.status, hv.trans h.vcore, hc.trans h.cap⟩

/-- An operation that leaves PCE's own state and PCE_STATUS. -/
theorem PaceReports.op {l m : List Nat} {L : Nat} {s t u : State} (h : PaceReports l s t) (hu : SameRegs m t u) (k : Keeps L t u)
    (sub : ∀ a ∈ m, a ∈ conditionRegs := by decide) (hs : Reg.pceStatus ∉ m := by decide)
    (hL : L.testBit 4 = false := by rfl) : PaceReports l s u := by
  have e : u.pce = t.pce := k.frame .pce hL
  exact ⟨h.regs.trans hu sub, fun j hj => (hu.regBit j hs).trans (h.status j hj), (congrArg PceSt.vcore e).trans h.vcore,
    (congrArg PceSt.cap e).trans h.cap⟩

theorem PaceReports.setStatusBit {l : List Nat} {s t : State} {i : Nat} {b : Bool} (h : PaceReports l s t)
    (hi : i < 32 := by decide) (hl : i ∈ l := by simp) : PaceReports l s (setStatusBit t i b) :=
  ⟨h.regs.trans (sameRegs_setReg _ _ _) (by decide),
    fun j hj => (regBit_setReg_setBit t _ b i j hi).trans ((if_neg fun e : j = i => hj (e ▸ hl)).trans (h.status j hj)),
    h.vcore, h.cap⟩

theorem PaceReports.evt {l : List Nat} {s t : State} {mask : Nat} (h : PaceReports l s t) :
    PaceReports l s (evt t Reg.pceEvents mask) :=
  h.op (sameRegs_evt t _ _) (keeps_evt t _ _)

theorem PaceReports.logEvent {l : List Nat} {s t : State} {event source : Nat} {data : List Byte} (h : PaceReports l s t) :
    PaceReports l s (logEvent t event source data) :=
  h.op (sameRegs_logEvent t _ _ _) (keeps_logEvent t _ _ _)

theorem PaceReports.bump {l : List Nat} {s t : State} (h : PaceReports l s t) : PaceReports l s (bump t Reg.pceShortCount) :=
  h.op (sameRegs_bump t _) (keeps_bump t _)

theorem paceReports_shortTick (l : List Nat) (s : State) : PaceReports l s (shortTick s) := by
  unfold shortTick
  extract_lets ns
  exact .iteFrom (.refl l s) fun h => h.pce.op (sameRegs_bumpBy _ _ _) (keeps_bumpBy _ _ _)

/-- PACE_SHORT changes no other bit of PCE_STATUS. -/
theorem paceReports_paceShort (s : State) (now : Nat) (could : Bool) : PaceReports [2] s (paceShort s now could) := by
  unfold paceShort
  refine .ite ?_ ?_
  · exact .iteFrom (.pce (paceReports_shortTick [2] s)) fun h => .logEvent (.pce (.evt (.setStatusBit h)))
  · exact .iteFrom (.pce (.refl [2] s)) fun h => .logEvent (.pce (.bump (.evt (.setStatusBit h))))

/-- BELOW_REQ changes no other bit of PCE_STATUS. -/
theorem paceReports_paceBelow (s : State) (now : Nat) : PaceReports [3] s (paceBelow s now) := by
  unfold paceBelow
  refine .ite ?_ (.iteFrom (.refl [3] s) fun h => .logEvent (.pce (.evt (.setStatusBit h))))
  exact .iteFrom (.pce (.refl [3] s)) fun h => .logEvent (.evt (.setStatusBit h))

theorem regBit_setStatusBit_self (s : State) (i : Nat) (b : Bool) (h : i < 32) :
    regBit (setStatusBit s i b) Reg.pceStatus i = b :=
  (regBit_setReg_setBit s _ b i i h).trans (if_pos rfl)

/-- Table 2.4: one window is enough, with no count of windows before it. -/
theorem paceBelow_raises (s : State) (now : Nat) (h3 : regBit s Reg.pceStatus 3 = false)
    (hlt : now < (getReg s Reg.pcePaceReq).toNat) :
    regBit (paceBelow s now) Reg.pceStatus 3 = true ∧ regBit (paceBelow s now) Reg.pceEvents 2 = true := by
  unfold paceBelow
  extract_lets req
  rw [if_neg (by simp [h3]), if_pos hlt]
  refine ⟨((sameRegs_logEvent _ _ _ _).regBit 3 (by decide)).trans ?_,
    ((sameRegs_logEvent _ _ _ _).regBit 2 (by decide)).trans ?_⟩
  · exact ((sameRegs_evt (setStatusBit s 3 true) Reg.pceEvents 4).regBit 3 (by decide)).trans
      (regBit_setStatusBit_self s 3 true (by decide))
  · have e := getReg_evt (setStatusBit s 3 true) Reg.pceEvents 4 (by decide)
    change bit (getReg (evt (setStatusBit s 3 true) Reg.pceEvents 4) Reg.pceEvents) 2 = true
    rw [e, bit_eq_getLsbD]
    simp

/-- The pins change a counter of pulses, and no other register. -/
theorem sameRegs_pinEval (s : State) : SameRegs (Reg.vrdCnt 12 :: 0x70004 :: sideRegs) s (pinEval s) := by
  unfold pinEval
  refine SameRegs.foldl (fun _ _ => rfl) fun x p _ h => SameRegs.ite h (SameRegs.ite ?_ h)
  exact h.trans (sameRegs_bump _ _) (by decide)

theorem PaceReports.pinEval {l : List Nat} {s t : State} (h : PaceReports l s t) : PaceReports l s (pinEval t) :=
  h.op (sameRegs_pinEval t) (keeps_pinEval t)

/-! ### The end of a window -/

/-- Windows of 4 µs end with the first that reaches the lower edge (R65). -/
def windowSlowed (s : State) (now : Nat) : State :=
  if s.pce.edge ≤ now then { s with pce := { s.pce with fast := false } } else s

/-- The state after a window, with a pace and whether VCORE could be raised, from the state VCORE was moved in. -/
def windowConcluded (u : State) (stale : Bool) (now : Nat) (could : Bool) : State :=
  if stale then { windowSlowed u now with pce := { (windowSlowed u now).pce with stale := false } }
  else pinEval (paceBelow (paceShort (setStatusBit (windowSlowed u now) 0 true) now could) now)

theorem execPaceWindowEnd_of_running (s : State) (counts : List Nat) (tj : Nat) (hr : ringsRun s = true)
    (hc : opRunning s Reg.pceCalOpstat = false) : execPaceWindowEnd counts tj s =
      .next (windowConcluded (windowMoved s counts tj) s.pce.stale (getReg (windowMeasured s counts tj) Reg.pcePaceNow).toNat
        (canRaise (windowMeasured s counts tj))) := by
  unfold execPaceWindowEnd
  rw [if_neg (by simp [hr, hc])]
  rfl

theorem paceReports_windowSlowed (l : List Nat) (u : State) (now : Nat) : PaceReports l u (windowSlowed u now) :=
  .iteFrom (.refl l u) fun h => h.pce

/-- A window begun before the last wake changes nothing but that mark (R57). -/
theorem windowConcluded_stale (u : State) (now : Nat) (could : Bool) :
    PaceReports [] u (windowConcluded u true now could) ∧ (windowConcluded u true now could).pce.stale = false :=
  ⟨(paceReports_windowSlowed [] u now).pce, rfl⟩

/-- PACE_SHORT follows VALID in a whole window. -/
theorem paceReports_paceShort_of_valid (u : State) (now : Nat) (could : Bool) :
    PaceReports [0, 2] u (paceShort (setStatusBit (windowSlowed u now) 0 true) now could) :=
  (paceReports_windowSlowed [0, 2] u now).setStatusBit.trans (paceReports_paceShort _ now could)

theorem paceReports_windowConcluded_fresh (u : State) (now : Nat) (could : Bool) :
    PaceReports [0, 2, 3] u (windowConcluded u false now could) :=
  have short := (PaceReports.refl [0, 2, 3] u).trans (paceReports_paceShort_of_valid u now could)
  (short.trans (paceReports_paceBelow _ now)).pinEval

theorem windowConcluded_fresh_valid (u : State) (now : Nat) (could : Bool) :
    regBit (windowConcluded u false now could) Reg.pceStatus 0 = true := by
  have after : PaceReports [2, 3] (setStatusBit (windowSlowed u now) 0 true) (windowConcluded u false now could) :=
    (((PaceReports.refl [2, 3] _).trans (paceReports_paceShort _ now could)).trans (paceReports_paceBelow _ now)).pinEval
  exact (after.status 0 (by decide)).trans (regBit_setStatusBit_self _ 0 true (by decide))

theorem windowConcluded_fresh_below (u : State) (now : Nat) (could : Bool) (h3 : regBit u Reg.pceStatus 3 = false)
    (hlt : now < (getReg u Reg.pcePaceReq).toNat) : regBit (windowConcluded u false now could) Reg.pceStatus 3 = true ∧
      regBit (windowConcluded u false now could) Reg.pceEvents 2 = true := by
  have short := paceReports_paceShort_of_valid u now could
  obtain ⟨status, events⟩ := paceBelow_raises _ now ((short.status 3 (by decide)).trans h3)
    (by rw [short.regs Reg.pcePaceReq (by decide)]; exact hlt)
  exact ⟨((sameRegs_pinEval _).regBit 3 (by decide)).trans status, ((sameRegs_pinEval _).regBit 2 (by decide)).trans events⟩

theorem paceReports_windowConcluded (u : State) (stale : Bool) (now : Nat) (could : Bool) :
    PaceReports [0, 2, 3] u (windowConcluded u stale now could) := by
  cases stale
  · exact paceReports_windowConcluded_fresh u now could
  · exact (PaceReports.refl [0, 2, 3] u).trans (windowConcluded_stale u now could).1

/-! What the measurement and the controller's step set is still to be read after a report. -/

theorem PaceReports.ringPace {l : List Nat} {s t : State} {counts : List Nat} {tj : Nat}
    (h : PaceReports l (windowMoved s counts tj) t) (k : Nat) (hk : k < 20) :
    getReg t (Reg.pceRingPace k) = BitVec.ofNat 32 (ringPaceAt counts (windowUs s) k) :=
  (h.regs _ (pceRingPace_notin k hk)).trans
    ((sameRegs_windowMoved s counts tj _ (pceRingPace_notin k hk)).trans (getReg_windowMeasured_ring s counts tj k hk))

theorem PaceReports.paceNow {l : List Nat} {s t : State} {counts : List Nat} {tj : Nat}
    (h : PaceReports l (windowMoved s counts tj) t) :
    (getReg t Reg.pcePaceNow).toNat = lowestOf (ringPaceAt counts (windowUs s)) 20 := by
  rw [h.regs _ (by decide), sameRegs_windowMoved s counts tj _ (by decide), windowMeasured_now]

theorem PaceReports.vcoreNow {l : List Nat} {s t : State} {counts : List Nat} {tj : Nat}
    (h : PaceReports l (windowMoved s counts tj) t) :
    getReg t Reg.pceVcoreNow = BitVec.ofNat 32 (t.pce.vcore / 2) := by
  rw [h.regs _ (by decide), getReg_windowMoved_vcoreNow, h.vcore]

/-- The state a window of running rings ends in. -/
def windowEnded (s : State) (counts : List Nat) (tj : Nat) : State :=
  windowConcluded (windowMoved s counts tj) s.pce.stale (lowestOf (ringPaceAt counts (windowUs s)) 20)
    (canRaise (windowMeasured s counts tj))

/-- A window begun before the last wake raises and clears no condition (R57). -/
theorem windowEnded_of_stale (s : State) (counts : List Nat) (tj : Nat) (h : s.pce.stale = true) :
    (windowEnded s counts tj).pce.stale = false ∧
      regFld (windowEnded s counts tj) Reg.pceStatus 3 2 = regFld s Reg.pceStatus 3 2 := by
  unfold windowEnded
  rw [h]
  obtain ⟨rep, unmarked⟩ := windowConcluded_stale (windowMoved s counts tj) (lowestOf (ringPaceAt counts (windowUs s)) 20)
    (canRaise (windowMeasured s counts tj))
  exact ⟨unmarked, fld_congr fun j hlo _ => (rep.status j (by simp)).trans (regBit_windowMoved_status s counts tj (by omega))⟩

/-- A whole window makes the pace valid, and raises BELOW_REQ below the required pace (R57, Table 2.4). -/
theorem windowEnded_of_fresh (s : State) (counts : List Nat) (tj : Nat) (h : s.pce.stale = false) :
    regBit (windowEnded s counts tj) Reg.pceStatus 0 = true ∧ (regBit s Reg.pceStatus 3 = false →
      lowestOf (ringPaceAt counts (windowUs s)) 20 < (getReg s Reg.pcePaceReq).toNat →
      regBit (windowEnded s counts tj) Reg.pceStatus 3 = true ∧ regBit (windowEnded s counts tj) Reg.pceEvents 2 = true) := by
  unfold windowEnded
  rw [h]
  refine ⟨windowConcluded_fresh_valid _ _ _, fun h3 hlt => windowConcluded_fresh_below _ _ _ ?_ ?_⟩
  · exact (regBit_windowMoved_status s counts tj (by decide)).trans h3
  · rwa [sameRegs_windowMoved s counts tj _ (by decide), sameRegs_windowMeasured s counts tj _ (by decide)]

/-- Settles O30: the measurement and the controller's step fix the pace and VCORE, and what follows reports on them
without touching them. -/
theorem windowsMeasurePaceAndMoveVcore : Obligations.WindowsMeasurePaceAndMoveVcore := by
  intro s counts tj hnap hkeep hoff hcal
  have running : ringsRun s = true := by simp [ringsRun, hnap, hkeep, hoff]
  have ends : exec (.paceWindowEnd counts tj) s = .next (windowEnded s counts tj) :=
    (execPaceWindowEnd_of_running s counts tj running hcal).trans (by rw [windowMeasured_now]; rfl)
  have rep : PaceReports [0, 2, 3] (windowMoved s counts tj) (windowEnded s counts tj) := paceReports_windowConcluded _ _ _ _
  refine ⟨_, ends, ?_⟩
  simp only [rep.paceNow]
  refine ⟨fun k hk => ⟨rep.ringPace k hk, lowestOf_le _ 20 k hk⟩, lowestOf_attained _ (ringPaceAt_le counts _) 19, ?_,
    rep.vcoreNow, rep.cap.trans (windowMoved_cap s counts tj), windowEnded_of_stale s counts tj, windowEnded_of_fresh s counts tj,
    (keeps_execPaceWindowEnd counts tj s _ ends).sameBut _⟩
  exact rep.vcore.trans (windowMoved_vcore s counts tj)

end Sys2Proof.Machine
end
